-- ==== Sys2Proof/Word.lean ====
section
/-! DEFINITION. The word types of the N960 (R6, R188, R191): bytes, 32-bit instruction words and
link entries, and 64-bit literals, registers and token elements. -/

namespace Sys2Proof

/-- One byte of memory, scratch or a packet. -/
abbrev Byte := BitVec 8

/-- An instruction word (R188) or a link entry (R201). -/
abbrev W32 := BitVec 32

/-- A literal, a register, an address token or one element of a token (R191). -/
abbrev W64 := BitVec 64

end Sys2Proof
end

