-- ==== Sys2Proof/Syntax.lean ====
section
/-! DEFINITION. The steps of the N960, one constructor for each row of the opcode table: first the
instruction words, with the five fields of R188; then the events that come from outside a unit's own
work (a register write, an access, a completion), with what their agent gives; then the events of the
units themselves. What such an event concerns (the waiting request, operation, message, token or
launch) stands in State as its subject (log 3, DESIGN CHOICE); the docstring names the subject's parts in order. -/

namespace Sys2Proof

/-- The fields of an instruction word beside OP (R188). -/
structure Fields where
  ta : BitVec 4
  sa : BitVec 7
  sb : BitVec 7
  da : BitVec 3
  db : BitVec 3
deriving DecidableEq, Repr

/-- Who writes or reads a register from outside a context (R408, R409, R449, R450): Thedom or the
partition monitor on the control core of a strip, the host through a virtual function's BAR0, the
host through the physical function, or Sage (log 71, DESIGN CHOICE). -/
inductive Agent where
  | thedom (core : Nat)
  | monitor (core : Nat)
  | hostVf
  | hostPf
  | sage
deriving DecidableEq, Repr

/-- What a register access names: a selector of R408, a context's selector through the window of
R409, CLWAYS of a cluster (R409), an offset of Sage's mailbox (R449), a word of the handle table
(R436), a field of a slot of an instruction table: 0 WORD, 1 LK0, 2 LK1, 3 LIT (R185; log 62, DESIGN CHOICE), or what lies at an
address: a core physical address of a control core, an offset of the host's BAR0 (R409, R449, R450). -/
inductive RegRef where
  | sel (n : Nat)
  | ctxSel (c n : Nat)
  | cluster (id : Nat)
  | mailbox (offset : Nat)
  | handle (index word : Nat)
  | table (cluster elem slot field : Nat)
  | address (a : Nat)
deriving DecidableEq, Repr

/-- The atomic operations of R138, and the counter add of R133, that an access can carry. -/
inductive AmoOp where
  | add | and_ | or_ | xor_ | min_ | max_ | minn | maxn | swap | cas | fadd | fmin | fmax | ctradd
deriving DecidableEq, Repr

/-- What an access from outside the element fabric does (R117, R145, R148, R152). -/
inductive ExtKind where
  | read | write | amo (o : AmoOp)
deriving DecidableEq, Repr

/-- The element formats of a token, with the codes of R191. -/
inductive Fmt where
  | i8 | i16 | i32 | i64 | f16 | bf16 | f32 | f64 | p | a | t
deriving DecidableEq, Repr

/-- One access by a control core, the host or a peer: `2 ^ width` bytes at `addr`. `cmp` is the
compare value of a compare-and-swap. -/
structure ExtAccess where
  kind  : ExtKind
  width : Nat
  addr  : Nat
  data  : W64
  cmp   : W64
  fmt   : Fmt
deriving DecidableEq, Repr

/-- The steps of the machine: one constructor a row of the opcode table. -/
inductive Instr where
  /-- MOV (R215). Sends operand A unchanged, optionally triggered by a port token. -/
  | mov (f : Fields)
  /-- STEER (R216). Sends the elements of A to the path that the port-C predicate chooses, in pieces. -/
  | steer (f : Fields)
  /-- MERGE (R218). Forwards each token arriving on port A or B unchanged. -/
  | merge (f : Fields)
  /-- SELECT (R219). Selects A or B per element by the port-C predicate. -/
  | select (f : Fields)
  /-- GATE (R217). Steers the whole token on whether any predicate element is true. -/
  | gate (f : Fields)
  /-- WADV (R221). Raises the wave of operand A by an amount. -/
  | wadv (f : Fields)
  /-- WSET (R222). Sets the wave of operand A to an absolute value. -/
  | wset (f : Fields)
  /-- ITAG (R223). Sends an I64 description of each element's tag. -/
  | itag (f : Fields)
  /-- CTXNEW (R226). Creates one context per element from the pool and sends linkages. -/
  | ctxnew (f : Fields)
  /-- CTXSEND (R227). Sends each element of A to wave 0 of the linked callee context as a release. -/
  | ctxsend (f : Fields)
  /-- CTXRET (R227). Sends each element of A back to the caller's context and wave as a release. -/
  | ctxret (f : Fields)
  /-- CTXFREE (R228). Waits for the named contexts' operations, then frees them. -/
  | ctxfree (f : Fields)
  /-- SINK (R220). Consumes a token and sends nothing. -/
  | sink (f : Fields)
  /-- STOP (R224). Sets the stop level of operand A. -/
  | stop (f : Fields)
  /-- ADD (R232). Wrapping integer add. -/
  | add (f : Fields)
  /-- SUB (R232). Wrapping integer subtract. -/
  | sub (f : Fields)
  /-- ADDS (R232). Signed saturating add. -/
  | adds (f : Fields)
  /-- ADDSN (R232). Unsigned saturating add. -/
  | addsn (f : Fields)
  /-- SUBS (R232). Signed saturating subtract. -/
  | subs (f : Fields)
  /-- SUBSN (R232). Unsigned saturating subtract. -/
  | subsn (f : Fields)
  /-- MUL (R232). Low W bits of the product. -/
  | mul (f : Fields)
  /-- MULH (R232). High W bits of the signed product. -/
  | mulh (f : Fields)
  /-- MULHN (R232). High W bits of the unsigned product. -/
  | mulhn (f : Fields)
  /-- DIV (R233). Signed division toward zero. -/
  | div (f : Fields)
  /-- DIVN (R233). Unsigned division. -/
  | divn (f : Fields)
  /-- REM (R233). Signed remainder. -/
  | rem (f : Fields)
  /-- REMN (R233). Unsigned remainder. -/
  | remn (f : Fields)
  /-- MADD (R232). Wrapping multiply-add with port C as addend. -/
  | madd (f : Fields)
  /-- NEG (R232). Wrapping negation. -/
  | neg (f : Fields)
  /-- ABS (R232). Wrapping absolute value. -/
  | abs (f : Fields)
  /-- AND (R234). Bitwise and. -/
  | and_ (f : Fields)
  /-- OR (R234). Bitwise or. -/
  | or_ (f : Fields)
  /-- XOR (R234). Bitwise exclusive or. -/
  | xor_ (f : Fields)
  /-- ANDN (R234). A and not B. -/
  | andn (f : Fields)
  /-- NOT (R234). Bitwise not. -/
  | not_ (f : Fields)
  /-- SHL (R235). Shift left. -/
  | shl (f : Fields)
  /-- SHRL (R235). Logical shift right. -/
  | shrl (f : Fields)
  /-- SHRA (R235). Arithmetic shift right. -/
  | shra (f : Fields)
  /-- ROTL (R235). Rotate left. -/
  | rotl (f : Fields)
  /-- CLZ (R234). Count leading zeros. -/
  | clz (f : Fields)
  /-- CTZ (R234). Count trailing zeros. -/
  | ctz (f : Fields)
  /-- POPC (R234). Count one bits. -/
  | popc (f : Fields)
  /-- BREV (R234). Reverse bits. -/
  | brev (f : Fields)
  /-- BFX (R236). Extract a bit field, zero-extended. -/
  | bfx (f : Fields)
  /-- BFI (R236). Insert port C into a bit field of A. -/
  | bfi (f : Fields)
  /-- BYTEPERM (R236). Permute bytes by nibble selectors. -/
  | byteperm (f : Fields)
  /-- CEQ (R237). Equal compare to a predicate. -/
  | ceq (f : Fields)
  /-- CNE (R237). Not-equal compare. -/
  | cne (f : Fields)
  /-- CLT (R237). Signed less-than. -/
  | clt (f : Fields)
  /-- CLE (R237). Signed less-or-equal. -/
  | cle (f : Fields)
  /-- CLTN (R237). Unsigned less-than. -/
  | cltn (f : Fields)
  /-- CLEN (R237). Unsigned less-or-equal. -/
  | clen (f : Fields)
  /-- MIN (R237). Signed minimum. -/
  | min_ (f : Fields)
  /-- MAX (R237). Signed maximum. -/
  | max_ (f : Fields)
  /-- MINN (R237). Unsigned minimum. -/
  | minn (f : Fields)
  /-- MAXN (R237). Unsigned maximum. -/
  | maxn (f : Fields)
  /-- LEA (R238). Adds a sign-extended index to an address. -/
  | lea (f : Fields)
  /-- IDX (R239). Extracts a field or group identifier from a work identifier. -/
  | idx (f : Fields)
  /-- SEXT (R240). Sign-extends each element to the target format. -/
  | sext (f : Fields)
  /-- ZEXT (R240). Zero-extends each element to the target format. -/
  | zext (f : Fields)
  /-- NARROW (R240). Keeps the low bits in the target width. -/
  | narrow (f : Fields)
  /-- NARROWS (R240). Saturates into the signed target width. -/
  | narrows (f : Fields)
  /-- LD (R245). Loads 2^WIDTH bytes per element at its chain place. -/
  | ld (f : Fields)
  /-- ST (R245). Stores each data element and returns the address. -/
  | st (f : Fields)
  /-- LDV (R246). Vector load whose unchained form groups contiguous operations into pieces. -/
  | ldv (f : Fields)
  /-- STV (R246). Vector store whose unchained form groups contiguous operations into pieces. -/
  | stv (f : Fields)
  /-- LDG (R245). Loads once per firing and broadcasts the value. -/
  | ldg (f : Fields)
  /-- STS (R245). Stores only the last element of each firing. -/
  | sts (f : Fields)
  /-- MNOP (R83). Takes chain places in its waves and performs no access. -/
  | mnop (f : Fields)
  /-- LDFE (R248). Loads from scratch when the granule is full, optionally emptying it. -/
  | ldfe (f : Fields)
  /-- STFE (R248). Stores to scratch and sets the granule full. -/
  | stfe (f : Fields)
  /-- REGION (R249). Chained marker that waits for earlier unchained operations and ends the restartable part. -/
  | region (f : Fields)
  /-- PREF (R250). Requests lines toward L1 or L2 without changing any value. -/
  | pref (f : Fields)
  /-- FLUSHR (R251). Releases, then writes back and removes every cached copy of a byte range. -/
  | flushr (f : Fields)
  /-- INVR (R251). As FLUSHR, but discards dirty host-window lines. -/
  | invr (f : Fields)
  /-- AMOFMIN (R138). Atomic floating minimumNumber. -/
  | amofmin (f : Fields)
  /-- AMOFMAX (R138). Atomic floating maximumNumber. -/
  | amofmax (f : Fields)
  /-- CTRREAD (R252). Relaxed read of a counter at its place. -/
  | ctrread (f : Fields)
  /-- AMOADD (R138). Atomic wrapping add. -/
  | amoadd (f : Fields)
  /-- AMOAND (R138). Atomic and. -/
  | amoand (f : Fields)
  /-- AMOOR (R138). Atomic or. -/
  | amoor (f : Fields)
  /-- AMOXOR (R138). Atomic exclusive or. -/
  | amoxor (f : Fields)
  /-- AMOMIN (R138). Atomic signed minimum. -/
  | amomin (f : Fields)
  /-- AMOMAX (R138). Atomic signed maximum. -/
  | amomax (f : Fields)
  /-- AMOMINN (R138). Atomic unsigned minimum. -/
  | amominn (f : Fields)
  /-- AMOMAXN (R138). Atomic unsigned maximum. -/
  | amomaxn (f : Fields)
  /-- AMOSWAP (R138). Atomic swap. -/
  | amoswap (f : Fields)
  /-- AMOCAS (R138). Atomic compare-and-swap with port C as the new value. -/
  | amocas (f : Fields)
  /-- AMOFADD (R138). Atomic floating add rounded to nearest even. -/
  | amofadd (f : Fields)
  /-- CTRADD (R133). Saturating add to a counter as a release, waking waits. -/
  | ctradd (f : Fields)
  /-- CTRWAIT (R134). Acquire that parks at the counter's place until it reaches the target. -/
  | ctrwait (f : Fields)
  /-- LEASE (R118). Chained request for a bounded lease on a line in the home cluster's L1. -/
  | lease (f : Fields)
  /-- UNLEASE (R125). Ends the innermost lease and returns whether it was held throughout. -/
  | unlease (f : Fields)
  /-- FENCE (R253). Chained acquire, release or both at a scope, performing no access. -/
  | fence (f : Fields)
  /-- FADD (R271). Floating add. -/
  | fadd (f : Fields)
  /-- FSUB (R271). Floating subtract. -/
  | fsub (f : Fields)
  /-- FMUL (R271). Floating multiply. -/
  | fmul (f : Fields)
  /-- FFMA (R271). Fused a × b + c. -/
  | ffma (f : Fields)
  /-- FFMS (R271). Fused a × b - c. -/
  | ffms (f : Fields)
  /-- FNFMA (R271). Fused c - a × b. -/
  | fnfma (f : Fields)
  /-- FDIV (R271). Floating divide. -/
  | fdiv (f : Fields)
  /-- FSQRT (R271). Floating square root. -/
  | fsqrt (f : Fields)
  /-- FMIN (R272). minimumNumber. -/
  | fmin (f : Fields)
  /-- FMAX (R272). maximumNumber. -/
  | fmax (f : Fields)
  /-- FMINM (R272). IEEE minimum. -/
  | fminm (f : Fields)
  /-- FMAXM (R272). IEEE maximum. -/
  | fmaxm (f : Fields)
  /-- FABS (R271). Clears the sign bit. -/
  | fabs (f : Fields)
  /-- FNEG (R271). Inverts the sign bit. -/
  | fneg (f : Fields)
  /-- FCPYS (R271). Copies the sign of B onto A. -/
  | fcpys (f : Fields)
  /-- FCLASS (R273). Returns a one-hot class mask. -/
  | fclass (f : Fields)
  /-- FCEQ (R274). Floating equal compare. -/
  | fceq (f : Fields)
  /-- FCLT (R274). Floating less-than compare. -/
  | fclt (f : Fields)
  /-- FCLE (R274). Floating less-or-equal compare. -/
  | fcle (f : Fields)
  /-- FCUN (R274). Unordered compare. -/
  | fcun (f : Fields)
  /-- FCVT (R276). Converts between floating formats under the literal's rounding. -/
  | fcvt (f : Fields)
  /-- FCVTI (R277). Converts floating to integer with saturation. -/
  | fcvti (f : Fields)
  /-- ICVTF (R278). Converts signed integer to floating. -/
  | icvtf (f : Fields)
  /-- ICVTFN (R278). Converts unsigned integer to floating. -/
  | icvtfn (f : Fields)
  /-- FRINT (R279). Rounds to an integral value in the same format. -/
  | frint (f : Fields)
  /-- FSCALE (R280). Computes a × 2^n with one rounding. -/
  | fscale (f : Fields)
  /-- FEXPO (R281). Returns floor(log2 |a|). -/
  | fexpo (f : Fields)
  /-- FMANT (R281). Returns the significand in [1, 2). -/
  | fmant (f : Fields)
  /-- FSPLIT (R282). Splits into integral and fractional parts as two results. -/
  | fsplit (f : Fields)
  /-- FEXP2F (R293). 2^a for a in [-1, 1]. -/
  | fexp2f (f : Fields)
  /-- FLOG2M (R293). log2 of the significand. -/
  | flog2m (f : Fields)
  /-- FRCP (R293). Reciprocal. -/
  | frcp (f : Fields)
  /-- FRSQ (R293). Reciprocal square root. -/
  | frsq (f : Fields)
  /-- FSIN1 (R293). sin(πa). -/
  | fsin1 (f : Fields)
  /-- FCOS1 (R293). cos(πa). -/
  | fcos1 (f : Fields)
  /-- FTANH (R293). tanh a. -/
  | ftanh (f : Fields)
  /-- FSIGM (R293). Logistic sigmoid. -/
  | fsigm (f : Fields)
  /-- FERF (R293). Error function. -/
  | ferf (f : Fields)
  /-- VSPLIT (R285). Splits a run at k into two results. -/
  | vsplit (f : Fields)
  /-- VJOIN (R286). Joins a port-A token with the adjacent port-B token. -/
  | vjoin (f : Fields)
  /-- VBCAST (R287). Broadcasts element k over the run. -/
  | vbcast (f : Fields)
  /-- VREDADD (R289). Wrapping integer sum of the run. -/
  | vredadd (f : Fields)
  /-- VREDMAX (R289). Maximum over the run. -/
  | vredmax (f : Fields)
  /-- VREDMIN (R289). Minimum over the run. -/
  | vredmin (f : Fields)
  /-- VSCAN (R289). Inclusive prefix sums. -/
  | vscan (f : Fields)
  /-- VPERM (R287). Permutes elements by indices. -/
  | vperm (f : Fields)
  /-- VSLIDE (R287). Slides elements by s with zero fill. -/
  | vslide (f : Fields)
  /-- VCOMPACT (R288). Packs predicated elements to the front. -/
  | vcompact (f : Fields)
  /-- VEXPAND (R288). Spreads elements to predicated positions. -/
  | vexpand (f : Fields)
  /-- VIOTA (R288). Counts true predicate elements before each position. -/
  | viota (f : Fields)
  /-- VFREDADD (R290). Floating sum in a fixed pairwise tree. -/
  | vfredadd (f : Fields)
  /-- VLEN (R291). Returns the run length. -/
  | vlen (f : Fields)
  /-- VDOT (R290). Dot product of two runs summed in the pairwise tree. -/
  | vdot (f : Fields)
  /-- TLD (R326). Copies a tile packet into an island operand slot. -/
  | tld (f : Fields)
  /-- TST (R327). Writes an accumulator or operand slot to memory as a packet. -/
  | tst (f : Fields)
  /-- MMA (R322). Accumulates A × Bᵀ into an accumulator. -/
  | mma (f : Fields)
  /-- MMAZ (R322). Zeroes and reshapes an accumulator, then accumulates A × Bᵀ. -/
  | mmaz (f : Fields)
  /-- TCVT (R311). Converts one tile packet into another format. -/
  | tcvt (f : Fields)
  /-- TTRANS (R329). Transposes an accumulator. -/
  | ttrans (f : Fields)
  /-- TADD (R329). Adds two accumulators. -/
  | tadd (f : Fields)
  /-- TSCALE (R329). Scales an accumulator by s. -/
  | tscale (f : Fields)
  /-- GEMVB (R333). Bank-side matrix-vector product described by a descriptor. -/
  | gemvb (f : Fields)
  /-- CBLOAD (R313). Loads a codebook table into every CB2 decoder of the partition. -/
  | cbload (f : Fields)
  /-- TSTAT (R314). Decodes a packet and returns its statistics. -/
  | tstat (f : Fields)
  /-- TFILL (R328). Sets an accumulator's kind and shape and fills it with one value. -/
  | tfill (f : Fields)
  /-- TSLICE (R331). Reads one element of a packet into a token. -/
  | tslice (f : Fields)
  /-- TBUILD (R330). Writes a packet header. -/
  | tbuild (f : Fields)
  /-- SOPEN (R346). Latches a stream descriptor and opens the port's stream. -/
  | sopen (f : Fields)
  /-- SREAD (R347). Emits fibre or gathered elements for each request. -/
  | sread (f : Fields)
  /-- SWRITE (R353). Writes data elements to a write stream. -/
  | swrite (f : Fields)
  /-- SCLOSE (R354). Waits for the stream's pieces, frees it and returns its count as a release. -/
  | sclose (f : Fields)
  /-- ISECT (R349). Pairs matching coordinates of two fibre structures. -/
  | isect (f : Fields)
  /-- UNION (R349). Pairs all coordinates of two fibre structures, marking absent sides. -/
  | union (f : Fields)
  /-- SPAACC (R350). Accumulates values into a sparse row tile and hands it over at a closing stop. -/
  | spaacc (f : Fields)
  /-- SPAFLUSH (R351). Emits the occupied entries of a handed-over tile. -/
  | spaflush (f : Fields)
  /-- STOPLVL (R352). Changes the level of stop tokens. -/
  | stoplvl (f : Fields)
  /-- SCOUNT (R352). Counts data elements between stop tokens. -/
  | scount (f : Fields)
  /-- COPY (R257). Copies a byte range by the cluster's copy engine with an optional completion add. -/
  | copy (f : Fields)
  /-- COPYM (R258). Multicasts a source into the cluster scratch of every masked cluster. -/
  | copym (f : Fields)
  /-- COPY2D (R257). Copies rows with strides. -/
  | copy2d (f : Fields)
  /-- SHADOW (R261). Pairs or unpairs a visible range with a hidden shadow range. -/
  | shadow (f : Fields)
  /-- PUBLISH (R262). Releases, then exchanges a range's visible frames with its shadow. -/
  | publish (f : Fields)
  /-- FESET (R260). Sets a range of granules full. -/
  | feset (f : Fields)
  /-- FECLR (R260). Sets a range of granules empty. -/
  | feclr (f : Fields)
  /-- COPYSTAT (R259). Returns a snapshot of the copy engine's occupancy. -/
  | copystat (f : Fields)
  /-- WAYMASK (R263). Privileged write of the home cluster's CLWAYS.MASK. -/
  | waymask (f : Fields)
  /-- ALLOC (R264). Allocates a guarded scratch region in a bank. -/
  | alloc (f : Fields)
  /-- FREE (R264). Frees a scratch region, or refuses. -/
  | free (f : Fields)
  /-- RINGREG (R379). Registers a receiver ring in the home cluster's scratch. -/
  | ringreg (f : Fields)
  /-- MSEND (R380). Reads a payload and sends it as a message to a ring. -/
  | msend (f : Fields)
  /-- MRECV (R382). Waits for a ring entry and copies it out as an acquire. -/
  | mrecv (f : Fields)
  /-- MPEEK (R383). Returns the number of completed unread entries. -/
  | mpeek (f : Fields)
  /-- MACK (R383). Advances a ring's HEAD by a count. -/
  | mack (f : Fields)
  /-- RINGDEREG (R384). Refuses new messages, drains and frees a ring slot. -/
  | ringdereg (f : Fields)
  /-- TRAP (R405). Raises a USER record per element. -/
  | trap (f : Fields)
  /-- SYSCALL (R406). Chained call that raises a SYSCALL record and parks the chain until SCDONE. -/
  | syscall (f : Fields)
  /-- RDSYS (R407). Reads a system register selector. -/
  | rdsys (f : Fields)
  /-- WRSYS (R407). Writes a system register selector and returns its value after completion. -/
  | wrsys (f : Fields)
  /-- YIELD (R411). Leaves the element's issue window at the next slot. -/
  | yield (f : Fields)
  /-- HALT (R405). Raises a HALT record and halts the context. -/
  | halt (f : Fields)
  /-- TASKDONE (R410). Marks the task done for retirement. -/
  | taskdone (f : Fields)
  /-- TASKSPAWN (R410). Chained release that submits a launch record to a queue. -/
  | taskspawn (f : Fields)
  /-- WORKID (R411). Returns SYS.WORKID. -/
  | workid (f : Fields)
  /-- PERFRD (R411). Returns a performance counter. -/
  | perfrd (f : Fields)
  /-- BREAK (R405). Raises a BREAK record and halts when SYS.DBG.BRK is set. -/
  | break (f : Fields)
  /-- ASSERT (R405). Raises one ASSERT record per firing with false or poisoned elements. -/
  | assert (f : Fields)
  /-- ELOG (R411). Writes one Thyme event per element. -/
  | elog (f : Fields)
  /-- CLOCK (R411). Returns fabric cycles since cold reset. -/
  | clock (f : Fields)
  /-- COLD_RESET (R444). Power-on or PCIe fundamental reset sets every field to its Reset value, clears Thyme and starts boot. -/
  | coldReset (imageA imageB : Bool)
  /-- WARM_RESET (R444). A RESETCTL write of 0x5741_524D or Sage's watchdog restarts every unit; kept fields, HBM, the journal and Thyme survive, and boot reruns. -/
  | warmReset (imageA imageB : Bool)
  /-- REDUCED_SERVICE_END (R447). When HBM training ends, partition 0 is saved, its 6 MiB are copied to HBM, the clock rises to 1.6 GHz, the partition is restored and the links are trained. -/
  | reducedServiceEnd (plan : List (Nat × Nat × Nat)) (linkTrained : Bool)
  /-- HOST_LSDCFG_WRITE (R143). While the scale-up link is down, a host write through the mailbox sets LSDCFG COUNT and SELF. -/
  | hostLsdcfgWrite (v : W64)
  /-- REGISTER_WRITE (R8). A write to a register with no behaviour of its own takes effect as its Access code states. -/
  | registerWrite (p : Nat) (w : Agent) (r : RegRef) (v : W64)
  /-- SYS_FLAGSRC_READ (R268). A read of SYS.FLAGSRC returns SYS.FLAGS and clears every bit it returns, in one step. -/
  | sysFlagsrcRead (p c : Nat)
  /-- XLATINV (R42). A write drops matching translation entries in every slice, waits for their users, demotes E and M lines, purges replicas and then retries the accesses waiting on a splice. -/
  | xlatinv (p : Nat) (v : W64)
  /-- FRESUME_RETRY (R46). A FRESUME write with KILL 0 requeues the held tasks of the granule at the heads of their queues and retries the tokens waiting on it. -/
  | fresumeRetry (p : Nat) (v : W64)
  /-- FRESUME_KILL (R46). A FRESUME write with KILL 1 poisons every token waiting on the granule and drops every held task as failed. -/
  | fresumeKill (p : Nat) (v : W64)
  /-- FRAMESCRUB (R51). A write walks the page, blocks new accesses, completes waiting writes, discards every cached line of the range, zeroes the frame and marks the range scrubbed, or reports failure. -/
  | framescrub (p : Nat) (w : Agent) (v : W64)
  /-- ASIDBASE_WRITE (R37). A write to ASIDBASE completes when every walk begun under the old value has ended. -/
  | asidbaseWrite (p : Nat) (v : W64)
  /-- CLWAYS_WRITE (R58). A write of CLWAYS.MASK through the cluster window or WRSYS grows or shrinks the scratch ways, or is refused. -/
  | clwaysWrite (p cluster : Nat) (v : W64)
  /-- SLICECFG_MODE_WRITE (R69). A write that changes MODE waits for any layout change, then writes back and invalidates every line of the partition and purges every replica. -/
  | slicecfgModeWrite (p : Nat) (v : W64)
  /-- BLKMOVE (R360). A write with GO starts a block move, which freezes the block and copies its records, tokens and keep registers to the target, or refuses with a STATUS code. -/
  | blkmove (p : Nat) (v : W64)
  /-- PCTL_SAVE (R413). A SAVE gates the partition, lets leases and engine operations finish, then streams the fabric context into the shadow bank. -/
  | pctlSave (p : Nat) (v : W64)
  /-- PCTL_RESTORE (R413). A RESTORE writes the saved state back, presents the withdrawn operations again and ungates the partition. -/
  | pctlRestore (p : Nat) (v : W64)
  /-- CTXCTL_RESUME (R405). A CTXCTL write with OP 1 resumes a halted context. -/
  | ctxctlResume (p : Nat) (v : W64)
  /-- CTXCTL_KILL (R405). A CTXCTL write with OP 2 kills a halted context's task, which is dropped and counted as failed. -/
  | ctxctlKill (p : Nat) (v : W64)
  /-- SCVAL_WRITE (R406). A write stores the 64-bit SYSCALL reply for the writer's next SCDONE. -/
  | scvalWrite (p : Nat) (w : Agent) (v : W64)
  /-- SCDONE_WRITE (R406). A write delivers that writer's last SCVAL, poisoned if asked, to the named context's waiting SYSCALL as an acquire. -/
  | scdoneWrite (p : Nat) (w : Agent) (v : W64)
  /-- LAUNCH_SUBMIT (R388). A write to LSUBMITn reads the launch record by PA, checks it and accepts it into the queue or refuses it with a status code. -/
  | launchSubmit (p q : Nat) (v : W64)
  /-- GROW (R422). A LAYOUTREQ with OP 1 checks the request, journals PREPARED and moves the joining strip to JOINING for its scrub. -/
  | grow (v : W64)
  /-- SHRINK (R422). A LAYOUTREQ with OP 2 checks the request, journals PREPARED, fences the leaving strips and migrates blocks and channels away. -/
  | shrink (v : W64)
  /-- DEFRAG (R431). A LAYOUTREQ with OP 3 saves the partition, copies its state to the reserved run, commits the new map and restores it there. -/
  | defrag (v : W64)
  /-- RESERVE (R431). A LAYOUTREQ with OP 4 makes FREE strips RESERVED for the partition. -/
  | reserve (v : W64)
  /-- RELEASE (R431). A LAYOUTREQ with OP 5 returns RESERVED strips to FREE. -/
  | release (v : W64)
  /-- HOST_APERTURE_ACCESS (R450). A host access through BAR2 is performed at its home slice as an .l2 access under HOSTAPER, or completes with an abort. -/
  | hostApertureAccess (p : Nat) (x : ExtAccess)
  /-- PEER_ACCESS (R145). An access arriving over the scale-up link is checked against the export ranges and performed at the HBM channel controller, or refused. -/
  | peerAccess (x : ExtAccess)
  /-- REDUCTION_MERGE (R148). The home channel controller performs a merged reduction contribution from the switches as one atomic. -/
  | reductionMerge (x : ExtAccess)
  /-- HOST_COMPLETION_TIMEOUT (R151). A link error or completion timeout on a host request poisons its token with subcode LINK. -/
  | hostCompletionTimeout (op : Nat)
  /-- EMULATE (R155). A host-window atomic with no native AtomicOp traps to the partition monitor, which performs it under a lock bit. -/
  | emulate (op : Nat) (old : W64)
  /-- CORE_MEMORY_ACCESS (R117). A control-core access to device memory is performed at the home slice as an .l2 access. -/
  | coreMemoryAccess (p asid : Nat) (x : ExtAccess)
  /-- SPLICE (R47). The splice engine copies a page to a new frame through a forked stream port and writer, or refuses on a pinned page. -/
  | splice (p asid page frame : Nat)
  /-- POWER_PERIOD (R451). Every 200 ns the current-budget arbiter grants each strip a share of matrix island group cycles. -/
  | powerPeriod (grants : List Nat)
  /-- HOST_COMPLETION (R151). A PCIe completion for a host-window read, atomic or zero-length flush read arrives, returns its data to the token and lets the waiting chain or SY release go on. -/
  | hostCompletion (op : Nat) (v : W64)
  /-- PEER_ACKNOWLEDGEMENT (R144). The data or acknowledgement of a peer-window access, or a switch's acknowledgement of a merged reduction contribution, reaches the requester and completes the access. -/
  | peerAcknowledgement (op : Nat) (v : W64) (refused : Bool)
  /-- SAGE_WATCHDOG_RECOVERY (R421). After a Sage reset, recovery reads the last journal record and aborts the layout change or rolls it forward. -/
  | sageWatchdogRecovery
  /-- DIE_BRIDGE_DOWN (R142). A failed UCIe retry takes the bridge down; Sage stops every partition that spans it and records the event in Thyme. -/
  | dieBridgeDown
  /-- MOVE_INSTALL (R361; subject: p). When the copy has arrived, the target starts to issue, the placement entry is rewritten and every placement cache is told to drop its entry. -/
  | moveInstall
  /-- MOVE_SWEEP (R361; subject: p). When every cache has acknowledged, the source sends a sweep flit on every channel of every route that ends at its element. -/
  | moveSweep
  /-- MOVE_FREE (R361; subject: p). When every sweep has arrived, the forwarding entry is freed and GO reads 0. -/
  | moveFree
  /-- SAVE_SETTLE_ROUND (R413; subject: p). Each 64-cycle round delivers the flits and replies in flight; the first round in which nothing moves ends settling and withdraws parked waits. -/
  | saveSettleRound
  /-- STRIP_SCRUB_DONE (R429; subject: strip). When the joining strip's scrub completes, it becomes MEMBER, SLICEMAP gains its slices and REHASH begins. -/
  | stripScrubDone
  /-- REHASH_WALK (R425; subject: slice). An old home's walker moves each line whose new home differs, with its data, directory state and registrations, as one transaction. -/
  | rehashWalk
  /-- LAYOUT_COMMIT (R422). Once the walkers are done and MAPPED is 0, COMMITTED is journalled, the old map is dropped, leaving strips go DIRTY and DONE is written. -/
  | layoutCommit
  /-- STRIP_ZERO_DONE (R428; subject: strip). A DIRTY strip whose channels and SRAMs have been zeroed enters FREE. -/
  | stripZeroDone
  /-- GETS (R113; subject: req). A read miss reaches the home, which serves data from L2, from HBM or through the owner and links the requester into the sharer list. -/
  | getS
  /-- GETM (R113; subject: req). A write miss reaches the home, which invalidates sharers or the owner and grants M. -/
  | getM
  /-- UPGRADE (R113; subject: req). A write hit in S reaches the home, which walks the list and grants M, or treats it as GetM. -/
  | upgrade
  /-- PUTS (R113; subject: req). A sharer's eviction is granted, its neighbours are relinked, or a stale PutS is acknowledged with no action. -/
  | putS
  /-- PUTO (R113; subject: req). An owner's eviction writes dirty data into L2 and sets DI, or a stale PutO is acknowledged with no action. -/
  | putO
  /-- INV (R114; subject: msg). A sharer receiving Inv sets its copy to I and forwards Inv to its NEXT or sends InvAck. -/
  | inv
  /-- INVACK (R114; subject: msg). The home receiving InvAck grants M to the requester. -/
  | invAck
  /-- FORWARDED_PROBE (R113; subject: msg). An owner receiving a forwarded GetS, GetM or .l2 probe sends its data and changes state, or queues the probe under a lease. -/
  | forwardedProbe
  /-- L2_ACCESS (R74; subject: req). An .l2 read, write or atomic at the home is performed in its serialisation order after probing or invalidating L1 copies. -/
  | l2Access
  /-- MEM_ACCESS (R74; subject: req). A .mem access makes the home write back and invalidate every copy and is performed at the memory side. -/
  | memAccess
  /-- CHAIN_PERFORM (R81; subject: op). The home store buffer performs a context's Next chained operation and advances its chain state. -/
  | chainPerform
  /-- LEASE_GRANT (R121; subject: op). A Next LEASE obtains a free lease entry and the line in M, and delivers its result. -/
  | leaseGrant
  /-- LEASE_EXPIRY (R125; subject: cluster, entry). At cycle END the lease ends by expiry, sets EXPIRED, drains protected accesses and serves the queued probe. -/
  | leaseExpiry
  /-- CTRWAIT_REPRESENT (R135; subject: op). When a registration frees, a CTRWAIT that found the table full is presented again. -/
  | ctrwaitRepresent
  /-- ENGINE_PIECE (R157; subject: eng, piece). One read or write piece of an engine operation is performed at its place. -/
  | enginePiece
  /-- ENGINE_COMPLETION_ADD (R161; subject: eng). When every piece is performed with respect to its scope, the engine adds to the completion counter as a release. -/
  | engineCompletionAdd
  /-- PUBLISH_POINT (R165; subject: op). After recall and the leaf exchange, the whole shadowed range changes at one point and waiting accesses are admitted. -/
  | publishPoint
  /-- ISLAND_STEP (R320; subject: op). An island operation whose bytes have all arrived reads and writes its accumulators and slots as one step and sends its result. -/
  | islandStep
  /-- TOKEN_ARRIVAL (R183; subject: tok). A token reaching an element port is matched with overlapping tokens, held for an evicted block, forwarded or discarded. -/
  | tokenArrival
  /-- FLIT_CROSS (R366; subject: hop). A box sends a flit across its output into the downstream hop buffer when it holds a credit, in earliest-entry order. -/
  | flitCross
  /-- CREDIT_RETURN (R366; subject: hop). A hop-buffer slot becomes free for the upstream box s + 2 cycles after its flit leaves. -/
  | creditReturn
  /-- MESSAGE_RECEIVE (R381; subject: msg). The first flit of a message at the ring's interface is checked, waits for space, reserves entry n and writes its flits. -/
  | messageReceive
  /-- RING_ENTRY_COMPLETE (R381; subject: msg). Once entries complete in number order, WTAIL advances, the tail counter is added to and the message is acknowledged. -/
  | ringEntryComplete
  /-- MESSAGE_ACK (R380; subject: msg). An ACK or NACK reaches the sender's interface, frees the send slot and delivers MSEND's result or poison. -/
  | messageAck
  /-- TRAP_RECORD_WRITE (R399; subject: p). A raised trap record is written to its ring when there is room, TAIL advances and the ring's interrupt is held pending. -/
  | trapRecordWrite
  /-- THYME_EVENT_WRITE (R452; subject: strip). A queued event is written into the strip's Thyme record, or counted as lost when the port queue is full. -/
  | thymeEventWrite
  /-- QOS_WINDOW_END (R73; subject: p). At the end of each 10 us window the best-effort issue fraction F is halved or raised from the critical tenants' latencies. -/
  | qosWindowEnd
  /-- LAUNCH_START (R390; subject: p). When a launch slot is free, the sequencer starts a startable head launch by priority and round robin, first waiting for PREDCOUNT. -/
  | launchStart
  /-- SECTION_LOAD (R392; subject: p, launch). The sequencer gives a section a load index, islands and ports, places and writes its blocks, and writes its tables. -/
  | sectionLoad
  /-- BLOCK_EVICT (R393; subject: p, lsec, block). The loader evicts the least recently fired evictable block to make room, or cancels when a token arrives. -/
  | blockEvict
  /-- BLOCK_RELOAD (R394; subject: p, lsec, block). A block that a held token needs is loaded again, its keep registers restored and the held tokens sent. -/
  | blockReload
  /-- DISPATCH (R177; subject: p, launch). At a dispatch opportunity the sequencer takes a launch, allocates a context and home, loads its registers and sends start tokens. -/
  | dispatch
  /-- SCHED_TABLE_DISPATCH (R179; subject: p, launch, cluster). A cluster's cursor dispatches the next entry of its schedule table when the previous entry's task has ended. -/
  | schedTableDispatch
  /-- RELEASE_ISLANDS (R176; subject: p, launch). When every task of a section has ended, its island and stream nodes are released and their state discarded. -/
  | releaseIslands
  /-- TASK_RETIRE (R182; subject: p, c). A task that has fired TASKDONE and whose operations and engine adds are done retires, and its tokens, rings and context are freed. -/
  | taskRetire
  /-- LAUNCH_COMPLETE (R182; subject: p, launch). Complete writes FAILED and STATE 3, decrements successors' PREDCOUNT and adds to DONECTR. -/
  | launchComplete
  /-- TASK_ABORT (R94; subject: op). A fault before the task's REGION discards its unperformed operations and frees its chain slot. -/
  | taskAbort
  /-- TASK_REQUEUE (R46; subject: p, c). Once every operation that left the buffer has been performed or refused, the aborted task is held for requeueing. -/
  | taskRequeue
  /-- STAT_RECORD_MERGE (R307; subject: first, second). An adder node merges two statistics records of the same tree, ASID and address. -/
  | statRecordMerge
  /-- STAT_RECORD_APPLY (R308; subject: rec). A tree's end port applies a record to the statistics block as CTRADDs. -/
  | statRecordApply
deriving DecidableEq, Repr

end Sys2Proof
end

