-- ==== Sys2Proof/Machine/Types.lean ====
section
/-! DEFINITION. The plain data that the machine's state is made of: tokens, slots, firings, memory
operations, cache lines, engine operations, contexts, sections, launches and partitions. Every
type derives decidable equality; none holds a function. Docstrings name the rule of spec/ that
gives each piece. -/

namespace Sys2Proof.Machine

/-- A table: pairs of a key and a value; the first pair of a key governs. -/
abbrev Tbl (κ α : Type) := List (κ × α)

/-- Bytes by address, in one canonical form: addresses strictly rising, no byte equal to zero,
which is what an unlisted address reads as (log 1, DESIGN CHOICE). -/
abbrev Memory := List Host.Cell

/-- The level of an access (R52). -/
inductive Level where
  | l1 | l2 | mem | es | cs | sg | ss
deriving DecidableEq, Repr

/-- Where a block stands: cluster ID (R18), element 0-15 and table half (R186, R355). -/
structure Place where
  cluster : Nat
  elem    : Nat
  half    : Nat
deriving DecidableEq, Repr

/-- The names a token, an operation or a record carries of an instruction: partition, load index,
whether it is a channel node, block (or channel), index (or node). -/
structure Names where
  part  : Nat
  lsec  : Nat
  node  : Bool
  block : Nat
  idx   : Nat
deriving DecidableEq, Repr

/-- A token (R191). `data` holds its elements, element 0 first, each zero-extended; its length is
the run. `at` is the element the destination was resolved to (R356), `flits` how many of its flits
are not yet ejected (R367). -/
structure Token where
  id     : Nat
  dest   : Names
  port   : Nat
  ctx    : Nat
  wave   : Nat
  stop   : Nat
  fmt    : Fmt
  poison : Bool
  data   : List W64
  at_    : Option (Nat × Nat)
  flits  : Nat
deriving DecidableEq, Repr

/-- A slot record (R185). -/
structure Slot where
  word : W32
  lk0  : W32
  lk1  : W32
  lit  : W64
deriving DecidableEq, Repr

/-- A matched set and, once it issues, the slot it fires under (R183, R187): the instruction's
names, the element (or island or port) it stands on, the firing's context, wave, run and the
slices of the tokens on ports A, B and C. -/
structure Firing where
  names   : Names
  cluster : Nat
  elem    : Nat
  half    : Nat
  slot    : Slot
  ctx     : Nat
  wave    : Nat
  run     : Nat
  a       : Option Token
  b       : Option Token
  c       : Option Token
deriving DecidableEq, Repr

/-- A result of a firing that leaves only when its context resumes (BREAK of R405). -/
structure HeldOut where
  fr  : Firing
  da  : Nat
  tok : Token
deriving DecidableEq, Repr

/-- The kinds of memory operation that a store buffer or a place performs. -/
inductive OpKind where
  | load | store | nop | ldfe (clr : Bool) | stfe | region | pref | flush | inval | ctrRead
  | amo (o : AmoOp) | ctrWait | lease | unlease | fence (acq rel : Bool)
  | copy | copym | shadow (drop : Bool) | publish | feset | feclr | waymask | alloc | free
  | ringreg | msend | mrecv | mpeek | mack | ringdereg | syscall | spawn
  | tcvt | tstat | cbload | gemvb | tslice | tbuild | send
deriving DecidableEq, Repr

/-- How far an operation has come: in the buffer, sent toward its place, parked at its place
(R61, R134, R382, R406), turned away by a full table (R135), waiting in place on a fault (R46). -/
inductive OpPhase where
  | buffered | sent | parked | turned | faulted
deriving DecidableEq, Repr

/-- Where an operation stands in its home store buffer (R84): in none of its entries (an unchained one, or one that waits at the
network interface, under back-pressure), in one of the 192 shared, or in the one kept for its chain slot. -/
inductive Entry where
  | outside | shared | kept
deriving DecidableEq, Repr

/-- One memory operation of a context (R76-R90): one element of one firing. `va` is the VA or the
scratch offset, `ia` the IA or the checked scratch key. `after` names the operations and engine
operations that left their element before it fired (R103). `params` holds what the kind needs more
(lengths, targets, strides, budgets, slots) in the order its instruction's meaning states. -/
structure Op where
  id      : Nat
  word    : W32
  lit     : W64
  names   : Names
  cluster : Nat
  elem    : Nat
  ctx     : Nat
  wave    : Nat
  pred    : Nat
  this    : Nat
  succ    : Nat
  kind    : OpKind
  level   : Level
  strm    : Bool
  scope   : Nat
  ord     : Bool
  width   : Nat
  va      : Nat
  ia      : Nat
  data    : W64
  data2   : W64
  fmt     : Fmt
  params  : List Nat
  gather  : Nat
  j       : Nat
  poison  : Bool
  after   : List Nat
  phase   : OpPhase
  entry   : Entry
  flush   : Option Nat
deriving DecidableEq, Repr

/-- The result of one element of a firing. -/
structure ElemRes where
  val    : W64
  fmt    : Fmt
  poison : Bool
deriving DecidableEq, Repr

/-- A unit that sends: a cluster's interface, or the interface of a slice (R356). -/
structure Port where
  slice : Bool
  unit  : Nat
deriving DecidableEq, Repr

/-- The results of one firing on their way: sent in pieces once every element has its own (R247). `froms` names by element the
interface of the place where its operation was performed (R202). -/
structure Gather where
  id      : Nat
  names   : Names
  cluster : Nat
  elem    : Nat
  ctx     : Nat
  wave    : Nat
  stop    : Nat
  da      : Nat
  lk0     : W32
  lk1     : W32
  res     : List (Option ElemRes)
  froms   : Tbl Nat Port
deriving DecidableEq, Repr

/-- L1 states (R111). -/
inductive Mesi where
  | i | s | e | m
deriving DecidableEq, Repr

/-- Directory states (R111). -/
inductive Dir where
  | di | ds | do_
deriving DecidableEq, Repr

/-- A line of an L1 (R65, R111): `line` is IA / 64, `prev` and `next` are cluster IDs or 0x7FF, `home` is
the slice that serves it, `use` orders replacement, `putting` marks a sent PutS or PutO (R115), `bad` lists the bytes that a poisoned line still
awaits (R403). -/
structure L1Line where
  cluster : Nat
  asid    : Nat
  line    : Nat
  st      : Mesi
  prev    : Nat
  next    : Nat
  home    : Nat
  data    : List Byte
  use     : Nat
  putting : Bool
  bad     : List Nat
deriving DecidableEq, Repr

/-- A line of an L2 with its directory item (R65, R111, R425); `bad` as in an L1 (R403). -/
structure L2Line where
  slice   : Nat
  asid    : Nat
  line    : Nat
  dir     : Dir
  head    : Nat
  data    : List Byte
  dirty   : Bool
  seed    : Nat
  use     : Nat
  replica : Bool
  bad     : List Nat
deriving DecidableEq, Repr

/-- An entry of a slice's translation cache (R41): the leaf and its page. -/
structure Xlat where
  slice : Nat
  asid  : Nat
  page  : Nat
  size  : Nat
  leaf  : W64
  use   : Nat
  bad   : Bool
deriving DecidableEq, Repr

/-- Who asks a home (R43, R112): an operation, an access from outside, an eviction, or a piece of an engine operation (piece 0 is
its add). -/
inductive Requester where
  | op (id : Nat)
  | outside (id : Nat)
  | evict
  | piece (eng piece : Nat)
deriving DecidableEq, Repr

/-- Requests to a home (R113). -/
inductive ReqKind where
  | getS | getM | upgrade | putS | putO | l2 | mem
deriving DecidableEq, Repr

/-- A request that a home holds in arrival order (R112). -/
structure HReq where
  id      : Nat
  slice   : Nat
  part    : Nat
  asid    : Nat
  line    : Nat
  seed    : Nat
  kind    : ReqKind
  cluster : Nat
  from_   : Requester
  waiting : Bool
deriving DecidableEq, Repr

/-- What an open transaction of a line waits for (R112-R116, R151): an InvAck, the owner, or the host's
data for a fill. -/
inductive TxnWait where
  | walk | owner | host
deriving DecidableEq, Repr

/-- The open transaction of a line at its home: the request it serves and what it waits for. -/
structure Txn where
  req  : HReq
  wait : TxnWait
deriving DecidableEq, Repr

/-- Messages of the directory to a cluster or back to the home (R113, R114). -/
inductive CMsgKind where
  | inv | invAck | fwdGetS | fwdGetM | probe | recall
deriving DecidableEq, Repr

/-- A directory message on its way; `queued` is set while it waits in a lease entry (R123). -/
structure CMsg where
  id      : Nat
  kind    : CMsgKind
  cluster : Nat
  slice   : Nat
  asid    : Nat
  line    : Nat
  req     : Nat
  queued  : Bool
deriving DecidableEq, Repr

/-- An active lease entry of a cluster (R121, R122). -/
structure Lease where
  cluster : Nat
  entry   : Nat
  part    : Nat
  ctx     : Nat
  asid    : Nat
  line    : Nat
  end_    : Nat
  names   : Names
deriving DecidableEq, Repr

/-- A bank of scratch: a cluster's SRAM or a slice's (R264). -/
inductive Bank where
  | cs (cluster : Nat)
  | ss (slice : Nat)
deriving DecidableEq, Repr

/-- A live ALLOC region (R264). Its guard granules are the two below and the two above (R63). -/
structure Region where
  bank : Bank
  off  : Nat
  len  : Nat
  part : Nat
  asid : Nat
deriving DecidableEq, Repr

/-- A change of CLWAYS in progress (R58). -/
structure WayChange where
  cluster : Nat
  mask    : Nat
  op      : Option Nat
deriving DecidableEq, Repr

/-- The bytes of a piece: `len` bytes of a level from `addr`. For a cached level `addr` is an IA, for scratch
the offset, `.cs` and `.sg` being those of a cluster, `.es` that of element `elem` of it. `.mem` is a direct read of an HBM channel (R169). -/
structure Span where
  level : Level
  addr  : Nat
  len   : Nat
  cluster : Nat
  elem  : Nat
deriving DecidableEq, Repr

/-- A piece of an engine operation (R157): it reads or writes the bytes of its span, which stand at offset
`off` of the operation's data. `got` says that a read is done, `data` holds what it read, or what a write
brings of its own; `out` says that it awaits the answer of a peer or of the host; `bad` that it read poisoned bytes
(R403). -/
structure Piece where
  id    : Nat
  write : Bool
  span  : Span
  off   : Nat
  data  : List Byte
  got   : Bool
  out   : Bool
  bad   : Bool
deriving DecidableEq, Repr

/-- The kinds of engine operation (R156), and the reads of island and stream nodes (R321, R347). -/
inductive EngKind where
  | copy | copym | tst | msend | mrecv | gemvb | tile | swrite | sread | cbload | splice
deriving DecidableEq, Repr

/-- An accepted engine operation: the pieces still to perform, whether a piece was refused (R463),
the completion add (level, address, amount), and the firing element its result goes to. `info` is the INFO
of its fault records (R400). `starter` is
the operation that started it, `chained` says whether that one was chained (R103). -/
structure EngOp where
  id      : Nat
  starter : Nat
  chained : Bool
  kind    : EngKind
  names   : Names
  ctx     : Nat
  asid    : Nat
  wave    : Nat
  cluster : Nat
  scope   : Nat
  pieces  : List Piece
  bad     : Bool
  ctr     : Option (Level × Nat × Nat)
  gather  : Option (Nat × Nat)
  word    : W32
  lit     : W64
  args    : List W64
  params  : List Nat
  info    : Nat
  flush   : Option Nat
deriving DecidableEq, Repr

/-- A receiver ring (R375, R376). -/
structure Ring where
  cluster : Nat
  slot    : Nat
  part    : Nat
  ctx     : Nat
  asid    : Nat
  base    : Nat
  n       : Nat
  tag     : Nat
  ctrLvl  : Level
  ctrAddr : Nat
  rtail   : Nat
  wtail   : Nat
  head    : Nat
  closing : Option Nat
deriving DecidableEq, Repr

/-- How far a message has come (R380, R381): held in its send slot, on its route or waiting at the
ring, its entry reserved and written, acknowledged, or refused. -/
inductive MsgState where
  | queued | flying | reserved | acked | nacked (sub : Nat)
deriving DecidableEq, Repr

/-- A message (R377, R380). -/
structure Msg where
  id    : Nat
  op    : Op
  from_ : Nat
  ring  : W64
  asid  : Nat
  data  : List Byte
  route : Nat
  state : MsgState
  n     : Nat
  flits : Nat
deriving DecidableEq, Repr

/-- A flit in a hop buffer or at an injecting port (R366, R371): its packet, its index, the hops it has
crossed, its virtual channel, and when it entered (a number that rises from flit to flit). -/
structure Flit where
  packet  : Nat
  idx     : Nat
  hop     : Nat
  vc1     : Bool
  entered : Nat
deriving DecidableEq, Repr

/-- A packet on a listed route: the route by partition, load index and number, its hops as indices of `hops`, the dateline hop, how many
of its flits are not yet ejected. `full` says of a message that its ring had no free entry when its first flit arrived (R372). -/
structure Packet where
  id       : Nat
  isMsg    : Bool
  route    : Nat × Nat × Nat
  full     : Bool
  path     : List Nat
  dateline : Nat
  left     : Nat
deriving DecidableEq, Repr

/-- A hop (R365, R366, R372): the segment on a track that starts at a position, and its buffer, with 8 shared slots, EV0
and EV1, and slots whose credit is on its way back. -/
structure Hop where
  part   : Nat
  col    : Nat
  row    : Nat
  dir    : Nat
  len    : Nat
  track  : Nat
  shared : List Flit
  ev0    : Option Flit
  ev1    : Option Flit
  owed   : Nat
  owed0  : Bool
  owed1  : Bool
deriving DecidableEq, Repr

/-- An entry's key in a placement cache (R356): the unit that keeps the cache, then the section's load
index and the block or channel (channel c is number 4096 + c). -/
structure PcKey where
  slice : Bool
  unit  : Nat
  part  : Nat
  lsec  : Nat
  num   : Nat
deriving DecidableEq, Repr

/-- A trap record (R398) with the ring and the strip whose buffer it waits in (R399). -/
structure TrapRec where
  part  : Nat
  ring  : Nat
  strip : Nat
  w0    : W64
  w1    : W64
  w2    : W64
  w3    : W64
deriving DecidableEq, Repr

/-- A Thyme event (R452). -/
structure ThymeEvt where
  w0 : W64
  w1 : W64
  w2 : W64
  w3 : W64
deriving DecidableEq, Repr

/-- The Thyme record of a strip (R452, R453): the last events by number, the write-port queue. -/
structure Thyme where
  events : Tbl Nat ThymeEvt
  count  : Nat
  lost   : Nat
  queue  : List ThymeEvt
deriving DecidableEq, Repr

/-- A record of the layout journal (R420). -/
structure JRec where
  gen   : Nat
  op    : Nat
  part  : Nat
  oldF  : Nat
  oldN  : Nat
  newF  : Nat
  newN  : Nat
  phase : Nat
  state : Nat
deriving DecidableEq, Repr

/-- A chain's state (R81, R91), and the THIS numbers already performed in its wave (R90). -/
structure Chain where
  wave     : Nat
  last     : Nat
  lastSucc : Nat
  home     : Nat
  seen     : List Nat
deriving DecidableEq, Repr

/-- A context of a partition and the task facts it carries (R177, R226). `orphans` are the guard records of contexts that its task
created and freed, which its retirement raises (R64). -/
structure Ctx where
  part     : Nat
  id       : Nat
  live     : Bool
  asid     : Nat
  priv     : Bool
  prio     : Nat
  queue    : Nat
  lseq     : Nat
  section_ : Nat
  lsec     : Nat
  workid   : W64
  nf       : Nat
  widths   : List Nat
  args     : List W64
  ranges   : List (W64 × W64)
  seed     : Nat
  flags    : BitVec 5
  xtrap    : Bool
  leaseMax : Nat
  brk      : Bool
  chain    : Chain
  depth    : Nat
  lines    : List Nat
  expired  : List Bool
  leasers  : List Names
  halted   : Bool
  resume   : List HeldOut
  guard    : Option TrapRec
  guardN   : Nat
  orphans  : List TrapRec
  region   : Bool
  done     : Bool
  root     : Nat
  created  : List Nat
  cid      : Nat
  aborted  : Bool
  kinit    : List W64
  keeps    : Tbl (Nat × Nat × Nat) W64
  badKeeps : List (Nat × Nat × Nat)
deriving DecidableEq, Repr

/-- An accumulator of an island (R315): 64 x 64 elements, row-major. -/
structure Acc where
  int   : Bool
  rows  : Nat
  cols  : Nat
  seq   : W32
  elems : List W32
deriving DecidableEq, Repr

/-- One element in a stream node's queue: a data element or a stop. `wave` is the wave of its input token's
element, `first` marks the first element of a firing (R346). -/
structure SElem where
  stop   : Nat
  fmt    : Fmt
  poison : Bool
  val    : W64
  wave   : Nat
  first  : Bool
deriving DecidableEq, Repr

/-- A tile of SPAACC (R350): entry bits, occupancy, poison, and the column cursor. -/
structure Tile where
  vals : List W32
  occ  : List Bool
  bad  : List Bool
  j    : Nat
deriving DecidableEq, Repr

/-- How far a stream has come (R346, R354). -/
inductive StreamPhase where
  | opening | open_ | failed | closed
deriving DecidableEq, Repr

/-- A stream that a SOPEN named (R345, R346): its descriptor's words, BASE with the bias, the elements emitted,
the bytes read or written, and the elements written. -/
structure Stream where
  phase   : StreamPhase
  desc    : List W64
  base    : Nat
  count   : Nat
  bytes   : Nat
  written : Nat
deriving DecidableEq, Repr

/-- How a host request completes on the bus (R450): successfully, as an Unsupported Request, or with Completer Abort. -/
inductive Completion where
  | success | unsupported | abort
deriving DecidableEq, Repr

/-- A context's state at one stream channel (R339, R341): its stream, the next wave of each node's port, the next
wave of each node's output, the elements that wait in node order, and the tiles and counts of its nodes. -/
structure StreamCtx where
  ctx    : Nat
  stream : Option Stream
  next   : Tbl (Nat × Nat) Nat
  outw   : Tbl (Nat × Nat) Nat
  headA  : Tbl Nat (List SElem)
  headB  : Tbl Nat (List SElem)
  tiles  : Tbl Nat Tile
  handed : Tbl Nat Tile
  counts : Tbl Nat Nat
deriving DecidableEq, Repr

/-- An island or stream channel of a loaded section (R315, R317, R338); `bad` lists its poisoned accumulators, and its operand slots
from 8 on (R403). -/
structure Channel where
  part   : Nat
  lsec   : Nat
  chan   : Nat
  island : Bool
  unit   : Nat
  slots  : List Slot
  accs   : List Acc
  oslots : List (List Byte)
  bad    : List Nat
  sctx   : List StreamCtx
deriving DecidableEq, Repr

/-- A statistics record (R307). -/
structure StatRec where
  part   : Nat
  lsec   : Nat
  tree   : Nat
  asid   : Nat
  va     : Nat
  ia     : Option Nat
  ctx    : Nat
  nan    : Nat
  inf    : Nat
  sat    : Nat
  ufz    : Nat
  tiles  : Nat
  taps   : Nat
  maxexp : Nat
deriving DecidableEq, Repr

/-- A tree of a section (R309); `leaves` holds (channel?, number), none meaning every unit. -/
structure TreeDecl where
  n      : Nat
  arg    : Nat
  off    : Nat
  leaves : Option (List (Bool × Nat))
deriving DecidableEq, Repr

/-- A block's record in a sealed section (R434). -/
structure BlockRec where
  first : Nat
  group : Nat
  q     : Nat
  elem  : Nat
  fixed : Bool
  slots : List Slot
deriving DecidableEq, Repr

/-- A channel's record in a sealed section (R434). -/
structure ChanRec where
  streamer : Bool
  nodes    : Nat
  slots    : List Slot
deriving DecidableEq, Repr

/-- A section as its sealed code object holds it (R433, R434; log 60, DESIGN CHOICE). -/
structure SecImage where
  blocks  : List BlockRec
  routes  : List W64
  hops    : List W64
  fanout  : List (List W32)
  chans   : List ChanRec
  entries : List W32
  trees   : List TreeDecl
deriving DecidableEq, Repr

/-- A placement entry (R355) as its word says: where the block stands and its bits. One that is neither valid nor free of `moving` is that of a block
whose eviction sweeps (R393). -/
structure PlEntry where
  valid  : Bool
  moving : Bool
  espin  : Bool
  place  : Place
deriving DecidableEq, Repr

/-- A loaded section (R392): its load index, where it came from, the strip onto whose first cluster Load mapped q = 0, or that strip's
counterpart, which may lie before strip 0 (R357, R432), the offset of its block records in its code object (R434), its placement table with each entry's word as R355 lays it out. -/
structure Section where
  part   : Nat
  lsec   : Nat
  base   : Int
  index  : Nat
  gen    : Nat
  sec    : Nat
  recs   : Nat
  image  : SecImage
  table  : Tbl Nat W64
deriving DecidableEq, Repr

/-- A launch record as the interface copied it (R172). -/
structure LaunchRec where
  index     : Nat
  gen       : Nat
  mode      : Bool
  nf        : Nat
  secFirst  : Nat
  secCount  : Nat
  widths    : List Nat
  tcb       : Nat
  donectr   : Nat
  schedbase : Nat
  counts    : List Nat
  args      : List W64
  ranges    : List (W64 × W64)
deriving DecidableEq, Repr

/-- A launch held in a queue (R388): `waiting` once its TCB reads STATE 1 (R181), `skipped` once the read of its PREDCOUNT has been
skipped (R462). `reg` is the home at which its TCB is registered with the TCB's IA, `due` that PREDCOUNT has been found to read 0 there
after a write (R390). -/
structure HeldLaunch where
  queue   : Nat
  lseq    : Nat
  launch  : LaunchRec
  waiting : Bool
  skipped : Bool
  reg     : Option (Nat × Nat)
  due     : Bool
deriving DecidableEq, Repr

/-- A cluster's cursor through its schedule table (R179). -/
structure Cursor where
  cluster : Nat
  entries : List (W64 × Nat)
  task    : Option Nat
deriving DecidableEq, Repr

/-- A launch that holds a launch slot (R390): the section now run, whether it is loaded, the next tile, requeued
work identifiers, tasks failed, opportunities passed over, whether it dispatches nothing more (R395), and how
many steps of Complete are done (R182). -/
structure Running where
  queue   : Nat
  lseq    : Nat
  asid    : Nat
  launch  : LaunchRec
  sec     : Nat
  loaded  : Bool
  lsecs   : List Nat
  tile    : Nat
  requeue : List Nat
  failed  : Nat
  passed  : Nat
  order   : Nat
  stopped : Bool
  step    : Nat
  cursors : List Cursor
deriving DecidableEq, Repr

/-- A task held for requeueing on a granule (R46): `ready` once its operations are over (R94). -/
structure HeldTask where
  asid    : Nat
  granule : Nat
  queue   : Nat
  lseq    : Nat
  wid     : W64
  ready   : Bool
  ctx     : Nat
deriving DecidableEq, Repr

/-- The move that the migration engine runs (R360, R361). Steps: 1 freeze and copy, 3 installed,
4 sweeping. `asked` says that BLKMOVE asked for it. -/
structure Move where
  lsec : Nat
  block : Nat
  pair : Bool
  src  : Place
  dst  : Place
  step : Nat
  asked : Bool
deriving DecidableEq, Repr

/-- A forwarding entry (R361): blocks named at an element they have left. -/
structure Forward where
  lsec    : Nat
  block   : Nat
  cluster : Nat
  elem    : Nat
deriving DecidableEq, Repr

/-- A handle entry (R436), its four words (log 68, DESIGN CHOICE). -/
structure Handle where
  w0 : W64
  w1 : W64
  w2 : W64
  w3 : W64
deriving DecidableEq, Repr

/-- A shadow pair (R261): S and H by IA, and the size in bytes. -/
structure ShadowPair where
  asid : Nat
  s    : Nat
  h    : Nat
  size : Nat
deriving DecidableEq, Repr

/-- A scrubbed range (R51). -/
structure Scrubbed where
  asid : Nat
  base : Nat
  size : Nat
deriving DecidableEq, Repr

/-- An access waiting in place on a fault, other than an operation of a context: an engine piece,
or an access of the sequencer (R46, R171, R462). -/
inductive FaultWait where
  | op (id : Nat)
  | piece (eng piece : Nat)
  | seqr (part queue lseq what : Nat)
deriving DecidableEq, Repr

/-- A wait in place, with the granule FRESUME names (R46); `aborts` says that the fault was found before the first REGION
of its task was performed, so that it aborts the task (R93). -/
structure Waiting where
  part    : Nat
  asid    : Nat
  granule : Nat
  who     : FaultWait
  aborts  : Bool
deriving DecidableEq, Repr

/-- Where a fault is found: the instruction named, the context and its ASID, the wave, the unit and
the strip in whose buffer the record waits. -/
structure Site where
  names : Names
  port  : Nat
  asid  : Nat
  ctx   : Nat
  wave  : Nat
  unit  : Nat
  strip : Nat
deriving DecidableEq, Repr

/-- Who makes an access from outside a context's store buffer: a control core, the host through its aperture, or a unit that
adds to a counter or writes a word, with the site of its traps, or one that awaits what it reads, by its key (R117, R137, R144,
R152). -/
inductive OutsideWho where
  | core | host
  | unit (w : Site)
  | asks (a b c d : Nat)
deriving DecidableEq, Repr

/-- A posted write on its way to the host on the partition's function: of a context (4096: of none), by its number, with its host
bus address, its bytes, `none` for one that it does not write (R463), and No Snoop (R150, R151, R153). -/
structure Posted where
  part : Nat
  ctx  : Nat
  id   : Nat
  addr : Nat
  data : List (Option Byte)
  ns   : Bool
deriving DecidableEq, Repr

/-- A request under way to the host that awaits an answer: who asked, its host bus address and No Snoop (R150, R151). -/
structure HostAsk where
  id   : Nat
  addr : Nat
  ns   : Bool
deriving DecidableEq, Repr

/-- An access from outside the store buffers that is under way (R112, R117, R137, R144, R152): it waits for its turn at the
home, or (`sent`) for the answer of a peer or of the host at the PA `pa`. `got` is that answer where its unit has yet to take it: 0
with the value, or the subcode of a refusal. -/
structure OutsideReq where
  id   : Nat
  part : Nat
  asid : Nat
  who  : OutsideWho
  acc  : ExtAccess
  sent : Bool
  pa   : Nat
  got  : Option (Nat × W64)
deriving DecidableEq, Repr

/-- What pre-emption saves of a partition (R413); `bad` says that an error has struck it (R403). -/
structure Saved where
  ctxs     : List Ctx
  waiting  : List Token
  net      : List Token
  held     : List Token
  ready    : List Firing
  ops      : List Op
  gathers  : List Gather
  sections : List Section
  channels : List Channel
  rings    : List Ring
  msgs     : List Msg
  slots    : Tbl (Nat × Nat × Nat) Slot
  es       : Memory
  full     : List (Level × Nat)
  engs     : List EngOp
  waits    : List Waiting
  running  : List Running
  tasks    : List HeldTask
  marks    : Tbl (Level × Nat) (List Nat)
  bad      : Bool
deriving DecidableEq, Repr

/-- A partition (R415) and its registers; the registers hold 64-bit words with the layouts of the
rules named in INVENTORY.md. -/
structure Part where
  live      : Bool
  first     : Nat
  count     : Nat
  asidbase  : W64
  mode      : Bool
  cfgBusy   : Bool
  modeWait  : Option Bool
  slicemap  : List Nat
  oldmap    : Option (List Nat)
  leasecap  : Nat
  hostwin   : W64
  hostaper  : W64
  blkmove   : W64
  move      : Option Move
  forwards  : List Forward
  pctl      : W64
  gated     : Bool
  saving    : Bool
  bank0     : Option Saved
  bank1     : Option Saved
  trapcfg   : List W64
  trapptr   : List W64
  tenants   : List W64
  frac      : Nat
  lat       : Tbl Nat (List Nat)
  qcfg      : List W64
  qstatus   : List W64
  qseq      : List Nat
  held      : List HeldLaunch
  running   : List Running
  started   : Nat
  lastq     : List Nat
  turn      : List Nat
  handles   : Tbl Nat Handle
  codebooks : List (List W32)
  shadows   : List ShadowPair
  scval     : Tbl Agent W64
  scheld    : List (Nat × W64 × Bool)
  frFail    : List Agent
  scrubbed  : List Scrubbed
  tasks     : List HeldTask
  heads     : List (Nat × Nat × Nat)
  fresumes  : List W64
  aka       : Option (Nat × Nat × Nat)
  stopped   : Bool
  skips     : List (Nat × Nat × Nat)
  aborts    : Tbl (Nat × Nat × Nat) Nat
deriving DecidableEq, Repr

/-- The counters of an element (R198, R396, R411) and its issue window: contexts with their wait
and issue counts. -/
structure ElemState where
  tap     : Nat
  firings : Nat
  full    : Nat
  slots   : Tbl Nat Nat
  window  : List (Nat × Nat × Nat)
  yield_  : Option Nat
  last    : Tbl Nat Nat
deriving DecidableEq, Repr

/-- The counters of a cluster (R411, events 4 to 7). -/
structure ClusterCtr where
  ejected : Nat
  misses  : Nat
  expired : Nat
  copies  : Nat
deriving DecidableEq, Repr

/-- The layout change in progress (R422, R431): its request, the runs, the state it is in, the strips whose SCRUB is still
to end, and for a DEFRAG what the SAVE took. -/
structure Layout where
  op    : Nat
  part  : Nat
  oldF  : Nat
  oldN  : Nat
  newF  : Nat
  newN  : Nat
  gen   : Nat
  state : Nat
  left  : List Nat
  saved : Option Saved
deriving DecidableEq, Repr

/-- What an event of a unit concerns, in the order its row names the parts (log 3, DESIGN CHOICE): the number of the
waiting request, operation, message, token, launch or unit. -/
structure Subject where
  a : Nat
  b : Nat
  c : Nat
deriving DecidableEq, Repr

/-- What the machine does next (log 4, DESIGN CHOICE): a ready set issues, or a row of the table is performed on its
subject. -/
inductive Action where
  | issue (f : Firing)
  | event (i : Instr) (x : Subject)
deriving DecidableEq, Repr

end Sys2Proof.Machine
end

