-- ==== Sys2Proof/Machine/Bits.lean ====
section
/-! DEFINITION. Bit fields, sign extension, byte order and the plain list and table helpers that every
other file of the machine uses (R5, R6, R7). -/

namespace Sys2Proof.Machine

/-- Bits `[hi:lo]` of a word, as a number (R6). -/
def bits (w : W64) (hi lo : Nat) : Nat := (w.toNat >>> lo) % 2 ^ (hi - lo + 1)

/-- Bit `i` of a word (R6). -/
def bit (w : W64) (i : Nat) : Bool := w.toNat.testBit i

/-- The same field of a number. -/
def nbits (w hi lo : Nat) : Nat := (w >>> lo) % 2 ^ (hi - lo + 1)

/-- The word with bits `[hi:lo]` replaced by the low bits of `v`. -/
def setBits (w : W64) (hi lo v : Nat) : W64 :=
  let m := (2 ^ (hi - lo + 1) - 1) <<< lo
  BitVec.ofNat 64 ((w.toNat &&& ((2 ^ 64 - 1) ^^^ m)) ||| ((v % 2 ^ (hi - lo + 1)) <<< lo))

/-- Two's complement value of the low `n` bits of `x`. -/
def toS (n x : Nat) : Int :=
  let y := x % 2 ^ n
  if y < 2 ^ (n - 1) then (y : Int) else (y : Int) - (2 ^ n : Nat)

/-- `i` modulo `2 ^ n`, as a number below `2 ^ n` (the Wrap of R232). -/
def wrap (n : Nat) (i : Int) : Nat := (i % ((2 ^ n : Nat) : Int)).toNat

/-- Clamp to the signed range of `n` bits, as bits (SatS of R232). -/
def satS (n : Nat) (i : Int) : Nat :=
  let hi : Int := (2 ^ (n - 1) : Nat) - 1
  let lo : Int := - ((2 ^ (n - 1) : Nat) : Int)
  wrap n (if i > hi then hi else if i < lo then lo else i)

/-- Clamp to the unsigned range of `n` bits (SatU of R232). -/
def satU (n : Nat) (i : Int) : Nat :=
  let hi : Int := (2 ^ n : Nat) - 1
  (if i > hi then hi else if i < 0 then 0 else i).toNat

/-- A number as a 64-bit word. -/
def w64 (x : Nat) : W64 := BitVec.ofNat 64 x

/-- The address `a + d` modulo `2 ^ 64` (R35, R238). -/
def addr64 (a : Nat) (d : Int) : Nat := wrap 64 ((a : Int) + d)

/-- `n` bytes of `x`, lowest byte first (R6). -/
def leBytes : Nat → Nat → List Byte
  | 0, _ => []
  | n + 1, x => BitVec.ofNat 8 x :: leBytes n (x >>> 8)

/-- The number that bytes hold, lowest byte first (R6). -/
def leNat : List Byte → Nat
  | [] => 0
  | b :: bs => b.toNat + 256 * leNat bs

/-- The largest multiple of `k` not above `a`. -/
def alignDown (a k : Nat) : Nat := a - a % k

/-- The least multiple of `k` not below `a`. -/
def alignUp (a k : Nat) : Nat := if a % k = 0 then a else a - a % k + k

/-- The list with element `i` replaced; unchanged when it has no such element. -/
def setAt {α : Type} : List α → Nat → α → List α
  | [], _, _ => []
  | _ :: xs, 0, v => v :: xs
  | x :: xs, i + 1, v => x :: setAt xs i v

/-- The list with element `i` passed through `f`. -/
def modAt {α : Type} : List α → Nat → (α → α) → List α
  | [], _, _ => []
  | x :: xs, 0, f => f x :: xs
  | x :: xs, i + 1, f => x :: modAt xs i f

/-- The first elements that satisfy `p` replaced through `f`, the rest left. -/
def modFirst {α : Type} (p : α → Bool) (f : α → α) : List α → List α
  | [] => []
  | x :: xs => if p x then f x :: xs else x :: modFirst p f xs

/-- Every element that satisfies `p` passed through `f`. -/
def modAll {α : Type} (p : α → Bool) (f : α → α) (xs : List α) : List α :=
  xs.map fun x => if p x then f x else x

/-- The list without its first element that satisfies `p`. -/
def dropFirst {α : Type} (p : α → Bool) : List α → List α
  | [] => []
  | x :: xs => if p x then xs else x :: dropFirst p xs

/-- The elements `lo .. lo + n - 1` of a list. -/
def slice {α : Type} (xs : List α) (lo n : Nat) : List α := (xs.drop lo).take n

/-- The value of a key in a table. -/
def Tbl.get {κ α : Type} [DecidableEq κ] (t : Tbl κ α) (k : κ) : Option α :=
  match t with
  | [] => none
  | (k', v) :: r => if k' = k then some v else Tbl.get r k

/-- The value of a key, or `d` where the table has none. -/
def Tbl.getD {κ α : Type} [DecidableEq κ] (t : Tbl κ α) (k : κ) (d : α) : α :=
  match t with
  | [] => d
  | (k', v) :: r => if k' = k then v else Tbl.getD r k d

/-- The table with the key set; a key it already has keeps its place. -/
def Tbl.set {κ α : Type} [DecidableEq κ] (t : Tbl κ α) (k : κ) (v : α) : Tbl κ α :=
  match t with
  | [] => [(k, v)]
  | (k', v') :: r => if k' = k then (k, v) :: r else (k', v') :: Tbl.set r k v

/-- The table without the key. -/
def Tbl.del {κ α : Type} [DecidableEq κ] (t : Tbl κ α) (k : κ) : Tbl κ α :=
  t.filter fun p => !(decide (p.1 = k))

/-- Element `i`, or `d` past the end. -/
def at! {α : Type} (xs : List α) (i : Nat) (d : α) : α :=
  match xs, i with
  | [], _ => d
  | x :: _, 0 => x
  | _ :: r, i + 1 => at! r i d

/-- The natural numbers below `n`, in order. -/
def upto (n : Nat) : List Nat := List.range n

/-- A rising list with a number entered, once. -/
def insertNat (x : Nat) : List Nat → List Nat
  | [] => [x]
  | y :: r => if x < y then x :: y :: r else if x = y then y :: r else y :: insertNat x r

/-- The first of the numbers `k, k + 1, ..` (modulo `m`) that satisfies `p`, looking at `n` of them. -/
def findFrom (p : Nat → Bool) (m : Nat) : Nat → Nat → Option Nat
  | 0, _ => none
  | n + 1, k => if p (k % m) then some (k % m) else findFrom p m n (k + 1)

/-- The least element of a list by a measure; the earliest among equals. -/
def minBy {α : Type} (m : α → Nat) : List α → Option α
  | [] => none
  | x :: xs =>
    match minBy m xs with
    | none => some x
    | some y => if m y < m x then some y else some x

end Sys2Proof.Machine
end

