-- ==== Sys2Proof/Machine/WordRules.lean ====
section
/-! DEFINITION. What the loader accepts in an instruction word (R190, R194, R197, R199, R205, R207),
with the selects and destinations that each opcode's own description allows. -/

namespace Sys2Proof.Machine

/-- Select values, as ranges with both ends. -/
abbrev Sel := List (Nat × Nat)

/-- Membership in a set of selects. -/
def Sel.has (s : Sel) (x : Nat) : Bool := s.any fun r => r.1 ≤ x && x ≤ r.2

/-- Where a word may stand (R319, R338). -/
inductive Home where
  | elem | island | streamer
deriving DecidableEq, Repr

/-- What a word may hold: which tag actions, selects and destinations (R199, R189, R195), whether it
has two results, whether it reads port C itself, and where it may stand. -/
structure WordRule where
  tags  : Bool
  sa    : Sel
  sb    : Sel
  da    : List Nat
  two   : Bool := false
  portC : Bool := false
  home  : Home := .elem
deriving DecidableEq, Repr

/-- Ports A to C (R189). -/
def selP : Sel := [(0x40, 0x42)]
/-- No operand. -/
def selN : Sel := [(0x7F, 0x7F)]
/-- Every source (R189). -/
def selA : Sel := [(0x00, 0x4F)]
/-- Integer constants, ports and keep registers: the data, lengths and amounts of R244, R251, R260. -/
def selD : Sel := [(0x00, 0x2F), (0x40, 0x42), (0x48, 0x4F)]

/-- Any destination (R195). -/
def daAll : List Nat := [0, 1, 2, 3, 4, 5, 6, 7]
/-- Destinations without steering. -/
def daNoSteer : List Nat := [0, 1, 2, 3, 7]
/-- Links only (R197). -/
def daLinks : List Nat := [0, 1, 2, 3]
/-- Steering only (R216, R217). -/
def daSteer : List Nat := [4, 5, 6]

/-- An operation of two operands of the groups 0x1 to 0x3, 0x6 and 0x7 (R214, R270). -/
def rule2 : WordRule := ⟨true, selA, selA, daAll, false, false, .elem⟩
/-- An operation of one operand of those groups. -/
def rule1 : WordRule := ⟨true, selA, selN, daAll, false, false, .elem⟩
/-- A memory or engine word: one operand and links only (R197, R199). -/
def ruleM (sb : Sel) : WordRule := ⟨false, selP, sb, daLinks, false, false, .elem⟩
/-- A word of an island block (R319). -/
def ruleI (sb : Sel) : WordRule := ⟨false, selP, sb, daLinks, false, false, .island⟩
/-- A word of a streamer block (R343). -/
def ruleS (sb : Sel) : WordRule := ⟨false, selP, sb, daLinks, false, false, .streamer⟩

/-- The rules of group 0x0 (R215 to R228). -/
def rules0 (op : Nat) : Option WordRule :=
  match op with
  | 0x01 => some ⟨true, selA, [(0x40, 0x42), (0x7F, 0x7F)], daAll, false, false, .elem⟩
  | 0x02 => some ⟨true, [(0x40, 0x41)], selN, daSteer, false, false, .elem⟩
  | 0x03 => some ⟨true, [(0x40, 0x40)], [(0x41, 0x41)], [1, 2, 3, 7], false, false, .elem⟩
  | 0x04 => some ⟨true, [(0x00, 0x41), (0x43, 0x4F)], [(0x00, 0x41), (0x43, 0x4F)], daNoSteer, false, true, .elem⟩
  | 0x05 => some ⟨true, [(0x40, 0x41)], selN, daSteer, false, false, .elem⟩
  | 0x06 => some ⟨true, selP, [(0x00, 0x1F), (0x28, 0x2F), (0x43, 0x43), (0x48, 0x4F)], daAll, false, false, .elem⟩
  | 0x07 => some ⟨true, selP, [(0x00, 0x1F), (0x28, 0x2F), (0x40, 0x43), (0x48, 0x4F)], daAll, false, false, .elem⟩
  | 0x08 => some ⟨true, selP, selN, daAll, false, false, .elem⟩
  | 0x09 => some ⟨true, selP, selN, daLinks, false, false, .elem⟩
  | 0x0A => some ⟨false, selP, selP, [1, 2, 3], false, false, .elem⟩
  | 0x0B => some ⟨false, selP, selP, [1, 2, 3], false, false, .elem⟩
  | 0x0C => some ⟨false, selP, selN, daLinks, false, false, .elem⟩
  | 0x0D => some ⟨false, selP, selN, [0], false, false, .elem⟩
  | 0x0E => some ⟨true, selP, [(0x00, 0x07), (0x43, 0x43), (0x48, 0x4F)], daAll, false, false, .elem⟩
  | _ => none

/-- The rules of groups 0x1 to 0x3 (R214, R232 to R240). -/
def rules123 (op : Nat) : Option WordRule :=
  match op with
  | 0x1D => some ⟨true, selA, selA, daNoSteer, false, true, .elem⟩
  | 0x1E => some rule1
  | 0x1F => some rule1
  | 0x24 => some rule1
  | 0x29 => some rule1
  | 0x2A => some rule1
  | 0x2B => some rule1
  | 0x2C => some rule1
  | 0x2E => some ⟨true, selA, selA, daNoSteer, false, true, .elem⟩
  | 0x3B => some ⟨true, selA, [(0x00, 0x1F), (0x43, 0x43), (0x48, 0x4F)], daAll, false, false, .elem⟩
  | 0x3C => some ⟨true, selA, [(0x00, 0x03), (0x09, 0x09)], daAll, false, false, .elem⟩
  | 0x3D => some ⟨true, selA, [(0x00, 0x03), (0x09, 0x09)], daAll, false, false, .elem⟩
  | 0x3E => some ⟨true, selA, [(0x00, 0x03), (0x09, 0x09)], daAll, false, false, .elem⟩
  | 0x3F => some ⟨true, selA, [(0x00, 0x03), (0x09, 0x09)], daAll, false, false, .elem⟩
  | _ => if 0x10 ≤ op && op ≤ 0x3F then some rule2 else none

/-- Formats a load may name (R244). -/
def selFmt : Sel := [(0x00, 0x07), (0x09, 0x09)]

/-- The rules of groups 0x4 and 0x5 (R83, R118, R132, R138, R244 to R253). -/
def rules45 (op : Nat) : Option WordRule :=
  match op with
  | 0x40 => some (ruleM selFmt)
  | 0x41 => some (ruleM selD)
  | 0x42 => some (ruleM selFmt)
  | 0x43 => some (ruleM selD)
  | 0x44 => some (ruleM selFmt)
  | 0x45 => some (ruleM selD)
  | 0x46 => some ⟨false, selP, selN, [0], false, false, .elem⟩
  | 0x47 => some (ruleM [(0x00, 0x07), (0x09, 0x09), (0x10, 0x17), (0x19, 0x19)])
  | 0x48 => some (ruleM selD)
  | 0x49 => some (ruleM selN)
  | 0x4A => some ⟨false, selP, selN, [0], false, false, .elem⟩
  | 0x4B => some (ruleM selD)
  | 0x4C => some (ruleM selD)
  | 0x4D => some (ruleM selD)
  | 0x4E => some (ruleM selD)
  | 0x4F => some (ruleM selN)
  | 0x59 => some ⟨false, selP, selD, daLinks, false, true, .elem⟩
  | 0x5D => some (ruleM [(0x01, 0x1F), (0x28, 0x28), (0x48, 0x4F), (0x7F, 0x7F)])
  | 0x5E => some (ruleM selN)
  | 0x5F => some (ruleM [(0x40, 0x42), (0x7F, 0x7F)])
  | _ => if 0x50 ≤ op && op ≤ 0x5C then some (ruleM selD) else none

/-- The rules of groups 0x6 to 0x9 (R270, R275, R283, R292). -/
def rules6789 (op : Nat) : Option WordRule :=
  match op with
  | 0x63 => some ⟨true, selA, selA, daNoSteer, false, true, .elem⟩
  | 0x64 => some ⟨true, selA, selA, daNoSteer, false, true, .elem⟩
  | 0x65 => some ⟨true, selA, selA, daNoSteer, false, true, .elem⟩
  | 0x67 => some rule1
  | 0x6C => some rule1
  | 0x6D => some rule1
  | 0x6F => some rule1
  | 0x74 => some ⟨true, selP, selN, daAll, false, false, .elem⟩
  | 0x75 => some ⟨true, selP, selN, daAll, false, false, .elem⟩
  | 0x76 => some ⟨true, selP, selN, daAll, false, false, .elem⟩
  | 0x77 => some ⟨true, selP, selN, daAll, false, false, .elem⟩
  | 0x78 => some ⟨true, selP, selN, daAll, false, false, .elem⟩
  | 0x7A => some rule1
  | 0x7B => some rule1
  | 0x7C => some ⟨true, selA, selN, daAll, true, false, .elem⟩
  | 0x90 => some ⟨true, selP, [(0x00, 0x1F), (0x28, 0x28), (0x40, 0x43), (0x48, 0x4F)], daAll, true, false, .elem⟩
  | 0x91 => some ⟨true, [(0x40, 0x40)], [(0x41, 0x41)], daNoSteer, false, false, .elem⟩
  | 0x92 => some ⟨true, selP, [(0x00, 0x1F), (0x28, 0x28), (0x40, 0x43), (0x48, 0x4F)], daAll, false, false, .elem⟩
  | 0x97 => some ⟨true, selP, selA, daAll, false, false, .elem⟩
  | 0x98 => some ⟨true, selP, [(0x00, 0x27), (0x40, 0x43), (0x48, 0x4F)], daAll, false, false, .elem⟩
  | 0x99 => some ⟨true, selP, selP, daNoSteer, false, false, .elem⟩
  | 0x9A => some ⟨true, selP, selP, daNoSteer, false, false, .elem⟩
  | 0x9E => some ⟨true, selP, selP, daAll, false, false, .elem⟩
  | _ =>
    if 0x60 ≤ op && op ≤ 0x7C then some rule2
    else if 0x80 ≤ op && op ≤ 0x88 then some ⟨true, selP, selN, daAll, false, false, .elem⟩
    else if 0x90 ≤ op && op ≤ 0x9D then some ⟨true, selP, selN, daAll, false, false, .elem⟩
    else none

/-- The rules of groups 0xA and 0xB (R310 to R334, R319, R343). -/
def rulesAB (op : Nat) : Option WordRule :=
  match op with
  | 0xA0 => some (ruleI selN)
  | 0xA1 => some (ruleI selP)
  | 0xA2 => some (ruleI selP)
  | 0xA3 => some (ruleI selP)
  | 0xA4 => some (ruleM selP)
  | 0xA5 => some (ruleI selN)
  | 0xA6 => some (ruleI selP)
  | 0xA7 => some (ruleI [(0x00, 0x42)])
  | 0xA8 => some (ruleM selN)
  | 0xA9 => some (ruleM selN)
  | 0xAA => some (ruleM selN)
  | 0xAB => some ⟨false, [(0x00, 0x2F), (0x40, 0x42)], [(0x40, 0x42), (0x7F, 0x7F)], daLinks, false, false, .island⟩
  | 0xAC => some (ruleM selD)
  | 0xAD => some (ruleM selD)
  | 0xB0 => some (ruleS [(0x00, 0x2F), (0x40, 0x42), (0x7F, 0x7F)])
  | 0xB1 => some (ruleS selN)
  | 0xB2 => some (ruleS selN)
  | 0xB3 => some (ruleS selN)
  | 0xB4 => some ⟨false, selP, selP, [1, 2, 3], true, false, .streamer⟩
  | 0xB5 => some ⟨false, selP, selP, [1, 2, 3], true, false, .streamer⟩
  | 0xB6 => some (ruleS selN)
  | 0xB7 => some (ruleS selN)
  | 0xB8 => some (ruleS selN)
  | 0xB9 => some (ruleS selN)
  | _ => none

/-- The rules of groups 0xC to 0xE (R255 to R264, R378, R404). -/
def rulesCDE (op : Nat) : Option WordRule :=
  match op with
  | 0xC0 => some (ruleM selP)
  | 0xC1 => some (ruleM selP)
  | 0xC2 => some (ruleM selP)
  | 0xC3 => some (ruleM selP)
  | 0xC4 => some (ruleM selN)
  | 0xC5 => some (ruleM selD)
  | 0xC6 => some (ruleM selD)
  | 0xC7 => some (ruleM selN)
  | 0xC8 => some (ruleM selN)
  | 0xC9 => some (ruleM [(0x00, 0x2F), (0x40, 0x42), (0x48, 0x4F), (0x7F, 0x7F)])
  | 0xCA => some (ruleM selN)
  | 0xD0 => some (ruleM selP)
  | 0xD1 => some (ruleM selP)
  | 0xD2 => some (ruleM selP)
  | 0xD3 => some (ruleM selN)
  | 0xD4 => some (ruleM selD)
  | 0xD5 => some (ruleM selN)
  | 0xE1 => some (ruleM [(0x40, 0x42), (0x7F, 0x7F)])
  | 0xE5 => some ⟨false, selP, selN, [0], false, false, .elem⟩
  | 0xE6 => some ⟨false, selP, selN, [0], false, false, .elem⟩
  | _ => if 0xE0 ≤ op && op ≤ 0xED then some (ruleM selN) else none

/-- The rule of an opcode; none for a reserved opcode (R204). -/
def wordRule (op : Nat) : Option WordRule :=
  if op < 0x10 then rules0 op
  else if op < 0x40 then rules123 op
  else if op < 0x60 then rules45 op
  else if op < 0xA0 then rules6789 op
  else if op < 0xC0 then rulesAB op
  else rulesCDE op

/-- Opcodes that take only integer operands (R194). -/
def integerOnly (op : Nat) : Bool :=
  (0x10 ≤ op && op ≤ 0x3F) || (0x50 ≤ op && op ≤ 0x57) || op == 0x5B || op == 0x5C || op == 0x5D

/-- Opcodes that may take the literal as a source (R205). -/
def literalSource (op : Nat) : Bool :=
  (op < 0x40 || (0x60 ≤ op && op < 0xA0)) && !(0x74 ≤ op && op ≤ 0x78)

/-- Whether a select is a port (R189). -/
def isPort (x : Nat) : Bool := 0x40 ≤ x && x ≤ 0x42

/-- The tag action is one that the opcode takes (R199). -/
def tagOk (r : WordRule) (f : Fields) : Bool := if r.tags then f.ta.toNat ≤ 6 else f.ta.toNat == 0

/-- The sources pass R189, R190, R194 and R205, and lie within those of the opcode. -/
def sourceOk (op : Nat) (r : WordRule) (f : Fields) : Bool :=
  let a := f.sa.toNat
  let b := f.sb.toNat
  r.sa.has a && r.sb.has b && (isPort a || isPort b)
    && (literalSource op || (a != 0x43 && b != 0x43))
    && !(integerOnly op && ((0x30 ≤ a && a ≤ 0x3F) || (0x30 ≤ b && b ≤ 0x3F)))

/-- The destinations pass R197 and lie within those of the opcode. -/
def destOk (r : WordRule) (f : Fields) : Bool :=
  let a := f.da.toNat
  let b := f.db.toNat
  r.da.contains a
    && (if r.two then
          (b == 0 || b == 1 || b == 2 || b == 7)
            && !(b == 1 && (a == 1 || a == 5 || a == 6)) && !(b == 2 && a == 2)
            && !((a == 3 || a == 4) && b != 0 && b != 7)
        else b == 0)
    && !(4 ≤ a && a ≤ 6 && (f.sa.toNat == 0x42 || f.sb.toNat == 0x42 || r.portC))

/-- Every check of R207 that looks at the word alone. -/
def wordOk (op : Nat) (f : Fields) : Bool :=
  match wordRule op with
  | none => false
  | some r => tagOk r f && sourceOk op r f && destOk r f

end Sys2Proof.Machine
end

