-- ==== Sys2Proof/Decode.lean ====
section
/-! DEFINITION. The decoder: from the bytes of an instruction word to a step or a refusal that says
why, and after it the encoder, both from the word layout of R188 and the opcode map of R204. A word
is four bytes, the lowest address first (R6). The decoder checks the opcode and the bits that the
encoding of the opcode fixes; what else the loader asks of a word is in WellFormed. -/

namespace Sys2Proof

/-- Why bytes are no instruction: fewer than four of them, an opcode that R204 reserves, or a bit that
the opcode's encoding fixes with another value. -/
inductive DecodeError where
  | short
  | reservedOpcode
  | fixedBits
deriving DecidableEq, Repr

/-- The fields of a word (R188). -/
def fieldsOf (w : W32) : Fields :=
  { ta := w.extractLsb' 20 4, sa := w.extractLsb' 13 7, sb := w.extractLsb' 6 7,
    da := w.extractLsb' 3 3, db := w.extractLsb' 0 3 }

/-- OP of a word (R188). -/
def opOf (w : W32) : Nat := w.toNat / 2 ^ 24

/-- A word from its opcode and fields (R188). -/
def wordOf (op : Nat) (f : Fields) : W32 :=
  BitVec.ofNat 8 op ++ f.ta ++ f.sa ++ f.sb ++ f.da ++ f.db

/-- Which fields an opcode's encoding fixes beside OP: TA and DB to 0, SB to 0x7F, or the two ports of
MERGE and VJOIN. -/
inductive Fixed where
  | none | db | sbDb | ports | taDb | taSbDb | saOnly | sb | ta
deriving DecidableEq, Repr

/-- The fixed fields hold their values. -/
def Fixed.ok (k : Fixed) (f : Fields) : Bool :=
  match k with
  | .none => true
  | .db => f.db == 0
  | .sbDb => f.sb == 0x7F && f.db == 0
  | .ports => f.sa == 0x40 && f.sb == 0x41 && f.db == 0
  | .taDb => f.ta == 0 && f.db == 0
  | .taSbDb => f.ta == 0 && f.sb == 0x7F && f.db == 0
  | .saOnly => f.ta == 0 && f.sb == 0x7F && f.da == 0 && f.db == 0
  | .sb => f.sb == 0x7F
  | .ta => f.ta == 0


/-- The opcode map (R204) of one group: constructor and fixed fields by the low digit of OP. -/
def opcodes0 (lo : Nat) : Option (Fixed × (Fields → Instr)) :=
  match lo with
  | 0x1 => some (Fixed.db, Instr.mov)
  | 0x2 => some (Fixed.sbDb, Instr.steer)
  | 0x3 => some (Fixed.ports, Instr.merge)
  | 0x4 => some (Fixed.db, Instr.select)
  | 0x5 => some (Fixed.sbDb, Instr.gate)
  | 0x6 => some (Fixed.db, Instr.wadv)
  | 0x7 => some (Fixed.db, Instr.wset)
  | 0x8 => some (Fixed.sbDb, Instr.itag)
  | 0x9 => some (Fixed.sbDb, Instr.ctxnew)
  | 0xA => some (Fixed.taDb, Instr.ctxsend)
  | 0xB => some (Fixed.taDb, Instr.ctxret)
  | 0xC => some (Fixed.taSbDb, Instr.ctxfree)
  | 0xD => some (Fixed.saOnly, Instr.sink)
  | 0xE => some (Fixed.db, Instr.stop)
  | _ => none

/-- The opcodes 0x10 to 0x1F (R204). -/
def opcodes1 (lo : Nat) : Option (Fixed × (Fields → Instr)) :=
  match lo with
  | 0x0 => some (Fixed.db, Instr.add)
  | 0x1 => some (Fixed.db, Instr.sub)
  | 0x2 => some (Fixed.db, Instr.adds)
  | 0x3 => some (Fixed.db, Instr.addsn)
  | 0x4 => some (Fixed.db, Instr.subs)
  | 0x5 => some (Fixed.db, Instr.subsn)
  | 0x6 => some (Fixed.db, Instr.mul)
  | 0x7 => some (Fixed.db, Instr.mulh)
  | 0x8 => some (Fixed.db, Instr.mulhn)
  | 0x9 => some (Fixed.db, Instr.div)
  | 0xA => some (Fixed.db, Instr.divn)
  | 0xB => some (Fixed.db, Instr.rem)
  | 0xC => some (Fixed.db, Instr.remn)
  | 0xD => some (Fixed.db, Instr.madd)
  | 0xE => some (Fixed.sbDb, Instr.neg)
  | 0xF => some (Fixed.sbDb, Instr.abs)
  | _ => none

/-- The opcodes 0x20 to 0x2F (R204). -/
def opcodes2 (lo : Nat) : Option (Fixed × (Fields → Instr)) :=
  match lo with
  | 0x0 => some (Fixed.db, Instr.and_)
  | 0x1 => some (Fixed.db, Instr.or_)
  | 0x2 => some (Fixed.db, Instr.xor_)
  | 0x3 => some (Fixed.db, Instr.andn)
  | 0x4 => some (Fixed.sbDb, Instr.not_)
  | 0x5 => some (Fixed.db, Instr.shl)
  | 0x6 => some (Fixed.db, Instr.shrl)
  | 0x7 => some (Fixed.db, Instr.shra)
  | 0x8 => some (Fixed.db, Instr.rotl)
  | 0x9 => some (Fixed.sbDb, Instr.clz)
  | 0xA => some (Fixed.sbDb, Instr.ctz)
  | 0xB => some (Fixed.sbDb, Instr.popc)
  | 0xC => some (Fixed.sbDb, Instr.brev)
  | 0xD => some (Fixed.db, Instr.bfx)
  | 0xE => some (Fixed.db, Instr.bfi)
  | 0xF => some (Fixed.db, Instr.byteperm)
  | _ => none

/-- The opcodes 0x30 to 0x3F (R204). -/
def opcodes3 (lo : Nat) : Option (Fixed × (Fields → Instr)) :=
  match lo with
  | 0x0 => some (Fixed.db, Instr.ceq)
  | 0x1 => some (Fixed.db, Instr.cne)
  | 0x2 => some (Fixed.db, Instr.clt)
  | 0x3 => some (Fixed.db, Instr.cle)
  | 0x4 => some (Fixed.db, Instr.cltn)
  | 0x5 => some (Fixed.db, Instr.clen)
  | 0x6 => some (Fixed.db, Instr.min_)
  | 0x7 => some (Fixed.db, Instr.max_)
  | 0x8 => some (Fixed.db, Instr.minn)
  | 0x9 => some (Fixed.db, Instr.maxn)
  | 0xA => some (Fixed.db, Instr.lea)
  | 0xB => some (Fixed.db, Instr.idx)
  | 0xC => some (Fixed.db, Instr.sext)
  | 0xD => some (Fixed.db, Instr.zext)
  | 0xE => some (Fixed.db, Instr.narrow)
  | 0xF => some (Fixed.db, Instr.narrows)
  | _ => none

/-- The opcodes 0x40 to 0x4F (R204). -/
def opcodes4 (lo : Nat) : Option (Fixed × (Fields → Instr)) :=
  match lo with
  | 0x0 => some (Fixed.taDb, Instr.ld)
  | 0x1 => some (Fixed.taDb, Instr.st)
  | 0x2 => some (Fixed.taDb, Instr.ldv)
  | 0x3 => some (Fixed.taDb, Instr.stv)
  | 0x4 => some (Fixed.taDb, Instr.ldg)
  | 0x5 => some (Fixed.taDb, Instr.sts)
  | 0x6 => some (Fixed.saOnly, Instr.mnop)
  | 0x7 => some (Fixed.taDb, Instr.ldfe)
  | 0x8 => some (Fixed.taDb, Instr.stfe)
  | 0x9 => some (Fixed.taSbDb, Instr.region)
  | 0xA => some (Fixed.saOnly, Instr.pref)
  | 0xB => some (Fixed.taDb, Instr.flushr)
  | 0xC => some (Fixed.taDb, Instr.invr)
  | 0xD => some (Fixed.taDb, Instr.amofmin)
  | 0xE => some (Fixed.taDb, Instr.amofmax)
  | 0xF => some (Fixed.taSbDb, Instr.ctrread)
  | _ => none

/-- The opcodes 0x50 to 0x5F (R204). -/
def opcodes5 (lo : Nat) : Option (Fixed × (Fields → Instr)) :=
  match lo with
  | 0x0 => some (Fixed.taDb, Instr.amoadd)
  | 0x1 => some (Fixed.taDb, Instr.amoand)
  | 0x2 => some (Fixed.taDb, Instr.amoor)
  | 0x3 => some (Fixed.taDb, Instr.amoxor)
  | 0x4 => some (Fixed.taDb, Instr.amomin)
  | 0x5 => some (Fixed.taDb, Instr.amomax)
  | 0x6 => some (Fixed.taDb, Instr.amominn)
  | 0x7 => some (Fixed.taDb, Instr.amomaxn)
  | 0x8 => some (Fixed.taDb, Instr.amoswap)
  | 0x9 => some (Fixed.taDb, Instr.amocas)
  | 0xA => some (Fixed.taDb, Instr.amofadd)
  | 0xB => some (Fixed.taDb, Instr.ctradd)
  | 0xC => some (Fixed.taDb, Instr.ctrwait)
  | 0xD => some (Fixed.taDb, Instr.lease)
  | 0xE => some (Fixed.taSbDb, Instr.unlease)
  | 0xF => some (Fixed.taDb, Instr.fence)
  | _ => none

/-- The opcodes 0x60 to 0x6F (R204). -/
def opcodes6 (lo : Nat) : Option (Fixed × (Fields → Instr)) :=
  match lo with
  | 0x0 => some (Fixed.db, Instr.fadd)
  | 0x1 => some (Fixed.db, Instr.fsub)
  | 0x2 => some (Fixed.db, Instr.fmul)
  | 0x3 => some (Fixed.db, Instr.ffma)
  | 0x4 => some (Fixed.db, Instr.ffms)
  | 0x5 => some (Fixed.db, Instr.fnfma)
  | 0x6 => some (Fixed.db, Instr.fdiv)
  | 0x7 => some (Fixed.sbDb, Instr.fsqrt)
  | 0x8 => some (Fixed.db, Instr.fmin)
  | 0x9 => some (Fixed.db, Instr.fmax)
  | 0xA => some (Fixed.db, Instr.fminm)
  | 0xB => some (Fixed.db, Instr.fmaxm)
  | 0xC => some (Fixed.sbDb, Instr.fabs)
  | 0xD => some (Fixed.sbDb, Instr.fneg)
  | 0xE => some (Fixed.db, Instr.fcpys)
  | 0xF => some (Fixed.sbDb, Instr.fclass)
  | _ => none

/-- The opcodes 0x70 to 0x7F (R204). -/
def opcodes7 (lo : Nat) : Option (Fixed × (Fields → Instr)) :=
  match lo with
  | 0x0 => some (Fixed.db, Instr.fceq)
  | 0x1 => some (Fixed.db, Instr.fclt)
  | 0x2 => some (Fixed.db, Instr.fcle)
  | 0x3 => some (Fixed.db, Instr.fcun)
  | 0x4 => some (Fixed.sbDb, Instr.fcvt)
  | 0x5 => some (Fixed.sbDb, Instr.fcvti)
  | 0x6 => some (Fixed.sbDb, Instr.icvtf)
  | 0x7 => some (Fixed.sbDb, Instr.icvtfn)
  | 0x8 => some (Fixed.sbDb, Instr.frint)
  | 0x9 => some (Fixed.db, Instr.fscale)
  | 0xA => some (Fixed.sbDb, Instr.fexpo)
  | 0xB => some (Fixed.sbDb, Instr.fmant)
  | 0xC => some (Fixed.sb, Instr.fsplit)
  | _ => none

/-- The opcodes 0x80 to 0x8F (R204). -/
def opcodes8 (lo : Nat) : Option (Fixed × (Fields → Instr)) :=
  match lo with
  | 0x0 => some (Fixed.sbDb, Instr.fexp2f)
  | 0x1 => some (Fixed.sbDb, Instr.flog2m)
  | 0x2 => some (Fixed.sbDb, Instr.frcp)
  | 0x3 => some (Fixed.sbDb, Instr.frsq)
  | 0x4 => some (Fixed.sbDb, Instr.fsin1)
  | 0x5 => some (Fixed.sbDb, Instr.fcos1)
  | 0x6 => some (Fixed.sbDb, Instr.ftanh)
  | 0x7 => some (Fixed.sbDb, Instr.fsigm)
  | 0x8 => some (Fixed.sbDb, Instr.ferf)
  | _ => none

/-- The opcodes 0x90 to 0x9F (R204). -/
def opcodes9 (lo : Nat) : Option (Fixed × (Fields → Instr)) :=
  match lo with
  | 0x0 => some (Fixed.none, Instr.vsplit)
  | 0x1 => some (Fixed.ports, Instr.vjoin)
  | 0x2 => some (Fixed.db, Instr.vbcast)
  | 0x3 => some (Fixed.sbDb, Instr.vredadd)
  | 0x4 => some (Fixed.sbDb, Instr.vredmax)
  | 0x5 => some (Fixed.sbDb, Instr.vredmin)
  | 0x6 => some (Fixed.sbDb, Instr.vscan)
  | 0x7 => some (Fixed.db, Instr.vperm)
  | 0x8 => some (Fixed.db, Instr.vslide)
  | 0x9 => some (Fixed.db, Instr.vcompact)
  | 0xA => some (Fixed.db, Instr.vexpand)
  | 0xB => some (Fixed.sbDb, Instr.viota)
  | 0xC => some (Fixed.sbDb, Instr.vfredadd)
  | 0xD => some (Fixed.sbDb, Instr.vlen)
  | 0xE => some (Fixed.db, Instr.vdot)
  | _ => none

/-- The opcodes 0xA0 to 0xAF (R204). -/
def opcodesA (lo : Nat) : Option (Fixed × (Fields → Instr)) :=
  match lo with
  | 0x0 => some (Fixed.taSbDb, Instr.tld)
  | 0x1 => some (Fixed.taDb, Instr.tst)
  | 0x2 => some (Fixed.taDb, Instr.mma)
  | 0x3 => some (Fixed.taDb, Instr.mmaz)
  | 0x4 => some (Fixed.taDb, Instr.tcvt)
  | 0x5 => some (Fixed.taSbDb, Instr.ttrans)
  | 0x6 => some (Fixed.taDb, Instr.tadd)
  | 0x7 => some (Fixed.taDb, Instr.tscale)
  | 0x8 => some (Fixed.taSbDb, Instr.gemvb)
  | 0x9 => some (Fixed.taSbDb, Instr.cbload)
  | 0xA => some (Fixed.taSbDb, Instr.tstat)
  | 0xB => some (Fixed.taDb, Instr.tfill)
  | 0xC => some (Fixed.taDb, Instr.tslice)
  | 0xD => some (Fixed.taDb, Instr.tbuild)
  | _ => none

/-- The opcodes 0xB0 to 0xBF (R204). -/
def opcodesB (lo : Nat) : Option (Fixed × (Fields → Instr)) :=
  match lo with
  | 0x0 => some (Fixed.taDb, Instr.sopen)
  | 0x1 => some (Fixed.taSbDb, Instr.sread)
  | 0x2 => some (Fixed.taSbDb, Instr.swrite)
  | 0x3 => some (Fixed.taSbDb, Instr.sclose)
  | 0x4 => some (Fixed.ta, Instr.isect)
  | 0x5 => some (Fixed.ta, Instr.union)
  | 0x6 => some (Fixed.taSbDb, Instr.spaacc)
  | 0x7 => some (Fixed.taSbDb, Instr.spaflush)
  | 0x8 => some (Fixed.taSbDb, Instr.stoplvl)
  | 0x9 => some (Fixed.taSbDb, Instr.scount)
  | _ => none

/-- The opcodes 0xC0 to 0xCF (R204). -/
def opcodesC (lo : Nat) : Option (Fixed × (Fields → Instr)) :=
  match lo with
  | 0x0 => some (Fixed.taDb, Instr.copy)
  | 0x1 => some (Fixed.taDb, Instr.copym)
  | 0x2 => some (Fixed.taDb, Instr.copy2d)
  | 0x3 => some (Fixed.taDb, Instr.shadow)
  | 0x4 => some (Fixed.taSbDb, Instr.publish)
  | 0x5 => some (Fixed.taDb, Instr.feset)
  | 0x6 => some (Fixed.taDb, Instr.feclr)
  | 0x7 => some (Fixed.taSbDb, Instr.copystat)
  | 0x8 => some (Fixed.taSbDb, Instr.waymask)
  | 0x9 => some (Fixed.taDb, Instr.alloc)
  | 0xA => some (Fixed.taSbDb, Instr.free)
  | _ => none

/-- The opcodes 0xD0 to 0xDF (R204). -/
def opcodesD (lo : Nat) : Option (Fixed × (Fields → Instr)) :=
  match lo with
  | 0x0 => some (Fixed.taDb, Instr.ringreg)
  | 0x1 => some (Fixed.taDb, Instr.msend)
  | 0x2 => some (Fixed.taDb, Instr.mrecv)
  | 0x3 => some (Fixed.taSbDb, Instr.mpeek)
  | 0x4 => some (Fixed.taDb, Instr.mack)
  | 0x5 => some (Fixed.taSbDb, Instr.ringdereg)
  | _ => none

/-- The opcodes 0xE0 to 0xEF (R204). -/
def opcodesE (lo : Nat) : Option (Fixed × (Fields → Instr)) :=
  match lo with
  | 0x0 => some (Fixed.taSbDb, Instr.trap)
  | 0x1 => some (Fixed.taDb, Instr.syscall)
  | 0x2 => some (Fixed.taSbDb, Instr.rdsys)
  | 0x3 => some (Fixed.taSbDb, Instr.wrsys)
  | 0x4 => some (Fixed.taSbDb, Instr.yield)
  | 0x5 => some (Fixed.saOnly, Instr.halt)
  | 0x6 => some (Fixed.saOnly, Instr.taskdone)
  | 0x7 => some (Fixed.taSbDb, Instr.taskspawn)
  | 0x8 => some (Fixed.taSbDb, Instr.workid)
  | 0x9 => some (Fixed.taSbDb, Instr.perfrd)
  | 0xA => some (Fixed.taSbDb, Instr.break)
  | 0xB => some (Fixed.taSbDb, Instr.assert)
  | 0xC => some (Fixed.taSbDb, Instr.elog)
  | 0xD => some (Fixed.taSbDb, Instr.clock)
  | _ => none

/-- The opcode map (R204): what an opcode stands for, none where it is reserved. -/
def opcodeMap (op : Nat) : Option (Fixed × (Fields → Instr)) :=
  match op / 16 with
  | 0x0 => opcodes0 (op % 16)
  | 0x1 => opcodes1 (op % 16)
  | 0x2 => opcodes2 (op % 16)
  | 0x3 => opcodes3 (op % 16)
  | 0x4 => opcodes4 (op % 16)
  | 0x5 => opcodes5 (op % 16)
  | 0x6 => opcodes6 (op % 16)
  | 0x7 => opcodes7 (op % 16)
  | 0x8 => opcodes8 (op % 16)
  | 0x9 => opcodes9 (op % 16)
  | 0xA => opcodesA (op % 16)
  | 0xB => opcodesB (op % 16)
  | 0xC => opcodesC (op % 16)
  | 0xD => opcodesD (op % 16)
  | 0xE => opcodesE (op % 16)
  | _ => none

/-- The instruction of a word (R188, R204). -/
def decodeWord (w : W32) : Except DecodeError Instr :=
  match opcodeMap (opOf w) with
  | none => .error .reservedOpcode
  | some (k, c) => if k.ok (fieldsOf w) then .ok (c (fieldsOf w)) else .error .fixedBits

/-- The word that four bytes hold, the lowest address first (R6). -/
def wordOfBytes (b0 b1 b2 b3 : Byte) : W32 := b3 ++ b2 ++ b1 ++ b0

/-- The bytes of a word, the lowest address first (R6). -/
def bytesOfWord (w : W32) : List Byte :=
  [w.extractLsb' 0 8, w.extractLsb' 8 8, w.extractLsb' 16 8, w.extractLsb' 24 8]

/-- The instruction that bytes begin with, and the bytes after it. -/
def decode (bs : List Byte) : Except DecodeError (Instr × List Byte) :=
  match bs with
  | b0 :: b1 :: b2 :: b3 :: rest =>
    match decodeWord (wordOfBytes b0 b1 b2 b3) with
    | .ok i => .ok (i, rest)
    | .error e => .error e
  | _ => .error .short

/-- Opcode and fields of an instruction word; none for an event, which has no word. -/
def Instr.parts (i : Instr) : Option (Nat × Fields) :=
  match i with
  | .coldReset _ _ => none
  | .warmReset _ _ => none
  | .reducedServiceEnd _ _ => none
  | .sageWatchdogRecovery => none
  | .dieBridgeDown => none
  | .hostLsdcfgWrite _ => none
  | .registerWrite _ _ _ _ => none
  | .sysFlagsrcRead _ _ => none
  | .xlatinv _ _ => none
  | .fresumeRetry _ _ => none
  | .fresumeKill _ _ => none
  | .framescrub _ _ _ => none
  | .asidbaseWrite _ _ => none
  | .clwaysWrite _ _ _ => none
  | .slicecfgModeWrite _ _ => none
  | .blkmove _ _ => none
  | .moveInstall => none
  | .moveSweep => none
  | .moveFree => none
  | .pctlSave _ _ => none
  | .saveSettleRound => none
  | .pctlRestore _ _ => none
  | .ctxctlResume _ _ => none
  | .ctxctlKill _ _ => none
  | .scvalWrite _ _ _ => none
  | .scdoneWrite _ _ _ => none
  | .launchSubmit _ _ _ => none
  | .grow _ => none
  | .shrink _ => none
  | .defrag _ => none
  | .reserve _ => none
  | .release _ => none
  | .stripScrubDone => none
  | .rehashWalk => none
  | .layoutCommit => none
  | .stripZeroDone => none
  | .hostApertureAccess _ _ => none
  | .peerAccess _ => none
  | .reductionMerge _ => none
  | .hostCompletionTimeout _ => none
  | .emulate _ _ => none
  | .coreMemoryAccess _ _ _ => none
  | .getS => none
  | .getM => none
  | .upgrade => none
  | .putS => none
  | .putO => none
  | .inv => none
  | .invAck => none
  | .forwardedProbe => none
  | .l2Access => none
  | .memAccess => none
  | .chainPerform => none
  | .leaseGrant => none
  | .leaseExpiry => none
  | .ctrwaitRepresent => none
  | .enginePiece => none
  | .engineCompletionAdd => none
  | .publishPoint => none
  | .splice _ _ _ _ => none
  | .islandStep => none
  | .tokenArrival => none
  | .flitCross => none
  | .creditReturn => none
  | .messageReceive => none
  | .ringEntryComplete => none
  | .messageAck => none
  | .trapRecordWrite => none
  | .thymeEventWrite => none
  | .qosWindowEnd => none
  | .powerPeriod _ => none
  | .launchStart => none
  | .sectionLoad => none
  | .blockEvict => none
  | .blockReload => none
  | .dispatch => none
  | .schedTableDispatch => none
  | .releaseIslands => none
  | .taskRetire => none
  | .launchComplete => none
  | .taskAbort => none
  | .taskRequeue => none
  | .statRecordMerge => none
  | .statRecordApply => none
  | .hostCompletion _ _ => none
  | .peerAcknowledgement _ _ _ => none
  | .mov f => some (0x01, f)
  | .steer f => some (0x02, f)
  | .merge f => some (0x03, f)
  | .select f => some (0x04, f)
  | .gate f => some (0x05, f)
  | .wadv f => some (0x06, f)
  | .wset f => some (0x07, f)
  | .itag f => some (0x08, f)
  | .ctxnew f => some (0x09, f)
  | .ctxsend f => some (0x0A, f)
  | .ctxret f => some (0x0B, f)
  | .ctxfree f => some (0x0C, f)
  | .sink f => some (0x0D, f)
  | .stop f => some (0x0E, f)
  | .add f => some (0x10, f)
  | .sub f => some (0x11, f)
  | .adds f => some (0x12, f)
  | .addsn f => some (0x13, f)
  | .subs f => some (0x14, f)
  | .subsn f => some (0x15, f)
  | .mul f => some (0x16, f)
  | .mulh f => some (0x17, f)
  | .mulhn f => some (0x18, f)
  | .div f => some (0x19, f)
  | .divn f => some (0x1A, f)
  | .rem f => some (0x1B, f)
  | .remn f => some (0x1C, f)
  | .madd f => some (0x1D, f)
  | .neg f => some (0x1E, f)
  | .abs f => some (0x1F, f)
  | .and_ f => some (0x20, f)
  | .or_ f => some (0x21, f)
  | .xor_ f => some (0x22, f)
  | .andn f => some (0x23, f)
  | .not_ f => some (0x24, f)
  | .shl f => some (0x25, f)
  | .shrl f => some (0x26, f)
  | .shra f => some (0x27, f)
  | .rotl f => some (0x28, f)
  | .clz f => some (0x29, f)
  | .ctz f => some (0x2A, f)
  | .popc f => some (0x2B, f)
  | .brev f => some (0x2C, f)
  | .bfx f => some (0x2D, f)
  | .bfi f => some (0x2E, f)
  | .byteperm f => some (0x2F, f)
  | .ceq f => some (0x30, f)
  | .cne f => some (0x31, f)
  | .clt f => some (0x32, f)
  | .cle f => some (0x33, f)
  | .cltn f => some (0x34, f)
  | .clen f => some (0x35, f)
  | .min_ f => some (0x36, f)
  | .max_ f => some (0x37, f)
  | .minn f => some (0x38, f)
  | .maxn f => some (0x39, f)
  | .lea f => some (0x3A, f)
  | .idx f => some (0x3B, f)
  | .sext f => some (0x3C, f)
  | .zext f => some (0x3D, f)
  | .narrow f => some (0x3E, f)
  | .narrows f => some (0x3F, f)
  | .ld f => some (0x40, f)
  | .st f => some (0x41, f)
  | .ldv f => some (0x42, f)
  | .stv f => some (0x43, f)
  | .ldg f => some (0x44, f)
  | .sts f => some (0x45, f)
  | .mnop f => some (0x46, f)
  | .ldfe f => some (0x47, f)
  | .stfe f => some (0x48, f)
  | .region f => some (0x49, f)
  | .pref f => some (0x4A, f)
  | .flushr f => some (0x4B, f)
  | .invr f => some (0x4C, f)
  | .amofmin f => some (0x4D, f)
  | .amofmax f => some (0x4E, f)
  | .ctrread f => some (0x4F, f)
  | .amoadd f => some (0x50, f)
  | .amoand f => some (0x51, f)
  | .amoor f => some (0x52, f)
  | .amoxor f => some (0x53, f)
  | .amomin f => some (0x54, f)
  | .amomax f => some (0x55, f)
  | .amominn f => some (0x56, f)
  | .amomaxn f => some (0x57, f)
  | .amoswap f => some (0x58, f)
  | .amocas f => some (0x59, f)
  | .amofadd f => some (0x5A, f)
  | .ctradd f => some (0x5B, f)
  | .ctrwait f => some (0x5C, f)
  | .lease f => some (0x5D, f)
  | .unlease f => some (0x5E, f)
  | .fence f => some (0x5F, f)
  | .fadd f => some (0x60, f)
  | .fsub f => some (0x61, f)
  | .fmul f => some (0x62, f)
  | .ffma f => some (0x63, f)
  | .ffms f => some (0x64, f)
  | .fnfma f => some (0x65, f)
  | .fdiv f => some (0x66, f)
  | .fsqrt f => some (0x67, f)
  | .fmin f => some (0x68, f)
  | .fmax f => some (0x69, f)
  | .fminm f => some (0x6A, f)
  | .fmaxm f => some (0x6B, f)
  | .fabs f => some (0x6C, f)
  | .fneg f => some (0x6D, f)
  | .fcpys f => some (0x6E, f)
  | .fclass f => some (0x6F, f)
  | .fceq f => some (0x70, f)
  | .fclt f => some (0x71, f)
  | .fcle f => some (0x72, f)
  | .fcun f => some (0x73, f)
  | .fcvt f => some (0x74, f)
  | .fcvti f => some (0x75, f)
  | .icvtf f => some (0x76, f)
  | .icvtfn f => some (0x77, f)
  | .frint f => some (0x78, f)
  | .fscale f => some (0x79, f)
  | .fexpo f => some (0x7A, f)
  | .fmant f => some (0x7B, f)
  | .fsplit f => some (0x7C, f)
  | .fexp2f f => some (0x80, f)
  | .flog2m f => some (0x81, f)
  | .frcp f => some (0x82, f)
  | .frsq f => some (0x83, f)
  | .fsin1 f => some (0x84, f)
  | .fcos1 f => some (0x85, f)
  | .ftanh f => some (0x86, f)
  | .fsigm f => some (0x87, f)
  | .ferf f => some (0x88, f)
  | .vsplit f => some (0x90, f)
  | .vjoin f => some (0x91, f)
  | .vbcast f => some (0x92, f)
  | .vredadd f => some (0x93, f)
  | .vredmax f => some (0x94, f)
  | .vredmin f => some (0x95, f)
  | .vscan f => some (0x96, f)
  | .vperm f => some (0x97, f)
  | .vslide f => some (0x98, f)
  | .vcompact f => some (0x99, f)
  | .vexpand f => some (0x9A, f)
  | .viota f => some (0x9B, f)
  | .vfredadd f => some (0x9C, f)
  | .vlen f => some (0x9D, f)
  | .vdot f => some (0x9E, f)
  | .tld f => some (0xA0, f)
  | .tst f => some (0xA1, f)
  | .mma f => some (0xA2, f)
  | .mmaz f => some (0xA3, f)
  | .tcvt f => some (0xA4, f)
  | .ttrans f => some (0xA5, f)
  | .tadd f => some (0xA6, f)
  | .tscale f => some (0xA7, f)
  | .gemvb f => some (0xA8, f)
  | .cbload f => some (0xA9, f)
  | .tstat f => some (0xAA, f)
  | .tfill f => some (0xAB, f)
  | .tslice f => some (0xAC, f)
  | .tbuild f => some (0xAD, f)
  | .sopen f => some (0xB0, f)
  | .sread f => some (0xB1, f)
  | .swrite f => some (0xB2, f)
  | .sclose f => some (0xB3, f)
  | .isect f => some (0xB4, f)
  | .union f => some (0xB5, f)
  | .spaacc f => some (0xB6, f)
  | .spaflush f => some (0xB7, f)
  | .stoplvl f => some (0xB8, f)
  | .scount f => some (0xB9, f)
  | .copy f => some (0xC0, f)
  | .copym f => some (0xC1, f)
  | .copy2d f => some (0xC2, f)
  | .shadow f => some (0xC3, f)
  | .publish f => some (0xC4, f)
  | .feset f => some (0xC5, f)
  | .feclr f => some (0xC6, f)
  | .copystat f => some (0xC7, f)
  | .waymask f => some (0xC8, f)
  | .alloc f => some (0xC9, f)
  | .free f => some (0xCA, f)
  | .ringreg f => some (0xD0, f)
  | .msend f => some (0xD1, f)
  | .mrecv f => some (0xD2, f)
  | .mpeek f => some (0xD3, f)
  | .mack f => some (0xD4, f)
  | .ringdereg f => some (0xD5, f)
  | .trap f => some (0xE0, f)
  | .syscall f => some (0xE1, f)
  | .rdsys f => some (0xE2, f)
  | .wrsys f => some (0xE3, f)
  | .yield f => some (0xE4, f)
  | .halt f => some (0xE5, f)
  | .taskdone f => some (0xE6, f)
  | .taskspawn f => some (0xE7, f)
  | .workid f => some (0xE8, f)
  | .perfrd f => some (0xE9, f)
  | .break f => some (0xEA, f)
  | .assert f => some (0xEB, f)
  | .elog f => some (0xEC, f)
  | .clock f => some (0xED, f)

/-- The word of an instruction; none for an event. -/
def encodeWord (i : Instr) : Option W32 :=
  match i.parts with
  | some (op, f) => some (wordOf op f)
  | none => none

/-- The bytes of an instruction: four for a word, none for an event. -/
def encode (i : Instr) : List Byte :=
  match encodeWord i with
  | some w => bytesOfWord w
  | none => []

/-- The instruction that the decoder reads from `nbits` bits of value `w`, laid out lowest byte first;
none for an event row, which has no bits, and for bits that the decoder refuses. -/
def decodeTableWord (nbits w : Nat) : Option Instr :=
  if nbits = 0 then none
  else
    let x : W32 := BitVec.ofNat 32 w
    match bytesOfWord x with
    | b0 :: b1 :: b2 :: b3 :: _ =>
      match decode [b0, b1, b2, b3] with
      | .ok (i, _) => some i
      | .error _ => none
    | _ => none

end Sys2Proof
end

