-- ==== Sys2Proof/Config.lean ====
section
/-! DEFINITION. What one part of the family fixes, and the free values: constants with no body, of which
nothing can be proved but that they are there. The log entries say what each stands for. -/

namespace Sys2Proof.Config

/-- Which of the matched sets that may issue does so at a step (R12, R97, R184; log 4, DESIGN CHOICE). -/
opaque choose : Nat → Nat

/-- What else happens at a step, if anything: the row of a unit, of software, of the host or of a peer, with its
parameters and its subject (R12, R97; log 4, DESIGN CHOICE). -/
opaque event : Nat → Option (Instr × Nat × Nat × Nat)

/-- How many fabric cycles a step takes (log 4, DESIGN CHOICE). -/
opaque cycles : Nat → Nat

/-- Which of the values that R293 allows a special function returns: by opcode, format and operand
bits (log 7, DESIGN CHOICE). -/
opaque specialPick : Nat → Nat → Nat → Nat

/-- Which of the listed outcomes the device takes where the spec lists several (R4, R159; log 8, DESIGN CHOICE). -/
opaque outcome : Nat → Nat

/-- What a 64-bit word of host memory holds when a unit of the device reads it by PA: by read and address
(R388; log 22, DESIGN CHOICE). -/
opaque hostWord : Nat → Nat → W64

/-- Whether the link fails the read number `n` of host memory that the device makes in one step (R151, R389; log 22, DESIGN CHOICE). -/
opaque linkFails : Nat → Bool

/-- What a table entry holds that a walk reads through a peer window or in the host window: by step and address (R40;
log 22, DESIGN CHOICE). -/
opaque farEntry : Nat → Nat → W64

/-- Whether boot finds a valid image after the write of RESETCTL that a step makes (R445, R449; log 108, DESIGN CHOICE). -/
opaque imageValid : Nat → Bool

/-- Whether a switch has merged the peer-window operation number `n` (R149, log 54, DESIGN CHOICE): a free value. -/
opaque peerMerged : Nat → Bool

/-- Which track of its channel carries the hop of a route, by partition, load index, route and position (R365; log 9, DESIGN CHOICE). -/
opaque track : Nat → Nat → Nat → Nat → Nat

/-- Flits of memory requests and replies that are ejected at a cluster in one step, by step and cluster (R367, R411; log 70, DESIGN
CHOICE). -/
opaque memFlits : Nat → Nat → Nat

/-- An error that strikes the device's storage (R403): one bit, which is corrected where it stands, or more, in an HBM
block, a granule of scratch (`space` 0 element stores, 1 clusters, 2 slices; `addr` as State lists it), a line of a cache,
the operand of a token, a keep register, an entry of a store buffer, a translation cache, an accumulator (`k` below 8) or operand
slot (8 and above) of an island, an element that waits at a stream node or an entry of its tile, the tables of a block or of a node,
or a partition's shadow storage. -/
inductive StoreError where
  | corrected (strip unit : Nat) (location : W64)
  | block (pa : Nat)
  | granule (space addr : Nat)
  | l1 (cluster asid line : Nat)
  | l2 (slice asid line : Nat)
  | operand (token : Nat)
  | keep (part ctx cluster elem k : Nat)
  | entry (op : Nat)
  | xlat (slice asid page size : Nat)
  | island (part lsec chan k : Nat)
  | queue (part lsec chan ctx node j : Nat) (second : Bool)
  | tile (part lsec chan ctx node j : Nat)
  | table (part cluster elem half : Nat)
  | node (part lsec chan idx : Nat)
  | saved (part bank token : Nat)
deriving DecidableEq, Repr

/-- The error that strikes at a step, if one does (R403; log 24, DESIGN CHOICE). -/
opaque error : Nat → Option StoreError

/-- How a record names the place of an error, by unit and address: unit-local, which the spec does not lay out (R400;
log 24, DESIGN CHOICE). -/
opaque errorPlace : Nat → Nat → W64

/-- DEVID's fuse values at `State.reset` (R28; log 2, DESIGN CHOICE): an N960-16 of the first production stepping. An N960-14
is `State.cold` of its own fuse values. -/
def devid : W64 := 0xFFFF010960100000

end Sys2Proof.Config
end

