-- ==== Sys2Proof/Machine/Mem.lean ====
section
/-! DEFINITION. Byte memory in its canonical form: addresses strictly rising, no entry equal to zero,
which is what a byte nothing has written reads as (log 1, DESIGN CHOICE). Wider accesses are little-endian (R6). -/

namespace Sys2Proof.Machine

/-- What a byte that nothing has written reads as (log 1, DESIGN CHOICE). -/
def unwritten : Byte := 0

/-- One byte of a memory. -/
def Memory.get (m : Memory) (a : Nat) : Byte :=
  match m with
  | [] => unwritten
  | c :: r => if c.1 = a then c.2 else if a < c.1 then unwritten else Memory.get r a

/-- The memory with one byte written, in canonical form. -/
def Memory.put (m : Memory) (a : Nat) (b : Byte) : Memory :=
  match m with
  | [] => if b = unwritten then [] else [(a, b)]
  | c :: r =>
    if c.1 < a then c :: Memory.put r a b
    else if c.1 = a then (if b = unwritten then r else (a, b) :: r)
    else if b = unwritten then c :: r else (a, b) :: c :: r

/-- The bytes `a .. a + n - 1`. -/
def Memory.read (m : Memory) (a n : Nat) : List Byte :=
  match n with
  | 0 => []
  | n + 1 => m.get a :: Memory.read m (a + 1) n

/-- The memory with the bytes written from `a` upward. -/
def Memory.write (m : Memory) (a : Nat) (bs : List Byte) : Memory :=
  match bs with
  | [] => m
  | b :: bs => Memory.write (m.put a b) (a + 1) bs

/-- The memory with `n` bytes from `a` upward zero. -/
def Memory.zero (m : Memory) (a n : Nat) : Memory :=
  m.filter fun c => c.1 < a || a + n ≤ c.1

/-- The memory keeps its canonical form. -/
def Memory.wf (m : Memory) : Bool :=
  match m with
  | [] => true
  | c :: r => c.2 != unwritten && r.all (fun d => c.1 < d.1) && Memory.wf r

/-- The number that `n` bytes from `a` hold (R6). -/
def Memory.word (m : Memory) (a n : Nat) : Nat := leNat (m.read a n)

end Sys2Proof.Machine
end

