-- ==== Sys2Proof/Machine/State.lean ====
section
/-! DEFINITION. The machine's state as plain data, in eight groups: the device and Sage, the
partitions, the contexts, the fabric (tables, tokens, hops), the memories and the directory, the
engines and rings, the loaded sections, and the model's own bookkeeping. Then what stops a run, and
the state after a cold reset. The rule behind each field stands in INVENTORY.md. -/

namespace Sys2Proof.Machine

/-- The device, its links and Sage (R28, R143 to R155, R411, R416 to R421, R444 to R453). -/
structure Dev where
  clock      : Nat
  devid      : W64
  strips     : List W64
  frames     : List W64
  layoutreq  : W64
  layoutstat : W64
  layout     : Option Layout
  journal    : List JRec
  exports    : List W64
  lsdcfg     : W64
  board      : W64
  lsdUp      : Bool
  lsoUp      : Bool
  bridge     : Bool
  pwrcap     : W64
  thymectl   : W64
  thyme      : List Thyme
  mbstat     : Nat
  reduced    : Option Nat
  kept       : List Part
  fast       : Bool
  grants     : List Nat
  locks      : List Nat
  posted     : List Posted
  asked      : List HostAsk
  traps      : List TrapRec
deriving DecidableEq, Repr

/-- Tables, tokens and hops of the element fabric (R183 to R191, R366 to R373, R396, R411). -/
structure Fabric where
  slots   : Tbl (Nat × Nat × Nat) Slot
  elems   : Tbl (Nat × Nat) ElemState
  ctrs    : Tbl Nat ClusterCtr
  net     : List Token
  waiting : List Token
  ready   : List Firing
  held    : List Token
  packets : List Packet
  hops    : List Hop
  inject  : List Flit
  pcache  : List (PcKey × Place)
deriving DecidableEq, Repr

/-- The memories, caches, directory and leases (R32, R41, R53 to R63, R65, R111 to R123). `marks` lists the poisoned
64-byte blocks of HBM (level `.mem`) and granules of scratch, each with the offsets of the bytes that no store has
overwritten yet (R403). -/
structure MemSys where
  hbm     : Memory
  es      : Memory
  cs      : Memory
  ss      : Memory
  full    : List (Level × Nat)
  marks   : Tbl (Level × Nat) (List Nat)
  regions : List Region
  guards  : List (Level × Nat)
  clways  : Tbl Nat Nat
  ways    : List WayChange
  l1      : List L1Line
  l2      : List L2Line
  xlat    : List Xlat
  reqs    : List HReq
  txns    : List Txn
  cmsgs   : List CMsg
  leases  : List Lease
deriving DecidableEq, Repr

/-- Memory operations, engine operations, rings and messages (R84, R134, R156, R375 to R386; log 27, DEDUCED). -/
structure Work where
  ops     : List Op
  gathers : List Gather
  engs    : List EngOp
  rings   : List Ring
  msgs    : List Msg
  waits   : List Waiting
  outs    : List OutsideReq
deriving DecidableEq, Repr

/-- Loaded sections, island and stream channels, statistics records (R307, R315, R338, R392). -/
structure Loaded where
  sections : List Section
  channels : List Channel
  stats    : List StatRec
deriving DecidableEq, Repr

/-- The model's own fields (logs 3, 4 and 5, DESIGN CHOICE): the rows named to be performed next, the firing that
issues, the subject of the event that is performed, the steps taken, the free values drawn, the next
identifier, the value that the last read from outside a context returned, and how the last host request through an aperture
completed. -/
structure Run where
  agenda  : List Action
  cur     : Firing
  subj    : Subject
  steps   : Nat
  fresh   : Nat
  nextId  : Nat
  busRead : W64
  done    : Completion
deriving DecidableEq, Repr

/-- The state of the machine. -/
structure State where
  dev   : Dev
  parts : List Part
  ctxs  : List Ctx
  fab   : Fabric
  mem   : MemSys
  work  : Work
  ldr   : Loaded
  run   : Run
deriving DecidableEq, Repr

/-- What stops a run. -/
inductive Fault where
  /-- Neither flash image passes its check: Sage stops with MBSTAT.CODE = 0x0F (R445), and only a
  reset goes on. Raised by `step`. Safe: the spec says that the machine stops here. -/
  | noValidImage
deriving DecidableEq, Repr

/-- What the model refuses. -/
inductive Refusal where
  /-- A row that has no meaning yet; raised by its arm of `exec`. Safe: the machine goes on where the
  model does not. -/
  | notModelled (mnemonic : String)
deriving DecidableEq, Repr

/-- An empty slot (R185). -/
def Slot.zero : Slot := ⟨0, 0, 0, 0⟩

/-- The names of nothing. -/
def Names.zero : Names := ⟨0, 0, false, 0, 0⟩

/-- The firing that the model's latch holds at reset (log 3, DESIGN CHOICE). -/
def Firing.zero : Firing := ⟨Names.zero, 0, 0, 0, Slot.zero, 0, 0, 1, none, none, none⟩

/-- The state word of a strip: STATE and PART (R416). -/
def stripWord (state part : Nat) : W64 := w64 (state * 32 + part)

/-- The 12 slices of each strip of a run, in row order (R18, R70). -/
def stripSlices (first count : Nat) : List Nat :=
  (upto count).flatMap fun i => (upto 12).map fun r => (first + i) * 16 + r

/-- A partition number that no partition uses, with every register at its reset value (R8, R9; log 13, DESIGN CHOICE). -/
def Part.free : Part :=
  { live := false, first := 0, count := 0, asidbase := 0, mode := false, cfgBusy := false,
    modeWait := none, slicemap := [], oldmap := none, leasecap := 16, hostwin := 0, hostaper := 0,
    blkmove := 0, move := none, forwards := [], pctl := 0, gated := false, saving := false,
    bank0 := none, bank1 := none, trapcfg := [4, 4], trapptr := [0, 0],
    tenants := List.replicate 64 0, frac := 64, lat := [], qcfg := List.replicate 64 0,
    qstatus := List.replicate 64 0, qseq := List.replicate 64 0, held := [], running := [],
    started := 0, lastq := [63, 63, 63, 63], turn := [0, 0, 0, 0],
    handles := [],
    codebooks := List.replicate 4 (List.replicate 256 0), shadows := [], scval := [], scheld := [],
    frFail := [], scrubbed := [], tasks := [], heads := [], fresumes := [],
    aka := none, stopped := false, skips := [], aborts := [] }

/-- A partition as it is formed on a run of strips (R69, R70, R415). -/
def Part.formed (old : Part) (first count : Nat) : Part :=
  { old with live := true, first := first, count := count, slicemap := stripSlices first count }

/-- Thyme of a strip, empty (R452). -/
def Thyme.empty : Thyme := ⟨[], 0, 0, []⟩

/-- Bit s of DEVID's PRESENT: strip s is present (R28). -/
def stripPresent (d : W64) (s : Nat) : Bool := d.getLsbD (48 + s)

/-- Strip b, the lowest-numbered one present (R445). -/
def bootStripOf (d : W64) : Nat := ((upto 16).find? (stripPresent d)).getD 0

/-- The strips at the end of boot step 3 (R26, R416, R445): FUSED where DEVID says that a strip is absent, else FREE; strip b
is a MEMBER of partition 0. -/
def bootStrips (d : W64) : List W64 := (upto 16).map fun s =>
  if !stripPresent d s then stripWord 6 0 else if s = bootStripOf d then stripWord 3 0 else stripWord 0 0

/-- The grants before the first period's end: 64 cycles to each strip that is present (R26, R451). -/
def fullGrants (d : W64) : List Nat := (upto 16).map fun s => if stripPresent d s then 64 else 0

/-- The device of the part that DEVID names, at a cold reset whose boot has reached the end of step 3 (R27, R444, R445,
R446): partition 0 holds strip b in reduced service (log 12, DESIGN CHOICE). -/
def Dev.cold (d b : W64) : Dev :=
  { clock := 0, devid := d,
    strips := bootStrips d,
    frames := List.replicate 16 0, layoutreq := 0, layoutstat := 0, layout := none, journal := [],
    exports := List.replicate 16 0, lsdcfg := 0, board := b, lsdUp := false, lsoUp := false, bridge := true, pwrcap := 1900,
    thymectl := 0, thyme := List.replicate 16 Thyme.empty, mbstat := 0, reduced := some (bootStripOf d), kept := [],
    fast := false, grants := fullGrants d, locks := [], posted := [], asked := [], traps := [] }

/-- The part of the family that DEVID names, right after a cold reset (R27, R444): boot steps 1 to 3 of R445 are done, and
partition 0 runs in reduced service on strip b (R446). LSDCFG holds 0 here; COLD_RESET fills it from the board record `b` (R143). -/
def State.cold (d b : W64) : State :=
  { dev := Dev.cold d b,
    parts := Part.formed Part.free (bootStripOf d) 1 :: List.replicate 15 Part.free,
    ctxs := [],
    fab := { slots := [], elems := [], ctrs := [], net := [], waiting := [], ready := [], held := [],
             packets := [], hops := [], inject := [], pcache := [] },
    mem := { hbm := [], es := [], cs := [], ss := [], full := [], marks := [], regions := [], guards := [], clways := [],
             ways := [], l1 := [], l2 := [], xlat := [], reqs := [], txns := [], cmsgs := [],
             leases := [] },
    work := { ops := [], gathers := [], engs := [], rings := [], msgs := [], waits := [], outs := [] },
    ldr := { sections := [], channels := [], stats := [] },
    run := { agenda := [], cur := Firing.zero, subj := ⟨0, 0, 0⟩, steps := 0, fresh := 0, nextId := 1,
             busRead := 0, done := .success } }

/-- The machine right after a cold reset: the part whose fuses `Config.devid` gives (log 2, DESIGN CHOICE), on a board whose record
gives LSDCFG 0 (log 81, DESIGN CHOICE). -/
def State.reset : State := State.cold Config.devid 0

/-- The outcome of a step that goes on (Host/Core.lean). -/
abbrev Result := Host.Outcome State Fault Refusal

end Sys2Proof.Machine
end

