-- ==== Sys2Proof/Machine/Ops.lean ====
section
/-! DEFINITION. The named operations over the state: geometry, partitions and contexts, slots and keep
registers, the raising of a trap record (R398 to R400) and the resume of a halted context (R405), and
the sending of tokens along links (R199 to R203, R356, R369). -/

namespace Sys2Proof

/-! ### Formats (R191) -/

/-- Code of a format. -/
def Fmt.code : Fmt → Nat
  | .i8 => 0 | .i16 => 1 | .i32 => 2 | .i64 => 3 | .f16 => 4 | .bf16 => 5 | .f32 => 6 | .f64 => 7
  | .p => 8 | .a => 9 | .t => 10

/-- Format of a code; none for a reserved code. -/
def Fmt.ofCode : Nat → Option Fmt
  | 0 => some .i8 | 1 => some .i16 | 2 => some .i32 | 3 => some .i64 | 4 => some .f16
  | 5 => some .bf16 | 6 => some .f32 | 7 => some .f64 | 8 => some .p | 9 => some .a | 10 => some .t
  | _ => none

/-- Bits of an element. -/
def Fmt.width : Fmt → Nat
  | .i8 => 8 | .i16 => 16 | .i32 => 32 | .i64 => 64 | .f16 => 16 | .bf16 => 16 | .f32 => 32
  | .f64 => 64 | .p => 1 | .a => 64 | .t => 64

/-- I8 to I64. -/
def Fmt.isInt : Fmt → Bool
  | .i8 | .i16 | .i32 | .i64 => true
  | _ => false

/-- F16 to F64. -/
def Fmt.isFloat : Fmt → Bool
  | .f16 | .bf16 | .f32 | .f64 => true
  | _ => false

end Sys2Proof

namespace Sys2Proof.Machine

/-! ### Geometry (R18) -/

/-- Strip, column and row of a cluster ID. -/
def clusterStrip (c : Nat) : Nat := c / 128
def clusterCol (c : Nat) : Nat := c / 16 % 8
def clusterRow (c : Nat) : Nat := c % 16
/-- Cluster ID from strip, column and row. -/
def mkCluster (s c r : Nat) : Nat := s * 128 + c * 16 + r
/-- Strip of a slice ID. -/
def sliceStrip (sl : Nat) : Nat := sl / 16

/-- The slice in the row of a cluster: its near slice (R68). An island or a stream port stands at column 0 of the
first or the last row of its strip (R19, R355), and that row's slice is the one nearest to it (R356). -/
def nearSlice (cluster : Nat) : Nat := 16 * clusterStrip cluster + clusterRow cluster

/-- Logical cluster index q of a run (R178): strip order, then column, then row. -/
def clusterOfQ (first q : Nat) : Nat := mkCluster (first + q / 84) (q % 84 / 12) (q % 12)

/-- The same from a strip that may lie before strip 0: a cluster of no strip where q stays before it. -/
def clusterOfBase (base : Int) (q : Nat) : Nat :=
  let st := base + (q / 84 : Nat)
  mkCluster (if st < 0 then 16 else st.toNat) (q % 84 / 12) (q % 12)

/-! ### Partitions and contexts -/

/-- Partition `p`; a free number where `p` is above 15. -/
def State.part (s : State) (p : Nat) : Part := at! s.parts p Part.free

/-- The state with partition `p` replaced. -/
def State.setPart (s : State) (p : Nat) (x : Part) : State := { s with parts := setAt s.parts p x }

/-- The state with partition `p` passed through `f`. -/
def State.modPart (s : State) (p : Nat) (f : Part → Part) : State := s.setPart p (f (s.part p))

/-- The strip belongs to the partition's run. -/
def Part.hasStrip (p : Part) (st : Nat) : Bool := p.live && p.first ≤ st && st < p.first + p.count

/-- The cluster ID names a cluster of the partition (R18). -/
def Part.hasCluster (p : Part) (c : Nat) : Bool :=
  p.hasStrip (clusterStrip c) && clusterCol c < 7 && clusterRow c < 12

/-- A cluster ID as the partition's units read it after a DEFRAG: one of the old run names its counterpart (R432). -/
def Part.alias_ (x : Part) (c : Nat) : Nat :=
  match x.aka with
  | some (o, n, k) => if o ≤ clusterStrip c && clusterStrip c < o + k then c - 128 * o + 128 * n else c
  | none => c

/-- Every cluster of a partition in the order of R178. -/
def Part.clusters (p : Part) : List Nat := (upto (84 * p.count)).map (clusterOfQ p.first)

/-- The partition whose run holds a strip. -/
def State.partOfStrip (s : State) (st : Nat) : Option Nat :=
  (upto 16).find? fun p => (s.part p).hasStrip st

/-- The live context `c` of partition `p`. -/
def State.ctx? (s : State) (p c : Nat) : Option Ctx :=
  s.ctxs.find? fun x => x.part == p && x.id == c && x.live

/-- The state with the live context `c` of `p` passed through `f`. -/
def State.modCtx (s : State) (p c : Nat) (f : Ctx → Ctx) : State :=
  { s with ctxs := modFirst (fun x => x.part == p && x.id == c && x.live) f s.ctxs }

/-- ASID of a context, 0 where it is free. -/
def State.asidOf (s : State) (p c : Nat) : Nat :=
  match s.ctx? p c with
  | some x => x.asid
  | none => 0

/-- The next identifier, and the state in which it is used. -/
def State.newId (s : State) : Nat × State :=
  (s.run.nextId, { s with run := { s.run with nextId := s.run.nextId + 1 } })

/-- A free choice among `n` listed outcomes (R4), and the state in which it is drawn. -/
def State.draw (s : State) (n : Nat) : Nat × State :=
  (Config.outcome s.run.fresh % n, { s with run := { s.run with fresh := s.run.fresh + 1 } })

/-! ### Slots, keep registers and counters of elements -/

/-- The record of a slot (R185). -/
def State.slot (s : State) (cl el i : Nat) : Slot := s.fab.slots.getD (cl, el, i) Slot.zero

/-- The state with a slot written. -/
def State.setSlot (s : State) (cl el i : Nat) (v : Slot) : State :=
  { s with fab := { s.fab with slots := s.fab.slots.set (cl, el, i) v } }

/-- An element that has done nothing yet (R198, R396, R411). -/
def ElemState.zero : ElemState := ⟨0, 0, 0, [], [], none, []⟩

/-- The counters and issue window of an element. -/
def State.elem (s : State) (cl el : Nat) : ElemState := s.fab.elems.getD (cl, el) ElemState.zero

/-- The state with an element's counters passed through `f`. -/
def State.modElem (s : State) (cl el : Nat) (f : ElemState → ElemState) : State :=
  { s with fab := { s.fab with elems := s.fab.elems.set (cl, el) (f (s.elem cl el)) } }

/-- The counters of a cluster (R411). -/
def State.ctr (s : State) (cl : Nat) : ClusterCtr := s.fab.ctrs.getD cl ⟨0, 0, 0, 0⟩

/-- The state with a cluster's counters passed through `f`. -/
def State.modCtr (s : State) (cl : Nat) (f : ClusterCtr → ClusterCtr) : State :=
  { s with fab := { s.fab with ctrs := s.fab.ctrs.set cl (f (s.ctr cl)) } }

/-- A 64-bit count that saturates (R198, R411). -/
def satCount (x n : Nat) : Nat := min (x + n) (2 ^ 64 - 1)

/-- Keep register `k` of a context on an element (R189): ARG0 to ARG3 in K0 to K3 of a dispatched
context until a write, and 0 elsewhere (R177, R226). -/
def Ctx.keep (x : Ctx) (cl el k : Nat) : W64 := x.keeps.getD (cl, el, k) (at! x.kinit k 0)

/-- The context with a keep register written (R407). -/
def Ctx.setKeep (x : Ctx) (cl el k : Nat) (v : W64) : Ctx :=
  { x with keeps := x.keeps.set (cl, el, k) v, badKeeps := x.badKeeps.filter fun e => e ≠ (cl, el, k) }

/-! ### Trap records: taking an exception (R398 to R400) -/

/-- What a record says beside its site (R400). -/
structure Trap where
  cause : Nat
  sub   : Nat
  addr  : Nat := 0
  info  : Nat := 0
  wait  : Bool := false
  code  : Nat := 0
deriving DecidableEq, Repr

/-- The ring of a cause (R400). -/
def Trap.ring (t : Trap) : Nat :=
  if t.cause = 0x04 || t.cause = 0x0B || t.cause = 0x13 then 1
  else if t.cause = 0x05 && (t.sub = 1 || t.sub = 2 || t.sub = 4 || t.sub = 5) then 1
  else 0

/-- The record of a trap at a site, laid out as R398 gives. -/
def trapRecord (w : Site) (t : Trap) (ring : Nat) : TrapRec :=
  let slot := if w.names.node then 4 * w.names.idx + w.port else w.names.idx
  { part := w.names.part, ring := ring, strip := w.strip,
    w0 := w64 (t.cause % 256 * 2 ^ 56 + t.sub % 256 * 2 ^ 48 + w.names.lsec % 64 * 2 ^ 42
      + slot % 32 * 2 ^ 37 + w.names.block % 4096 * 2 ^ 25 + w.ctx % 4096 * 2 ^ 13
      + w.asid % 4096 * 2 + (if t.wait then 1 else 0)),
    w1 := w64 t.addr,
    w2 := if t.cause = 0x0B then Config.errorPlace w.unit t.addr else w64 t.info,
    w3 := w64 (w.wave % 2 ^ 32 * 2 ^ 32 + (if w.names.node then 2 ^ 31 else 0)
      + w.unit % 2048 * 2 ^ 16 + t.code % 2 ^ 16) }

/-- A record enters the buffer of its strip; TRAP_RECORD_WRITE takes it from there (R399). -/
def State.pushTrap (s : State) (r : TrapRec) : State :=
  { s with dev := { s.dev with traps := s.dev.traps ++ [r] } }

/-- A trap is taken: its record is raised, and nothing else of the machine stops (R398, R400). -/
def State.raise (s : State) (w : Site) (t : Trap) : State := s.pushTrap (trapRecord w t t.ring)

/-- The buffer of a strip has room for a record: 64 a strip (R399). -/
def State.trapRoom (s : State) (strip : Nat) : Bool :=
  (s.dev.traps.filter fun r => r.strip == strip).length < 64

/-- Stop every issue of a context (Halt of R405). -/
def State.halt (s : State) (p c : Nat) : State := s.modCtx p c fun x => { x with halted := true }

/-- UNIT of a firing (R398): the cluster of an element, the slice nearest to an island or a stream port. -/
def Names.unit (n : Names) (cluster : Nat) : Nat := if n.node then nearSlice cluster else cluster

/-- The site of a firing at its element, island or stream port. -/
def Firing.site (f : Firing) (s : State) : Site :=
  { names := f.names, port := 0, asid := s.asidOf f.names.part f.ctx, ctx := f.ctx, wave := f.wave,
    unit := f.names.unit f.cluster, strip := clusterStrip f.cluster }

/-- Bytes of the payload of a token of run `n` (R191): a P run fills a 32-bit word. -/
def payloadBytes (f : Fmt) (n : Nat) : Nat := if f = .p then 4 else n * (f.width / 8)

/-! ### Placement and sending (R201 to R203, R355, R356, R369) -/

/-- The word of a placement entry (R355). -/
def PlEntry.word (e : PlEntry) : W64 :=
  w64 ((if e.valid then 2 ^ 31 else 0) + (if e.moving then 2 ^ 30 else 0) + (if e.espin then 2 ^ 29 else 0)
    + e.place.cluster % 2048 * 2 ^ 18 + e.place.elem % 16 * 2 ^ 14 + e.place.half % 2 * 2 ^ 13)

/-- The entry that a word of a placement table holds (R355). -/
def plEntry (w : W64) : PlEntry :=
  ⟨bit w 31, bit w 30, bit w 29, ⟨bits w 28 18, bits w 17 14, bits w 13 13⟩⟩

/-- The placement entries of a section, by block and channel. -/
def Section.places (x : Section) : Tbl Nat PlEntry := x.table.map fun e => (e.1, plEntry e.2)

/-- The section with an entry written. -/
def Section.setPlace (x : Section) (num : Nat) (e : PlEntry) : Section := { x with table := x.table.set num e.word }

/-- The loaded section of a load index. -/
def State.section? (s : State) (p l : Nat) : Option Section :=
  s.ldr.sections.find? fun x => x.part == p && x.lsec == l

/-- The state with a loaded section passed through `f`. -/
def State.modSection (s : State) (p l : Nat) (f : Section → Section) : State :=
  { s with ldr := { s.ldr with
      sections := modFirst (fun x => x.part == p && x.lsec == l) f s.ldr.sections } }

/-- The key of a block or channel in a placement table: channels follow the 4,096 blocks. -/
def Names.num (n : Names) : Nat := if n.node then 4096 + n.block else n.block

/-- The port through which what bears the names sends, at a cluster (R356). -/
def Names.sender (n : Names) (cluster : Nat) : Port := ⟨n.node, n.unit cluster⟩

/-- The placement cache with an entry taken to its front; the least recently used of the unit leaves
when the unit already holds its number of entries: 1,024 a cluster, 256 a slice (R356). -/
def touchCache (c : List (PcKey × Place)) (k : PcKey) (v : Place) : List (PcKey × Place) :=
  let rest := c.filter fun e => e.1 ≠ k
  let mine := rest.filter fun e => e.1.slice == k.slice && e.1.unit == k.unit
  let cap := if k.slice then 256 else 1024
  if mine.length < cap then (k, v) :: rest
  else
    match mine.getLast? with
    | none => (k, v) :: rest
    | some l => (k, v) :: rest.filter fun e => e.1 ≠ l.1

/-- The place that a sender resolves a destination to (R356): its cache, else the table; none when
the entry has V = 0 or the section is loaded no longer. -/
def State.resolve (s : State) (from_ : Port) (n : Names) : Option Place × State :=
  let k : PcKey := ⟨from_.slice, from_.unit, n.part, n.lsec, n.num⟩
  let put (v : Place) : State := { s with fab := { s.fab with pcache := touchCache s.fab.pcache k v } }
  match (s.fab.pcache.find? fun e => e.1 = k) with
  | some e => (some e.2, put e.2)
  | none =>
    match s.section? n.part n.lsec with
    | none => (none, s)
    | some sec =>
      match sec.places.get n.num with
      | some e => if e.valid then (some e.place, put e.place) else (none, s)
      | none => (none, s)

/-- Direction and length of hop `i` of a route (R369). The reserved length code 3 reads as 16 (log 85, DESIGN CHOICE). -/
def SecImage.hop (x : SecImage) (idx i : Nat) : Nat × Nat :=
  let w := at! x.hops (idx + i / 16) 0
  let h := bits w (4 * (i % 16) + 3) (4 * (i % 16))
  (h % 4, match h / 4 with | 0 => 1 | 1 => 4 | _ => 16)

/-- Column and row of a cluster among all columns of the device (R18). -/
def clusterPos (c : Nat) : Nat × Nat := (8 * clusterStrip c + clusterCol c, clusterRow c)

/-- The position after a hop. -/
def hopEnd (pos : Nat × Nat) (h : Nat × Nat) : Nat × Nat :=
  match h.1 with
  | 0 => (pos.1, pos.2 - h.2)
  | 1 => (pos.1 + h.2, pos.2)
  | 2 => (pos.1, pos.2 + h.2)
  | _ => (pos.1 - h.2, pos.2)

/-- The stops of a route with the hop that leaves each: position, direction, length. -/
def routeStops (sec : Section) (idx : Nat) : Nat → Nat → Nat × Nat → List ((Nat × Nat) × (Nat × Nat))
  | 0, _, _ => []
  | n + 1, i, pos =>
    let h := sec.image.hop idx i
    (pos, h) :: routeStops sec idx n (i + 1) (hopEnd pos h)

/-- Tracks of a length in a channel (R365). -/
def trackCount (len : Nat) : Nat :=
  match len with
  | 1 => 16 | 4 => 8 | _ => 4

/-- The index of the record of a route's hop, made where it is new. Which track carries it is free (log 9, DESIGN CHOICE). -/
def State.hopIndex (s : State) (route : Nat × Nat × Nat) (pos : Nat × Nat) (h : Nat × Nat) : Nat × State :=
  let p := route.1
  let k := Config.track p route.2.1 route.2.2 (16 * pos.1 + pos.2) % trackCount h.2
  match s.fab.hops.findIdx? fun x =>
      x.part == p && x.col == pos.1 && x.row == pos.2 && x.dir == h.1 && x.len == h.2 && x.track == k with
  | some i => (i, s)
  | none =>
    (s.fab.hops.length,
      { s with fab := { s.fab with hops := s.fab.hops ++
          [⟨p, pos.1, pos.2, h.1, h.2, k, [], none, none, 0, false, false⟩] } })

/-- The indices of the hops of a path. -/
def State.hopIndices (s : State) (route : Nat × Nat × Nat) : List ((Nat × Nat) × (Nat × Nat)) → List Nat × State
  | [] => ([], s)
  | (pos, h) :: r =>
    let (i, s) := s.hopIndex route pos h
    let (is, s) := s.hopIndices route r
    (i :: is, s)

/-- The switch box of a unit's interface: that of its cluster, or that of its slice, in the last column of its strip (R18, R365). -/
def Port.pos (w : Port) : Nat × Nat := if w.slice then (8 * (w.unit / 16) + 7, w.unit % 16) else clusterPos w.unit

/-- The hops of a route from one box to another, with the dateline hop counted along them:
none when the route does not have both as stops in that order (R369, R380), and for a number beyond the route table (log 101, DESIGN
CHOICE). -/
def routePath (sec : Section) (route : Nat) (src dst : Nat × Nat) :
    Option (List ((Nat × Nat) × (Nat × Nat)) × Nat) :=
  let w := at! sec.image.routes (route - 1) 0
  if route = 0 || bits w 15 8 = 0 then none
  else
    let n := bits w 15 8
    let ring := bit w 0
    let stops := routeStops sec (bits w 35 24) n 0 (clusterPos (clusterOfBase sec.base (bits w 58 48)))
    match stops.findIdx? fun x => x.1 = src with
    | none => none
    | some e =>
      let line := if ring then stops.drop e ++ stops.take e else stops.drop e
      if src = dst then some ([], 0xFF) else
      match line.findIdx? fun x => hopEnd x.1 x.2 = dst with
      | none => none
      | some k =>
        let dl := bits w 23 16
        some (line.take (k + 1), if dl = 0xFF then 0xFF else (dl + n - e) % n)

/-- A packet enters its route: `n` flits wait at the injecting port, in order (R366, R367). -/
def State.injectPacket (s : State) (route : Nat × Nat × Nat) (id n : Nat) (isMsg : Bool)
    (path : List ((Nat × Nat) × (Nat × Nat))) (dateline : Nat) : State :=
  let (hs, s) := s.hopIndices route path
  let t := s.run.nextId
  let s := { s with run := { s.run with nextId := s.run.nextId + n } }
  { s with fab := { s.fab with
      packets := s.fab.packets ++ [⟨id, isMsg, route, false, hs, dateline, n⟩],
      inject := s.fab.inject ++ (upto n).map fun i => ⟨id, i, 0, false, t + i⟩ } }

/-- Flits of a token (R367). -/
def tokenFlits (t : Token) : Nat := (10 + payloadBytes t.fmt t.data.length + 31) / 32

/-- A token leaves a unit for its destination (R356): resolved once, then on its way; held where the
destination's block is not loaded (R187, R394), and dropped where the section is loaded no longer
(R392). On a listed route its flits cross hop by hop; route 0, whose hops no table holds, is
taken whole, and so is a listed route that does not serve the two boxes (log 9, DESIGN CHOICE). -/
def State.dispatchToken (s : State) (from_ : Port) (route : Nat) (t : Token) : State :=
  let (id, s) := s.newId
  let t := { t with id := id, flits := 0, at_ := none }
  match s.section? t.dest.part t.dest.lsec with
  | none => s
  | some sec =>
    let (pl, s) := s.resolve from_ t.dest
    match pl with
    | none => { s with fab := { s.fab with held := s.fab.held ++ [t] } }
    | some pl =>
      let n := tokenFlits t
      let t := { t with at_ := some (pl.cluster, pl.elem), flits := n }
      let s := { s with fab := { s.fab with net := s.fab.net ++ [t] } }
      match routePath sec route from_.pos (t.dest.sender pl.cluster).pos with
      | some (h :: hs, dl) => s.injectPacket (t.dest.part, t.dest.lsec, route) id n false (h :: hs) dl
      | _ => s

/-- KIND, BLOCK, SLOT, PORT and ROUTE of a link (R201). -/
def linkKind (l : W32) : Nat := l.toNat / 2 ^ 30
def linkBlock (l : W32) : Nat := l.toNat / 2 ^ 18 % 4096
def linkSlot (l : W32) : Nat := l.toNat / 2 ^ 13 % 32
def linkPort (l : W32) : Nat := l.toNat / 2 ^ 11 % 4
def linkRoute (l : W32) : Nat := l.toNat % 2048

/-- The section has an element block of that number. -/
def SecImage.hasBlock (i : SecImage) (b : Nat) : Bool :=
  i.blocks.any fun r => r.first ≤ b && b < r.first + r.group

/-- Where a link of kind 00, 01 or 10 leads in a section: names and port; none for PORT = 3 or a block
or channel that the section does not have (R208). -/
def linkDest (sec : Section) (src : Names) (l : W32) : Option (Names × Nat) :=
  match linkKind l with
  | 2 =>
    if linkSlot l % 4 = 3 || sec.image.chans.length ≤ linkBlock l then none
    else some (⟨src.part, src.lsec, true, linkBlock l, linkSlot l / 4⟩, linkSlot l % 4)
  | _ =>
    if linkPort l = 3 || !sec.image.hasBlock (linkBlock l) then none
    else some (⟨src.part, src.lsec, false, linkBlock l, linkSlot l⟩, linkPort l)

/-- A token leaves on one link that is no fan-out (R202); a link with no destination discards it with
the LINK trap, which names the block and slot whose firing produced it (R208). -/
def State.sendPlain (s : State) (w : Site) (from_ : Port) (l : W32) (t : Token) : State :=
  match s.section? w.names.part w.names.lsec with
  | none => s
  | some sec =>
    match linkDest sec w.names l with
    | none => s.raise { w with port := 0 } { cause := 0x01, sub := 6 }
    | some (n, port) => s.dispatchToken from_ (linkRoute l) { t with dest := n, port := port }

/-- The links that a link entry stands for: itself, or those of its fan-out list (R203). -/
def SecImage.links (i : SecImage) (l : W32) : List W32 :=
  if linkKind l = 3 then (at! i.fanout (linkRoute l) []).takeWhile fun x => x ≠ 0 else [l]

/-- A token leaves on every link of a fan-out list, in list order (R203). -/
def State.sendList (s : State) (w : Site) (from_ : Port) (t : Token) : List W32 → State
  | [] => s
  | l :: ls => if l = 0 then s else (s.sendPlain w from_ l t).sendList w from_ t ls

/-- A token leaves on a link (R202, R203). -/
def State.sendLink (s : State) (w : Site) (from_ : Port) (l : W32) (t : Token) : State :=
  if linkKind l = 3 then
    match s.section? w.names.part w.names.lsec with
    | none => s
    | some sec => s.sendList w from_ t (at! sec.image.fanout (linkRoute l) [])
  else s.sendPlain w from_ l t

/-- The token after tag action `ta` on LK1 or LK0, and the trap of R200 when it cannot take it (R199,
R200). -/
def tagAction (ta : Nat) (lk1 : Bool) (t : Token) : Token × Option Nat :=
  let n := t.data.length
  let move (d : Nat) : Token × Option Nat :=
    if t.wave + d + n - 1 ≤ 2 ^ 32 - 1 then ({ t with wave := t.wave + d }, none)
    else ({ t with poison := true }, some 4)
  match ta with
  | 1 => move 1
  | 2 => move n
  | 3 => if lk1 then move 1 else (t, none)
  | 4 => if t.stop < 7 then ({ t with stop := t.stop + 1 }, none) else ({ t with poison := true }, some 5)
  | 5 => if 0 < t.stop then ({ t with stop := t.stop - 1 }, none) else ({ t with poison := true }, some 5)
  | 6 => ({ t with stop := 0 }, none)
  | _ => (t, none)

/-- A port operand of the firing is poisoned: it raises no trap of its own (R190). -/
def Firing.anyPoison (f : Firing) : Bool :=
  let p (t : Option Token) : Bool := match t with
    | some t => t.poison
    | none => false
  p f.a || p f.b || p f.c

/-- Out(LK0) or Out(LK1) of a firing with tag action `ta`: the tag action, its trap, and the send (R199, R200, R202);
a firing with a poisoned operand raises no trap (R190), another raises one for each token that it sends (log 100, DESIGN
CHOICE). -/
def State.out (s : State) (f : Firing) (ta : Nat) (lk1 : Bool) (t : Token) : State :=
  let (t, e) := tagAction ta lk1 t
  let s := match e with
    | some sub => if f.anyPoison then s else s.raise (f.site s) { cause := 0x01, sub := sub }
    | none => s
  s.sendLink (f.site s) (f.names.sender f.cluster) (if lk1 then f.slot.lk1 else f.slot.lk0) t

/-- A result of a firing before it is sent: wave, stop level, format, poison and elements. -/
structure Res where
  wave   : Nat
  stop   : Nat
  fmt    : Fmt
  poison : Bool
  data   : List W64
deriving DecidableEq, Repr

/-- A token of a result; its destination is set as it is sent. -/
def Res.token (r : Res) (ctx : Nat) : Token :=
  { id := 0, dest := Names.zero, port := 0, ctx := ctx, wave := r.wave, stop := r.stop, fmt := r.fmt,
    poison := r.poison, data := r.data, at_ := none, flits := 0 }

/-- Elements `lo .. lo + n - 1` of a token, with their waves (Slice of R183). -/
def Token.slice (t : Token) (lo n : Nat) : Token :=
  { t with wave := t.wave + lo, data := Machine.slice t.data lo n }

/-- The maximal runs of equal values: start, length, value. -/
def runs (ps : List Bool) : List (Nat × Nat × Bool) :=
  let rec go : List Bool → Nat → List (Nat × Nat × Bool)
    | [], _ => []
    | p :: r, i =>
      match go r (i + 1) with
      | (j, n, q) :: rest => if p = q then (i, n + 1, p) :: rest else (i, 1, p) :: (j, n, q) :: rest
      | [] => [(i, 1, p)]
  go ps 0

/-- A steered result in pieces (SendSteered of R196). -/
def State.sendPieces (s : State) (f : Firing) (ta sel : Nat) (t : Token) : List (Nat × Nat × Bool) → State
  | [] => s
  | (lo, n, p) :: r =>
    let piece := t.slice lo n
    let s :=
      if sel = 4 then s.out f ta (!p) piece
      else if (sel = 5 && p) || (sel = 6 && !p) then s.out f ta false piece
      else s
    s.sendPieces f ta sel t r

/-! ### Range registers (R34, R35) -/

/-- Rights that an access needs (R34, R39): read, write, fetch. -/
structure Need where
  rd : Bool := false
  w  : Bool := false
  x  : Bool := false
deriving DecidableEq, Repr

/-- The flags in bits [3:1] of a word (X, W, RD of R34) hold what is needed. -/
def Need.inRange (n : Need) (va : W64) : Bool :=
  (!n.rd || bit va 1) && (!n.w || bit va 2) && (!n.x || bit va 3)

/-- RangeCheck over a set of ranges (R35): the IA of the first byte, none for RangeFault. -/
def rangeCheck (ranges : List (W64 × W64)) (va n : Nat) (need : Need) : Option Nat :=
  match ranges with
  | [] => none
  | (v, i) :: r =>
    let sz := bits v 13 8
    let size := 2 ^ sz
    let a := va % 2 ^ 57
    let base := alignDown (bits v 56 16 * 2 ^ 16) size
    if bit v 0 && 16 ≤ sz && sz ≤ 52 && base ≤ a && a < base + size then
      if base + size < a + n || !need.inRange v then none
      else some (alignDown (bits i 51 16 * 2 ^ 16) size + (a - base))
    else rangeCheck r va n need

/-! ### Statistics (R198, R307, R309) -/

/-- The tree `n` of a section. -/
def SecImage.tree (i : SecImage) (n : Nat) : Option TreeDecl := i.trees.find? fun t => t.n == n

/-- The unit of an instruction (its block or channel) is a leaf of a tree (R307). -/
def TreeDecl.hasLeaf (t : TreeDecl) (n : Names) : Bool :=
  match t.leaves with
  | none => true
  | some l => l.contains (n.node, n.block)

/-- A count record enters the statistics network at the unit that `names` names, for the context `ctx`;
it is discarded where its tree has no leaf there (R307). -/
def State.sendStat (s : State) (names : Names) (ctx tree : Nat) (r : StatRec) : State :=
  match s.section? names.part names.lsec, s.ctx? names.part ctx with
  | some sec, some x =>
    match sec.image.tree tree with
    | some t =>
      if t.hasLeaf names then
        let va := addr64 (at! x.args t.arg 0).toNat t.off
        { s with ldr := { s.ldr with stats := s.ldr.stats ++
            [{ r with part := names.part, lsec := names.lsec, tree := tree, asid := x.asid, va := va,
                      ia := rangeCheck x.ranges va 64 { w := true }, ctx := ctx }] } }
      else s
    | none => s
  | _, _ => s

/-- A record of nothing. -/
def StatRec.zero : StatRec := ⟨0, 0, 0, 0, 0, none, 0, 0, 0, 0, 0, 0, 0, 0⟩

/-- The statistics tap (R198): TAPCNT rises by the run, and where tree 0 has a leaf at this block a
record with TAPS = n is sent to it (R307). -/
def State.tapCount (s : State) (f : Firing) (n : Nat) : State :=
  let s := s.modElem f.cluster f.elem fun e => { e with tap := satCount e.tap n }
  s.sendStat f.names f.ctx 0 { StatRec.zero with taps := n }

/-! ### Sending a result (R195, R196) -/

/-- The predicate bits of a firing's port C, when it carries format P. -/
def Firing.pred (f : Firing) : Option (List Bool) :=
  match f.c with
  | some t => if t.fmt = .p then some (t.data.map fun b => b.toNat % 2 == 1) else none
  | none => none

/-- A result is sent on the links that destination value `d` names (R195). A steered one goes in
pieces under the predicate of port C, and whole and poisoned where that token is poisoned. A firing whose two results both go to
the tap counts there once for each (R198; log 86, DESIGN CHOICE). -/
def State.sendTo (s : State) (f : Firing) (ta d : Nat) (r : Res) : State :=
  let t := r.token f.ctx
  match d with
  | 0 => s
  | 1 => s.out f ta false t
  | 2 => s.out f ta true t
  | 3 => (s.out f ta false t).out f ta true t
  | 7 => s.tapCount f f.run
  | _ =>
    match f.c with
    | none => s
    | some c =>
      if c.poison then
        let t := { t with poison := true }
        if d = 4 then (s.out f ta false t).out f ta true t else s.out f ta false t
      else s.sendPieces f ta d t (runs ((c.data.take t.data.length).map fun b => b.toNat % 2 == 1))

/-! ### Resume (R405) -/

/-- A result that BREAK held leaves on the links that its DA names. -/
def State.sendHeld (s : State) (h : HeldOut) : State :=
  let s := if h.da = 1 || h.da = 3 then s.out h.fr 0 false h.tok else s
  if h.da = 2 || h.da = 3 then s.out h.fr 0 true h.tok else s

/-- A halted context resumes: it issues again, and the results that BREAK held are sent (R405). -/
def State.resume (s : State) (p c : Nat) : State :=
  match s.ctx? p c with
  | none => s
  | some x =>
    if x.halted then
      x.resume.foldl (fun s h => s.sendHeld h) (s.modCtx p c fun y => { y with halted := false, resume := [] })
    else s

end Sys2Proof.Machine
end

