-- ==== Sys2Proof/Machine/Flags.lean ====
section
/-! DEFINITION. The sticky flags of SYS.FLAGS (R268, R269): their bits, and how a firing ORs its own into
its context's. -/

namespace Sys2Proof.Machine

/-- The flags of an operation or of a context (R268): NV, DZ, OF, UF, NX in bits 4 to 0. -/
abbrev FpFlags := BitVec 5

/-- No flag. -/
def fNone : FpFlags := 0
/-- Invalid operation. -/
def fNV : FpFlags := 16
/-- Division by zero. -/
def fDZ : FpFlags := 8
/-- Overflow, with which NX is set. -/
def fOF : FpFlags := 5
/-- Underflow. -/
def fUF : FpFlags := 2
/-- Inexact. -/
def fNX : FpFlags := 1

/-- The flags where a condition holds. -/
def flagIf (c : Bool) (f : FpFlags) : FpFlags := if c then f else fNone

/-- The OR of the flags of all elements of a firing (R268). -/
def orFlags (fs : List FpFlags) : FpFlags := fs.foldl (· ||| ·) fNone

/-- A firing ORs its flags into its context's SYS.FLAGS, before any result is sent (R269). -/
def State.orFlags (s : State) (p c : Nat) (f : FpFlags) : State :=
  s.modCtx p c fun x => { x with flags := x.flags ||| f }

end Sys2Proof.Machine
end

