-- ==== Sys2Proof/Machine/Float.lean ====
section
/-! DEFINITION. Floating-point arithmetic on exact values (R265 to R282): operands are read as exact
numbers, the result is formed exactly and rounded once. -/

namespace Sys2Proof.Machine

/-- A binary format: exponent bits and fraction bits (R265). -/
structure FpFmt where
  eb : Nat
  mb : Nat
deriving DecidableEq, Repr

/-- The layout of a floating element format (R265). -/
def fpOf (f : Fmt) : FpFmt :=
  match f with
  | .f16 => ⟨5, 10⟩
  | .bf16 => ⟨8, 7⟩
  | .f64 => ⟨11, 52⟩
  | _ => ⟨8, 23⟩

/-- The exponent bias. -/
def FpFmt.bias (k : FpFmt) : Int := (2 ^ (k.eb - 1) : Nat) - 1
/-- The least normal exponent. -/
def FpFmt.emin (k : FpFmt) : Int := 1 - k.bias
/-- The pattern of +∞. -/
def FpFmt.inf (k : FpFmt) : Nat := (2 ^ k.eb - 1) * 2 ^ k.mb
/-- The largest finite value. -/
def FpFmt.maxFin (k : FpFmt) : Nat := k.inf - 1
/-- The canonical quiet NaN. -/
def FpFmt.nan (k : FpFmt) : Nat := k.inf + 2 ^ (k.mb - 1)
/-- The sign bit. -/
def FpFmt.sign (k : FpFmt) : Nat := 2 ^ (k.eb + k.mb)
/-- A pattern with a sign. -/
def FpFmt.signed (k : FpFmt) (neg : Bool) (x : Nat) : Nat := if neg then k.sign + x else x

/-- What a pattern stands for: a NaN (signalling or not), an infinity, or `± m × 2 ^ e`. -/
inductive FVal where
  | nan (sig : Bool)
  | inf (neg : Bool)
  | fin (neg : Bool) (m : Nat) (e : Int)
deriving DecidableEq, Repr

/-- The value of a pattern (R265, R266). -/
def unpack (k : FpFmt) (x : Nat) : FVal :=
  let s := x.testBit (k.eb + k.mb)
  let ex := x / 2 ^ k.mb % 2 ^ k.eb
  let fr := x % 2 ^ k.mb
  if ex = 2 ^ k.eb - 1 then (if fr = 0 then .inf s else .nan (fr < 2 ^ (k.mb - 1)))
  else if ex = 0 then .fin s fr (k.emin - k.mb)
  else .fin s (2 ^ k.mb + fr) (k.emin - k.mb + (ex - 1 : Nat))

/-- The value is a NaN. -/
def FVal.isNaN : FVal → Bool
  | .nan _ => true
  | _ => false

/-- The value is a signalling NaN. -/
def FVal.isSig : FVal → Bool
  | .nan b => b
  | _ => false

/-- The value is a zero. -/
def FVal.isZero : FVal → Bool
  | .fin _ m _ => m == 0
  | _ => false

/-- The value with its sign inverted. -/
def FVal.neg : FVal → FVal
  | .nan b => .nan b
  | .inf s => .inf (!s)
  | .fin s m e => .fin (!s) m e

/-- Rounding modes (R275). -/
inductive Rm where
  | rne | rtz | rdn | rup | rmm
deriving DecidableEq, Repr

/-- Rounding mode of a code (R275). -/
def Rm.ofCode (n : Nat) : Rm :=
  match n with
  | 1 => .rtz
  | 2 => .rdn
  | 3 => .rup
  | 4 => .rmm
  | _ => .rne

/-- The magnitude rounds away from zero: `q` is the kept part, `cmp` how the rest compares with half
a unit (0 zero, 1 below, 2 equal, 3 above). -/
def Rm.up (rm : Rm) (neg : Bool) (q cmp : Nat) : Bool :=
  match rm with
  | .rne => cmp == 3 || (cmp == 2 && q % 2 == 1)
  | .rtz => false
  | .rdn => neg && cmp != 0
  | .rup => !neg && cmp != 0
  | .rmm => cmp ≥ 2

/-- `m / 2 ^ sh` rounded to an integer, and whether that changed it. -/
def roundShift (rm : Rm) (neg : Bool) (m : Nat) (sh : Int) : Nat × Bool :=
  if sh ≤ 0 then (m * 2 ^ (-sh).toNat, false)
  else
    let n := sh.toNat
    let q := if m.log2 + 2 < n then 0 else m / 2 ^ n
    let cmp :=
      if m = 0 then 0
      else if m.log2 + 2 < n then 1
      else
        let r := m % 2 ^ n
        if r = 0 then 0 else if r < 2 ^ (n - 1) then 1 else if r = 2 ^ (n - 1) then 2 else 3
    (if rm.up neg q cmp then q + 1 else q, cmp != 0)

/-- The result of an overflow (R276). -/
def FpFmt.overflow (k : FpFmt) (rm : Rm) (neg : Bool) : Nat :=
  let toInf := match rm with
    | .rne => true
    | .rmm => true
    | .rtz => false
    | .rdn => neg
    | .rup => !neg
  k.signed neg (if toInf then k.inf else k.maxFin)

/-- `± m × 2 ^ e` rounded into a format, with OF, UF and NX (R266, R268). Where the exact value lies
between two such numbers, `m` carries a one in a last place below every place that rounding keeps. -/
def roundFp (k : FpFmt) (rm : Rm) (neg : Bool) (m : Nat) (e : Int) : Nat × FpFlags :=
  if m = 0 then (k.signed neg 0, fNone)
  else
    let top : Int := e + m.log2
    let lead := max top k.emin
    let (q, inexact) := roundShift rm neg m (lead - k.mb - e)
    let x := q + (lead - k.emin).toNat * 2 ^ k.mb
    if k.inf ≤ x then (k.overflow rm neg, fOF)
    else
      let tiny := top < k.emin &&
        (top < k.emin - 1 || (roundShift rm neg m (top - k.mb - e)).1 < 2 ^ (k.mb + 1))
      (k.signed neg x, flagIf inexact fNX ||| flagIf (tiny && inexact) fUF)

/-- A signed sum `i × 2 ^ e` rounded; an exact zero takes the sign `zneg`. -/
def roundInt (k : FpFmt) (rm : Rm) (i : Int) (e : Int) (zneg : Bool) : Nat × FpFlags :=
  if i = 0 then (k.signed zneg 0, fNone) else roundFp k rm (i < 0) i.natAbs e

/-- `± m` as an integer. -/
def signedM (neg : Bool) (m : Nat) : Int := if neg then - (m : Int) else m

/-- The sum of two finite values as an integer and an exponent. -/
def sumInt (n1 : Bool) (m1 : Nat) (e1 : Int) (n2 : Bool) (m2 : Nat) (e2 : Int) : Int × Int :=
  let e := min e1 e2
  (signedM n1 (m1 * 2 ^ (e1 - e).toNat) + signedM n2 (m2 * 2 ^ (e2 - e).toNat), e)

/-- a + b of two values (R266, R267, R271). -/
def addVals (k : FpFmt) (a b : FVal) : Nat × FpFlags :=
  match a, b with
  | .nan x, .nan y => (k.nan, flagIf (x || y) fNV)
  | .nan x, _ => (k.nan, flagIf x fNV)
  | _, .nan y => (k.nan, flagIf y fNV)
  | .inf s, .inf t => if s = t then (k.signed s k.inf, fNone) else (k.nan, fNV)
  | .inf s, _ => (k.signed s k.inf, fNone)
  | _, .inf t => (k.signed t k.inf, fNone)
  | .fin n1 m1 e1, .fin n2 m2 e2 =>
    let (i, e) := sumInt n1 m1 e1 n2 m2 e2
    roundInt k .rne i e (n1 && n2 && m1 == 0 && m2 == 0)

/-- FADD (R271). -/
def fpAdd (k : FpFmt) (a b : Nat) : Nat × FpFlags := addVals k (unpack k a) (unpack k b)
/-- FSUB (R271). -/
def fpSub (k : FpFmt) (a b : Nat) : Nat × FpFlags := addVals k (unpack k a) (unpack k b).neg

/-- a × b of two values (R271). -/
def mulVals (k : FpFmt) (a b : FVal) : Nat × FpFlags :=
  match a, b with
  | .nan x, .nan y => (k.nan, flagIf (x || y) fNV)
  | .nan x, _ => (k.nan, flagIf x fNV)
  | _, .nan y => (k.nan, flagIf y fNV)
  | .inf s, .inf t => (k.signed (s != t) k.inf, fNone)
  | .inf s, .fin t m _ => if m = 0 then (k.nan, fNV) else (k.signed (s != t) k.inf, fNone)
  | .fin s m _, .inf t => if m = 0 then (k.nan, fNV) else (k.signed (s != t) k.inf, fNone)
  | .fin n1 m1 e1, .fin n2 m2 e2 => roundFp k .rne (n1 != n2) (m1 * m2) (e1 + e2)

/-- FMUL (R271). -/
def fpMul (k : FpFmt) (a b : Nat) : Nat × FpFlags := mulVals k (unpack k a) (unpack k b)

/-- a × b + c with one rounding; 0 × ∞ is a NaN with NV whatever c is (R271). -/
def fmaVals (k : FpFmt) (a b c : FVal) : Nat × FpFlags :=
  let anySig := a.isSig || b.isSig || c.isSig
  match a, b with
  | .nan _, _ => (k.nan, flagIf anySig fNV)
  | _, .nan _ => (k.nan, flagIf anySig fNV)
  | .inf s, .inf t => prodInf (s != t) anySig
  | .inf s, .fin t m _ => if m = 0 then (k.nan, fNV) else prodInf (s != t) anySig
  | .fin s m _, .inf t => if m = 0 then (k.nan, fNV) else prodInf (s != t) anySig
  | .fin n1 m1 e1, .fin n2 m2 e2 =>
    match c with
    | .nan x => (k.nan, flagIf x fNV)
    | .inf t => (k.signed t k.inf, fNone)
    | .fin n3 m3 e3 =>
      let (i, e) := sumInt (n1 != n2) (m1 * m2) (e1 + e2) n3 m3 e3
      roundInt k .rne i e ((n1 != n2) && n3 && m1 * m2 == 0 && m3 == 0)
where
  /-- An infinite product and the addend. -/
  prodInf (s : Bool) (anySig : Bool) : Nat × FpFlags :=
    match c with
    | .nan _ => (k.nan, flagIf anySig fNV)
    | .inf t => if s = t then (k.signed s k.inf, fNone) else (k.nan, fNV)
    | .fin _ _ _ => (k.signed s k.inf, fNone)

/-- FFMA, FFMS and FNFMA (R271). -/
def fpFma (k : FpFmt) (a b c : Nat) : Nat × FpFlags := fmaVals k (unpack k a) (unpack k b) (unpack k c)
def fpFms (k : FpFmt) (a b c : Nat) : Nat × FpFlags :=
  fmaVals k (unpack k a) (unpack k b) (unpack k c).neg
def fpFnma (k : FpFmt) (a b c : Nat) : Nat × FpFlags :=
  fmaVals k (unpack k a).neg (unpack k b) (unpack k c)

/-- A ratio of positive integers, `num / den × 2 ^ e`, rounded once. -/
def roundRatio (k : FpFmt) (rm : Rm) (neg : Bool) (num den : Nat) (e : Int) : Nat × FpFlags :=
  let sh := k.mb + 4 + den.log2 - num.log2
  let q := num * 2 ^ sh / den
  let r := num * 2 ^ sh % den
  roundFp k rm neg (2 * q + (if r = 0 then 0 else 1)) (e - sh - 1)

/-- FDIV (R271). -/
def fpDiv (k : FpFmt) (a b : Nat) : Nat × FpFlags :=
  match unpack k a, unpack k b with
  | .nan x, .nan y => (k.nan, flagIf (x || y) fNV)
  | .nan x, _ => (k.nan, flagIf x fNV)
  | _, .nan y => (k.nan, flagIf y fNV)
  | .inf _, .inf _ => (k.nan, fNV)
  | .inf s, .fin t _ _ => (k.signed (s != t) k.inf, fNone)
  | .fin s _ _, .inf t => (k.signed (s != t) 0, fNone)
  | .fin n1 m1 e1, .fin n2 m2 e2 =>
    if m2 = 0 then (if m1 = 0 then (k.nan, fNV) else (k.signed (n1 != n2) k.inf, fDZ))
    else if m1 = 0 then (k.signed (n1 != n2) 0, fNone)
    else roundRatio k .rne (n1 != n2) m1 m2 (e1 - e2)

/-- The integer square root, bit by bit from bit `n` down: `r` is the root so far. -/
def isqrtAux (x : Nat) : Nat → Nat → Nat
  | 0, r => if (r + 1) * (r + 1) ≤ x then r + 1 else r
  | n + 1, r =>
    let t := r + 2 ^ (n + 1)
    isqrtAux x n (if t * t ≤ x then t else r)

/-- ⌊√x⌋. -/
def isqrt (x : Nat) : Nat := isqrtAux x (x.log2 / 2 + 1) 0

/-- FSQRT (R271). -/
def fpSqrt (k : FpFmt) (a : Nat) : Nat × FpFlags :=
  match unpack k a with
  | .nan x => (k.nan, flagIf x fNV)
  | .inf s => if s then (k.nan, fNV) else (k.inf, fNone)
  | .fin s m e =>
    if m = 0 then (k.signed s 0, fNone)
    else if s then (k.nan, fNV)
    else
      let sh := 2 * (k.mb + 4) + (if e % 2 = 0 then 0 else 1)
      let x := m * 2 ^ sh
      let r := isqrt x
      roundFp k .rne false (2 * r + (if r * r = x then 0 else 1)) ((e - sh) / 2 - 1)

/-- a < b of two values that are no NaN, with −0 below +0 where `zeros` says so (R272, R274). -/
def fpLess (a b : FVal) (zeros : Bool) : Bool :=
  match a, b with
  | .nan _, _ => false
  | _, .nan _ => false
  | .inf s, .inf t => s && !t
  | .inf s, .fin _ _ _ => s
  | .fin _ _ _, .inf t => !t
  | .fin n1 m1 e1, .fin n2 m2 e2 =>
    if m1 = 0 && m2 = 0 then zeros && n1 && !n2
    else
      let e := min e1 e2
      signedM n1 (m1 * 2 ^ (e1 - e).toNat) < signedM n2 (m2 * 2 ^ (e2 - e).toNat)

/-- FMIN and FMAX: minimumNumber and maximumNumber (R272). -/
def fpMinMax (k : FpFmt) (wantMax : Bool) (a b : Nat) : Nat × FpFlags :=
  let x := unpack k a
  let y := unpack k b
  let nv := flagIf (x.isSig || y.isSig) fNV
  if x.isNaN && y.isNaN then (k.nan, nv)
  else if x.isNaN then (b, nv)
  else if y.isNaN then (a, nv)
  else if fpLess y x true != wantMax then (b, fNone) else (a, fNone)

/-- FMINM and FMAXM: minimum and maximum (R272). -/
def fpMinMaxM (k : FpFmt) (wantMax : Bool) (a b : Nat) : Nat × FpFlags :=
  let x := unpack k a
  let y := unpack k b
  if x.isNaN || y.isNaN then (k.nan, flagIf (x.isSig || y.isSig) fNV)
  else fpMinMax k wantMax a b

/-- FABS, FNEG and FCPYS act on bits alone (R271). -/
def fpAbs (k : FpFmt) (a : Nat) : Nat := a % k.sign
def fpNeg (k : FpFmt) (a : Nat) : Nat := if a < k.sign then a + k.sign else a - k.sign
def fpCpys (k : FpFmt) (a b : Nat) : Nat := a % k.sign + b / k.sign % 2 * k.sign

/-- FCLASS: the class mask (R273). -/
def fpClass (k : FpFmt) (a : Nat) : Nat :=
  match unpack k a with
  | .nan true => 2 ^ 8
  | .nan false => 2 ^ 9
  | .inf true => 2 ^ 0
  | .inf false => 2 ^ 7
  | .fin s m _ =>
    let sub := m < 2 ^ k.mb
    if m = 0 then (if s then 2 ^ 3 else 2 ^ 4)
    else if sub then (if s then 2 ^ 2 else 2 ^ 5)
    else if s then 2 ^ 1 else 2 ^ 6

/-- a = b, with −0 equal to +0. -/
def fpEqVals (a b : FVal) : Bool := !a.isNaN && !b.isNaN && !fpLess a b false && !fpLess b a false

/-- FCEQ, FCLT, FCLE and FCUN (R274). -/
def fpCmp (k : FpFmt) (op : Nat) (a b : Nat) : Bool × FpFlags :=
  let x := unpack k a
  let y := unpack k b
  let any := x.isNaN || y.isNaN
  let sig := flagIf (x.isSig || y.isSig) fNV
  match op with
  | 0 => (fpEqVals x y, sig)
  | 1 => (fpLess x y false, flagIf any fNV)
  | 2 => (!any && !fpLess y x false, flagIf any fNV)
  | _ => (any, sig)

/-- A floating value in another format (R276). -/
def fpCvt (src dst : FpFmt) (rm : Rm) (a : Nat) : Nat × FpFlags :=
  match unpack src a with
  | .nan x => (dst.nan, flagIf x fNV)
  | .inf s => (dst.signed s dst.inf, fNone)
  | .fin s m e => roundFp dst rm s m e

/-- A floating value as an integer of `w` bits (R277). -/
def fpToInt (k : FpFmt) (rm : Rm) (uns : Bool) (w a : Nat) : Nat × FpFlags :=
  let hi : Int := if uns then (2 ^ w : Nat) - 1 else (2 ^ (w - 1) : Nat) - 1
  let lo : Int := if uns then 0 else - ((2 ^ (w - 1) : Nat) : Int)
  match unpack k a with
  | .nan _ => (0, fNV)
  | .inf s => (wrap w (if s then lo else hi), fNV)
  | .fin s m e =>
    let (q, inexact) := roundShift rm s m (-e)
    let i := signedM s q
    if hi < i then (wrap w hi, fNV)
    else if i < lo then (wrap w lo, fNV)
    else (wrap w i, flagIf inexact fNX)

/-- An integer as a floating value (R278). -/
def fpOfInt (k : FpFmt) (rm : Rm) (i : Int) : Nat × FpFlags := roundInt k rm i 0 false

/-- FRINT (R279). -/
def fpRint (k : FpFmt) (rm : Rm) (exact : Bool) (a : Nat) : Nat × FpFlags :=
  match unpack k a with
  | .nan x => (k.nan, flagIf x fNV)
  | .inf s => (k.signed s k.inf, fNone)
  | .fin s m e =>
    let (q, inexact) := roundShift rm s m (-e)
    ((roundFp k .rne s q 0).1, flagIf (exact && inexact) fNX)

/-- FSCALE (R280). -/
def fpScale (k : FpFmt) (a b : Nat) : Nat × FpFlags :=
  let x := unpack k a
  let y := unpack k b
  if x.isNaN || y.isNaN then (k.nan, flagIf (x.isSig || y.isSig) fNV)
  else
    match x with
    | .fin s m e =>
      if m = 0 then (a, fNone)
      else
        let lim : Int := 2 ^ 20
        let n : Int := match y with
          | .inf t => if t then -lim else lim
          | .fin t q f =>
            -- a value of 2 ^ 21 or more lies past the clamp whatever its low bits are
            if f > 21 && q != 0 then (if t then -lim else lim)
            else
              let i := signedM t (roundShift .rne t q (-f)).1
              if i > lim then lim else if i < -lim then -lim else i
          | .nan _ => 0
        roundFp k .rne s m (e + n)
    | _ => (a, fNone)

/-- FEXPO (R281). -/
def fpExpo (k : FpFmt) (a : Nat) : Nat × FpFlags :=
  match unpack k a with
  | .nan x => (k.nan, flagIf x fNV)
  | .inf _ => (k.inf, fNone)
  | .fin _ m e =>
    if m = 0 then (k.signed true k.inf, fDZ) else fpOfInt k .rne (e + m.log2)

/-- FMANT (R281). -/
def fpMant (k : FpFmt) (a : Nat) : Nat × FpFlags :=
  match unpack k a with
  | .nan x => (k.nan, flagIf x fNV)
  | .inf _ => (k.nan, fNV)
  | .fin s m _ => if m = 0 then (a, fNone) else roundFp k .rne s m (- (m.log2 : Int))

/-- FSPLIT: integral part and fraction (R282). -/
def fpSplit (k : FpFmt) (a : Nat) : (Nat × Nat) × FpFlags :=
  match unpack k a with
  | .nan x => ((k.nan, k.nan), flagIf x fNV)
  | .inf s => ((k.signed s k.inf, k.signed s 0), fNone)
  | .fin s m e =>
    if e ≥ 0 then ((a, k.signed s 0), fNone)
    else
      let n := (-e).toNat
      (((roundFp k .rne s (m / 2 ^ n) 0).1, (roundFp k .rne s (m % 2 ^ n) e).1), fNone)

/-- TreeSum over a list (R290), level by level; `fuel` is at least the number of levels. -/
def treeSum (k : FpFmt) : Nat → List Nat → FpFlags → Nat × FpFlags
  | 0, v, fl => (at! v 0 0, fl)
  | fuel + 1, v, fl =>
    match v with
    | [] => (0, fl)
    | [x] => (x, fl)
    | v =>
      let (u, fl') := pairUp v fl
      treeSum k fuel u fl'
where
  /-- One level: neighbours added, an odd last value carried up. -/
  pairUp : List Nat → FpFlags → List Nat × FpFlags
    | x :: y :: r, fl =>
      let (z, g) := fpAdd k x y
      let (u, fl') := pairUp r (fl ||| g)
      (z :: u, fl')
    | r, fl => (r, fl)

/-- A NaN becomes the canonical one; a signalling one raises NV (R267). -/
def canonNaN (k : FpFmt) (x : Nat) : Nat × FpFlags :=
  match unpack k x with
  | .nan s => (k.nan, flagIf s fNV)
  | _ => (x, fNone)

end Sys2Proof.Machine
end

