-- ==== Sys2Proof/Machine/Packet.lean ====
section
/-! DEFINITION. Tile packets as bytes: headers and their refusal (R303), the layout of the body (R304), exact
decoding of every matrix format with its scales and the CB2 codebook (R297 to R302), encoding with the choice
of scales (R311, R312), and the counts of both (R306). -/

namespace Sys2Proof.Machine

/-! ### Formats and headers (R297, R299, R303) -/

/-- Bits of an element, bytes of a K unit, bytes of a block of 32 (0: no scales), and EMAX of a matrix format
(R297, R299). -/
def tileBits (f : Nat) : Nat :=
  match f with
  | 0 => 32 | 1 => 16 | 2 => 16 | 3 => 8 | 4 => 8 | 5 => 6 | 6 => 4 | 7 => 8 | 8 => 4 | _ => 2
def tileUnit (f : Nat) : Nat :=
  match f with
  | 0 => 4 | 1 => 2 | 2 => 2 | 5 => 3 | 9 => 2 | _ => 1
def tileBlock (f : Nat) : Nat :=
  match f with
  | 3 => 32 | 4 => 32 | 5 => 24 | 6 => 16 | 9 => 8 | _ => 0
def tileEmax (f : Nat) : Int :=
  match f with
  | 3 => 8 | 4 => 15 | 5 => 4 | 6 => 2 | _ => 2

/-- The layout of a floating matrix format. -/
def tileFp (f : Nat) : FpFmt :=
  match f with
  | 1 => ⟨8, 7⟩ | 2 => ⟨5, 10⟩ | 3 => ⟨4, 3⟩ | 4 => ⟨5, 2⟩ | 5 => ⟨3, 2⟩ | 6 => ⟨2, 1⟩ | _ => ⟨8, 23⟩

/-- The format is I8 or I4. -/
def tileInt (f : Nat) : Bool := f = 7 || f = 8

/-- A header that is not refused (R303); `k` is the number of elements of a row, `nb` its scale bytes (R304). -/
structure TileHdr where
  fmt    : Nat
  plain  : Bool
  rows   : Nat
  cols   : Nat
  kbytes : Nat
  smode  : Nat
  sloc   : Bool
  cbid   : Nat
  tscale : Nat
  stree  : Nat
  sten   : Bool
  seq    : Nat
  k      : Nat
  nb     : Nat
deriving DecidableEq, Repr

/-- Every "must" of word 0 of R303. -/
def tileWordOk (w : Nat) : Bool :=
  let f := nbits w 3 0
  let plain := w.testBit 4
  let kb := nbits w 25 18
  let sm := nbits w 27 26
  let noScale := f ≤ 2 || f = 7 || f = 8
  f ≤ 9 && !w.testBit 5 && !w.testBit 31 && w / 2 ^ 45 == 0 && sm ≠ 3
    && (sm == 0 || !noScale) && (sm == 1 || !w.testBit 28)
    && (f == 9 || nbits w 30 29 == 0) && (sm == 2 || nbits w 39 32 == 0)
    && if plain then f ≤ 2 && kb == 0
       else nbits w 17 12 == 0 && 1 ≤ kb && kb ≤ 192 && kb % tileUnit f == 0
         && (sm ≠ 1 || kb % tileBlock f == 0)

/-- The header of a packet; none where it is refused (R303). -/
def parseTile (bs : List Byte) : Option TileHdr :=
  let w := leNat (slice bs 0 8)
  let q := leNat (slice bs 8 8)
  if bs.length < 32 || !tileWordOk w || q / 2 ^ 32 ≠ 0 || leNat (slice bs 16 16) ≠ 0 then none
  else
    let f := nbits w 3 0
    let plain := w.testBit 4
    let kb := nbits w 25 18
    let sm := nbits w 27 26
    let cols := nbits w 17 12 + 1
    some { fmt := f, plain := plain, rows := nbits w 11 6 + 1, cols := cols, kbytes := kb, smode := sm,
           sloc := w.testBit 28, cbid := nbits w 30 29, tscale := nbits w 39 32, stree := nbits w 43 40,
           sten := w.testBit 44, seq := q % 2 ^ 32,
           k := if plain then cols else kb * 8 / tileBits f,
           nb := if plain || sm ≠ 1 then 0 else kb / tileBlock f }

/-- SEQ of a packet, refused or not. -/
def tileSeq (bs : List Byte) : Nat := leNat (slice bs 8 4)

/-- Bytes of a row's data. -/
def TileHdr.rowBytes (h : TileHdr) : Nat := if h.plain then h.cols * tileBits h.fmt / 8 else h.kbytes

/-- The end of a packet's last byte, and its length with the pad, which is never read (R304). -/
def TileHdr.used (h : TileHdr) : Nat := 32 + h.rows * (h.rowBytes + h.nb)
def TileHdr.length (h : TileHdr) : Nat := alignUp h.used 32

/-- Byte offset of the data of row `r`, and of its first scale (R304). -/
def TileHdr.dataAt (h : TileHdr) (r : Nat) : Nat :=
  32 + r * (h.rowBytes + if h.sloc then 0 else h.nb)
def TileHdr.scaleAt (h : TileHdr) (r : Nat) : Nat :=
  if h.sloc then 32 + h.rows * h.kbytes + r * h.nb else h.dataAt r + h.kbytes

/-! ### Decoding (R298, R300, R301) -/

/-- The value of a code of a format other than CB2 (R297, R298): of the mini formats, a zero of either sign is
zero, only E4M3 and E5M2 have special codes (log 33, DEDUCED). -/
def miniValue (f x : Nat) : FVal :=
  if tileInt f then
    let i := toS (tileBits f) x
    .fin (i < 0) i.natAbs 0
  else if f ≤ 2 then unpack (tileFp f) x
  else
    let k := tileFp f
    let s := x.testBit (k.eb + k.mb)
    let e := x / 2 ^ k.mb % 2 ^ k.eb
    let m := x % 2 ^ k.mb
    if f = 4 && e = 31 then (if m = 0 then .inf s else .nan false)
    else if f = 3 && e = 15 && m = 7 then .nan false
    else if e = 0 then .fin (s && m ≠ 0) m (k.emin - k.mb)
    else .fin s (2 ^ k.mb + m) (k.emin - k.mb + (e - 1 : Nat))

/-- The eight weights of an index, in quarters (R301). -/
def cb2Weights (idx : Nat) (table : List W32) : List Int :=
  let base := (at! table (idx / 256) 0).toNat
  let par := (upto 7).foldl (fun b i => b != idx.testBit (i + 1)) false
  (upto 8).map fun k =>
    let w := 2 * toS 4 (base / 2 ^ (4 * k))
    let flip := if k < 7 then idx.testBit (k + 1) else par
    (if flip then -w else w) + (if idx.testBit 0 then 1 else 0)

/-- A value times the scale of a code: 0xFF gives NaN (R300). -/
def scaled (c : Nat) (v : FVal) : FVal :=
  if c = 0xFF then .nan false
  else
    match v with
    | .fin s m e => .fin s m (e + c - 127)
    | v => v

/-- The elements of a row before their scales. -/
def rowCodes (f k : Nat) (bs : List Byte) (table : List W32) : List FVal :=
  let w := leNat bs
  if f = 9 then
    (upto (bs.length / 2)).flatMap fun i =>
      (cb2Weights (w / 2 ^ (16 * i) % 2 ^ 16) table).map fun q => .fin (q < 0) q.natAbs (-2)
  else (upto k).map fun i => miniValue f (w / 2 ^ (tileBits f * i) % 2 ^ tileBits f)

/-- The values of row `r` of a packet. -/
def TileHdr.row (h : TileHdr) (bs : List Byte) (books : List (List W32)) (r : Nat) : List FVal :=
  let vs := rowCodes h.fmt h.k (slice bs (h.dataAt r) h.rowBytes) (at! books h.cbid [])
  match h.smode with
  | 1 =>
    let sc := slice bs (h.scaleAt r) h.nb
    List.zipWith (fun i v => scaled (at! sc (i / 32) 0).toNat v) (upto vs.length) vs
  | 2 => vs.map (scaled h.tscale)
  | _ => vs

/-- The values of a packet, row by row. -/
def TileHdr.decode (h : TileHdr) (bs : List Byte) (books : List (List W32)) : List (List FVal) :=
  (upto h.rows).map (h.row bs books)

/-! ### Counts (R306) -/

/-- Counts of a decoder over values: NaN, infinite and zero elements, and MAXEXP. -/
structure Counts where
  nan    : Nat := 0
  inf    : Nat := 0
  zero   : Nat := 0
  maxexp : Nat := 0
  sat    : Nat := 0
  ufz    : Nat := 0
deriving DecidableEq, Repr

/-- ⌊log₂ |v|⌋ of a finite value that is no zero. -/
def expOf (m : Nat) (e : Int) : Int := e + m.log2

/-- One value counted by a decoder. -/
def Counts.see (c : Counts) (v : FVal) : Counts :=
  match v with
  | .nan _ => { c with nan := c.nan + 1 }
  | .inf _ => { c with inf := c.inf + 1 }
  | .fin _ m e => if m = 0 then { c with zero := c.zero + 1 }
    else { c with maxexp := max c.maxexp (expOf m e + 256).toNat }

/-- The counts of a decoder over a packet. -/
def countRows (rows : List (List FVal)) : Counts := rows.foldl (fun c r => r.foldl Counts.see c) {}

/-! ### Encoding (R310 to R312) -/

/-- The fields of a TCVT or TST literal (R310, R327). -/
structure TileCtl where
  tfmt   : Nat
  smode  : Nat
  sloc   : Bool
  scsrc  : Bool
  tscale : Nat
  stree  : Nat
  sten   : Bool
  ovf    : Bool
  rtz    : Bool
deriving DecidableEq, Repr

/-- The fields of a literal. -/
def tileCtl (l : W64) : TileCtl :=
  { tfmt := bits l 39 36, smode := bits l 35 34, sloc := bit l 33, scsrc := bit l 32, tscale := bits l 31 24,
    stree := bits l 23 20, sten := bit l 19, ovf := bit l 18, rtz := bits l 17 16 = 1 }

/-- The magnitude `m × 2 ^ e` rounded into a format with an unbounded exponent range above, as the pattern of
its exponent and fraction, and whether rounding was exact. -/
def roundMag (k : FpFmt) (rm : Rm) (neg : Bool) (m : Nat) (e : Int) : Nat :=
  if m = 0 then 0
  else
    let top : Int := e + m.log2
    let lead := max top k.emin
    (roundShift rm neg m (lead - k.mb - e)).1 + (lead - k.emin).toNat * 2 ^ k.mb

/-- The pattern of the largest finite value of a floating matrix format (R297). -/
def tileMax (f : Nat) : Nat :=
  match f with
  | 3 => 0x7E | 5 => 0x1F | 6 => 0x7 | _ => (tileFp f).maxFin

/-- The code of a value, with SAT and UFZ (R306, R312). -/
def encodeVal (c : TileCtl) (v : FVal) : Nat × Bool × Bool :=
  let f := c.tfmt
  let rm := if c.rtz then Rm.rtz else Rm.rne
  let clamp := !c.ovf || c.rtz
  if tileInt f then
    let w := tileBits f
    let hi : Int := (2 ^ (w - 1) : Nat) - 1
    let lo : Int := - ((2 ^ (w - 1) : Nat) : Int)
    match v with
    | .nan _ => (0, false, false)
    | .inf s => (wrap w (if s then lo else hi), true, false)
    | .fin s m e =>
      let i := signedM s (roundShift rm s m (-e)).1
      (satS w i, hi < i || i < lo, m ≠ 0 && i = 0)
  else
    let k := tileFp f
    match v with
    | .nan _ => (if f = 3 then 0x7F else if f = 5 || f = 6 then 0 else k.nan, false, false)
    | .inf s =>
      if f = 3 then (if c.ovf then (k.signed s 0x7F, false, false) else (k.signed s 0x7E, true, false))
      else if f = 5 || f = 6 then (k.signed s (tileMax f), true, false)
      else (k.signed s k.inf, false, false)
    | .fin s m e =>
      let x := roundMag k rm s m e
      if tileMax f < x then
        let y := if f = 5 || f = 6 || clamp then tileMax f else if f = 3 then 0x7F else k.inf
        (k.signed s y, true, false)
      else (k.signed s x, false, m ≠ 0 && x = 0)

/-- The scale of a group (R311): its exponent, none for the NaN scale. -/
def chooseScale (c : TileCtl) (g : List FVal) : Option Int :=
  if c.smode = 0 then some 0
  else if c.scsrc then (if c.tscale = 0xFF then none else some ((c.tscale : Int) - 127))
  else if c.smode = 1 && (c.tfmt = 5 || c.tfmt = 6) && g.any FVal.isNaN then none
  else
    let es := g.filterMap fun v => match v with
      | .fin _ m e => if m = 0 then none else some (expOf m e)
      | _ => none
    match es with
    | [] => some 0
    | x :: r =>
      let m := r.foldl max x - tileEmax c.tfmt
      some (if m < -127 then -127 else if 127 < m then 127 else m)

/-- A value divided exactly by 2 ^ s. -/
def unscale (s : Int) (v : FVal) : FVal :=
  match v with
  | .fin n m e => .fin n m (e - s)
  | v => v

/-- The codes of a group under its scale, and the scale's own code (R311). -/
def encodeGroup (c : TileCtl) (s : Option Int) (g : List FVal) : List (Nat × Bool × Bool) × Nat :=
  match s with
  | none => (g.map fun _ => (0, false, false), 0xFF)
  | some n => (g.map fun v => encodeVal c (unscale n v), (n + 127).toNat)

/-- Blocks of 32 of a row. -/
def blocks32 (xs : List FVal) : Nat → List (List FVal)
  | 0 => []
  | n + 1 => xs.take 32 :: blocks32 (xs.drop 32) n

/-- The codes of a row with its scale bytes. -/
def encodeRow (c : TileCtl) (whole : Option Int) (row : List FVal) : List (Nat × Bool × Bool) × List Byte :=
  if c.smode = 1 then
    let gs := (blocks32 row (row.length / 32)).map fun g => encodeGroup c (chooseScale c g) g
    (gs.flatMap fun g => g.1, gs.map fun g => BitVec.ofNat 8 g.2)
  else ((encodeGroup c whole row).1, [])

/-- Codes packed along K (R299). -/
def packCodes (b : Nat) (cs : List Nat) : List Byte :=
  let x := cs.foldr (fun v acc => v + acc * 2 ^ b) 0
  leBytes (cs.length * b / 8) x

/-- A packet made of rows of values (R311): its bytes and the encoder's counts; none where its shape is refused.
`plain` says that it is of KIND 1. -/
def encodeTile (c : TileCtl) (plain : Bool) (seq : Nat) (rows : List (List FVal)) : Option (List Byte × Counts) :=
  let k := (rows.headD []).length
  let b := tileBits c.tfmt
  let kb := k * b / 8
  if (plain && 2 < c.tfmt) || (!plain && (k * b % 8 ≠ 0 || kb = 0 || 192 < kb)) || (c.smode = 1 && k % 32 ≠ 0) then none
  else
    let whole := if c.smode = 2 then chooseScale c rows.flatten else some 0
    let enc := rows.map (encodeRow c whole)
    let data := enc.map fun r => (packCodes b (r.1.map fun x => x.1), r.2)
    let body := if c.sloc then (data.flatMap fun x => x.1) ++ data.flatMap fun x => x.2
      else data.flatMap fun x => x.1 ++ x.2
    let ts := if c.smode = 2 then (match whole with
      | none => 0xFF
      | some n => (n + 127).toNat) else 0
    let w := c.tfmt + (if plain then 16 else 0) + (rows.length - 1) * 2 ^ 6 + (if plain then (k - 1) * 2 ^ 12 else 0)
      + (if plain then 0 else kb * 2 ^ 18) + c.smode * 2 ^ 26 + (if c.sloc then 2 ^ 28 else 0) + ts * 2 ^ 32
      + c.stree * 2 ^ 40 + (if c.sten then 2 ^ 44 else 0)
    let bytes := leBytes 8 w ++ leBytes 8 (seq % 2 ^ 32) ++ leBytes 16 0 ++ body
    let all := enc.flatMap fun r => r.1
    some (bytes ++ List.replicate (alignUp bytes.length 32 - bytes.length) 0,
      { sat := (all.filter fun x => x.2.1).length, ufz := (all.filter fun x => x.2.2).length })

/-! ### Sums of products (R324) -/

/-- The exact sum of a group's products: a NaN, an infinity, or a number with the sign of an exact zero. -/
def dotGroup (a b : List FVal) : FVal :=
  let step (acc : FVal × Bool) (p : FVal × FVal) : FVal × Bool :=
    let prod : FVal := match p.1, p.2 with
      | .nan _, _ => .nan false
      | _, .nan _ => .nan false
      | .inf s, .inf t => .inf (s != t)
      | .inf s, .fin t m _ => if m = 0 then .nan false else .inf (s != t)
      | .fin s m _, .inf t => if m = 0 then .nan false else .inf (s != t)
      | .fin s m e, .fin t n f => .fin (s != t) (m * n) (e + f)
    let negZero := match prod with
      | .fin s m _ => s && m == 0
      | _ => false
    let sum : FVal := match acc.1, prod with
      | .nan _, _ => .nan false
      | _, .nan _ => .nan false
      | .inf s, .inf t => if s = t then .inf s else .nan false
      | .inf s, _ => .inf s
      | _, .inf t => .inf t
      | .fin s m e, .fin t n f =>
        let (i, g) := sumInt s m e t n f
        .fin (i < 0) i.natAbs g
    (sum, acc.2 && negZero)
  let (v, z) := (List.zip a b).foldl step (.fin false 0 0, true)
  match v with
  | .fin _ 0 e => .fin z 0 e
  | v => v

/-- RoundF32(acc + s) of R324. -/
def addF32 (acc : Nat) (s : FVal) : Nat := (addVals (fpOf .f32) (unpack (fpOf .f32) acc) s).1

/-- Consecutive groups of `g` of a list; `n` bounds their number. -/
def groupsOf (g : Nat) (xs : List FVal) : Nat → List (List FVal)
  | 0 => []
  | n + 1 => if xs.isEmpty then [] else xs.take g :: groupsOf g (xs.drop g) n

/-- The group size of a matrix format (R323). -/
def groupSize (f : Nat) : Nat :=
  match f with
  | 0 => 6 | 1 => 12 | 2 => 12 | 3 => 24 | 4 => 24 | 7 => 24 | _ => 48

/-- The integer that a value of I8 or I4 stands for. -/
def FVal.int : FVal → Int
  | .fin s m _ => signedM s m
  | _ => 0

/-- One element of an F32 accumulator after a product (R324). -/
def mmaFloat (g : Nat) (acc : Nat) (a b : List FVal) : Nat :=
  (List.zip (groupsOf g a (a.length + 1)) (groupsOf g b (b.length + 1))).foldl
    (fun x p => addF32 x (dotGroup p.1 p.2)) acc

/-- One element of an I32 accumulator after a product (R325). -/
def mmaInt (acc : Nat) (a b : List FVal) : Nat :=
  wrap 32 ((acc : Int) + (List.zip a b).foldl (fun (x : Int) p => x + p.1.int * p.2.int) 0)

end Sys2Proof.Machine
end

