-- ==== Sys2Proof/Machine/Literal.lean ====
section
/-! DEFINITION. What the loader accepts in the literal and the links of a slot (R79, R80, R197, R201, R202, R205,
R207), with the fields that each opcode's own description gives its literal; and the classes of the selectors
(R407, R408), which R407 has the loader check. -/

namespace Sys2Proof.Machine

/-! ### Rights (R407, R408) -/

/-- The classes of R407; `none_` is the class that R408 writes as a dash. -/
inductive Right where
  | u | p | c | m | none_
deriving DecidableEq, Repr

/-- Who may read a selector (R408). -/
def readRight (n : Nat) : Right :=
  if n < 8 || (0x10 ≤ n && n < 0x28) || (0x40 ≤ n && n ≤ 0x43) || (0x50 ≤ n && n < 0x68) then .u
  else if n = 0x8A || n = 0x8B || (0x140 ≤ n && n < 0x180) then .c
  else if n = 0x80 || (0x83 ≤ n && n ≤ 0x85) || n = 0x89 || (0x8C ≤ n && n ≤ 0x8E) || (0xC0 ≤ n && n < 0x140) then .m
  else .none_

/-- Who may write a selector (R408; log 55, DEDUCED). -/
def writeRight (n : Nat) : Right :=
  if n = 1 || n = 2 || n = 4 || n = 5 || n = 7 || (0x10 ≤ n && n < 0x28) || n = 0x40 || n = 0x81 || n = 0x82 then .p
  else if (0x86 ≤ n && n ≤ 0x88) || n = 0x8A || n = 0x8B || (0x140 ≤ n && n < 0x180) then .c
  else if n = 0x42 || n = 0x43 || n = 0x80 || (0x83 ≤ n && n ≤ 0x85) || n = 0x89 || (0x8C ≤ n && n ≤ 0x8E)
      || (0xC0 ≤ n && n < 0x140) then .m
  else .none_

/-- R408 lists the selector. -/
def selListed (n : Nat) : Bool := readRight n ≠ .none_ || writeRight n ≠ .none_

/-! ### Literals -/

/-- No bit of the literal stands outside the mask. -/
def litWithin (l m : W64) : Bool := l &&& ~~~m == 0

/-- Bits `[hi:lo]` as a mask. -/
def litMask (hi lo : Nat) : W64 := BitVec.ofNat 64 ((2 ^ (hi - lo + 1) - 1) <<< lo)

/-- The bits of the triple, and those of SCOPE (R79, R100). -/
def maskTriple : W64 := litMask 63 40
def maskScope : W64 := litMask 31 30

/-- A triple that passes R80 (a) and (b). -/
def tripleOk (l : W64) : Bool :=
  let p := bits l 63 56
  let t := bits l 55 48
  let u := bits l 47 40
  t ≠ 0xFD && t ≠ 0xFF && (p == 0xFE) == (t == 0xFE) && (u == 0xFE) == (t == 0xFE)
/-- A triple of a chained operation. -/
def tripleChained (l : W64) : Bool := tripleOk l && bits l 55 48 ≠ 0xFE
/-- The triple of an unchained operation. -/
def tripleNone (l : W64) : Bool := tripleOk l && bits l 55 48 == 0xFE

/-- The literals of FCVT to FRINT (R275). -/
def litConvert (op : Nat) (l : W64) : Bool :=
  let t := bits l 11 8
  litWithin l (litMask 11 8 ||| (if op = 0x78 then litMask 4 4 else 0) ||| (if op = 0x75 then litMask 3 3 else 0)
      ||| litMask 2 0)
    && bits l 2 0 ≤ 4
    && (if op = 0x75 then t ≤ 3 else if op = 0x78 then t == 0 else 4 ≤ t && t ≤ 7)

/-- ORD = 1 is accepted (R100, R243). -/
def ordOk (op : Nat) : Bool :=
  op ≤ 0x45 || op == 0x47 || op == 0x48 || op == 0x4D || op == 0x4E || (0x50 ≤ op && op ≤ 0x5A)

/-- The literals of groups 0x4 and 0x5 (R52, R83, R100, R118, R132, R138, R243, R252, R254). -/
def litMemory (op : Nat) (l : W64) : Bool :=
  let w := bits l 38 36
  let lv := bits l 35 33
  let data := tripleOk l && (ordOk op || !bit l 39) && lv ≠ 3
  match op with
  | 0x46 => tripleChained l && litWithin l maskTriple
  | 0x49 => tripleChained l && litWithin l maskTriple
  | 0x5F => tripleChained l && bits l 39 38 ≠ 0 && litWithin l (maskTriple ||| litMask 39 38 ||| maskScope)
  | 0x5D => tripleChained l && bits l 39 32 == 0
  | 0x5E => tripleChained l && bits l 39 32 == 0
  | 0x47 => data && 4 ≤ lv && w ≤ 3
  | 0x48 => data && 4 ≤ lv && w ≤ 3
  | 0x4A => tripleNone l && bits l 39 36 == 0 && lv ≤ 1
  | 0x4B => data && lv ≤ 2 && w == 0
  | 0x4C => data && lv ≤ 2 && w == 0
  | 0x4F => data && lv ≠ 4 && w == 3
  | 0x5B => data && lv ≠ 4 && w == 3
  | 0x5C => data && lv ≠ 4 && w == 3
  | 0x4D => data && 1 ≤ w && w ≤ 3
  | 0x4E => data && 1 ≤ w && w ≤ 3
  | 0x5A => data && 1 ≤ w && w ≤ 3
  | _ => if 0x50 ≤ op then data && (w == 2 || w == 3) else data && w ≤ 3

/-- The literals of TCVT and TST (R310, R327). -/
def litConvertTile (l : W64) : Bool :=
  let t := bits l 39 36
  let m := bits l 35 34
  t ≤ 8 && m ≠ 3 && (m == 0 || !(t ≤ 2 || t == 7 || t == 8)) && (!bit l 33 || m == 1)
    && (bit l 32 || bits l 31 24 == 0) && bits l 17 16 ≤ 1 && bits l 15 0 == 0

/-- The literals of group 0xA (R308 to R332). -/
def litTile (op : Nat) (l : W64) : Bool :=
  match op with
  | 0xA0 => litWithin l (litMask 5 0)
  | 0xA1 => tripleNone l && litConvertTile l
  | 0xA4 => tripleOk l && litConvertTile l
  | 0xA8 => tripleOk l && litWithin l (maskTriple ||| maskScope)
  | 0xA9 => tripleChained l && litWithin l (maskTriple ||| litMask 33 32 ||| maskScope)
  | 0xAA => tripleOk l && litWithin l (maskTriple ||| litMask 23 19)
  | 0xAB => litWithin l (litMask 17 6 ||| litMask 3 0)
  | 0xAC => l == 0
  | 0xAD => tileWordOk l.toNat
  | _ => litWithin l (litMask 2 0)

/-- The literals of group 0xB (R343, R346). -/
def litStream (op : Nat) (l : W64) : Bool :=
  match op with
  | 0xB3 => litWithin l maskScope
  | 0xB6 => litWithin l (litMask 14 12 ||| litMask 9 0) && bits l 14 12 ≠ 0
  | 0xB7 => litWithin l (litMask 3 0)
  | 0xB8 => litWithin l (litMask 3 0) && bits l 3 0 ≠ 0 && bits l 3 0 ≠ 8
  | _ => l == 0

/-- A counter level of R256. -/
def ctrLevelOk (lv : Nat) : Bool := lv == 0 || 5 ≤ lv

/-- The literals of COPY and COPY2D; those of COPYM (R256, R258). -/
def litCopy (l : W64) : Bool :=
  let a := bits l 39 37
  let b := bits l 36 34
  tripleOk l && a ≠ 3 && a ≠ 4 && b ≠ 3 && b ≠ 4 && ctrLevelOk (bits l 26 24)
    && (bit l 32 || (bits l 29 27 == 0 && bits l 26 24 == 0))
def litCopym (l : W64) : Bool :=
  let a := bits l 39 37
  tripleOk l && a ≠ 3 && a ≠ 4 && bits l 36 34 == 0 && (bit l 32 || bits l 29 27 == 0)

/-- The literals of group 0xC (R255 to R264). -/
def litEngine (op : Nat) (l : W64) : Bool :=
  let lv := bits l 35 33
  match op with
  | 0xC0 => litCopy l
  | 0xC1 => litCopym l
  | 0xC2 => litCopy l
  | 0xC3 => tripleOk l && litWithin l (maskTriple ||| litMask 32 32 ||| maskScope ||| litMask 15 0) && bits l 15 0 ≠ 0
  | 0xC4 => tripleOk l && litWithin l (maskTriple ||| maskScope)
  | 0xC5 => tripleOk l && litWithin l (maskTriple ||| litMask 35 33) && 4 ≤ lv
  | 0xC6 => tripleOk l && litWithin l (maskTriple ||| litMask 35 33) && 4 ≤ lv
  | 0xC7 => l == 0
  | 0xC8 => tripleOk l && litWithin l maskTriple
  | _ => tripleOk l && litWithin l (maskTriple ||| litMask 35 33) && 5 ≤ lv

/-- The literals of group 0xD (R378). A bad LOG2SIZE is a ring fault of the RINGREG (R385). -/
def litRing (op : Nat) (l : W64) : Bool :=
  match op with
  | 0xD0 =>
    tripleChained l && litWithin l (maskTriple ||| litMask 39 32 ||| litMask 15 8 ||| litMask 2 0)
      && ctrLevelOk (bits l 39 37)
  | 0xD1 =>
    tripleChained l && litWithin l (maskTriple ||| litMask 35 33 ||| maskScope ||| litMask 29 23 ||| litMask 10 0)
      && bits l 35 33 ≠ 3 && bits l 35 33 ≠ 4 && 1 ≤ bits l 29 23 && bits l 29 23 ≤ 112
  | 0xD2 => tripleChained l && litWithin l (maskTriple ||| litMask 35 33 ||| maskScope ||| litMask 7 0) && bits l 35 33 ≠ 3
  | _ => tripleChained l && litWithin l maskTriple

/-- The literals of group 0xE (R404, R407). -/
def litSystem (op : Nat) (l : W64) : Bool :=
  match op with
  | 0xE0 => litWithin l (litMask 15 0)
  | 0xE1 => tripleChained l && litWithin l (maskTriple ||| litMask 15 0)
  | 0xE2 => litWithin l (litMask 11 0) && selListed (bits l 11 0)
  | 0xE3 => litWithin l (litMask 11 0) && selListed (bits l 11 0)
  | 0xE5 => litWithin l (litMask 15 0)
  | 0xE7 => tripleChained l && litWithin l (maskTriple ||| litMask 5 0)
  | 0xE9 => litWithin l (litMask 3 0)
  | 0xEA => litWithin l (litMask 15 0)
  | 0xEB => litWithin l (litMask 15 0)
  | 0xEC => litWithin l (litMask 15 0)
  | _ => l == 0

/-- The bank that ALLOC names fits its level: none for `.cs`, a cluster of the segment for `.sg`, a slice for `.ss`
(R264). -/
def bankOk (op : Nat) (f : Fields) (l : W64) : Bool :=
  let b := f.sb.toNat
  match bits l 35 33 with
  | 5 => op ≠ 0xC9 || b == 0x7F
  | 6 => op ≠ 0xC9 || (b ≠ 0x7F && !(4 ≤ b && b < 0x40))
  | _ => op ≠ 0xC9 || b ≠ 0x7F

/-- The literal is one that the loader accepts with the word (R205, R207). -/
def literalOk (op : Nat) (f : Fields) (l : W64) : Bool :=
  if literalSource op then f.sa == 0x43 || f.sb == 0x43 || l == 0
  else if op < 0x60 then litMemory op l
  else if op < 0xA0 then litConvert op l
  else if op < 0xB0 then litTile op l
  else if op < 0xC0 then litStream op l
  else if op < 0xD0 then litEngine op l && bankOk op f l
  else if op < 0xE0 then litRing op l
  else litSystem op l

/-! ### Links -/

/-- A link entry in the terms of R201 and R202; a PORT of 3 and a block that is not there are met when a token is
sent (R208). -/
def linkOk (op : Nat) (used : Bool) (l : W32) : Bool :=
  let k := l.toNat / 2 ^ 30
  if !used then l == 0
  else if k = 1 then 0x40 ≤ op && op < 0x60
  else if k = 2 then l.toNat / 2 ^ 11 % 4 == 0
  else if k = 3 then l.toNat / 2 ^ 11 % 2 ^ 19 == 0
  else true

/-- A link entry that no DA or DB of the word can use is zero (R197, R195). -/
def linksOk (op : Nat) (f : Fields) (l0 l1 : W32) : Bool :=
  let a := f.da.toNat
  let b := f.db.toNat
  linkOk op (a == 1 || (3 ≤ a && a ≤ 6) || b == 1) l0 && linkOk op (a == 2 || a == 3 || a == 4 || b == 2) l1

/-! ### Where a word stands -/

/-- The kind of block in which an opcode may stand (R319, R338). -/
def homeOf (op : Nat) : Home :=
  match wordRule op with
  | some r => r.home
  | none => .elem

/-- A literal that suits an opcode, for a word that is placed (log 11, DESIGN CHOICE). -/
def placedLit (op : Nat) (f : Fields) : W64 :=
  let free : W64 := 0xFEFEFE0000000000
  let chain : W64 := 0xFD00FD0000000000
  if literalSource op then 0
  else if op < 0x60 then
    match op with
    | 0x46 => chain
    | 0x49 => chain
    | 0x5D => chain
    | 0x5E => chain
    | 0x5F => chain ||| 0x4000000000
    | 0x47 => free ||| 0x3800000000
    | 0x48 => free ||| 0x3800000000
    | 0x4A => free
    | 0x4B => free
    | 0x4C => free
    | _ => free ||| 0x3000000000
  else if op < 0xA0 then if op = 0x75 || op = 0x78 then 0 else 0x600
  else if op < 0xB0 then
    match op with
    | 0xA1 => free
    | 0xA4 => free
    | 0xA8 => free
    | 0xA9 => chain
    | 0xAA => free
    | 0xAD => 0x10
    | _ => 0
  else if op < 0xC0 then if op = 0xB6 then 0x1000 else if op = 0xB8 || op = 0xB7 then 1 else 0
  else if op < 0xD0 then
    match op with
    | 0xC3 => free ||| 1
    | 0xC5 => free ||| 0x800000000
    | 0xC6 => free ||| 0x800000000
    | 0xC7 => 0
    | 0xC9 => free ||| (if f.sb = 0x7F then 0xA00000000 else 0xE00000000)
    | 0xCA => free ||| 0xA00000000
    | _ => free
  else if op < 0xE0 then if op = 0xD0 then chain ||| 0x800000000 else if op = 0xD1 then chain ||| 0x800000 else chain
  else if op = 0xE1 || op = 0xE7 then chain else 0

/-- The format of an operand token that suits an opcode, for a word that is placed (log 11, DESIGN CHOICE). -/
def placedFmt (op : Nat) (f : Fields) (port : Nat) : Fmt :=
  if port = 2 && (op = 0x02 || op = 0x04 || op = 0x05 || (4 ≤ f.da.toNat && f.da.toNat ≤ 6)) then .p
  else if op = 0x3A then .a
  else if op < 0x40 then .i64
  else if op < 0x60 then
    if port = 0 then .a else if op = 0x4D || op = 0x4E || op = 0x5A then .f64 else .i64
  else if op < 0x90 then if op = 0x76 || op = 0x77 then .i64 else .f32
  else if op < 0xA0 then if op = 0x9C then .f32 else .i64
  else if op < 0xB0 then .t
  else if op < 0xC0 then .i64
  else if op < 0xD0 then if op = 0xC9 || op = 0xC8 then .i64 else .a
  else if op < 0xE0 then if op = 0xD0 || port = 1 && op ≤ 0xD2 then .a else .i64
  else if op = 0xE7 then .a
  else if op = 0xEB then .p
  else .i64

end Sys2Proof.Machine
end

