-- ==== Sys2Proof/Machine/SlotRules.lean ====
section
/-! DEFINITION. What the loader accepts in a slot with respect to its section (R203, R207, R309, R319, R338, R346): where
its links lead, the kind of block it stands in, and the trees and nodes that its literal names. -/

namespace Sys2Proof.Machine

/-- What a link breaks (R201, R203, R207): its PORT is reserved, its block is not in the section, its index holds no
instruction, its consumer does not read the port, or it is no fan-out list that the opcode may use. -/
inductive LinkFault where
  | port | block | empty | unread | list
deriving DecidableEq, Repr

/-- The word is not 0 and reads port `p`: by SA or SB, or port C by its opcode or by steering (R190, R206). -/
def wordReads (w : W32) (p : Nat) : Bool :=
  let f := fieldsOf w
  f.sa.toNat == 0x40 + p || f.sb.toNat == 0x40 + p
    || (p == 2 && ((4 ≤ f.da.toNat && f.da.toNat ≤ 6) || opOf w == 0x02 || opOf w == 0x05
      || match wordRule (opOf w) with
        | some r => r.portC
        | none => false))

/-- The slots of a block or a channel as the sealed section holds them. -/
def SecImage.slotsAt (i : SecImage) (n : Names) : List Slot :=
  if n.node then (i.chans[n.block]?.map fun c => c.slots).getD []
  else ((i.blocks.find? fun r => r.first ≤ n.block && n.block < r.first + r.group).map fun r => r.slots).getD []

/-- The word of an instruction as the sealed section holds it. -/
def SecImage.wordAt (i : SecImage) (n : Names) : W32 := (at! (i.slotsAt n) n.idx Slot.zero).word

/-- What a link of kind 00, 01 or 10 breaks, where `look` gives the words of the section. -/
def SecImage.plainFault (i : SecImage) (look : Names → W32) (src : Names) (l : W32) : Option LinkFault :=
  let node := linkKind l = 2
  let port := if node then linkSlot l % 4 else linkPort l
  let n : Names := ⟨src.part, src.lsec, node, linkBlock l, if node then linkSlot l / 4 else linkSlot l⟩
  if port = 3 then some .port
  else if (if node then i.chans.length ≤ linkBlock l else !i.hasBlock (linkBlock l)) then some .block
  else if look n = 0 then some .empty
  else if !wordReads (look n) port then some .unread
  else none

/-- Everything that a link of an opcode breaks (R201 to R203, R207). -/
def SecImage.linkFaults (i : SecImage) (look : Names → W32) (src : Names) (op : Nat) (l : W32) : List LinkFault :=
  if linkKind l = 3 then
    let ls := i.links l
    if i.fanout.length ≤ linkRoute l || ls.isEmpty then [.list]
    else ls.flatMap fun x =>
      if linkKind x = 3 || !linkOk op true x then [.list] else (i.plainFault look src x).toList
  else (i.plainFault look src l).toList

/-- The links that DA and DB of a word can use (R195, R197). -/
def Slot.links (x : Slot) : List W32 :=
  let f := fieldsOf x.word
  let a := f.da.toNat
  let b := f.db.toNat
  (if a == 1 || (3 ≤ a && a ≤ 6) || b == 1 then [x.lk0] else [])
    ++ if a == 2 || a == 3 || a == 4 || b == 2 then [x.lk1] else []

/-- The kind of block in which an instruction stands (R319, R338). -/
def SecImage.homeAt (i : SecImage) (n : Names) : Home :=
  if !n.node then .elem
  else
    match i.chans[n.block]? with
    | some c => if c.streamer then .streamer else .island
    | none => .island

/-- The stops of a route after its first, by column and row, from a position (R369). -/
def SecImage.stopsFrom (i : SecImage) (idx : Nat) : Nat → Nat → Int × Int → List (Int × Int)
  | 0, _, _ => []
  | n + 1, k, p =>
    let h := i.hop idx k
    let q : Int × Int := match h.1 with
      | 0 => (p.1, p.2 - h.2)
      | 1 => (p.1 + h.2, p.2)
      | 2 => (p.1, p.2 + h.2)
      | _ => (p.1 - h.2, p.2)
    q :: i.stopsFrom idx n (k + 1) q

/-- Every stop of a route, its first at the position of its ORIGIN. -/
def SecImage.stops (i : SecImage) (w : W64) (origin : Int × Int) : List (Int × Int) :=
  origin :: i.stopsFrom (bits w 35 24) (bits w 15 8) 0 origin

/-- A route is one that no partition could take (R370): a stop repeats, other than the return of a ring; a ring does not return to
ORIGIN or has no DATELINE; another route has one. -/
def SecImage.routeBad (i : SecImage) (w : W64) : Bool :=
  let st := i.stops w (0, 0)
  let line := if bit w 0 then st.dropLast else st
  line.eraseDups.length ≠ line.length
    || (if bit w 0 then st.getLast? ≠ some (0, 0) || bits w 15 8 ≤ bits w 23 16 else bits w 23 16 ≠ 0xFF)

/-- A route leaves the clusters of a run of strips once q = 0 is placed on the first of them: a stop is no box of the run (R366,
R370; log 91, DEDUCED). -/
def SecImage.routeLeaves (i : SecImage) (first count : Nat) (w : W64) : Bool :=
  let o := clusterPos (clusterOfQ first (bits w 58 48))
  (i.stops w (o.1, o.2)).any fun p =>
    p.1 < 8 * first || 8 * ((first : Int) + count) ≤ p.1 || p.2 < 0 || 12 ≤ p.2

/-- Some route is one that the loader refuses (R370). -/
def SecImage.routesRefused (i : SecImage) (first count : Nat) : Bool :=
  i.routes.any fun w => i.routeBad w || i.routeLeaves first count w

/-- The tree that a literal names is declared (R309). -/
def SecImage.treeOk (i : SecImage) (x : Slot) : Bool :=
  let op := opOf x.word
  if op = 0xA1 || op = 0xA4 || op = 0xAA then !bit x.lit 19 || (i.tree (bits x.lit 23 20)).isSome
  else if op = 0xAD then !bit x.lit 44 || (i.tree (bits x.lit 43 40)).isSome
  else true

/-- The NODE that a SPAFLUSH names holds a SPAACC of its own block (R346). -/
def nodeOk (look : Names → W32) (n : Names) (x : Slot) : Bool :=
  opOf x.word ≠ 0xB7 || opOf (look { n with idx := bits x.lit 2 0 }) == 0xB6

/-- The slot passes the checks that look at its section alone (R309, R319, R338, R346). -/
def SecImage.slotFits (i : SecImage) (look : Names → W32) (n : Names) (x : Slot) : Bool :=
  homeOf (opOf x.word) == i.homeAt n && i.treeOk x && nodeOk look n x

/-- The word that an instruction holds: that of the table it stands in, where it is loaded and that slot is not empty, else
that of the sealed section (log 83, DEDUCED). -/
def State.wordOf (s : State) (sec : Section) (n : Names) : W32 :=
  let now : W32 :=
    if n.node then
      match s.ldr.channels.find? fun c => c.part == n.part && c.lsec == n.lsec && c.chan == n.block with
      | some c => (at! c.slots n.idx Slot.zero).word
      | none => 0
    else
      match sec.places.get n.block with
      | some e => if e.valid then (s.slot e.place.cluster e.place.elem (32 * e.place.half + n.idx)).word else 0
      | none => 0
  if now = 0 then sec.image.wordAt n else now

/-- The slot of a firing passes the checks that look at its section (R207, R208): a PORT of 3 and a block that is not there are
met when a token is sent. -/
def State.slotInSection (s : State) (n : Names) (x : Slot) : Bool :=
  match s.section? n.part n.lsec with
  | none => true
  | some sec =>
    sec.image.slotFits (s.wordOf sec) n x
      && x.links.all fun l => (sec.image.linkFaults (s.wordOf sec) n (opOf x.word) l).all fun e => e = .port || e = .block

end Sys2Proof.Machine
end

