-- ==== Sys2Proof/Machine/Amo.lean ====
section
/-! DEFINITION. The new values of the atomic operations (R138, R139), of a counter add (R133), and of a
merged contribution (R148). -/

namespace Sys2Proof.Machine

/-- The new value of an atomic in a format: from the old value, b and c (R138), and its flags (R139). A
counter add reads its amount as unsigned and saturates (R133). -/
def amoNew (o : AmoOp) (f : Fmt) (old b c : Nat) : Nat × FpFlags :=
  let w := f.width
  let less := toS w old < toS w b
  match o with
  | .add => (wrap w ((old : Int) + b), fNone)
  | .and_ => (old &&& b, fNone)
  | .or_ => (old ||| b, fNone)
  | .xor_ => (old ^^^ b, fNone)
  | .min_ => (if less then old else b, fNone)
  | .max_ => (if less then b else old, fNone)
  | .minn => (min old b, fNone)
  | .maxn => (max old b, fNone)
  | .swap => (b, fNone)
  | .cas => (if old = b then c else old, fNone)
  | .fadd => fpAdd (fpOf f) old b
  | .fmin => fpMinMax (fpOf f) false old b
  | .fmax => fpMinMax (fpOf f) true old b
  | .ctradd => (min (old + b) (2 ^ 64 - 1), fNone)

/-- Two contributions that a switch or the controller merges into one (R148): one operation of R138 on
their amounts. -/
def amoMerge (o : AmoOp) (f : Fmt) (b1 b2 : Nat) : Nat := (amoNew o f b1 b2 0).1

/-- The switches merge the operation (R148). -/
def AmoOp.merges : AmoOp → Bool
  | .swap | .cas => false
  | _ => true

/-- The counter would pass 2^64 - 1 (R133). -/
def ctrOverflows (o : AmoOp) (old b : Nat) : Bool := o = .ctradd && 2 ^ 64 - 1 < old + b

/-- Formats that an atomic takes, by the size of its access (R138). -/
def amoFmtOk (o : AmoOp) (f : Fmt) : Bool :=
  match o with
  | .fadd | .fmin | .fmax => f.isFloat
  | .swap | .cas => f = .i32 || f = .i64 || f = .f32 || f = .f64 || f = .a
  | .ctradd => f = .i64
  | _ => f = .i32 || f = .i64

/-- The format of b where it comes from a constant or a keep register (R138). -/
def amoOwnFmt (o : AmoOp) (width : Nat) : Fmt :=
  match o with
  | .fadd | .fmin | .fmax => if width = 1 then .f16 else if width = 2 then .f32 else .f64
  | _ => if width = 2 then .i32 else .i64

end Sys2Proof.Machine
end

