-- ==== Sys2Proof/Machine/Marks.lean ====
section
/-! DEFINITION. Storage that an uncorrectable ECC error has poisoned (R403): 64-byte blocks of HBM and granules of
scratch, each with its bytes that no store has overwritten since. -/

namespace Sys2Proof.Machine

/-- Bytes of a unit that is poisoned as a whole: a block of HBM, a granule of scratch. -/
def unitBytes (lv : Level) : Nat := if lv = .mem then 64 else 16

/-- A read of `n` bytes of a level from `a` meets a poisoned unit. -/
def State.spoiled (s : State) (lv : Level) (a n : Nat) : Bool :=
  s.mem.marks.any fun m => m.1.1 = lv && m.1.2 * unitBytes lv < a + n && a < (m.1.2 + 1) * unitBytes lv

/-- The marks once `n` bytes of a level from `a` have been overwritten: a unit of which no byte is left is poisoned no
more. -/
def coverMarks (l : Tbl (Level × Nat) (List Nat)) (lv : Level) (a n : Nat) : Tbl (Level × Nat) (List Nat) :=
  l.filterMap fun m =>
    if m.1.1 ≠ lv then some m
    else
      let rest := m.2.filter fun o => m.1.2 * unitBytes lv + o < a || a + n ≤ m.1.2 * unitBytes lv + o
      if rest.isEmpty then none else some (m.1, rest)

/-- Bytes of a level have been overwritten. -/
def State.cover (s : State) (lv : Level) (a n : Nat) : State :=
  { s with mem := { s.mem with marks := coverMarks s.mem.marks lv a n } }

/-- The bytes among `n` from `a` that await a store, as offsets from `a`. -/
def State.awaiting (s : State) (lv : Level) (a n : Nat) : List Nat :=
  s.mem.marks.flatMap fun m =>
    if m.1.1 ≠ lv then []
    else (m.2.filter fun o => a ≤ m.1.2 * unitBytes lv + o && m.1.2 * unitBytes lv + o < a + n).map fun o =>
      m.1.2 * unitBytes lv + o - a

/-- The marks with one more byte that awaits a store. -/
def addMark (l : Tbl (Level × Nat) (List Nat)) (lv : Level) (a : Nat) : Tbl (Level × Nat) (List Nat) :=
  let k := (lv, a / unitBytes lv)
  let old := l.getD k []
  if old.contains (a % unitBytes lv) then l else l.set k (old ++ [a % unitBytes lv])

/-- The bytes at some offsets from `a` are poisoned, and with them their units. -/
def State.spoil (s : State) (lv : Level) (a : Nat) (offs : List Nat) : State :=
  { s with mem := { s.mem with marks := offs.foldl (fun l o => addMark l lv (a + o)) s.mem.marks } }

/-- The marks of `n` bytes at `a` go with those bytes to `b`, whose own are gone. -/
def carryMarks (l : Tbl (Level × Nat) (List Nat)) (lv : Level) (a b n : Nat) : Tbl (Level × Nat) (List Nat) :=
  let u := unitBytes lv
  (l.filter fun m => !(m.1.1 = lv && b / u ≤ m.1.2 && m.1.2 < (b + n) / u))
    ++ (l.filter fun m => m.1.1 = lv && a / u ≤ m.1.2 && m.1.2 < (a + n) / u).map fun m =>
      ((lv, m.1.2 - a / u + b / u), m.2)

end Sys2Proof.Machine
end

