-- ==== Sys2Proof/Machine/Translate.lean ====
section
/-! DEFINITION. The fields of a memory literal (R52, R79, R100), the home of a line (R66, R425), reserved
physical addresses (R32), the walk of the page tables (R37 to R40) and the translation cache (R41 to
R45). -/

namespace Sys2Proof.Machine

/-! ### Literals (R52, R79, R100) -/

/-- The sequence triple of a literal. -/
def litPred (l : W64) : Nat := bits l 63 56
def litThis (l : W64) : Nat := bits l 55 48
def litSucc (l : W64) : Nat := bits l 47 40
/-- The instruction is chained (R79). -/
def litChained (l : W64) : Bool := litThis l ≠ 0xFE
/-- ORD, WIDTH, LEVEL, STRM, SCOPE and the signed Offset. -/
def litOrd (l : W64) : Bool := bit l 39
def litWidth (l : W64) : Nat := bits l 38 36
def litLevel (l : W64) : Nat := bits l 35 33
def litStrm (l : W64) : Bool := bit l 32
def litScope (l : W64) : Nat := bits l 31 30
def litOff (l : W64) : Int := toS 30 (bits l 29 0)

/-- The level that a code names (R52); none for the reserved 0b011. -/
def levelOf : Nat → Option Level
  | 0 => some .l1 | 1 => some .l2 | 2 => some .mem | 4 => some .es | 5 => some .cs | 6 => some .sg
  | 7 => some .ss | _ => none

/-- The code of a level (R52). -/
def Level.code : Level → Nat
  | .l1 => 0 | .l2 => 1 | .mem => 2 | .es => 4 | .cs => 5 | .sg => 6 | .ss => 7

/-- The level is one of the three cached ones. -/
def Level.cached : Level → Bool
  | .l1 | .l2 | .mem => true
  | _ => false

/-! ### Homes (R66, R68, R425) -/

/-- The hash of a line address, before the seed (R66). -/
def lineHash (ia : Nat) : Nat := (nbits ia 21 6 ^^^ nbits ia 37 22) ^^^ nbits ia 51 38

/-- The physical slice that a map names for a line (R66). -/
def mapHome (mode : Bool) (m : List Nat) (ia seed : Nat) : Nat :=
  let h := if mode then lineHash ia else lineHash ia ^^^ seed
  at! m (h * m.length / 65536) 0

/-- The slice holds a tag of the line that is no replica. -/
def State.holds (s : State) (slice asid line : Nat) : Bool :=
  s.mem.l2.any fun x => x.slice == slice && x.asid == asid && x.line == line && !x.replica

/-- The slice that serves a line (R66); in the rehash window the old home, while it holds the line and
the new one does not (R425). -/
def State.homeOf (s : State) (p asid line seed : Nat) : Nat :=
  let x := s.part p
  let n := mapHome x.mode x.slicemap (64 * line) seed
  match x.oldmap with
  | none => n
  | some m =>
    let o := mapHome x.mode m (64 * line) seed
    if n = o || s.holds n asid line || !s.holds o asid line then n else o

/-! ### Physical addresses (R32) -/

/-- Bytes of a strip's window, and of its backed part. -/
def stripWindow : Nat := 0x600000000
def stripBacked : Nat := 0x59682F000
/-- Where the peer windows and the host window begin. -/
def peerBase : Nat := 0x400000000000
def hostBase : Nat := 0x800000000000

/-- The PA lies in local HBM addresses. -/
def paLocal (pa : Nat) : Bool := pa < 16 * stripWindow
/-- The PA lies in a peer window. -/
def paPeer (pa : Nat) : Bool := peerBase ≤ pa && pa < hostBase
/-- The PA lies in the host window. -/
def paHost (pa : Nat) : Bool := hostBase ≤ pa

/-- A channel of an HBM stack (R23). -/
structure HbmChannel where
  stack   : Nat
  channel : Nat
deriving DecidableEq, Repr

/-- The strip that a channel serves (R23): the stacks of a die serve its top edge, then its bottom edge. -/
def HbmChannel.strip (c : HbmChannel) : Nat := 8 * (c.stack / 4) + 4 * (c.stack % 2) + c.channel / 8

/-- The edge of a channel's strip: 0 top, 1 bottom (R19, R23). -/
def HbmChannel.edge (c : HbmChannel) : Nat := c.stack / 2 % 2

/-- Channel `k` of a strip, 0 to 7 at its top edge and 8 to 15 at its bottom edge, among those of the stacks (R23, R33). -/
def stripChannel (s k : Nat) : HbmChannel := ⟨4 * (s / 8) + 2 * (k / 8) + s / 4 % 2, 8 * (s % 4) + k % 8⟩

/-- The channel that holds the byte at a PA of local HBM (R33). -/
def paChannel (pa : Nat) : HbmChannel := stripChannel (pa / stripWindow) (nbits pa 11 8)

/-- STATE and PART of a strip (R416). -/
def State.stripState (s : State) (st : Nat) : Nat := bits (at! s.dev.strips st 0) 7 5
def State.stripPart (s : State) (st : Nat) : Nat := bits (at! s.dev.strips st 0) 3 0

/-- The strip's channels serve the partition: MEMBER, RESERVED or FENCED for it (R32, R416, R423). -/
def State.stripServes (s : State) (p st : Nat) : Bool :=
  let x := s.stripState st
  (x = 2 || x = 3 || x = 5) && s.stripPart st == p

/-- In reduced service a local PA is served by the slice scratches of strip `b`: the first 6 MiB of its window
(R446). -/
def State.paReduced (b pa : Nat) : Bool := stripWindow * b ≤ pa && pa < stripWindow * b + 0x600000

/-- Bytes of the slice scratches of strip `b` as local HBM addresses name them (R446), in address order. -/
def State.windowBytes (s : State) (b : Nat) : Memory :=
  let lo := 16 * b * 2 ^ 19
  (s.mem.ss.filter fun c => lo ≤ c.1 && c.1 < lo + 0x600000).map fun c => (c.1 - lo + stripWindow * b, c.2)

/-- The memory behind local HBM addresses: HBM, or in reduced service the slice scratches that stand for it
(R446). -/
def State.phys (s : State) : Memory :=
  match s.dev.reduced with
  | none => s.mem.hbm
  | some b => s.windowBytes b

/-- The level and the address under which the bytes at a local PA may be poisoned: HBM's, or those of the slice scratch
that stands for it (R403, R446). -/
def State.paKey (s : State) (pa : Nat) : Level × Nat :=
  match s.dev.reduced with
  | none => (.mem, pa)
  | some b => (.ss, pa - stripWindow * b + 16 * b * 2 ^ 19)

/-- A read of `n` bytes at a PA meets a poisoned block (R403). -/
def State.paSpoiled (s : State) (pa n : Nat) : Bool :=
  paLocal pa && s.spoiled (s.paKey pa).1 (s.paKey pa).2 n

/-- The bytes of the line at a PA that still await a store (R403). -/
def State.paAwaiting (s : State) (pa : Nat) : List Nat :=
  if paLocal pa then s.awaiting (s.paKey pa).1 (s.paKey pa).2 64 else []

/-- FrameReserved of R40: the PA is reserved for the partition (R32, R143, R446). -/
def State.paReserved (s : State) (p pa : Nat) : Bool :=
  if paLocal pa then
    (match s.dev.reduced with
      | some b => !State.paReduced b pa
      | none => false) || stripBacked ≤ pa % stripWindow || !s.stripServes p (paChannel pa).strip
  else if paHost pa then false
  else if paPeer pa then
    let d := (pa - peerBase) / 2 ^ 40
    16 * stripWindow ≤ pa % 2 ^ 40 || bits s.dev.lsdcfg 13 8 < d || d == bits s.dev.lsdcfg 5 0
  else true

/-! ### Leaves (R39) -/

def leafCid (e : W64) : Nat := bits e 63 56
def leafMig (e : W64) : Bool := bit e 9
def leafPin (e : W64) : Bool := bit e 8
def leafC (e : W64) : Bool := bit e 6
def leafW (e : W64) : Bool := bit e 4
def leafRd (e : W64) : Bool := bit e 3
/-- Read-only-replicable: ROR with W = 0 (R39). -/
def leafRor (e : W64) : Bool := bit e 7 && !leafW e

/-- Holds(e, need) of R40. -/
def Need.inLeaf (n : Need) (e : W64) : Bool :=
  (!n.rd || leafRd e) && (!n.w || leafW e) && (!n.x || bit e 5)

/-- Who asks for a translation, for the identity rule (R43): any requester that is admitted only to
CID 0, a stream port with its graph's identity, or one that is not checked. -/
inductive Ident where
  | plain | stream (cid : Nat) | any
deriving DecidableEq, Repr

/-- IdentityMatches of R40 (R43). -/
def Ident.admits (i : Ident) (e : W64) : Bool :=
  leafCid e == 0 || match i with
    | .plain => false
    | .stream c => c == leafCid e
    | .any => true

/-- What a walk gives: the PA with its leaf and log₂ of the page size, or a cause and subcode of R400. -/
inductive Walked where
  | leaf (pa : Nat) (e : W64) (size : Nat)
  | fault (cause sub : Nat)
deriving DecidableEq, Repr

/-- Bits of IA that a level indexes, and log₂ of its leaf's size (R38). -/
def levelIndex (ia lvl : Nat) : Nat :=
  match lvl with
  | 0 => nbits ia 51 39
  | 1 => nbits ia 38 30
  | 2 => nbits ia 29 21
  | _ => nbits ia 20 16
def leafSize (lvl : Nat) : Nat :=
  match lvl with
  | 1 => 30
  | 2 => 21
  | _ => 16
/-- Alignment of a table of a level (R38). -/
def tableAlign (lvl : Nat) : Nat :=
  match lvl with
  | 1 => 4096
  | 2 => 4096
  | _ => 256

/-- The PA of the byte at `ia` under a leaf of log₂ size `n`. -/
def leafPa (e : W64) (n ia : Nat) : Nat :=
  alignDown (bits e 47 16 * 2 ^ 16) (2 ^ n) + ia % 2 ^ n

/-- The eight bytes of a table entry at a PA: of local HBM, or a free value where the table lies with a peer or the host
(log 22, DESIGN CHOICE); a PA that names nothing reads as zero. -/
def State.tableEntry (s : State) (a : Nat) : W64 :=
  if paLocal a then w64 (s.phys.word a 8)
  else if paPeer a || paHost a then Config.farEntry s.run.steps a
  else 0

/-- The levels of the walk from a table at `t`: the leaf, its address and log₂ of its size (R40). -/
def State.walkFrom (s : State) (ia : Nat) : List Nat → Nat → Option (W64 × Nat × Nat)
  | [], _ => none
  | lvl :: r, t =>
    let a := t + levelIndex ia lvl * 8
    let e := s.tableEntry a
    if !bit e 0 then none
    else if bit e 1 then
      if lvl < 3 then s.walkFrom ia r (alignDown (bits e 47 8 * 2 ^ 8) (tableAlign (lvl + 1)))
      else none
    else if 1 ≤ lvl then some (e, a, leafSize lvl)
    else none

/-- The root of an ASID's table (R37); none where its entry is invalid or another partition's. -/
def State.asidRoot (s : State) (p asid : Nat) : Option Nat :=
  let a := s.tableEntry (bits (s.part p).asidbase 47 15 * 2 ^ 15 + asid * 8)
  if bit a 0 && bits a 63 56 == p then some (bits a 47 16 * 2 ^ 16) else none

/-- The addresses of the entries that a walk reads from a table at `t` (R40). -/
def State.walkReads (s : State) (ia : Nat) : List Nat → Nat → List Nat
  | [], _ => []
  | lvl :: r, t =>
    let a := t + levelIndex ia lvl * 8
    let e := s.tableEntry a
    a :: if bit e 0 && bit e 1 && lvl < 3 then s.walkReads ia r (alignDown (bits e 47 8 * 2 ^ 8) (tableAlign (lvl + 1))) else []

/-- A walk meets a poisoned entry: that of the ASID, or one of its tables (R40, R403). -/
def State.walkSpoiled (s : State) (p asid ia : Nat) : Bool :=
  !s.mem.marks.isEmpty && (s.paSpoiled (bits (s.part p).asidbase 47 15 * 2 ^ 15 + asid * 8) 8 ||
    match s.asidRoot p asid with
    | none => false
    | some t => (s.walkReads ia [0, 1, 2, 3] t).any fun a => s.paSpoiled a 8)

/-- The leaf that memory holds for an IA: its word, its address and log₂ of its size; else the fault of
the walk (R40, R45), which a poisoned entry ends with the cause ECC (R403). -/
def State.findLeaf (s : State) (p asid ia : Nat) : Except (Nat × Nat) (W64 × Nat × Nat) :=
  if s.walkSpoiled p asid ia then .error (0x0B, 1) else
  match s.asidRoot p asid with
  | none => .error (5, 4)
  | some t =>
    match s.walkFrom ia [0, 1, 2, 3] t with
    | none => .error (4, 1)
    | some x => .ok x

/-- What a leaf gives to a requester (R40). -/
def State.judge (s : State) (p ia : Nat) (need : Need) (who : Ident) (e : W64) (n : Nat) : Walked :=
  let pa := leafPa e n ia
  if s.paReserved p pa then .fault 5 5
  else if !need.inLeaf e then .fault 5 1
  else if !who.admits e then .fault 5 2
  else .leaf pa e n

/-- The walk of the tables in memory (R40). -/
def State.walk (s : State) (p asid ia : Nat) (need : Need) (who : Ident) : Walked :=
  match s.findLeaf p asid ia with
  | .error (c, u) => .fault c u
  | .ok (e, _, n) => s.judge p ia need who e n

/-! ### The translation cache (R41, R44, R45) -/

/-- The entry covers the IA. -/
def Xlat.covers (x : Xlat) (slice asid ia : Nat) : Bool :=
  x.slice == slice && x.asid == asid && ia / 2 ^ x.size == x.page

/-- The cache with a leaf entered at its slice; the least recently used of 512 leaves (R41). -/
def fillXlat (l : List Xlat) (slice asid ia n use : Nat) (e : W64) : List Xlat :=
  let rest := l.filter fun x => !x.covers slice asid ia
  let mine := rest.filter fun x => x.slice == slice
  let rest := if mine.length < 512 then rest else
    match minBy (fun x : Xlat => x.use) mine with
    | some v => rest.filter fun x => x ≠ v
    | none => rest
  ⟨slice, asid, ia / 2 ^ n, n, e, use, false⟩ :: rest

/-- A walk at a slice; a valid leaf is entered in its cache (R41). -/
def State.walkFill (s : State) (p slice asid ia : Nat) (need : Need) (who : Ident) : Walked × State :=
  match s.findLeaf p asid ia with
  | .error (c, u) => (.fault c u, s)
  | .ok (e, _, n) =>
    let (t, s) := s.newId
    (s.judge p ia need who e n,
      { s with mem := { s.mem with xlat := fillXlat s.mem.xlat slice asid ia n t e } })

/-- The range is held as scrubbed (R51). -/
def Part.isScrubbed (x : Part) (asid ia : Nat) : Bool :=
  x.scrubbed.any fun r => r.asid == asid && r.base ≤ ia && ia < r.base + r.size

/-- The IA lies in the hidden range of a live shadow pair (R261). -/
def Part.inHidden (x : Part) (asid ia : Nat) : Bool :=
  x.shadows.any fun r => r.asid == asid && r.h ≤ ia && ia < r.h + r.size

/-- The translation of an access at a slice: the scrubbed and hidden ranges first, then the cache, then
the walk; a cached leaf that lacks a right is walked again (R40, R41, R44, R51, R261). One that an error has struck ends the access
as a bad page-table entry does, and leaves the cache (R403; log 24, DESIGN CHOICE). -/
def State.translate (s : State) (p slice asid ia : Nat) (need : Need) (who : Ident) : Walked × State :=
  if (s.part p).isScrubbed asid ia then (.fault 4 1, s)
  else if (s.part p).inHidden asid ia then (.fault 5 11, s)
  else
    match s.mem.xlat.find? fun x => x.covers slice asid ia with
    | none => s.walkFill p slice asid ia need who
    | some x =>
      if x.bad then (.fault 0x0B 1, { s with mem := { s.mem with xlat := s.mem.xlat.filter fun y => y ≠ x } }) else
      match s.judge p ia need who x.leaf x.size with
      | .fault 5 1 => s.walkFill p slice asid ia need who
      | r =>
        let (t, s) := s.newId
        (r, { s with mem := { s.mem with
          xlat := modFirst (fun y => y = x) (fun y => { y with use := t }) s.mem.xlat } })

/-- Rights that an operation needs at the walk (R40). -/
def Op.need (o : Op) : Need :=
  match o.kind with
  | .store => { w := true }
  | .stfe => { w := true }
  | .amo _ => { rd := true, w := true }
  | .lease => { rd := true, w := true }
  | _ => { rd := true }

/-- The fault is handled by abort or wait (R45); else it is handled as Poison. -/
def faultWaits (cause sub : Nat) : Bool := cause = 4 || (cause = 5 && (sub = 1 || sub = 2))

/-- The 64 KiB granule of an IA, as FRESUME names it (R46). -/
def granuleOf (ia : Nat) : Nat := ia / 2 ^ 16

end Sys2Proof.Machine
end

