-- ==== Sys2Proof/Machine/Scratch.lean ====
section
/-! DEFINITION. The scratch levels: where an offset leads and when it is valid (R53, R54, R57), the guard
and full-empty bits of granules (R60, R63, R64), and reads and writes at a bank. -/

namespace Sys2Proof.Machine

/-- A byte position of scratch: element store of an element, SRAM of a cluster, SRAM of a slice (R53). -/
inductive Spot where
  | es (elem : Nat) (off : Nat)
  | cs (cluster : Nat) (off : Nat)
  | ss (slice : Nat) (off : Nat)
deriving DecidableEq, Repr

/-- The spot `d` bytes further in the same SRAM. -/
def Spot.add (x : Spot) (d : Nat) : Spot :=
  match x with
  | .es e o => .es e (o + d)
  | .cs c o => .cs c (o + d)
  | .ss c o => .ss c (o + d)

/-- Offset of a spot in its SRAM. -/
def Spot.off : Spot → Nat
  | .es _ o => o
  | .cs _ o => o
  | .ss _ o => o

/-- UNIT of a record about a spot (R64, R398): a cluster ID or a slice ID. -/
def Spot.unit : Spot → Nat
  | .es e _ => e / 16
  | .cs c _ => c
  | .ss c _ => c

/-- The two spots are in one SRAM. -/
def Spot.sameBank (x y : Spot) : Bool :=
  match x, y with
  | .es a _, .es b _ => a == b
  | .cs a _, .cs b _ => a == b
  | .ss a _, .ss b _ => a == b
  | _, _ => false

/-- Level and address of a spot in the state's memories. -/
def Spot.key : Spot → Level × Nat
  | .es e o => (.es, e * 4096 + o)
  | .cs c o => (.cs, c * 2 ^ 19 + o)
  | .ss c o => (.ss, c * 2 ^ 19 + o)

/-- The granule of a spot, as `full` lists it (R60). -/
def Spot.granule (x : Spot) : Level × Nat := (x.key.1, x.key.2 / 16)

/-- CLWAYS.MASK of a cluster (R57). -/
def State.mask (s : State) (c : Nat) : Nat := s.mem.clways.getD c 0

/-- n of a mask 2ⁿ - 1 (R57). -/
def waysOf (m : Nat) : Nat := ((upto 13).find? fun n => 2 ^ n == m + 1).getD 0

/-- Bytes of a cluster's scratch (R53). -/
def State.csSize (s : State) (c : Nat) : Nat := waysOf (s.mask c) * 0x8000

/-- Cluster `j` of the segment of a cluster (R54). -/
def segCluster (c j : Nat) : Nat :=
  mkCluster (clusterStrip c) (clusterCol c) (4 * (clusterRow c / 4) + j)

/-- Every byte of `off .. off + n - 1` is a valid offset of a level, for a unit of partition `p` at a
cluster (R54, R55). -/
def State.scratchValid (s : State) (p cluster : Nat) (lv : Level) (off n : Nat) : Bool :=
  match lv with
  | .es => off + n ≤ 4096
  | .cs => off + n ≤ s.csSize cluster
  | .sg => off + n ≤ 2 ^ 21 && (upto 4).all fun j =>
      let lo := j * 2 ^ 19
      off + n ≤ lo || lo + 2 ^ 19 ≤ off || min (off + n) (lo + 2 ^ 19) - lo ≤ s.csSize (segCluster cluster j)
  | .ss => off + n ≤ (s.part p).slicemap.length * 2 ^ 19
  | _ => false

/-- Where a valid offset leads (R54). -/
def State.spotOf (s : State) (p cluster elem : Nat) (lv : Level) (off : Nat) : Spot :=
  match lv with
  | .es => .es (cluster * 16 + elem) (off % 4096)
  | .sg => .cs (segCluster cluster (off / 2 ^ 19 % 4)) (off % 2 ^ 19)
  | .ss => .ss (at! (s.part p).slicemap (off / 2 ^ 19) 0) (off % 2 ^ 19)
  | _ => .cs cluster (off % 2 ^ 19)

/-- The memory of a spot. -/
def State.bankMem (s : State) (x : Spot) : Memory :=
  match x with
  | .es _ _ => s.mem.es
  | .cs _ _ => s.mem.cs
  | .ss _ _ => s.mem.ss

/-- The state with the memory of a spot passed through `f`. -/
def State.modBank (s : State) (x : Spot) (f : Memory → Memory) : State :=
  match x with
  | .es _ _ => { s with mem := { s.mem with es := f s.mem.es } }
  | .cs _ _ => { s with mem := { s.mem with cs := f s.mem.cs } }
  | .ss _ _ => { s with mem := { s.mem with ss := f s.mem.ss } }

/-- A change of the cluster's scratch ways holds the offset back (R58). -/
def State.wayBlocked (s : State) (x : Spot) : Bool :=
  match x with
  | .cs c o => s.mem.ways.any fun w =>
      w.cluster == c && min (waysOf w.mask) (waysOf (s.mask c)) * 0x8000 ≤ o
  | _ => false

/-- The clusters whose scratch an access of `n` bytes of a level touches, with the end of what it touches there (R54). -/
def csTouched (cluster : Nat) (lv : Level) (off n : Nat) : List (Nat × Nat) :=
  match lv with
  | .cs => [(cluster, off + n)]
  | .sg => (upto 4).filterMap fun j =>
      let lo := j * 2 ^ 19
      if off + n ≤ lo || lo + 2 ^ 19 ≤ off then none else some (segCluster cluster j, min (off + n) (lo + 2 ^ 19) - lo)
  | _ => []

/-- The validity of an access waits for the end of a change of scratch ways: it touches an offset that the change
concerns (R58). -/
def State.rangeBlocked (s : State) (cluster : Nat) (lv : Level) (off n : Nat) : Bool :=
  (csTouched cluster lv off n).any fun x => s.mem.ways.any fun w =>
    w.cluster == x.1 && min (waysOf w.mask) (waysOf (s.mask x.1)) * 0x8000 < x.2

/-! ### Guards (R63, R64) -/

/-- The bank of a spot (R264). -/
def Spot.bank : Spot → Option Bank
  | .es _ _ => none
  | .cs c _ => some (.cs c)
  | .ss c _ => some (.ss c)

/-- A byte of a bank. -/
def Bank.at_ (b : Bank) (o : Nat) : Spot :=
  match b with
  | .cs c => .cs c o
  | .ss c => .ss c o

/-- The guard granules of a region: the two below it and the two above (R63). -/
def Region.guards (r : Region) : List (Level × Nat) :=
  [r.off - 32, r.off - 16, r.off + r.len, r.off + r.len + 16].map fun o => (r.bank.at_ o).granule

/-- The spot lies in a granule whose guard bit is set (R63). -/
def State.guarded (s : State) (x : Spot) : Bool := s.mem.guards.contains x.granule

/-- Guard bits set (R63). -/
def State.setGuards (s : State) (l : List (Level × Nat)) : State :=
  { s with mem := { s.mem with guards := s.mem.guards ++ l.filter fun g => !s.mem.guards.contains g } }

/-- The guard bits of a region that has gone are cleared, except those that a live region of its bank claims (R63). -/
def State.clearGuards (s : State) (r : Region) : State :=
  let kept := (s.mem.regions.filter fun q => q.bank = r.bank).flatMap Region.guards
  { s with mem := { s.mem with guards := s.mem.guards.filter fun g => !r.guards.contains g || kept.contains g } }

/-- A context notes a guard fault: the first with its record, the later ones by their number (R64). -/
def State.noteGuard (s : State) (p c : Nat) (r : TrapRec) : State :=
  s.modCtx p c fun x =>
    match x.guard with
    | none => { x with guard := some r, guardN := 0 }
    | some _ => { x with guardN := min 255 (x.guardN + 1) }

/-- The guard record of a context is raised and both its notes are cleared (R64). -/
def State.flushGuard (s : State) (p c : Nat) : State :=
  match s.ctx? p c with
  | none => s
  | some x =>
    match x.guard with
    | none => s
    | some r =>
      (s.pushTrap { r with w2 := w64 (r.w2.toNat + x.guardN) }).modCtx p c fun y =>
        { y with guard := none, guardN := 0 }

/-- The record of a guard fault at a spot (R64, R398, R400). -/
def guardRecord (w : Site) (lv : Level) (x : Spot) : TrapRec :=
  trapRecord { w with unit := x.unit }
    { cause := 6, sub := 1, addr := alignDown x.off 16, info := lv.code * 2 ^ 61 } 0

/-- The guard granules that `n` bytes from a spot touch, by their lowest byte. -/
def State.guardHits (s : State) (x : Spot) (n : Nat) : List Spot :=
  let first := x.off % 16
  ((upto ((first + n + 15) / 16)).map fun i =>
    x.add (16 * i - first)).filter fun y => s.guarded y

/-- Each guard granule touched is noted by the context (R64). -/
def State.noteGuards (s : State) (w : Site) (lv : Level) (x : Spot) (n : Nat) : State :=
  (s.guardHits x n).foldl (fun s y => s.noteGuard w.names.part w.ctx (guardRecord w lv y)) s

/-- The bytes at a spot, zero in guard granules (R64). -/
def State.readSpot (s : State) (x : Spot) (n : Nat) : List Byte :=
  (upto n).map fun i =>
    let y := x.add i
    if s.guarded y then 0 else (s.bankMem y).get y.key.2

/-- The state with bytes written at a spot, but for those in guard granules (R64). -/
def State.writeSpot (s : State) (x : Spot) : List Byte → State
  | [] => s
  | b :: bs =>
    let s := if s.guarded x then s else (s.modBank x fun m => m.put x.key.2 b).cover x.key.1 x.key.2 1
    s.writeSpot (x.add 1) bs

/-- A read of `n` bytes at a spot meets a poisoned granule (R403). -/
def State.spotSpoiled (s : State) (x : Spot) (n : Nat) : Bool := s.spoiled x.key.1 x.key.2 n

/-! ### Full-empty bits (R60) -/

/-- The granule of a spot is full. -/
def State.isFull (s : State) (x : Spot) : Bool := s.mem.full.contains x.granule

/-- The granule of a spot set full or empty. -/
def State.setFull (s : State) (x : Spot) (v : Bool) : State :=
  let rest := s.mem.full.filter fun g => g ≠ x.granule
  { s with mem := { s.mem with full := if v then x.granule :: rest else rest } }

/-- Zero, empty granules with no guard bit in `n` bytes of a cluster's or slice's SRAM from offset `o` (R58, R429). -/
def State.wipeSpot (s : State) (x : Spot) (n : Nat) : State :=
  let k := x.key.2
  let s := (s.modBank x fun m => m.zero k n).cover x.key.1 k n
  { s with mem := { s.mem with
      full := s.mem.full.filter fun g => !(g.1 = x.key.1 && k / 16 ≤ g.2 && g.2 < (k + n) / 16)
      guards := s.mem.guards.filter fun g => !(g.1 = x.key.1 && k / 16 ≤ g.2 && g.2 < (k + n) / 16) } }

end Sys2Proof.Machine
end

