-- ==== Sys2Proof/Machine/Complete.lean ====
section
/-! DEFINITION. How a memory operation ends: its result joins those of its firing, which go out in pieces
(R247), its chain moves on (R81), and waits that a write releases are performed (R61, R135). -/

namespace Sys2Proof.Machine

/-! ### Results -/

/-- The site of an operation. -/
def Op.site (o : Op) (s : State) : Site :=
  { names := o.names, port := 0, asid := s.asidOf o.names.part o.ctx, ctx := o.ctx, wave := o.wave,
    unit := o.cluster, strip := clusterStrip o.cluster }

/-- The site of a firing's results. -/
def Gather.site (g : Gather) (s : State) : Site :=
  { names := g.names, port := 0, asid := s.asidOf g.names.part g.ctx, ctx := g.ctx, wave := g.wave,
    unit := g.names.unit g.cluster, strip := clusterStrip g.cluster }

/-- The maximal runs of elements that go out as one token: all good or all poisoned, and of one format
(R247, R331). -/
def resultRuns : List ElemRes → Nat → List (Nat × ElemRes × List W64)
  | [], _ => []
  | r :: rs, i =>
    match resultRuns rs (i + 1) with
    | (j, q, vs) :: rest =>
      if q.poison = r.poison && q.fmt = r.fmt then (i, r, r.val :: vs) :: rest
      else (i, r, [r.val]) :: (j, q, vs) :: rest
    | [] => [(i, r, [r.val])]

/-- The interface through which a result returns where it goes by its issuing block (R202, R356): a node's own, and the block's
where it now stands. -/
def State.issuerPort (s : State) (g : Gather) (w : Port) : Port × State :=
  if g.names.node then (g.names.sender g.cluster, s)
  else
    match s.resolve w g.names with
    | (some pl, s) => (⟨false, pl.cluster⟩, s)
    | (none, s) => (g.names.sender g.cluster, s)

/-- A result leaves on a link (R202, R203): on one of kind 01 from the interface `w` of the place where its operation was
performed, on another through its issuing block. -/
def State.sendResult (s : State) (g : Gather) (w : Port) (l : W32) (t : Token) : State :=
  match s.section? g.names.part g.names.lsec with
  | none => s
  | some sec => (sec.image.links l).foldl (fun s x =>
      if linkKind x = 1 then s.sendPlain (g.site s) w x t
      else
        let (v, s) := s.issuerPort g w
        s.sendPlain (g.site s) v x t) s

/-- One piece leaves on the links that DA names, from the place of its first element. -/
def State.sendPiece (s : State) (g : Gather) (x : Nat × ElemRes × List W64) : State :=
  let t : Token :=
    { id := 0, dest := Names.zero, port := 0, ctx := g.ctx, wave := g.wave + x.1, stop := g.stop,
      fmt := x.2.1.fmt, poison := x.2.1.poison,
      data := if x.2.1.poison then x.2.2.map fun _ => 0 else x.2.2, at_ := none, flits := 0 }
  let w := g.froms.getD x.1 (g.names.sender g.cluster)
  let s := if g.da = 1 || g.da = 3 then s.sendResult g w g.lk0 t else s
  if g.da = 2 || g.da = 3 then s.sendResult g w g.lk1 t else s

/-- A poisoned result of TSLICE, which has no format of its own (here P), takes the format of the element before
it, or F32 (R331). -/
def inheritFmt : Fmt → List ElemRes → List ElemRes
  | _, [] => []
  | f, r :: rs =>
    let r := if r.poison && r.fmt = .p then { r with fmt := f } else r
    r :: inheritFmt r.fmt rs

/-- The results of a firing leave (R247). -/
def State.sendGather (s : State) (g : Gather) : State :=
  (resultRuns (inheritFmt .f32 (g.res.filterMap id)) 0).foldl (fun s x => s.sendPiece g x) s

/-- Element `j` of a firing has its result, made at `w`; the firing's results leave once all have one (R247), so the token of a
LEASE of several waves leaves when the last of them is granted (R120, R121; log 84, DESIGN CHOICE). -/
def State.deliver (s : State) (gid j : Nat) (r : ElemRes) (w : Option Port := none) : State :=
  match s.work.gathers.find? fun g => g.id == gid with
  | none => s
  | some g =>
    let g := { g with res := setAt g.res j (some r), froms := match w with
      | some v => g.froms.set j v
      | none => g.froms }
    if g.res.all Option.isSome then
      { s with work := { s.work with gathers := s.work.gathers.filter fun x => x.id ≠ gid } }.sendGather g
    else
      { s with work := { s.work with gathers := modFirst (fun x => x.id == gid) (fun _ => g) s.work.gathers } }

/-- The same result for every element of a firing (LDG of R245). -/
def State.deliverAll (s : State) (gid : Nat) (r : ElemRes) (w : Option Port := none) : State :=
  match s.work.gathers.find? fun g => g.id == gid with
  | none => s
  | some g =>
    { s with work := { s.work with gathers := s.work.gathers.filter fun x => x.id ≠ gid } }.sendGather
      { g with res := g.res.map fun _ => some r, froms := (w.map fun v => (0, v)).toList }

/-! ### Tasks (R93, R226) -/

/-- The context whose task a context belongs to (R226). -/
def State.rootOf (s : State) (p c : Nat) : Nat := match s.ctx? p c with
  | some x => x.root
  | none => c

/-- The contexts of one task passed through `f`. -/
def State.modTask (s : State) (p root : Nat) (f : Ctx → Ctx) : State :=
  { s with ctxs := modAll (fun x => x.part == p && x.root == root) f s.ctxs }

/-- The task has performed its first REGION (R93, R180). -/
def State.pastRegion (s : State) (p c : Nat) : Bool := match s.ctx? p (s.rootOf p c) with
  | some x => x.region
  | none => true

/-- The context's task has been aborted or killed: what it still has on its way is dropped (R94). -/
def State.isAborted (s : State) (p c : Nat) : Bool := match s.ctx? p c with
  | some x => x.aborted
  | none => true

/-! ### The chain (R81) -/

/-- Next(c, op) of R81. -/
def Chain.isNext (c : Chain) (o : Op) : Bool :=
  o.wave == c.wave &&
    if c.last = 0xFD then o.pred = 0xFD
    else o.pred == c.last || (o.pred = 0xFF && c.lastSucc == o.this)

/-- The chain state after Perform (R81). -/
def Chain.after (c : Chain) (o : Op) : Chain :=
  if o.succ = 0xFD then { c with wave := c.wave + 1, last := 0xFD, lastSucc := 0xFD, seen := [] }
  else { c with last := o.this, lastSucc := o.succ, seen := o.this :: c.seen }

/-- The operation is chained (R79). -/
def Op.chained (o : Op) : Bool := o.this ≠ 0xFE

/-- The operation's chain is that of a halted context, which performs none of it (R405). -/
def State.chainHalted (s : State) (o : Op) : Bool := o.chained && match s.ctx? o.names.part o.ctx with
  | some x => x.halted && !x.aborted
  | none => false

/-- The operation `id`. -/
def State.op? (s : State) (id : Nat) : Option Op := s.work.ops.find? fun o => o.id == id

/-- The state with an operation passed through `f`. -/
def State.modOp (s : State) (id : Nat) (f : Op → Op) : State :=
  { s with work := { s.work with ops := modFirst (fun o => o.id == id) f s.work.ops } }

/-- The operation leaves the machine's lists. -/
def State.dropOp (s : State) (id : Nat) : State :=
  { s with work := { s.work with ops := s.work.ops.filter fun o => o.id ≠ id,
                                 waits := s.work.waits.filter fun w => w.who ≠ .op id },
           mem := { s.mem with reqs := s.mem.reqs.filter fun r => r.from_ ≠ .op id } }

/-- Perform has run: the operation is gone, and its chain moves on (R81). -/
def State.endOp (s : State) (o : Op) : State :=
  let s := s.dropOp o.id
  if o.chained then s.modCtx o.names.part o.ctx fun x => { x with chain := x.chain.after o } else s

/-- The home cluster of the context of an operation (R77); its own where the context is gone. -/
def State.homeCluster (s : State) (o : Op) : Nat :=
  match s.ctx? o.names.part o.ctx with
  | some x => x.chain.home
  | none => o.cluster

/-- Where a scratch operation is performed. -/
def Op.spot (o : Op) (s : State) : Spot := s.spotOf o.names.part o.cluster o.elem o.level o.ia

/-- The interface of a spot of scratch. -/
def Spot.port : Spot → Port
  | .es e _ => ⟨false, e / 16⟩
  | .cs c _ => ⟨false, c⟩
  | .ss sl _ => ⟨true, sl⟩

/-- The interface of the place where an operation is performed that names none: its bank of scratch, else its home cluster, whose
store buffer or L1 performs it (R84, R85, R202). -/
def Op.port (o : Op) (s : State) : Port := if o.level.cached then ⟨false, s.homeCluster o⟩ else (o.spot s).port

/-- The operation is performed at `w` and its element has a result (R81, R247). Every element of an LDG takes the
result of its first (R245). -/
def State.finishAt (s : State) (o : Op) (r : ElemRes) (w : Port) : State :=
  let s := s.endOp o
  if o.gather = 0 then s
  else if o.params = [1] && o.kind = .load then s.deliverAll o.gather r (some w)
  else s.deliver o.gather o.j r (some w)

/-- The operation is performed where its level says. -/
def State.finish (s : State) (o : Op) (r : ElemRes) : State := s.finishAt o r (o.port s)

/-- A result with a value, of the operation's format. -/
def Op.good (o : Op) (v : Nat) : ElemRes := ⟨w64 v, o.fmt, false⟩
/-- A poisoned result. -/
def Op.bad (o : Op) : ElemRes := ⟨0, o.fmt, true⟩
/-- Operand A unchanged, in format A or in the token's own (R244, R249, R253). -/
def Op.operand (o : Op) : ElemRes := ⟨o.data2, o.fmt, false⟩

/-- The operation ends poisoned, with a trap at its site. -/
def State.refuse (s : State) (o : Op) (t : Trap) : State := (s.raise (o.site s) t).finish o o.bad

/-- An access has read poisoned bytes (R403): one to a counter is not performed, and raises its record from the unit that
`w` names; the result of any other is poisoned without one. -/
def State.spoilOp (s : State) (o : Op) (w : Site) (at_ : Port := o.port s) : State :=
  match o.kind with
  | .ctrRead | .ctrWait | .amo .ctradd => (s.raise w { cause := 0x0B, sub := 1, addr := o.ia }).finishAt o o.bad at_
  | _ => s.finishAt o o.bad at_

/-- An operation is done; its context's guard faults are reported first where it is a CTRWAIT (R64). -/
def State.finishWait (s : State) (o : Op) (v : Nat) (at_ : Port := o.port s) : State :=
  (s.flushGuard o.names.part o.ctx).finishAt o (o.good v) at_

/-! ### Waits at scratch (R61, R135) -/

/-- The bytes `a .. a + n - 1` and `b .. b + m - 1` overlap. -/
def overlaps (a n b m : Nat) : Bool := a < b + m && b < a + n

/-- A parked operation of a kind whose scratch bytes overlap `n` bytes from a spot. -/
def Op.parkedAt (o : Op) (s : State) (x : Spot) (n : Nat) : Bool :=
  o.phase = .parked && !o.level.cached && (o.spot s).sameBank x && overlaps (o.spot s).off (2 ^ o.width) x.off n

/-- After a write of `n` bytes at a spot, the waits that the counters now reach are performed in the order
in which they were registered (R135), but for those of a halted context's chain (R405). -/
def State.wakeSpot (s : State) (x : Spot) (n : Nat) : State :=
  (s.work.ops.filter fun o => o.kind = .ctrWait && o.parkedAt s x n && !s.chainHalted o).foldl (fun s o =>
    let v := leNat (s.readSpot (o.spot s) 8)
    if s.spotSpoiled (o.spot s) 8 then s.spoilOp o (o.site s)
    else if o.data.toNat ≤ v then s.finishWait o v else s) s

/-- An LDFE is served (R61, R248). -/
def State.serveLdfe (s : State) (o : Op) (clr : Bool) : State :=
  let x := o.spot s
  let v := leNat (s.readSpot x (2 ^ o.width))
  let r := if s.spotSpoiled x (2 ^ o.width) then o.bad else o.good v
  let s := s.noteGuards (o.site s) o.level x (2 ^ o.width)
  let s := if clr then s.setFull x false else s
  s.finish o r

/-- A granule has become full: every waiting LDFE is served with the data present, and of the LDFE `.clr`
the one that arrived first, which empties the granule again (R61). Those of a halted context's chain wait on (R405). -/
def State.releaseFull (s : State) (x : Spot) : State :=
  let here := s.work.ops.filter fun o =>
    o.phase = .parked && !o.level.cached && (o.spot s).granule = x.granule && !s.chainHalted o
  let s := (here.filter fun o => o.kind = .ldfe false).foldl (fun s o => s.serveLdfe o false) s
  match here.find? fun o => o.kind = .ldfe true with
  | some o => s.serveLdfe o true
  | none => s

/-- A granule is written by an engine or packet write, set full, and its waits are served (R60, R163). -/
def State.fillSpot (s : State) (x : Spot) (bs : List Byte) : State :=
  if s.guarded x then s
  else (((s.writeSpot x bs).setFull x true).wakeSpot x bs.length).releaseFull x

end Sys2Proof.Machine
end

