-- ==== Sys2Proof/Machine/Cache.lean ====
section
/-! DEFINITION. Lines of the L1s and the L2s (R65, R111): lookup, eviction, fill and replacement (R72,
R116), write-back (R42), the immediate recall of every copy of a line, and the current value of bytes of
device memory (R97). -/

namespace Sys2Proof.Machine

/-! ### L1 -/

/-- The line as an L1 holds it for accesses (R65): a line whose PutS or PutO is on its way is not hit. -/
def State.l1? (s : State) (c asid line : Nat) : Option L1Line :=
  s.mem.l1.find? fun x => x.cluster == c && x.asid == asid && x.line == line && !x.putting && x.st ≠ .i

/-- Any copy at a cluster, the write-back buffer's among them (R115). -/
def State.l1Any? (s : State) (c asid line : Nat) : Option L1Line :=
  match s.l1? c asid line with
  | some x => some x
  | none => s.mem.l1.find? fun x => x.cluster == c && x.asid == asid && x.line == line

/-- The state with the cluster's copies of a line passed through `f`. -/
def State.modL1 (s : State) (c asid line : Nat) (f : L1Line → L1Line) : State :=
  { s with mem := { s.mem with
      l1 := modAll (fun x => x.cluster == c && x.asid == asid && x.line == line) f s.mem.l1 } }

/-- The state without a cluster's copies of a line that are not on their way out. -/
def State.dropL1 (s : State) (c asid line : Nat) : State :=
  { s with mem := { s.mem with
      l1 := s.mem.l1.filter fun x => !(x.cluster == c && x.asid == asid && x.line == line && !x.putting) } }

/-- The active lease entry on a line at a cluster (R122, R123). -/
def State.leaseOn (s : State) (c asid line : Nat) : Option Lease :=
  s.mem.leases.find? fun e => e.cluster == c && e.asid == asid && e.line == line

/-- Some cluster holds the line under a lease. -/
def State.leased (s : State) (asid line : Nat) : Bool :=
  s.mem.leases.any fun e => e.asid == asid && e.line == line

/-- The bytes of a line with some replaced. -/
def patch (d : List Byte) (o : Nat) (bs : List Byte) : List Byte :=
  d.take o ++ bs ++ d.drop (o + bs.length)

/-! ### Memory behind the caches -/

/-- Bytes at a PA; those of the host's and the peers' memory are free values (log 22, DESIGN CHOICE). -/
def State.readPa (s : State) (pa n : Nat) : List Byte :=
  if paLocal pa then s.phys.read pa n
  else (upto n).map fun i =>
    BitVec.ofNat 8 ((Config.hostWord s.run.fresh (alignDown (pa + i) 8)).toNat >>> (8 * ((pa + i) % 8)))

/-- Bytes written at a PA of local HBM, or in reduced service at the slice scratch that stands for it (R446). -/
def State.writePa (s : State) (pa : Nat) (bs : List Byte) : State :=
  if !paLocal pa then s
  else
    match s.dev.reduced with
    | none => ({ s with mem := { s.mem with hbm := s.mem.hbm.write pa bs } } : State).cover .mem pa bs.length
    | some b =>
      if State.paReduced b pa then
        let a := pa - stripWindow * b + 16 * b * 2 ^ 19
        ({ s with mem := { s.mem with ss := s.mem.ss.write a bs } } : State).cover .ss a bs.length
      else s

/-- Bytes written at a PA of which those at the offsets `bad` are poisoned (R403). -/
def State.writePaBad (s : State) (pa : Nat) (bs : List Byte) (bad : List Nat) : State :=
  let s := s.writePa pa bs
  if paLocal pa then s.spoil (s.paKey pa).1 (s.paKey pa).2 bad else s

/-- The line lies in the host window. -/
def State.lineInHost (s : State) (p asid line : Nat) : Bool := match s.findLeaf p asid (64 * line) with
  | .ok (e, _, n) => paHost (leafPa e n (64 * line))
  | .error _ => false

/-- The host bus address of a PA in the host window, as the partition's HOSTWIN maps it (R150). -/
def Part.hostAddr (x : Part) (pa : Nat) : Nat := bits x.hostwin 63 47 * 2 ^ 47 + (pa - hostBase)

/-- A request that awaits the host's answer leaves on the partition's function, for the operation, engine operation or access of
that number (R150, R151). -/
def State.askAt (s : State) (p id pa : Nat) : State :=
  { s with dev := { s.dev with asked := s.dev.asked ++ [⟨id, (s.part p).hostAddr pa, bit (s.part p).hostwin 2⟩] } }

/-- The first request under way of that number has its answer. -/
def State.answered (s : State) (id : Nat) : State :=
  { s with dev := { s.dev with asked := dropFirst (fun x => x.id == id) s.dev.asked } }

/-- The context number of a posted write that no context has made. -/
def noCtx : Nat := 4096

/-- A posted write to a PA of the host window leaves on the partition's function, for a context or for none (R150, R151, R153). -/
def State.post (s : State) (p c pa : Nat) (bs : List (Option Byte)) : State :=
  let (id, s) := s.newId
  { s with dev := { s.dev with posted := s.dev.posted ++
      [⟨p, c, id, (s.part p).hostAddr pa, bs, bit (s.part p).hostwin 2⟩] } }

/-- A posted write of the context, of those that `flush` says its zero-length read follows, has not reached the host (R153). -/
def State.unposted (s : State) (p c : Nat) (flush : Option Nat) : Bool :=
  s.dev.posted.any fun x => x.part == p && x.ctx == c && (match flush with
    | none => true
    | some n => x.id < n)

/-- The PA lies in a valid export range of this device (R145): the lowest-numbered one, where two overlap (log 73, DESIGN
CHOICE). -/
def State.exported (s : State) (pa : Nat) : Option W64 :=
  s.dev.exports.find? fun e =>
    let n := bits e 15 10
    bit e 0 && 16 ≤ n && n ≤ 38 && alignDown (bits e 47 16 * 2 ^ 16) (2 ^ n) ≤ pa
      && pa < alignDown (bits e 47 16 * 2 ^ 16) (2 ^ n) + 2 ^ n

/-- A dirty line is written to the frame that its leaf names now; where the walk finds none, its data is
discarded and a record is raised on ring 1 (R42). A poisoned line poisons its block there, with its record (R403). A line of the
host's memory leaves as a posted write, of the context `c` whose FLUSHR it is (R151, R153); behind a closed window it is discarded
under the record WINDOW (R150; log 69, DEDUCED). -/
def State.writeBack (s : State) (p slice asid line : Nat) (d : List Byte) (spoiled : List Nat) (c : Nat := noCtx) : State :=
  let bad (c u : Nat) : State :=
    s.pushTrap (trapRecord ⟨{ Names.zero with part := p }, 0, asid, 0, 0, slice, sliceStrip slice⟩
      { cause := c, sub := u, addr := 64 * line } 1)
  match s.findLeaf p asid (64 * line) with
  | .error (c, u) => bad c u
  | .ok (e, _, n) =>
    let pa := leafPa e n (64 * line)
    if s.paReserved p pa then bad 5 5
    else if paHost pa then (if bit (s.part p).hostwin 0 then s.post p c pa (d.map some) else bad 5 9)
    else if spoiled.isEmpty then s.writePa pa d
    else (bad 0x0B 2).writePaBad pa d spoiled

/-! ### L2 -/

/-- The home's line (R65). -/
def State.l2? (s : State) (sl asid line : Nat) : Option L2Line :=
  s.mem.l2.find? fun x => x.slice == sl && x.asid == asid && x.line == line

/-- The state with a slice's line passed through `f`. -/
def State.modL2 (s : State) (sl asid line : Nat) (f : L2Line → L2Line) : State :=
  { s with mem := { s.mem with
      l2 := modAll (fun x => x.slice == sl && x.asid == asid && x.line == line) f s.mem.l2 } }

/-- The state without a slice's line. -/
def State.dropL2 (s : State) (sl asid line : Nat) : State :=
  { s with mem := { s.mem with
      l2 := s.mem.l2.filter fun x => !(x.slice == sl && x.asid == asid && x.line == line) } }

/-- The set of a line in an L2 (R65). -/
def l2Set (asid line : Nat) : Nat := (line % 2048) ^^^ (asid % 2048)

/-- The tenant entry that an ASID belongs to: its own, else the default (R71); 64 where there is none. -/
def Part.tenant (x : Part) (asid : Nat) : Nat :=
  let own (a : Nat) : Option Nat := x.tenants.findIdx? fun t => bit t 0 && bits t 63 52 == a
  ((own asid).orElse fun _ => own 0).getD 64

/-- The tenant is latency-critical (R71). -/
def Part.critical (x : Part) (asid : Nat) : Bool := bit (at! x.tenants (x.tenant asid) 0) 1

/-- The entry holds more lines at the slice than its target there (R72). -/
def State.overTarget (s : State) (p sl k : Nat) : Bool :=
  let x := s.part p
  let lines := bits (at! x.tenants k 0) 39 16
  let l := x.slicemap.length
  k < 64 && lines ≠ 0 && l ≠ 0 && (lines + l - 1) / l <
    (s.mem.l2.filter fun y => y.slice == sl && x.tenant y.asid == k).length

/-- The victim of a fill (R72); none where the set has a free way. -/
def State.victim (s : State) (p sl asid line : Nat) : Option L2Line :=
  let set := s.mem.l2.filter fun y => y.slice == sl && l2Set y.asid y.line == l2Set asid line
  if set.length < 16 then none
  else
    let past := set.filter fun y => s.overTarget p sl ((s.part p).tenant y.asid)
    minBy (fun y => y.use) (if past.isEmpty then set else past)

/-- What comes of a fill: the line is in, or a victim with L1 copies must be recalled first (R116). -/
inductive Filled where
  | done (s : State)
  | recall (v : L2Line)
deriving DecidableEq, Repr

/-- A line enters an L2 with state DI; its victim, where it needs one, is written back (R72, R116). A
streaming fill stands at the least recently used position (R65). `bad` are its poisoned bytes (R403). -/
def State.fillL2 (s : State) (p sl asid line seed : Nat) (d : List Byte) (bad : List Nat) (strm replica : Bool) : Filled :=
  let put (s : State) : State :=
    let (u, s) := s.newId
    { s with mem := { s.mem with l2 := s.mem.l2 ++
        [⟨sl, asid, line, .di, 0x7FF, d, false, seed, if strm then 0 else u, replica, bad⟩] } }
  match s.victim p sl asid line with
  | none => .done (put s)
  | some v =>
    if v.dir ≠ .di then .recall v
    else
      let s := s.dropL2 sl v.asid v.line
      .done (put (if v.dirty then s.writeBack p sl v.asid v.line v.data v.bad else s))

/-- Data of a copy taken into the home's line, which becomes dirty (R113). -/
def State.intoL2 (s : State) (p sl asid line : Nat) (d : List Byte) (bad : List Nat) : State :=
  match s.l2? sl asid line with
  | some _ => s.modL2 sl asid line fun x => { x with data := d, dirty := true, bad := bad }
  | none => s.writeBack p sl asid line d bad

/-- A hit makes the line the most recently used, but for a streaming access (R65). -/
def State.touchL2 (s : State) (sl asid line : Nat) (strm : Bool) : State :=
  if strm then s
  else
    let (u, s) := s.newId
    s.modL2 sl asid line fun x => { x with use := u }

/-- The same in an L1. -/
def State.touchL1 (s : State) (c asid line : Nat) (strm : Bool) : State :=
  if strm then s
  else
    let (u, s) := s.newId
    s.modL1 c asid line fun x => { x with use := u }

/-! ### Installing a line in an L1 (R65, R113, R115, R123) -/

/-- Lines of a cluster's set that take a way. -/
def State.l1Set (s : State) (c line : Nat) : List L1Line :=
  s.mem.l1.filter fun x => x.cluster == c && x.line % 512 == line % 512 && !x.putting && x.st ≠ .i

/-- An eviction is announced to the line's home: PutS from S, PutO from E or M (R113, R115). -/
def State.evictL1 (s : State) (p : Nat) (x : L1Line) : State :=
  let (id, s) := s.newId
  let s := { s with mem := { s.mem with l1 := modFirst (fun y => y = x) (fun y => { y with putting := true }) s.mem.l1 } }
  { s with mem := { s.mem with reqs := s.mem.reqs ++
      [⟨id, x.home, p, x.asid, x.line, 0, if x.st = .s then .putS else .putO, x.cluster, .evict, false⟩] } }

/-- The cluster can hold a further line of the set: it has a free way, or a victim that is not leased
(R65, R123). -/
def State.l1Room (s : State) (c line : Nat) : Bool :=
  let set := s.l1Set c line
  set.length < 12 - waysOf (s.mask c) || (waysOf (s.mask c) < 12 && set.any fun x => (s.leaseOn c x.asid x.line).isNone)

/-- A line enters an L1; the least recently used of its set that is not leased is evicted where there is no
free way (R65). Where every way of the set holds a leased line, the line of a further lease is held beside them, as R59 has it
of a cluster with no way (log 75, DESIGN CHOICE). -/
def State.fillL1 (s : State) (p : Nat) (x : L1Line) (strm : Bool) : State :=
  let set := s.l1Set x.cluster x.line
  let s :=
    if set.length < 12 - waysOf (s.mask x.cluster) then s
    else
      match minBy (fun y : L1Line => y.use) (set.filter fun y => (s.leaseOn y.cluster y.asid y.line).isNone) with
      | some v => s.evictL1 p v
      | none => s
  let (u, s) := s.newId
  { s with mem := { s.mem with l1 := s.mem.l1 ++ [{ x with use := if strm then 0 else u }] } }

/-! ### The sharer list (R111, R113) -/

/-- A copy leaves the sharer list of its line: its neighbours are linked to each other, and the home's HEAD
follows (PutS of R113). -/
def State.unlink (s : State) (sl : Nat) (x : L1Line) : State :=
  let s := if x.prev = 0x7FF then
      s.modL2 sl x.asid x.line fun y =>
        if x.next = 0x7FF then { y with dir := .di, head := 0x7FF } else { y with head := x.next }
    else s.modL1 x.prev x.asid x.line fun y => { y with next := x.next }
  if x.next = 0x7FF then s else s.modL1 x.next x.asid x.line fun y => { y with prev := x.prev }

/-- The copy is listed: the home's line names its cluster as owner, or its list reaches it. -/
def State.listed (s : State) (sl : Nat) (x : L1Line) : Bool :=
  match s.l2? sl x.asid x.line with
  | none => false
  | some y =>
    match y.dir with
    | .di => false
    | .do_ => y.head == x.cluster
    | .ds => x.st = .s && (y.head == x.cluster || x.prev ≠ 0x7FF)

/-! ### Recalling every copy at once

Rows that act on a whole range perform these transactions inside one step: the walk or the recall of R113
and R116, the write-backs and the removals. -/

/-- No transaction of the line is open and no cluster holds it under a lease, so that its home can serve a
further request at once (R112, R123). -/
def State.lineFree (s : State) (asid line : Nat) : Bool :=
  !(s.mem.txns.any fun t => t.req.asid == asid && t.req.line == line) && !s.leased asid line

/-- Dirty L1 data of a line, if some cluster holds it in M. -/
def State.dirtyL1 (s : State) (asid line : Nat) : Option L1Line :=
  s.mem.l1.find? fun x => x.asid == asid && x.line == line && x.st = .m

/-- The slices that hold the line as its home. -/
def State.homesOf (s : State) (asid line : Nat) : List Nat :=
  (s.mem.l2.filter fun x => x.asid == asid && x.line == line && !x.replica).map fun x => x.slice

/-- The copy is one of the home `sl`, or of any. Each of two homes of a line serves its own copies (R67). -/
def State.copyOf (s : State) (sl : Option Nat) (asid line : Nat) (x : L1Line) : Bool :=
  x.asid == asid && x.line == line && match sl with
    | none => true
    | some h => (s.homesOf asid line).length ≤ 1 || x.home == h

/-- What copies of a home hold in M goes into the L2 of each copy's home (R113). -/
def State.takeDirty (s : State) (p asid line : Nat) (sl : Option Nat) : State :=
  (s.mem.l1.filter fun x => s.copyOf sl asid line x && x.st = .m).foldl
    (fun s x => s.intoL2 p x.home asid line x.data x.bad) s

/-- The home's line of an ASID, for one home or for any. -/
def L2Line.at_ (x : L2Line) (sl : Option Nat) (asid line : Nat) : Bool :=
  x.asid == asid && x.line == line && sl.all fun h => x.slice == h

/-- Every L1 copy of the line at its home (at any: none) is lost; M data goes into the home's L2 (R113, R116). -/
def State.recallL1 (s : State) (p asid line : Nat) (sl : Option Nat := none) : State :=
  let mine := s.copyOf sl asid line
  let s := s.takeDirty p asid line sl
  { s with mem := { s.mem with
      l1 := s.mem.l1.filter fun x => !mine x,
      l2 := modAll (fun x => x.at_ sl asid line) (fun x => { x with dir := .di, head := 0x7FF }) s.mem.l2 } }

/-- The holders in E or M are left in S, and their data written back (`.l2` read of R113, R42); one whose PutO is on its way is
left in I (R115; log 74, DESIGN CHOICE). -/
def State.demoteL1 (s : State) (p asid line : Nat) (sl : Option Nat := none) : State :=
  let mine := s.copyOf sl asid line
  let s := s.takeDirty p asid line sl
  let owner (x : L1Line) : Bool := mine x && (x.st = .m || x.st = .e)
  let stays (y : L2Line) : Bool := s.mem.l1.any fun x => owner x && !x.putting && x.cluster == y.head
  { s with mem := { s.mem with
      l1 := modAll owner
        (fun x => if x.putting then { x with st := .i } else { x with st := .s, prev := 0x7FF, next := 0x7FF }) s.mem.l1,
      l2 := modAll (fun x => x.at_ sl asid line && x.dir = .do_)
        (fun x => if stays x then { x with dir := .ds } else { x with dir := .di, head := 0x7FF }) s.mem.l2 } }

/-- Every copy of the line is removed, dirty ones written back (`.mem` of R74, R113), for the context `c` whose FLUSHR it is. -/
def State.flushLine (s : State) (p asid line : Nat) (c : Nat := noCtx) : State :=
  let s := s.recallL1 p asid line
  let s := (s.mem.l2.filter fun x => x.asid == asid && x.line == line && x.dirty).foldl
    (fun s x => s.writeBack p x.slice asid line x.data x.bad c) s
  { s with mem := { s.mem with l2 := s.mem.l2.filter fun x => !(x.asid == asid && x.line == line) } }

/-- Every copy of the line is removed without a write-back (R51, R251). -/
def State.discardLine (s : State) (asid line : Nat) : State :=
  { s with mem := { s.mem with
      l1 := s.mem.l1.filter fun x => !(x.asid == asid && x.line == line),
      l2 := s.mem.l2.filter fun x => !(x.asid == asid && x.line == line) } }

/-- Lines of an ASID in `n` bytes from `ia` that some cache holds, in IA order. -/
def State.cachedLines (s : State) (asid ia n : Nat) : List Nat :=
  let all := (s.mem.l1.map fun x => (x.asid, x.line)) ++ (s.mem.l2.map fun x => (x.asid, x.line))
  let mine := (all.filter fun x => x.1 == asid && ia / 64 ≤ x.2 && 64 * x.2 < ia + n).map fun x => x.2
  mine.foldl (fun l x => insertNat x l) []

/-! ### The current value of device memory (R97) -/

/-- The 64 bytes of a line: from the L1 that holds it in M, else from its home, else from memory under
the leaf as it stands. -/
def State.lineNow (s : State) (p asid line : Nat) : List Byte :=
  match s.dirtyL1 asid line with
  | some x => x.data
  | none =>
    match s.mem.l2.find? fun x => x.asid == asid && x.line == line && !x.replica with
    | some x => x.data
    | none =>
      match s.findLeaf p asid (64 * line) with
      | .ok (e, _, n) => s.readPa (leafPa e n (64 * line)) 64
      | .error _ => List.replicate 64 0

/-- Its bytes that are poisoned and await a store (R403). -/
def State.lineBad (s : State) (p asid line : Nat) : List Nat :=
  match s.dirtyL1 asid line with
  | some x => x.bad
  | none =>
    match s.mem.l2.find? fun x => x.asid == asid && x.line == line && !x.replica with
    | some x => x.bad
    | none =>
      match s.findLeaf p asid (64 * line) with
      | .ok (e, _, n) => s.paAwaiting (leafPa e n (64 * line))
      | .error _ => []

/-- Bytes of device memory within one line. -/
def State.peek (s : State) (p asid ia n : Nat) : List Byte :=
  slice (s.lineNow p asid (ia / 64)) (ia % 64) n

/-- A parked wait on a counter of device memory overlaps the bytes; one of a halted context's chain waits for its resume (R405). -/
def Op.watches (o : Op) (asid : Nat) (s : State) (ia n : Nat) : Bool :=
  o.kind = .ctrWait && !s.chainHalted o && o.phase = .parked && o.level.cached && s.asidOf o.names.part o.ctx == asid
    && overlaps o.ia 8 ia n

/-- After a write of `n` bytes at an IA, the waits that the counters now reach are performed in the order in
which they were registered (R135). -/
def State.wakeIa (s : State) (p asid ia n : Nat) : State :=
  (s.work.ops.filter fun o => o.watches asid s ia n).foldl (fun s o =>
    let v := leNat (s.peek p asid o.ia 8)
    if !(s.lineBad p asid (o.ia / 64)).isEmpty then s.spoilOp o (o.site s)
    else if o.data.toNat ≤ v then s.finishWait o v else s) s

end Sys2Proof.Machine
end

