-- ==== Sys2Proof/Machine/Access.lean ====
section
/-! DEFINITION. How one memory operation is performed at its place (R76, R133, R134, R138, R140, R245 to
R248), and how it leaves the store buffer toward it (R59, R74, R75, R123). -/

namespace Sys2Proof.Machine

/-- A place of device memory where an access is performed (R74): an L1, the home slice, or the memory side
at a PA. -/
inductive Place_ where
  | l1 (cluster : Nat)
  | l2 (slice : Nat)
  | pa (slice pa : Nat)
deriving DecidableEq, Repr

/-- The slice at which a wait on device memory registers. -/
def Place_.slice : Place_ → Nat
  | .l1 c => nearSlice c
  | .l2 sl => sl
  | .pa sl _ => sl

/-- The interface of a place, from which a result that is made there leaves (R202, R356). -/
def Place_.port : Place_ → Port
  | .l1 c => ⟨false, c⟩
  | pl => ⟨true, pl.slice⟩

/-- What performing an operation on its bytes gives: the bytes it leaves, its result, its flags, a counter
overflow, or that it waits (R133, R134, R138). -/
structure Applied where
  bytes : Option (List Byte) := none
  res   : ElemRes
  flags : FpFlags := fNone
  ovf   : Bool := false
  park  : Bool := false
deriving DecidableEq, Repr

/-- The effect of an operation on the bytes `old` that stand at its address. -/
def Op.apply (o : Op) (old : List Byte) : Applied :=
  let v := leNat old
  let n := 2 ^ o.width
  match o.kind with
  | .store => { bytes := some (leBytes n o.data.toNat), res := o.operand }
  | .stfe => { bytes := some (leBytes n o.data.toNat), res := o.operand }
  | .amo a =>
    let m := 2 ^ (8 * n)
    let (x, fl) := amoNew a o.fmt v (o.data.toNat % m) (o.data2.toNat % m)
    { bytes := some (leBytes n x), res := o.good v, flags := fl, ovf := ctrOverflows a v o.data.toNat }
  | .ctrWait => { res := o.good v, park := v < o.data.toNat }
  | .nop => { res := o.operand }
  | _ => { res := o.good v }

/-- The operations that are performed as one piece with `o` (R246). -/
def State.members (s : State) (o : Op) : List Op :=
  match o.params with
  | [2, l] => s.work.ops.filter fun x => x.params = [2, l] && x.gather == o.gather
  | _ => [o]

/-- Bytes of a line at a place. -/
def State.bytesAt (s : State) (pl : Place_) (asid ia n : Nat) : List Byte :=
  match pl with
  | .l1 c => match s.l1Any? c asid (ia / 64) with
    | some x => slice x.data (ia % 64) n
    | none => List.replicate n 0
  | .l2 sl => match s.l2? sl asid (ia / 64) with
    | some x => slice x.data (ia % 64) n
    | none => List.replicate n 0
  | .pa _ pa => s.readPa (alignDown pa 64 + ia % 64) n

/-- The line or block at a place is poisoned (R403). -/
def State.spoiledAt (s : State) (pl : Place_) (asid ia n : Nat) : Bool :=
  match pl with
  | .l1 c => match s.l1Any? c asid (ia / 64) with
    | some x => !x.bad.isEmpty
    | none => false
  | .l2 sl => match s.l2? sl asid (ia / 64) with
    | some x => !x.bad.isEmpty
    | none => false
  | .pa _ pa => s.paSpoiled (alignDown pa 64 + ia % 64) n

/-- The home at which waits on the line of a place register: the L1's own note of it, or the place itself (R66, R135). -/
def State.placeHome (s : State) (pl : Place_) (asid line : Nat) : Nat :=
  match pl with
  | .l1 c => match s.l1Any? c asid line with
    | some x => x.home
    | none => nearSlice c
  | .l2 sl => sl
  | .pa sl _ => sl

/-- A write has been performed on `n` bytes at an IA: each launch whose TCB is registered there is due where `zero` finds its PREDCOUNT
to read 0 (R390). `home` is the home written where two hold the line (R67). -/
def Part.retestTcbs (x : Part) (asid ia n : Nat) (home : Option Nat) (zero : Nat → Bool) : Part :=
  { x with held := x.held.map fun h =>
      if bits (at! x.qcfg h.queue 0) 63 52 = asid
          && h.reg.any (fun g => overlaps g.2 8 ia n && home.all (fun y => y == g.1) && zero g.2) then { h with due := true } else h }

/-- The registered TCBs that a write at a place touches are tested again (R390). -/
def State.retestTcbs (s : State) (pl : Place_) (asid ia n : Nat) (home : Option Nat) : State :=
  if s.parts.all fun x => x.held.all fun h => h.reg.isNone then s
  else { s with parts := s.parts.map fun x => x.retestTcbs asid ia n home fun a =>
      !s.spoiledAt pl asid a 8 && leNat (s.bytesAt pl asid a 8) / 2 ^ 32 = 0 }

/-- After a write of `n` bytes at a place, the waits that the counters there now reach are performed in the order in which
they were registered, and the TCBs registered there are tested (R135, R390). Where two homes hold the line, only those of the home
written are tested (R67). -/
def State.wakeAt (s : State) (pl : Place_) (asid ia n : Nat) : State :=
  let two := 1 < (s.homesOf asid (ia / 64)).length
  let home := s.placeHome pl asid (ia / 64)
  let s := s.retestTcbs pl asid ia n (if two then some home else none)
  (s.work.ops.filter fun o => o.watches asid s ia n && (!two || o.params = [3, home])).foldl (fun s o =>
    let v := leNat (s.bytesAt pl asid o.ia 8)
    if s.spoiledAt pl asid o.ia 8 then s.spoilOp o (o.site s) pl.port
    else if o.data.toNat ≤ v then s.finishWait o v pl.port else s) s

/-- The bytes that a poisoned line awaits once `n` bytes from `o` are overwritten, those at the offsets `new` with poison
(R403). -/
def lineAwaits (bad : List Nat) (o n : Nat) (new : List Nat) : List Nat :=
  (bad.filter fun b => b < o || o + n ≤ b) ++ new.map fun i => o + i

/-- Bytes written at a place: an E line becomes M with no message (R111), an L2 line dirty. -/
def State.writeAt (s : State) (pl : Place_) (asid ia : Nat) (bs : List Byte) (bad : List Nat := []) : State :=
  let o := ia % 64
  match pl with
  | .l1 c => s.modL1 c asid (ia / 64) fun x =>
      { x with st := .m, data := patch x.data o bs, bad := lineAwaits x.bad o bs.length bad }
  | .l2 sl => s.modL2 sl asid (ia / 64) fun x =>
      { x with dirty := true, data := patch x.data o bs, bad := lineAwaits x.bad o bs.length bad }
  | .pa _ pa => s.writePaBad (alignDown pa 64 + o) bs bad

/-- The operation reads what stands at its address. -/
def Op.looks (o : Op) : Bool :=
  match o.kind with
  | .load | .ctrRead | .ctrWait | .amo _ | .ldfe _ => true
  | _ => false

/-- Registrations held at a slice (R135): waits on counters homed there and on its scratch. -/
def State.sliceRegs (s : State) (sl : Nat) : Nat :=
  (s.work.ops.filter fun o => o.kind = .ctrWait && o.phase = .parked &&
    (o.params = [3, sl] || (o.level = .ss && (match o.spot s with
      | .ss x _ => x == sl
      | _ => false)))).length

/-- Registrations held at a cluster's scratch (R135). -/
def State.clusterRegs (s : State) (c : Nat) : Nat :=
  (s.work.ops.filter fun o => o.kind = .ctrWait && o.phase = .parked &&
    (match o.spot s with
      | .cs x _ => !o.level.cached && x == c
      | _ => false)).length

/-- An operation is parked, the last of those at its place. -/
def State.park (s : State) (o : Op) (params : List Nat) : State :=
  { s with work := { s.work with
      ops := (s.work.ops.filter fun x => x.id ≠ o.id) ++ [{ o with phase := .parked, params := params }] } }

/-- A wait registers, or is turned away by a full table, behind those that it turned away before (R135). -/
def State.register (s : State) (o : Op) (room : Bool) (params : List Nat) : State :=
  if room then s.park o params
  else { s with work := { s.work with ops := (s.work.ops.filter fun x => x.id ≠ o.id) ++ [{ o with phase := .turned }] } }

/-- A counter overflow traps at once; the context runs on (R133). -/
def State.noteOvf (s : State) (o : Op) (b : Bool) : State :=
  if b then s.raise (o.site s) { cause := 8, sub := 2, addr := o.ia, info := o.data.toNat } else s

/-- One operation is performed on the bytes of its line at a place. -/
def State.performOne (s : State) (pl : Place_) (o : Op) : State :=
  let asid := s.asidOf o.names.part o.ctx
  let n := 2 ^ o.width
  if o.kind = .pref then s.endOp o
  else if o.looks && s.spoiledAt pl asid o.ia n then
    s.spoilOp o (match pl with
      | .l1 c => { o.site s with unit := c, strip := clusterStrip c }
      | _ => { o.site s with unit := pl.slice, strip := sliceStrip pl.slice }) pl.port
  else
    let r := o.apply (s.bytesAt pl asid o.ia n)
    if r.park then s.register o (s.sliceRegs pl.slice < 2048) [3, pl.slice]
    else if o.kind = .ctrWait then (s.flushGuard o.names.part o.ctx).finishAt o r.res pl.port
    else
      let s := match r.bytes with
        | some bs => s.writeAt pl asid o.ia bs
        | none => s
      ((s.orFlags o.names.part o.ctx r.flags).noteOvf o r.ovf).finishAt o r.res pl.port

/-- The operation changes the bytes at its address where it is performed. -/
def Op.changes (o : Op) : Bool :=
  match o.kind with
  | .store | .stfe | .amo _ => !o.poison
  | _ => false

/-- An operation and those of its piece are performed at a place, at one point; the waits that their bytes release come after
all of them (R97, R135, R246). -/
def State.performAt (s : State) (pl : Place_) (o : Op) : State :=
  let ms := s.members o
  let asid := s.asidOf o.names.part o.ctx
  let made := ms.filter fun x => x.changes && !(x.looks && s.spoiledAt pl asid x.ia (2 ^ x.width))
  made.foldl (fun s x => s.wakeAt pl asid x.ia (2 ^ x.width)) (ms.foldl (fun s x => s.performOne pl x) s)

/-- The same in an L1, whose line becomes the most recently used, but for a streaming access (R65). -/
def State.performL1 (s : State) (c : Nat) (o : Op) : State :=
  (s.touchL1 c (s.asidOf o.names.part o.ctx) (o.ia / 64) o.strm).performAt (.l1 c) o

/-! ### Scratch (R54 to R64) -/

/-- A scratch operation is performed at its bank. A CTRWAIT on a guard granule is taken as a load: it notes the fault, reads zero
there, and registers at the bank where its target is larger (R64; log 94, DESIGN CHOICE). -/
def State.performScratch (s : State) (o : Op) : State :=
  let p := o.names.part
  let n := 2 ^ o.width
  let x := o.spot s
  let w := if o.level = .sg then { o.site s with unit := x.unit, strip := clusterStrip x.unit } else o.site s
  if s.wayBlocked x then s
  else if !s.scratchValid p o.cluster o.level o.ia n then
    (s.raise w { cause := 5, sub := 6, addr := o.va }).finish o o.bad
  else
    match o.kind with
    | .ldfe clr =>
      if s.guarded x then (s.noteGuards w o.level x n).finish o (o.good 0)
      else if s.isFull x then s.serveLdfe o clr
      else s.park o []
    | .ctrWait =>
      let v := leNat (s.readSpot x 8)
      let bad := s.spotSpoiled x n
      let s := s.noteGuards w o.level x n
      if bad then s.spoilOp o { w with unit := x.unit }
      else if o.data.toNat ≤ v then s.finishWait o v
      else
        let room := match x with
          | .ss sl _ => s.sliceRegs sl < 2048
          | .cs c _ => s.clusterRegs c < 64
          | .es _ _ => true
        s.register o room []
    | .stfe =>
      let s := s.noteGuards w o.level x n
      (s.fillSpot x (leBytes n o.data.toNat)).finish o o.operand
    | _ =>
      let bad := o.looks && s.spotSpoiled x n
      let s := s.noteGuards w o.level x n
      if bad then s.spoilOp o { w with unit := x.unit }
      else
        let r := o.apply (s.readSpot x n)
        let s := match r.bytes with
          | some bs => s.writeSpot x bs
          | none => s
        ((s.orFlags p o.ctx r.flags).noteOvf o r.ovf).finish o r.res

/-- A store or an atomic at scratch is performed as things stand, so that waits are tested after its piece (R135, R246). -/
def State.scratchMade (s : State) (o : Op) : Bool :=
  let x := o.spot s
  o.changes && o.kind ≠ .stfe && !s.wayBlocked x && s.scratchValid o.names.part o.cluster o.level o.ia (2 ^ o.width)
    && !(o.looks && s.spotSpoiled x (2 ^ o.width))

/-! ### Leaving for the home (R66, R74, R113) -/

/-- A counter operation (R132, R252), which is performed at the home and waits there while the line is leased (R123). -/
def Op.counter (o : Op) : Bool := o.kind = .ctrWait || o.kind = .ctrRead || o.kind = .amo .ctradd

/-- A read that a near slice may answer in home-and-replica mode (R68). -/
def Op.mayReplicate (o : Op) (k : ReqKind) : Bool :=
  k = .getS || (k = .l2 && (o.kind = .load || o.kind = .pref || o.kind = .ctrRead))

/-- The cluster whose L1 an access looks up: the home of its context, or for a prefetch the cluster on which it fired (R77,
R250). -/
def State.l1Cluster (s : State) (o : Op) : Nat := if o.kind = .pref then o.cluster else s.homeCluster o

/-- A request of an operation leaves for the home of its line; in home-and-replica mode a read looks first
in the near slice (R68). -/
def State.sendReq (s : State) (o : Op) (k : ReqKind) : State :=
  let p := o.names.part
  let c := s.l1Cluster o
  let line := o.ia / 64
  let (asid, seed) := match s.ctx? p o.ctx with
    | some x => (x.asid, x.seed)
    | none => (0, 0)
  let sl := if (s.part p).mode && o.mayReplicate k && (s.part p).hasStrip (clusterStrip c) then nearSlice c
    else s.homeOf p asid line seed
  let (id, s) := s.newId
  let r : HReq := ⟨id, sl, p, asid, line, seed, k, c, .op o.id, false⟩
  let s := { s with mem := { s.mem with reqs := s.mem.reqs ++ [r] } }
  s.modOp o.id fun x => { x with phase := .sent }

/-- The operation is an atomic or a counter add (R138, R133). -/
def Op.atomic (o : Op) : Bool := match o.kind with
  | .amo _ => true
  | _ => false

/-- No L1 serves the operation at the PA: a closed host window refuses it, and an atomic to the host's memory or to an exported
frame is performed there (R146, R150, R154). -/
def State.barsL1 (s : State) (p : Nat) (o : Op) (pa : Nat) : Bool :=
  (paHost pa && (!bit (s.part p).hostwin 0 || o.atomic)) || (o.atomic && (s.exported pa).isSome)

/-- The leaf that memory holds now admits the operation in the L1. A line that a cluster holds answers only such an
operation; any other goes to the home, whose translation decides (R40, R42, R44; log 29, DEDUCED): so does an access to a page
with C = 0 (R39), and one that no L1 serves. -/
def State.leafAdmits (s : State) (p asid : Nat) (o : Op) : Bool :=
  match s.walk p asid o.ia o.need .plain with
  | .leaf pa e _ => leafC e && !s.barsL1 p o pa
  | .fault _ _ => false

/-- An access of the holder of a lease goes to the home all the same, since no L1 serves it; an atomic waits there for the end of
the lease, as a counter operation does (R123, R150, R154; log 29, DEDUCED). -/
def State.leaseBars (s : State) (p asid : Nat) (o : Op) : Bool :=
  match s.findLeaf p asid o.ia with
  | .ok (e, _, n) => s.barsL1 p o (leafPa e n o.ia)
  | .error _ => false

/-- The access takes place where its level says (R74, R75, R123, R140): in the home cluster's L1 on a hit
that the leaf in memory admits and on a line that its context holds under a lease, else by a request to the home. A line that another
context of the cluster holds under a lease keeps the operation in the buffer. A CTRREAD reads as `.l2` (R252). -/
def State.startCached (s : State) (o : Op) : State :=
  let p := o.names.part
  let c := s.l1Cluster o
  let asid := s.asidOf p o.ctx
  let line := o.ia / 64
  let far := s.sendReq o (if o.level = .mem && o.kind ≠ .ctrRead then .mem else .l2)
  match s.leaseOn c asid line with
  | some e =>
    if o.counter || s.leaseBars p asid o then far
    else if e.part = p && e.ctx = o.ctx then s.performL1 c o
    else s
  | none =>
    match o.kind with
    | .amo _ =>
      match s.l1? c asid line with
      | some x =>
        if !o.counter && o.scope = 0 && o.level = .l1 && (x.st = .e || x.st = .m) && s.leafAdmits p asid o then s.performL1 c o
        else far
      | none => far
    | _ =>
      if o.counter || o.level ≠ .l1 then far
      else
        match s.l1? c asid line with
        | some x =>
          if !s.leafAdmits p asid o then s.sendReq o (if o.kind = .store then .upgrade else .getS)
          else if o.kind ≠ .store || x.st = .e || x.st = .m then s.performL1 c o
          else s.sendReq o .upgrade
        | none =>
          if s.l1Room c line then
            (s.modCtr c fun k => { k with misses := satCount k.misses 1 }).sendReq o
              (if o.kind = .store then .getM else .getS)
          else far

/-- An access leaves the buffer, or is performed at once where its place is at hand. -/
def State.startAccess (s : State) (o : Op) : State :=
  if o.poison then s.finish o o.bad
  else if o.kind = .nop then s.finish o o.operand
  else if o.level.cached then s.startCached o
  else s.performScratch o

end Sys2Proof.Machine
end

