-- ==== Sys2Proof/Machine/Home.lean ====
section
/-! DEFINITION. What a home slice does with a request (R112 to R116): faults (R45, R46), fills (R72, R116),
the transactions of R113, the grant of a lease (R121), and accesses at the memory side (R74, R144, R147,
R150 to R155). -/

namespace Sys2Proof.Machine

/-! ### Faults found at a home (R45, R46) -/

/-- The site of an operation's fault at a slice. -/
def Op.siteAt (o : Op) (s : State) (sl : Nat) : Site :=
  { o.site s with unit := sl, strip := sliceStrip sl }

/-- A fault of an operation at its home: it waits in place, or its task is aborted (TASK_ABORT) where the fault is found
before the task's first REGION is performed, under a record with WAIT; else it is refused and poisoned (R45, R46, R93). A
prefetch is dropped (R250), and so is an operation of a task that has been aborted (R94; log 58, DEDUCED). -/
def State.opFault (s : State) (o : Op) (sl cause sub : Nat) : State :=
  let p := o.names.part
  if o.kind = .pref then s.endOp o
  else
    let gone := s.isAborted p o.ctx
    let w := faultWaits cause sub && !gone
    let s := s.raise (o.siteAt s sl) { cause := cause, sub := sub, addr := o.ia, wait := w }
    if gone then (s.members o).foldl (fun s x => s.dropOp x.id) s
    else if w then
      let s : State :=
        { s with
          mem := { s.mem with reqs := s.mem.reqs.filter fun r => r.from_ ≠ .op o.id }
          work := { s.work with waits := s.work.waits ++
            [⟨p, s.asidOf p o.ctx, granuleOf o.ia, .op o.id, !s.pastRegion p o.ctx⟩] } }
      (s.members o).foldl (fun s x => s.modOp x.id fun y => { y with phase := .faulted }) s
    else (s.members o).foldl (fun s x => s.finishAt x x.bad ⟨true, sl⟩) s

/-- The operation changes its bytes, so that its home invalidates every copy first (R74). -/
def Op.writes (o : Op) : Bool := o.need.w

/-! ### Reserved uses of windows (R147, R150) -/

/-- An access to the PA under the leaf `e` is refused with subcode WINDOW: the host window is closed (R150), a CTRWAIT is on a
window or an exported frame (R147), or a LEASE is on a line that is never cached: in a peer window, or on a page with C = 0
(R39, R144; log 14, DESIGN CHOICE). -/
def State.windowRefused (s : State) (o : Op) (e : W64) (pa : Nat) : Bool :=
  (paHost pa && !bit (s.part o.names.part).hostwin 0)
    || (o.kind = .ctrWait && (paHost pa || paPeer pa || (s.exported pa).isSome))
    || (o.kind = .lease && (paPeer pa || !leafC e))

/-- The access is performed at the memory side whatever its level: on a page with C = 0, in a peer window, an atomic to the
host's memory or to an exported frame (R39, R144, R146, R154). -/
def State.memorySide (s : State) (o : Op) (e : W64) (pa : Nat) : Bool :=
  !leafC e || paPeer pa || (o.atomic && (paHost pa || (s.exported pa).isSome))

/-! ### The memory side (R74, R144, R151, R154, R155) -/

/-- The atomic has a native AtomicOp of PCIe (R154). -/
def Op.nativeAmo (o : Op) : Bool :=
  match o.kind with
  | .amo .add | .amo .swap | .amo .cas => o.width = 2 || o.width = 3
  | _ => false

/-- The index of the lock of a host-window line (R155). -/
def lockIndex (pa : Nat) : Nat :=
  (nbits pa 17 6 ^^^ nbits pa 29 18) ^^^ (nbits pa 41 30 ^^^ nbits pa 46 42)

/-- A request to the host waits at the link port, under the lock that an emulation holds on its line's index (R155). -/
def State.lockHeld (s : State) (pa : Nat) : Bool := paHost pa && s.dev.locks.contains (lockIndex pa)

/-- The time that an HBM read of a home took is measured (R73): a free value (log 4, DESIGN CHOICE). -/
def State.noteLatency (s : State) (p asid : Nat) : State :=
  let t := Config.cycles s.run.fresh
  let s : State := { s with run := { s.run with fresh := s.run.fresh + 1 } }
  s.modPart p fun x => { x with lat := x.lat.set (x.tenant asid) (t :: x.lat.getD (x.tenant asid) []) }

/-- An access is performed at the memory side: at the channel controller, or by a request over the scale-up
link or to the host. The operation then waits for its answer: 5 a peer's with the PA, 6 the host's with the host bus address,
7 an emulation's with the PA, before its other parameters. A posted write is performed as it leaves (R144, R150, R151). -/
def State.performMem (s : State) (o : Op) (sl pa : Nat) : State :=
  let at_ (x : Op) : Nat := alignDown pa 64 + x.ia % 64
  if paPeer pa then (s.members o).foldl (fun s x => s.park x (5 :: at_ x :: x.params)) s
  else if paHost pa then
    (s.members o).foldl (fun s x =>
      let bus := (s.part x.names.part).hostAddr (at_ x)
      match x.kind with
      | .store => (s.post x.names.part x.ctx (at_ x) ((leBytes (2 ^ x.width) x.data.toNat).map some)).finishAt x x.operand ⟨true, sl⟩
      | .amo _ =>
        if x.nativeAmo then (s.askAt x.names.part x.id (at_ x)).park x (6 :: bus :: x.params)
        else
          (s.raise (x.siteAt s sl) { cause := 0x13, sub := 1, addr := x.ia, info := x.lit.toNat }).park x
            (7 :: at_ x :: x.params)
      | _ => (s.askAt x.names.part x.id (at_ x)).park x (6 :: bus :: x.params)) s
  else (if o.looks then s.noteLatency o.names.part (s.asidOf o.names.part o.ctx) else s).performAt (.pa sl pa) o

/-! ### Leases (R121, R122) -/

/-- Entries of a cluster that are held, or asked for by a LEASE whose request is on its way. -/
def State.leaseUse (s : State) (c : Nat) : Nat :=
  (s.mem.leases.filter fun e => e.cluster == c).length
    + (s.work.ops.filter fun o => o.kind = .lease && o.phase = .sent && s.homeCluster o == c).length

/-- The lowest free entry of a cluster (log 16, DESIGN CHOICE). -/
def State.freeEntry (s : State) (c : Nat) : Nat :=
  ((upto 8).find? fun e => !(s.mem.leases.any fun l => l.cluster == c && l.entry == e)).getD 8

/-- The lease is granted: its entry, its END, and the context's record of the line (R121). -/
def State.grantLease (s : State) (o : Op) : State :=
  let p := o.names.part
  let c := s.homeCluster o
  let line := o.ia / 64
  let e : Lease := ⟨c, s.freeEntry c, p, o.ctx, s.asidOf p o.ctx, line, s.dev.clock + 16 * o.data.toNat, o.names⟩
  let s : State := { s with mem := { s.mem with leases := s.mem.leases ++ [e] } }
  let s := s.modCtx p o.ctx fun x =>
    { x with lines := x.lines.take x.depth ++ [line], expired := x.expired.take x.depth ++ [false],
             leasers := x.leasers.take x.depth ++ [o.names], depth := x.depth + 1 }
  let s := s.touchL1 c e.asid line o.strm
  (s.modL1 c e.asid line fun y => if y.putting then y else { y with st := .m }).finish o o.operand

/-- The line has been granted in M for an operation: the lease is granted, or the access performed. -/
def State.performM (s : State) (c : Nat) (o : Op) : State :=
  if o.kind = .lease then s.grantLease o else s.performL1 c o

/-! ### Grants to a cluster (R113) -/

/-- The operation that a request serves. -/
def State.reqOp (s : State) (r : HReq) : Option Op :=
  match r.from_ with
  | .op id => s.op? id
  | _ => none

/-- The request leaves the home. -/
def State.dropReq (s : State) (id : Nat) : State :=
  { s with mem := { s.mem with reqs := s.mem.reqs.filter fun r => r.id ≠ id } }

/-- The request is kept with a change. -/
def State.modReq (s : State) (id : Nat) (f : HReq → HReq) : State :=
  { s with mem := { s.mem with reqs := modFirst (fun r => r.id == id) f s.mem.reqs } }

/-- The request passes to another slice, behind those that wait there (R68, R112). -/
def State.passReq (s : State) (r : HReq) (k : ReqKind) (sl : Nat) : State :=
  if sl = r.slice then s.modReq r.id fun x => { x with kind := k }
  else { s with mem := { s.mem with reqs := (s.mem.reqs.filter fun x => x.id ≠ r.id) ++ [{ r with kind := k, slice := sl }] } }

/-- The requester's cluster gets the line in S at the head of the list, next to `nxt` (R113). -/
def State.grantS (s : State) (sl : Nat) (r : HReq) (nxt : Nat) (strm : Bool) : State :=
  let (d, bad) : List Byte × List Nat := match s.l2? sl r.asid r.line with
    | some x => (x.data, x.bad)
    | none => ([], [])
  let s := if nxt = 0x7FF then s
    else s.modL1 nxt r.asid r.line fun y => { y with prev := r.cluster }
  let s := s.modL2 sl r.asid r.line fun y => { y with dir := .ds, head := r.cluster }
  s.fillL1 r.part ⟨r.cluster, r.asid, r.line, .s, 0x7FF, nxt, sl, d, 0, false, bad⟩ strm

/-- The requester's cluster becomes owner in E or M (R113). -/
def State.grantOwner (s : State) (sl : Nat) (r : HReq) (st : Mesi) (strm : Bool) : State :=
  let (d, bad) : List Byte × List Nat := match s.l2? sl r.asid r.line with
    | some x => (x.data, x.bad)
    | none => ([], [])
  let s := s.modL2 sl r.asid r.line fun y => { y with dir := .do_, head := r.cluster }
  match s.l1? r.cluster r.asid r.line with
  | some _ => s.modL1 r.cluster r.asid r.line fun y =>
      if y.putting then y else { y with st := st, prev := 0x7FF, next := 0x7FF }
  | none => s.fillL1 r.part ⟨r.cluster, r.asid, r.line, st, 0x7FF, 0x7FF, sl, d, 0, false, bad⟩ strm

/-! ### Transactions (R112 to R116) -/

/-- A transaction opens on a request's line at a slice, and a message leaves for a cluster. -/
def State.openTxn (s : State) (sl : Nat) (r : HReq) (w : TxnWait) (k : CMsgKind) (c : Nat) : State :=
  let (id, s) := s.newId
  let s : State := s.dropReq r.id
  { s with mem := { s.mem with
      txns := s.mem.txns ++ [⟨{ r with slice := sl }, w⟩],
      cmsgs := s.mem.cmsgs ++ [⟨id, k, c, sl, r.asid, r.line, r.id, false⟩] } }

/-- The recall of a victim that still has L1 copies begins, if none runs yet (R116). -/
def State.recallVictim (s : State) (p : Nat) (v : L2Line) : State :=
  if s.mem.txns.any fun t => t.req.slice == v.slice && t.req.asid == v.asid && t.req.line == v.line then s
  else
    let (id, s) := s.newId
    let r : HReq := ⟨id, v.slice, p, v.asid, v.line, v.seed, .l2, v.head, .evict, false⟩
    if v.dir = .ds then s.openTxn v.slice r .walk .inv v.head
    else s.openTxn v.slice r .owner .recall v.head

/-- A fill waits for the host's data: its request leaves for the host (R151). -/
def State.askHost (s : State) (sl : Nat) (r : HReq) (pa : Nat) : State :=
  let s : State := s.dropReq r.id
  let s := match r.from_ with
    | .op id => s.askAt r.part id pa
    | _ => s
  { s with mem := { s.mem with txns := s.mem.txns ++ [⟨{ r with slice := sl }, .host⟩] } }

/-- The home's line is brought in before a request is served; none when the request must wait for a victim's
recall or for the host (R116, R151). -/
def State.ensureL2 (s : State) (sl : Nat) (r : HReq) (pa : Nat) (strm replica : Bool) : Option State × State :=
  match s.l2? sl r.asid r.line with
  | some _ => (some (s.touchL2 sl r.asid r.line strm), s)
  | none =>
    if s.lockHeld pa then (none, s)
    else if paHost pa then (none, s.askHost sl r (alignDown pa 64))
    else
      match (s.noteLatency r.part r.asid).fillL2 r.part sl r.asid r.line r.seed (s.readPa (alignDown pa 64) 64)
          (s.paAwaiting (alignDown pa 64)) strm replica with
      | .done t => (some t, t)
      | .recall v => (none, s.recallVictim r.part v)

/-- A replica enters a near slice with what the home holds (R68): an owner is first left in S. -/
def State.copyNear (s : State) (near home : Nat) (r : HReq) (strm : Bool) : Option State × State :=
  let s := s.demoteL1 r.part r.asid r.line
  match s.l2? home r.asid r.line with
  | none => (none, s)
  | some x =>
    match s.fillL2 r.part near r.asid r.line r.seed x.data x.bad strm true with
    | .done t => (some t, t)
    | .recall v => (none, s.recallVictim r.part v)

/-- The line is brought in at the slice that serves a request: at the home, or at the near slice by way of the home, once its
home can serve it (R68); none while the request must wait. -/
def State.bringIn (s : State) (sl home : Nat) (r : HReq) (pa : Nat) (strm : Bool) : Option State × State :=
  if sl = home || (s.l2? sl r.asid r.line).isSome then s.ensureL2 sl r pa strm false
  else if !s.lineFree r.asid r.line then (none, s)
  else
    match s.ensureL2 home r pa strm false with
    | (none, t) => (none, t)
    | (some t, _) => t.copyNear sl home r strm

/-- A read miss at a home or near slice (GetS of R113). A page that is being migrated is granted in S only
(R47), and so is a replicable page in home-and-replica mode. -/
def State.serveGetS (s : State) (sl : Nat) (r : HReq) (o : Op) (shared : Bool) : State :=
  match s.l1? r.cluster r.asid r.line with
  | some _ => (s.dropReq r.id).performL1 r.cluster o
  | none =>
    if !s.l1Room r.cluster r.line then s.modReq r.id fun x => { x with kind := .l2 }
    else
      match s.l2? sl r.asid r.line with
      | none => s
      | some x =>
        match x.dir with
        | .di =>
          let s := s.dropReq r.id
          (if shared then s.grantS sl r 0x7FF o.strm else s.grantOwner sl r .e o.strm).performL1 r.cluster o
        | .ds => ((s.dropReq r.id).grantS sl r x.head o.strm).performL1 r.cluster o
        | .do_ => s.openTxn sl r .owner .fwdGetS x.head

/-- A write miss or an upgrade at a home (GetM and Upgrade of R113). -/
def State.serveGetM (s : State) (sl : Nat) (r : HReq) (o : Op) : State :=
  let mine : Bool := match s.l1? r.cluster r.asid r.line with
    | some x => x.st = .e || x.st = .m
    | none => false
  if mine then (s.dropReq r.id).performM r.cluster o
  else if o.kind ≠ .lease && (s.l1? r.cluster r.asid r.line).isNone && !s.l1Room r.cluster r.line then
    s.modReq r.id fun x => { x with kind := .l2 }
  else
    match s.l2? sl r.asid r.line with
    | none => s
    | some x =>
      match x.dir with
      | .di => ((s.dropReq r.id).grantOwner sl r .m o.strm).performM r.cluster o
      | .ds => s.openTxn sl r .walk .inv x.head
      | .do_ => s.openTxn sl r .owner .fwdGetM x.head

/-- An access performed at the home (`.l2` of R74, R113). -/
def State.serveL2 (s : State) (sl : Nat) (r : HReq) (o : Op) : State :=
  match s.l2? sl r.asid r.line with
  | none => s
  | some x =>
    if o.kind = .pref then (s.dropReq r.id).endOp o
    else if o.writes then
      match x.dir with
      | .di => (s.dropReq r.id).performAt (.l2 sl) o
      | .ds => s.openTxn sl r .walk .inv x.head
      | .do_ => s.openTxn sl r .owner .recall x.head
    else if x.dir = .do_ then s.openTxn sl r .owner .probe x.head
    else (s.dropReq r.id).performAt (.l2 sl) o

/-- An access performed at the memory side, after every copy is gone (`.mem` of R74, R113); one to a host line whose lock is
held waits (R155). -/
def State.serveMem (s : State) (sl : Nat) (r : HReq) (o : Op) (pa : Nat) : State :=
  let go : State :=
    if s.lockHeld pa then { s with mem := { s.mem with reqs := r :: s.mem.reqs.filter fun x => x.id ≠ r.id } }
    else ((s.dropReq r.id).flushLine r.part r.asid r.line).performMem o sl pa
  match s.l2? sl r.asid r.line with
  | none => go
  | some x =>
    match x.dir with
    | .di => go
    | .ds => s.openTxn sl r .walk .inv x.head
    | .do_ => s.openTxn sl r .owner .recall x.head

/-- The request is the next for its line: no transaction of the line is open and none that is served arrived
before it (R112). -/
def State.homeTurn (s : State) (r : HReq) : Bool :=
  !(s.mem.txns.any fun t => t.req.asid == r.asid && t.req.line == r.line && t.req.slice == r.slice)
    && (match s.mem.reqs.find? fun x => x.asid == r.asid && x.line == r.line && x.slice == r.slice && !x.waiting with
      | some x => x.id == r.id
      | none => false)

/-- The slice that serves a read of a replicable page in home-and-replica mode is the requester's near slice; every other
request is served at its home (R66, R68). -/
def State.servingSlice (s : State) (r : HReq) (o : Op) (e : W64) (home : Nat) : Nat :=
  let x := s.part r.part
  if x.mode && leafRor e && o.mayReplicate r.kind && x.hasStrip (clusterStrip r.cluster) then nearSlice r.cluster else home

/-- A request that has its turn and its translation is served, or passes to its home (R68). -/
def State.serveLeaf (s : State) (r : HReq) (o : Op) (e : W64) (pa : Nat) : State :=
  let home := s.homeOf r.part r.asid r.line r.seed
  let sl := s.servingSlice r o e home
  if s.windowRefused o e pa then s.opFault o r.slice 5 9
  else if leafMig e && o.writes then s.modReq r.id fun x => { x with waiting := true }
  else if o.kind = .pref && (!leafC e || paPeer pa || paHost pa) then (s.dropReq r.id).endOp o
  else if r.kind ≠ .mem && s.memorySide o e pa then s.passReq r .mem home
  else if r.slice ≠ sl && r.slice ≠ home then s.passReq r r.kind home
  else if r.kind = .mem then s.serveMem home r o pa
  else
    match s.bringIn sl home r pa o.strm with
    | (none, t) => t
    | (some s, _) =>
      match r.kind with
      | .getS => s.serveGetS sl r o (sl ≠ home || ((s.part r.part).mode && leafRor e) || leafMig e)
      | .getM => s.serveGetM sl r o
      | .upgrade => s.serveGetM sl r o
      | _ => s.serveL2 sl r o

/-- A request that has its turn is served. On a line that its cluster holds under a lease, the holder's access is performed in
the L1, and that of another context waits until the lease ends (R123). -/
def State.serve (s : State) (r : HReq) : State :=
  match s.reqOp r with
  | none => s.dropReq r.id
  | some o =>
    let plain : State :=
      let (w, s) := s.translate r.part r.slice r.asid o.ia o.need .plain
      match w with
      | .fault c u => s.opFault o r.slice c u
      | .leaf pa e _ => s.serveLeaf r o e pa
    match s.leaseOn r.cluster r.asid r.line with
    | none => plain
    | some e =>
      if o.counter || o.kind = .lease || s.leaseBars r.part r.asid o then plain
      else if e.part = r.part && e.ctx = o.ctx then (s.dropReq r.id).performL1 r.cluster o
      else s

/-! ### The end of a transaction -/

/-- The line has no L1 copy left (DI). -/
def State.setDI (s : State) (sl asid line : Nat) : State :=
  s.modL2 sl asid line fun x => { x with dir := .di, head := 0x7FF }

/-- The transaction of a line at a slice whose request has the identifier. -/
def State.txn? (s : State) (id : Nat) : Option Txn := s.mem.txns.find? fun t => t.req.id == id

/-- The transaction ends. -/
def State.closeTxn (s : State) (id : Nat) : State :=
  { s with mem := { s.mem with txns := s.mem.txns.filter fun t => t.req.id ≠ id } }

/-- The L1 that a request would fill takes no line: its scratch ways are changing (R58). -/
def State.fillHeld (s : State) (r : HReq) : Bool :=
  (r.kind = .getS || r.kind = .getM || r.kind = .upgrade) && (s.l1? r.cluster r.asid r.line).isNone
    && s.mem.ways.any fun w => w.cluster == r.cluster

/-- The requester's cluster has the line, or room for it when its transaction ends; a LEASE needs none (R59, R65, R123). -/
def State.takesLine (s : State) (r : HReq) (o : Op) : Bool :=
  o.kind = .lease || (s.l1? r.cluster r.asid r.line).isSome || s.l1Room r.cluster r.line

/-- The home has the last acknowledgement of a walk or a recall: every copy but the requester's is gone, and
the request is granted or performed (R113, R114). One whose cluster has no room for the line by then is performed as `.l2` (R59,
R123). -/
def State.endWalk (s : State) (r : HReq) : State :=
  let sl := r.slice
  let s := s.closeTxn r.id
  match s.reqOp r with
  | none => s.setDI sl r.asid r.line
  | some o =>
    let grant : State :=
      if s.takesLine r o then (s.grantOwner sl r .m o.strm).performM r.cluster o
      else (s.setDI sl r.asid r.line).performAt (.l2 sl) o
    match r.kind with
    | .getM => grant
    | .upgrade => grant
    | .mem =>
      let s := s.setDI sl r.asid r.line
      match s.translate r.part sl r.asid o.ia o.need .plain with
      | (.leaf pa _ _, s) => s.serveMem sl r o pa
      | (.fault c u, s) => s.opFault o sl c u
    | _ => (s.setDI sl r.asid r.line).performAt (.l2 sl) o

/-! ### Probes at an owner (R113, R115) -/

/-- The owner gives up its copy, or keeps it in S (`keep`); M data goes into the home's line. A copy in the
write-back buffer serves the probe and is no sharer afterwards (R115; log 74, DESIGN CHOICE). -/
def State.yieldCopy (s : State) (sl : Nat) (r : HReq) (c : Nat) (keep : Bool) : State :=
  match s.l1Any? c r.asid r.line with
  | none => s
  | some x =>
    let s := if x.st = .m then s.intoL2 r.part sl r.asid r.line x.data x.bad else s
    if x.putting then s.modL1 c r.asid r.line fun y => { y with st := .i }
    else if keep then s.modL1 c r.asid r.line fun y => { y with st := .s, prev := 0x7FF, next := 0x7FF }
    else s.dropL1 c r.asid r.line

/-- A forwarded request, a probe or a recall is served by the owner, and the home's transaction ends. An owner that serves it
from its write-back buffer keeps no copy and is no sharer: the requester alone is listed, or the line is in DI (R113, R115; log
74, DESIGN CHOICE). -/
def State.serveProbe (s : State) (m : CMsg) : State :=
  let s : State := { s with mem := { s.mem with cmsgs := s.mem.cmsgs.filter fun x => x.id ≠ m.id } }
  match s.txn? m.req with
  | none => s
  | some t =>
    let r := t.req
    let sl := r.slice
    let stays : Bool := match s.l1? m.cluster r.asid r.line with
      | some _ => true
      | none => false
    match m.kind with
    | .fwdGetS =>
      let s := (s.yieldCopy sl r m.cluster true).closeTxn r.id
      let s := if stays then s else s.setDI sl r.asid r.line
      match s.reqOp r with
      | none => if stays then s.modL2 sl r.asid r.line fun y => { y with dir := .ds } else s
      | some o =>
        if s.takesLine r o then (s.grantS sl r (if stays then m.cluster else 0x7FF) o.strm).performL1 r.cluster o
        else (if stays then s.modL2 sl r.asid r.line fun y => { y with dir := .ds } else s).performAt (.l2 sl) o
    | .probe =>
      let s := (s.yieldCopy sl r m.cluster true).closeTxn r.id
      let s := if stays then s.modL2 sl r.asid r.line fun y => { y with dir := .ds, head := m.cluster }
        else s.setDI sl r.asid r.line
      match s.reqOp r with
      | none => s
      | some o => s.performAt (.l2 sl) o
    | _ => (s.yieldCopy sl r m.cluster false).endWalk r

end Sys2Proof.Machine
end

