-- ==== Sys2Proof/Machine/Operands.lean ====
section
/-! DEFINITION. The operands of a firing (R189 to R193) and what every firing of an element does with
poison and format mismatches before and around its own work (R190, R192, R195). -/

namespace Sys2Proof.Machine

/-! ### The inline constant table (R193) -/

/-- Integer value of an entry below 0x30. -/
def constInt (i : Nat) : Int :=
  if i < 0x20 then i else if i < 0x28 then - ((i - 0x1F : Nat) : Int) else (2 ^ (i - 0x28 + 5) : Nat)

/-- Floating value of an entry as a ratio: sign, numerator, denominator. ln 2 and log₂ e are given to
128 bits, more than any format rounds. -/
def constRatio (i : Nat) : Bool × Nat × Nat :=
  if i < 0x30 then (constInt i < 0, (constInt i).natAbs, 1)
  else if i < 0x38 then (false, 1, 2 ^ (i - 0x2F))
  else
    match i with
    | 0x38 => (false, 1, 3)
    | 0x39 => (false, 1, 5)
    | 0x3A => (false, 1, 6)
    | 0x3B => (false, 1, 7)
    | 0x3C => (false, 1, 9)
    | 0x3D => (false, 0xB17217F7D1CF79ABC9E3B39803F2F6AF, 2 ^ 128)
    | 0x3E => (false, 0x171547652B82FE1777D0FFDA0D23A7D12, 2 ^ 128)
    | _ => (true, 0, 1)

/-- Floating pattern of an entry: the exact value rounded to nearest even. -/
def constFloat (f : Fmt) (i : Nat) : Nat :=
  let (neg, num, den) := constRatio i
  if num = 0 then (fpOf f).signed neg 0 else (roundRatio (fpOf f) .rne neg num den 0).1

/-- A constant in a format (R192): none for a mismatch. -/
def constIn (f : Fmt) (i : Nat) : Option Nat :=
  match f with
  | .f16 | .bf16 | .f32 | .f64 => some (constFloat f i)
  | .t => none
  | .p => if i < 0x30 then some (wrap 1 (constInt i)) else none
  | _ => if i < 0x30 then some (wrap f.width (constInt i)) else none

/-! ### Sources (R189, R192) -/

/-- The token on the port that a select names. -/
def Firing.port (fr : Firing) (sel : Nat) : Option Token :=
  match sel with
  | 0x40 => fr.a
  | 0x41 => fr.b
  | 0x42 => fr.c
  | _ => none

/-- The first `n` elements of a list, zero past its end. -/
def padTo (n : Nat) (xs : List Nat) : List Nat := (upto n).map fun j => at! xs j 0

/-- Position of a block in its group (R186, select 0x47). -/
def State.groupPos (s : State) (n : Names) : Nat :=
  match s.section? n.part n.lsec with
  | none => 0
  | some sec =>
    match sec.image.blocks.find? fun r => r.first ≤ n.block && n.block < r.first + r.group with
    | some r => n.block - r.first
    | none => 0

/-- Keep register of the firing context on the element that fires. -/
def State.keepOf (s : State) (fr : Firing) (k : Nat) : W64 :=
  match s.ctx? fr.names.part fr.ctx with
  | some x => x.keep fr.cluster fr.elem k
  | none => 0

/-- A 64-bit source (literal or keep register) in a format (R192). -/
def wideIn (f : Fmt) (n : Nat) (v : W64) : Option (List Nat) :=
  match f with
  | .t => none
  | .p => some ((upto n).map fun j => if j < 32 && bit v j then 1 else 0)
  | _ => some (List.replicate n (v.toNat % 2 ^ f.width))

/-- A number of the firing (wave, run, context, position) in a format (R192). -/
def numIn (f : Fmt) (vs : List Nat) : Option (List Nat) :=
  if f.isInt || f = .a then some (vs.map fun v => v % 2 ^ f.width) else none

/-- The elements that a select delivers in format `f`, one for each wave of the firing; none for a
format mismatch (R192). -/
def State.source (s : State) (fr : Firing) (sel : Nat) (f : Fmt) : Option (List Nat) :=
  let n := fr.run
  if sel < 0x40 then (constIn f sel).map (List.replicate n)
  else if sel < 0x43 then
    match fr.port sel with
    | some t => if t.fmt = f then some (padTo n (t.data.map fun x => x.toNat)) else none
    | none => none
  else if sel = 0x43 then wideIn f n fr.slot.lit
  else if sel = 0x44 then numIn f ((upto n).map fun j => fr.wave + j)
  else if sel = 0x45 then numIn f (List.replicate n n)
  else if sel = 0x46 then numIn f (List.replicate n fr.ctx)
  else if sel = 0x47 then numIn f (List.replicate n (s.groupPos fr.names))
  else if sel < 0x50 then wideIn f n (s.keepOf fr (sel - 0x48))
  else none

/-- An operand with a format of its own (R213, R235, R236, R238): from a port any of I8 to I64, from
another source read as I64 (log 10, DEDUCED). The elements and their width. -/
def State.ownSource (s : State) (fr : Firing) (sel : Nat) : Option (List Nat × Nat) :=
  match fr.port sel with
  | some t =>
    if t.fmt.isInt then some (padTo fr.run (t.data.map fun x => x.toNat), t.fmt.width) else none
  | none => (s.source fr sel .i64).map fun v => (v, 64)

/-- The operand format f: of the token on the port that SA names, else on the port that SB names
(R190). -/
def Firing.fmtOf (fr : Firing) (f : Fields) : Fmt :=
  match fr.port f.sa.toNat with
  | some t => t.fmt
  | none =>
    match fr.port f.sb.toNat with
    | some t => t.fmt
    | none => .i64

/-- SA and SB both name ports, whose tokens differ in format (R190). -/
def Firing.formatsDiffer (fr : Firing) (f : Fields) : Bool :=
  match fr.port f.sa.toNat, fr.port f.sb.toNat with
  | some t, some u => t.fmt ≠ u.fmt
  | _, _ => false

/-- The stop level of the results: of the token on port A, and where port A is no source, of the port
that SB names (R340); of the port that SA names where SB names none (log 10, DEDUCED). -/
def Firing.stopOf (fr : Firing) (f : Fields) : Nat :=
  let level (t : Option Token) (d : Nat) : Nat := match t with
    | some t => t.stop
    | none => d
  if f.sa = 0x40 || f.sb = 0x40 then level fr.a 0
  else level (fr.port f.sb.toNat) (level (fr.port f.sa.toNat) 0)

/-- DA or DB steers, so that the firing waits for port C (R190, R195). -/
def steers (f : Fields) : Bool :=
  (4 ≤ f.da.toNat && f.da.toNat ≤ 6) || (4 ≤ f.db.toNat && f.db.toNat ≤ 6)

/-- The token is there and poisoned. -/
def poisonedTok (t : Option Token) : Bool := match t with
  | some t => t.poison
  | none => false

/-- Some port operand of the firing is poisoned (R190); `readsC` says that the opcode reads port C. -/
def Firing.poisonOf (fr : Firing) (f : Fields) (readsC : Bool) : Bool :=
  poisonedTok (fr.port f.sa.toNat) || poisonedTok (fr.port f.sb.toNat)
    || ((readsC || steers f) && poisonedTok fr.c)

/-- The steering predicate, where there is one, has format P (R195). -/
def Firing.predOk (fr : Firing) (f : Fields) : Bool :=
  !steers f || fr.pred.isSome

/-- The code that a FORMAT record gives for an operand (R400): 0 where it is no port (log 31, DEDUCED). -/
def Firing.codeOf (fr : Firing) (sel : Nat) : Nat := match fr.port sel with
  | some t => t.fmt.code
  | none => 0

/-- A poisoned result of a firing. -/
def Firing.poisonRes (fr : Firing) (f : Fields) (fmt : Fmt) : Res :=
  { wave := fr.wave, stop := fr.stopOf f, fmt := fmt, poison := true, data := List.replicate fr.run 0 }

/-- A result of a firing with its wave, run and stop level. -/
def Firing.res (fr : Firing) (f : Fields) (fmt : Fmt) (vs : List Nat) : Res :=
  { wave := fr.wave, stop := fr.stopOf f, fmt := fmt, poison := false, data := vs.map w64 }

/-- The poisoned token of a firing that performs nothing, sent on each link that DA or DB can name,
without steering (R192, R209; log 51, DEDUCED). -/
def State.sendFailed (s : State) (fr : Firing) (f : Fields) (fmt : Fmt) : State :=
  let t := (fr.poisonRes f fmt).token fr.ctx
  let a := f.da.toNat
  let b := f.db.toNat
  let lk0 := a = 1 || a = 3 || a = 4 || a = 5 || a = 6 || b = 1
  let lk1 := a = 2 || a = 3 || a = 4 || b = 2
  let s := if lk0 then s.out fr f.ta.toNat false t else s
  if lk1 then s.out fr f.ta.toNat true t else s

/-- The format-mismatch trap of a firing (R192). -/
def State.mismatch (s : State) (fr : Firing) (f : Fields) (fmt : Fmt) : State :=
  (s.raise (fr.site s)
    { cause := 0x03, sub := 1, info := fr.codeOf f.sa.toNat + 16 * fr.codeOf f.sb.toNat }).sendFailed
    fr f fmt

/-- The links that a destination value can name when nothing steers (R192, R195). -/
def unsteered (d : Nat) : Nat := if d = 4 then 3 else if d = 5 || d = 6 then 1 else d

/-- A poisoned result is sent where the firing would have sent it, on destination value `d`; where a predicate that is not P
leaves that open, to every link that the value can name (R190, R192, R195). -/
def State.sendPoisonTo (s : State) (fr : Firing) (f : Fields) (d : Nat) (r : Res) : State :=
  s.sendTo fr f.ta.toNat (if fr.predOk f || poisonedTok fr.c then d else unsteered d) r

/-- The poisoned primary result of a firing. -/
def State.sendPoison (s : State) (fr : Firing) (f : Fields) (r : Res) : State := s.sendPoisonTo fr f f.da.toNat r

/-- A token that cannot take its tag leaves poisoned, with its tag unchanged and no tag action, and the
illegal-instruction trap WAVE or STOPLVL is raised (R200, R221, R222, R224). -/
def State.badTag (s : State) (fr : Firing) (f : Fields) (sub : Nat) (r : Res) : State :=
  (s.raise (fr.site s) { cause := 0x01, sub := sub }).sendTo fr 0 f.da.toNat { r with poison := true }

/-- What every computing firing does: a poisoned operand gives a poisoned result and nothing else; a
format that the opcode does not take, or a predicate that is not P, raises the mismatch; else the
flags are ORed in and the result is sent (R190, R192, R195, R269). `out` gives the result format of an
accepted f, `body` the elements, none for a mismatch of another operand. -/
def State.compute (s : State) (f : Fields) (readsC : Bool) (out : Fmt → Option Fmt)
    (body : Firing → Fmt → Option (List Nat × FpFlags)) : State :=
  let fr := s.run.cur
  let fm := fr.fmtOf f
  let ofmt := (out fm).getD fm
  if fr.poisonOf f readsC then s.sendPoison fr f (fr.poisonRes f ofmt)
  else if !fr.predOk f then s.mismatch fr f ofmt
  else
    match out fm with
    | none => s.mismatch fr f ofmt
    | some o =>
      match body fr fm with
      | none => s.mismatch fr f ofmt
      | some (vs, fl) =>
        (s.orFlags fr.names.part fr.ctx fl).sendTo fr f.ta.toNat f.da.toNat (fr.res f o vs)

/-- Element by element over one operand of format f. -/
def State.each1 (s : State) (f : Fields) (out : Fmt → Option Fmt) (g : Fmt → Nat → Nat × FpFlags) :
    State :=
  s.compute f false out fun fr fm =>
    match s.source fr f.sa.toNat fm with
    | some a =>
      let r := a.map (g fm)
      some (r.map Prod.fst, Machine.orFlags (r.map Prod.snd))
    | none => none

/-- Element by element over two operands of format f. -/
def State.each2 (s : State) (f : Fields) (out : Fmt → Option Fmt)
    (g : Fmt → Nat → Nat → Nat × FpFlags) : State :=
  s.compute f false out fun fr fm =>
    match s.source fr f.sa.toNat fm, s.source fr f.sb.toNat fm with
    | some a, some b =>
      let r := List.zipWith (g fm) a b
      some (r.map Prod.fst, Machine.orFlags (r.map Prod.snd))
    | _, _ => none

/-- Element by element over operands A and B of format f and port C of format f (R206). -/
def State.each3 (s : State) (f : Fields) (out : Fmt → Option Fmt)
    (g : Fmt → Nat → Nat → Nat → Nat × FpFlags) : State :=
  s.compute f true out fun fr fm =>
    match s.source fr f.sa.toNat fm, s.source fr f.sb.toNat fm, s.source fr 0x42 fm with
    | some a, some b, some c =>
      let r := List.zipWith (fun x (h : Nat × Nat) => g fm x h.1 h.2) a (List.zip b c)
      some (r.map Prod.fst, Machine.orFlags (r.map Prod.snd))
    | _, _, _ => none

/-- Element by element over operand A of format f and operand B of a format of its own, whose width is
given. -/
def State.eachOwn (s : State) (f : Fields) (out : Fmt → Option Fmt)
    (g : Fmt → Nat → Nat → Nat → Nat) : State :=
  s.compute f false out fun fr fm =>
    match s.source fr f.sa.toNat fm, s.ownSource fr f.sb.toNat with
    | some a, some (b, w) => some (List.zipWith (g fm w) a b, fNone)
    | _, _ => none

/-- The result of an exact integer computation: no flag. -/
def exactly (x : Nat) : Nat × FpFlags := (x, fNone)

/-- The accepted formats keep f as the result's (R213). -/
def keepIf (ok : Fmt → Bool) (f : Fmt) : Option Fmt := if ok f then some f else none

/-- Every format. -/
def anyFmt (_ : Fmt) : Bool := true
/-- I8 to I64 and A. -/
def intOrA (f : Fmt) : Bool := f.isInt || f = .a
/-- I8 to I64, A and P. -/
def intAOrP (f : Fmt) : Bool := f.isInt || f = .a || f = .p

end Sys2Proof.Machine
end

