-- ==== Sys2Proof/Machine/Submit.lean ====
section
/-! DEFINITION. How a firing presents its memory operations (R82, R245 to R247): one for each element, with
the issuer's checks behind it, its place in the chain, and the operations before it (R103); and when a
release may be performed (R104, R107, R160). -/

namespace Sys2Proof.Machine

/-- What one element of a firing asks for: the fields of its operation that its instruction decides. `dead`
says that it performs nothing and its result is poisoned. -/
structure Ask where
  kind   : OpKind
  width  : Nat := 0
  va     : Nat := 0
  ia     : Nat := 0
  data   : W64 := 0
  data2  : W64 := 0
  fmt    : Fmt
  params : List Nat := []
  mute   : Bool := false
  dead   : Bool := false
deriving DecidableEq, Repr

/-- An operation of an island node that only reads: unchained loads of its context (R321). -/
def EngOp.nodeLoads (e : EngOp) : Bool := e.names.node && e.kind = .tile

/-- The unchained operations of a context on their way, those of its island nodes, and the engine operations that its operations
and its stream ports have started: what left its element before a firing now, and what a token that the firing needs may come
from (R103, R156, R321). An engine operation stands under its starter's number and its own. A chained one that was accepted before
counts as one whose token the firing needs, which the model does not follow (R160; log 37, DEDUCED). -/
def State.leftBefore (s : State) (p c : Nat) : List Nat :=
  ((s.work.ops.filter fun o => o.names.part == p && o.ctx == c && !o.chained).map fun o => o.id)
    ++ (s.work.engs.filter fun e => e.names.part == p && e.ctx == c && (e.names.node || e.starter ≠ 0)).flatMap fun e =>
      if e.chained || e.starter = 0 then [e.id] else [e.starter, e.id]

/-- The opcode's literal holds a triple; TSLICE, TBUILD and WRSYS are always unchained (R330, R331, R407; log 36, DEDUCED). -/
def opTriple (op : Nat) : Bool := op ≠ 0xAC && op ≠ 0xAD && op ≠ 0xE3

/-- The operation of element `j` of a firing. -/
def mkOp (s : State) (fr : Firing) (op : Nat) (gid id j : Nat) (a : Ask) : Op :=
  let l := fr.slot.lit
  let mem := op < 0x60
  let part (n : Nat) : Nat := if opTriple op then n else 0xFE
  { id := id, word := fr.slot.word, lit := l, names := fr.names, cluster := fr.cluster, elem := fr.elem,
    ctx := fr.ctx, wave := fr.wave + j, pred := part (litPred l), this := part (litThis l), succ := part (litSucc l),
    kind := a.kind,
    level := if mem then (levelOf (litLevel l)).getD .l1 else .l1, strm := mem && litStrm l,
    scope := if opTriple op then litScope l else 0, ord := mem && op ≠ 0x5F && litOrd l, width := a.width, va := a.va, ia := a.ia,
    data := a.data, data2 := a.data2, fmt := a.fmt, params := a.params, gather := if a.mute then 0 else gid,
    j := j, poison := a.dead, after := s.leftBefore fr.names.part fr.ctx,
    phase := .buffered, entry := .outside, flush := none }

/-- The operations of a firing, with identifiers from `id` on (log 72, DESIGN CHOICE). -/
def mkOps (s : State) (fr : Firing) (op gid : Nat) : Nat → Nat → List Ask → List Op
  | _, _, [] => []
  | id, j, a :: as => mkOp s fr op gid id j a :: mkOps s fr op gid (id + 1) (j + 1) as

/-- Operations as they stand. -/
def asIs (os : List Op) : List Op := os

/-- Shared entries of a home store buffer in use (R84). -/
def State.sharedUse (s : State) (home : Nat) : Nat :=
  (s.work.ops.filter fun o => o.entry = .shared && s.homeCluster o == home).length

/-- Chained operations take shared entries while there are some; the others wait at the network interface (R84). -/
def takeEntries : Nat → List Op → List Op
  | _, [] => []
  | room, o :: os =>
    if o.chained && room ≠ 0 then { o with entry := .shared } :: takeEntries (room - 1) os
    else o :: takeEntries room os

/-- The operations of a firing are presented (R82), and its results are awaited where DA sends them; `piece` gathers
operations into pieces (R246). -/
def State.present (s : State) (fr : Firing) (f : Fields) (op : Nat) (as : List Ask)
    (piece : List Op → List Op := asIs) : List Op × State :=
  let gid := s.run.nextId
  let home := match s.ctx? fr.names.part fr.ctx with
    | some x => x.chain.home
    | none => fr.cluster
  let os := takeEntries (192 - s.sharedUse home) (piece (mkOps s fr op gid (gid + 1) 0 as))
  let g : Gather :=
    { id := gid, names := fr.names, cluster := fr.cluster, elem := fr.elem, ctx := fr.ctx, wave := fr.wave,
      stop := fr.stopOf f, da := f.da.toNat, lk0 := fr.slot.lk0, lk1 := fr.slot.lk1, res := as.map fun _ => none,
      froms := [] }
  let wants := as.any fun a => !a.mute
  (os, { s with
    run := { s.run with nextId := gid + 1 + as.length }
    work := { s.work with
      ops := s.work.ops ++ os
      gathers := if wants then s.work.gathers ++ [g] else s.work.gathers } })

/-! ### Releases (R104, R107, R153, R160) -/

/-- The operation is a release (R104). -/
def Op.releases (o : Op) : Bool :=
  match o.kind with
  | .store => o.ord
  | .stfe => o.ord
  | .amo .ctradd => true
  | .amo _ => o.ord
  | .publish => true
  | .shadow _ => true
  | .flush => true
  | .inval => true
  | .spawn => true
  | .syscall => true
  | .send => true
  | .cbload => true
  | .fence _ rel => rel
  | _ => false

/-- The operation waits, as a REGION does, for the unchained operations that left before it fired (R93,
R104, R106, R125). -/
def Op.waitsBefore (o : Op) : Bool :=
  o.releases || match o.kind with
  | .region => true
  | .unlease => true
  | .fence acq _ => acq
  | _ => false

/-- The scope of a release: PT for SYSCALL, TASKSPAWN, CTXSEND and CTXRET (R230, R406, R410). -/
def Op.relScope (o : Op) : Nat :=
  match o.kind with
  | .spawn => 1
  | .syscall => 1
  | .send => 1
  | _ => o.scope

/-- The operation that asks for a piece: its leader, or the operation itself (R246). -/
def Op.leader (o : Op) : Nat :=
  match o.params with
  | [2, l] => l
  | _ => o.id

/-- A `.l1` access is performed outside the home cluster: its home serves it, or the request of its piece, as `.l2` or `.mem`, or it
awaits the answer of a window (R39, R59, R123, R144). -/
def State.servedOutside (s : State) (o : Op) : Bool :=
  let far (r : HReq) : Bool := r.from_ = .op o.leader && (r.kind = .l2 || r.kind = .mem)
  o.phase = .parked || s.mem.reqs.any far || s.mem.txns.any fun t => far t.req

/-- The place of the operation lies outside its home cluster, and it has left toward it (R107). -/
def Op.leftCluster (o : Op) (s : State) : Bool :=
  o.phase ≠ .buffered && match o.level with
  | .l1 => match o.kind with
    | .amo _ => true
    | .ctrWait => true
    | .ctrRead => true
    | _ => s.servedOutside o
  | .l2 => true
  | .mem => true
  | .ss => true
  | _ => (o.spot s).unit ≠ s.homeCluster o

/-- The operation is a load or an atomic, which a FENCE `.acq` waits for (R106). -/
def Op.loads (o : Op) : Bool :=
  match o.kind with
  | .load => true
  | .ldfe _ => true
  | .ctrRead => true
  | .ctrWait => true
  | .amo _ => true
  | .tslice => true
  | .tstat => true
  | .tcvt => true
  | _ => false

/-- The operation holds `o` back while it has not been performed: any other for a release, a REGION or an UNLEASE;
a load or an atomic for a FENCE `.acq` (R93, R104, R106, R125; log 37, DEDUCED). -/
def Op.holdsBack (q o : Op) : Bool :=
  match o.kind with
  | .fence _ rel => rel || q.loads
  | _ => true

/-- A FENCE `.ar` or `.acq`, which waits until the loads and atomics before it have been performed (R106). -/
def Op.acquires (o : Op) : Bool :=
  match o.kind with
  | .fence acq _ => acq
  | _ => false

/-- Every read whose data a write piece carries is done (R158). -/
def EngOp.mayWrite (e : EngOp) (w : Piece) : Bool :=
  !w.data.isEmpty || e.pieces.all fun x =>
    x.write || x.got || !overlaps x.off x.span.len w.off w.span.len

/-- A flit of a message is not yet ejected. -/
def State.flitOut (s : State) (msg idx : Nat) : Bool :=
  (s.fab.inject.any fun f => f.packet == msg && f.idx == idx)
    || s.fab.hops.any fun h => (h.shared ++ h.ev0.toList ++ h.ev1.toList).any fun f => f.packet == msg && f.idx == idx

/-- The bytes that a piece writes into a ring's entry have been ejected with their flits; what follows the payload is written with the
last (R377, R381). -/
def State.entryHere (s : State) (e : EngOp) (w : Piece) : Bool :=
  match e.kind, e.params with
  | .msend, [1, msg] => match s.work.msgs.find? fun m => m.id == msg with
    | some m =>
      let n := (16 + m.data.length + 31) / 32
      (upto n).all fun i => !(s.flitOut msg i && (overlaps w.off w.span.len (32 * i) 32 || (i + 1 = n && 32 * n ≤ w.off)))
    | none => true
  | _, _ => true

/-- A write piece has what it writes (R158, R381). -/
def State.mayWrite (s : State) (e : EngOp) (w : Piece) : Bool := e.mayWrite w && s.entryHere e w

/-- The wait of a piece in place (R46, R171). -/
def State.pieceWaits (s : State) (e : EngOp) (x : Nat) : Bool :=
  s.work.waits.any fun w => w.who = .piece e.id x

/-- The place of a piece lies in the home cluster of its starting context (R102). -/
def State.pieceLocal (s : State) (e : EngOp) (x : Piece) : Bool :=
  let home := match s.ctx? e.names.part e.ctx with
    | some c => c.chain.home
    | none => e.cluster
  (x.span.level = .cs || x.span.level = .sg) && (s.spotOf e.names.part x.span.cluster 0 x.span.level x.span.addr).unit == home

/-- An engine operation is performed with respect to a scope (R160): each piece at its place; at CL (`cl`) a piece whose
place lies outside the home cluster need only have left it, which one that may be performed now has (log 38, DEDUCED). -/
def State.engDone (s : State) (e : EngOp) (cl : Bool) : Bool :=
  e.pieces.all fun x => x.got || (cl && !s.pieceLocal e x && !s.pieceWaits e x.id && (!x.write || s.mayWrite e x))

/-- The engine operation that writes the entry of a message: `params` is [1, id] until the entry is complete, then [2, id]. -/
def State.entryEng (s : State) (id : Nat) : Option EngOp :=
  s.work.engs.find? fun e => e.kind = .msend && (e.params = [1, id] || e.params = [2, id])

/-- The pieces of an MSEND have been performed with respect to a scope, those of its entry among them (R160, R385; log 53,
DEDUCED): a message refused has none; at CL those of a ring elsewhere have left once it has been injected. -/
def State.msgDone (s : State) (m : Msg) (cl : Bool) : Bool :=
  let away := cl && (s.part m.op.names.part).alias_ (bits m.ring 26 16) ≠ m.from_
  match m.state with
  | .queued => false
  | .flying => away
  | .reserved => away || (s.entryEng m.id).all fun e => e.pieces.isEmpty
  | .acked => true
  | .nacked _ => true

/-- The chained engine operations and messages of a context before number `id`, but for the parts of one command, have been
performed with respect to a scope (R103, R160, R161). -/
def State.chainDone (s : State) (p c id starter : Nat) (cl : Bool) : Bool :=
  (s.work.engs.all fun q => !(q.names.part == p && q.ctx == c && q.chained && q.id < id && q.starter ≠ starter) || s.engDone q cl)
    && s.work.msgs.all fun m => !(m.op.names.part == p && m.op.ctx == c && m.id < id && m.op.id ≠ starter) || s.msgDone m cl

/-- The engine operation is before `o` and must be over for it: any for a release, and for a FENCE, a REGION or an UNLEASE the
loads of an island node (R93, R103, R104, R106, R321). -/
def EngOp.before (e : EngOp) (o : Op) : Bool :=
  e.names.part == o.names.part && e.ctx == o.ctx
    && ((o.releases && ((e.chained && o.chained) || o.after.contains e.starter || o.after.contains e.id))
      || (o.waitsBefore && e.nodeLoads && o.after.contains e.id))

/-- Every operation before `o` has been performed with respect to its scope (R103, R104, R107, R160). -/
def State.released (s : State) (o : Op) : Bool :=
  (s.work.ops.all fun q => !o.after.contains q.id || !q.holdsBack o
      || (o.relScope = 0 && o.releases && q.leftCluster s && !(o.acquires && q.loads)))
    && (s.work.engs.all fun e => !e.before o || s.engDone e (o.releases && o.relScope = 0 && !(o.acquires && e.nodeLoads)))
    && (!o.releases || !o.chained || s.chainDone o.names.part o.ctx s.run.nextId o.id (o.relScope = 0))

/-- A posted write of the context has not been flushed for a release at SY (R153). -/
def State.unflushed (s : State) (o : Op) : Bool :=
  o.releases && o.relScope = 3 && s.unposted o.names.part o.ctx o.flush

/-- The zero-length read of a SY release leaves behind the writes posted so far: the release is parked until it completes
(R153). -/
def State.flushRead (s : State) (o : Op) : State :=
  s.modOp o.id fun x => { x with phase := .parked, params := 8 :: x.params, flush := some s.run.nextId }

/-- The operations of a piece start together (R246). One that only fills its place in the chain asks no home (R83). -/
def State.startPiece (s : State) (o : Op) : State :=
  if o.level.cached && !o.poison && o.kind ≠ .nop then
    (s.members o).foldl (fun s x => if x.id = o.id then s else s.modOp x.id fun y => { y with phase := .sent })
      (s.startCached o)
  else
    let ms := s.members o
    (ms.filter s.scratchMade).foldl (fun s x => s.wakeSpot (x.spot s) (2 ^ x.width)) (ms.foldl (fun s x => s.startAccess x) s)

/-- The operation is a member of a piece that another one leads. -/
def Op.follows (o : Op) : Bool :=
  match o.params with
  | [2, l] => l ≠ o.id
  | _ => false

/-- An unchained access leaves its element at once, unless it is a release that must wait (R87, R104). -/
def State.launchOp (s : State) (o : Op) : State :=
  if o.chained || o.follows then s
  else if (o.waitsBefore && !s.released o) || s.unflushed o then s
  else s.startPiece o

/-- The unchained accesses of a firing leave. -/
def State.launchOps (s : State) (os : List Op) : State := os.foldl (fun s o => s.launchOp o) s

/-! ### The issuer's checks (R35, R54, R192, R247, R401) -/

/-- The site of element `j` of a firing. -/
def Firing.siteAt (fr : Firing) (s : State) (j : Nat) : Site := { fr.site s with wave := fr.wave + j }

/-- The POISON records of a firing whose operand is poisoned: one for each element that reaches the memory
port (R401). -/
def State.poisonRecords (s : State) (fr : Firing) (js : List Nat) : State :=
  js.foldl (fun s j => s.raise (fr.siteAt s j) { cause := 0x0C, sub := 1 }) s

/-- The format-mismatch record of a firing (R192). -/
def State.formatRecord (s : State) (fr : Firing) (f : Fields) : State :=
  s.raise (fr.site s)
    { cause := 0x03, sub := 1, info := fr.codeOf f.sa.toNat + 16 * fr.codeOf f.sb.toNat }

/-- The range registers of a firing's context (R34). -/
def State.rangesOf (s : State) (p c : Nat) : List (W64 × W64) :=
  match s.ctx? p c with
  | some x => x.ranges
  | none => []

/-- The issuer's check of an access of `n` bytes: its IA or scratch offset, or the subcode of PERMISSION with
which it fails: ALIGN, RANGE or SCRATCH (R35, R54, R55, R247). A `.sg` offset is checked at its cluster, one of the issuer's own
here; a change of the scratch ways holds a check back until it ends (R58). -/
def State.issueCheck (s : State) (fr : Firing) (lv : Level) (va n : Nat) (need : Need) : Except Nat Nat :=
  if va % n ≠ 0 then .error 7
  else if lv.cached then
    match rangeCheck (s.rangesOf fr.names.part fr.ctx) va n need with
    | some ia => .ok ia
    | none => .error 3
  else
    let far := lv = .sg && segCluster fr.cluster (va / 2 ^ 19 % 4) ≠ fr.cluster
    if far then (if va + n ≤ 2 ^ 21 then .ok va else .error 6)
    else if s.rangeBlocked fr.cluster lv va n || s.scratchValid fr.names.part fr.cluster lv va n then .ok va
    else .error 6

/-- An element's ask passes the issuer's check, or is stopped by it with its record (R45, R247). -/
def State.checkAsk (s : State) (fr : Firing) (j : Nat) (need : Need) (a : Ask) : Ask × State :=
  if a.dead || a.kind = .nop then (a, s)
  else
    let lv := (levelOf (litLevel fr.slot.lit)).getD .l1
    match s.issueCheck fr lv a.va (2 ^ a.width) need with
    | .ok ia => ({ a with ia := ia }, s)
    | .error sub => ({ a with dead := true }, s.raise (fr.siteAt s j) { cause := 5, sub := sub, addr := a.va })

/-- The checks of every element, in wave order. -/
def State.checkAsks (s : State) (fr : Firing) (need : Need) : Nat → List Ask → List Ask × State
  | _, [] => ([], s)
  | j, a :: as =>
    let (a, s) := s.checkAsk fr j need a
    let (as, s) := s.checkAsks fr need (j + 1) as
    (a :: as, s)

/-- Address of element `j`: A[j] + Offset (R54, R245). -/
def Firing.addrAt (fr : Firing) (f : Fields) (j : Nat) : Nat :=
  match fr.port f.sa.toNat with
  | some t => addr64 (at! t.data j 0).toNat (litOff fr.slot.lit)
  | none => 0

/-- Element `j` of operand A. -/
def Firing.elemA (fr : Firing) (f : Fields) (j : Nat) : W64 :=
  match fr.port f.sa.toNat with
  | some t => at! t.data j 0
  | none => 0

/-- Operand A carries an address (R244). -/
def Firing.addressed (fr : Firing) (f : Fields) : Bool := fr.fmtOf f = .a

/-- The signed integer format of a width code (R244). -/
def intFmt (w : Nat) : Fmt :=
  match w with
  | 0 => .i8
  | 1 => .i16
  | 2 => .i32
  | _ => .i64

/-- Store data: from a port of any format but P and T whose element has the width, else the constant or keep
register as the signed integer format of the width (R244). -/
def State.storeData (s : State) (fr : Firing) (f : Fields) (w : Nat) : Option (List Nat) :=
  match fr.port f.sb.toNat with
  | some t =>
    if t.fmt ≠ .p && t.fmt ≠ .t && t.fmt.width = 8 * 2 ^ w then some (padTo fr.run (t.data.map BitVec.toNat)) else none
  | none => s.source fr f.sb.toNat (intFmt w)

/-- An I64 operand B: a port must carry I64 (R132, R251). -/
def State.i64B (s : State) (fr : Firing) (f : Fields) : Option (List Nat) := s.source fr f.sb.toNat .i64

end Sys2Proof.Machine
end

