-- ==== Sys2Proof/Machine/Graph.lean ====
section
/-! DEFINITION. The wave graph of a section as the loader traces it (R80, R461): its instructions, where their links lead,
the paths of control through a wave, the chain of a path, and the bodies of its leases (R128). -/

namespace Sys2Proof.Machine

/-! ### Instructions and edges -/

/-- An instruction of a section: an element block by the FIRST of its record, whose members hold the same instructions (R186),
or a channel; and its index. -/
structure Inst where
  node : Bool
  num  : Nat
  idx  : Nat
deriving DecidableEq, Repr

/-- Where a token goes: from an instruction, or from an entry, to a port of another; `second` on LK1, `leaves` when it leaves
the wave (R461), `across` when it goes to another context. -/
structure Edge where
  src    : Option Inst
  dst    : Inst
  port   : Nat
  second : Bool
  leaves : Bool
  across : Bool
deriving DecidableEq, Repr

/-- The instructions of a section, in block and slot order. -/
def SecImage.insts (i : SecImage) : List (Inst × Slot) :=
  let some_ (node : Bool) (num : Nat) (xs : List Slot) : List (Inst × Slot) :=
    (upto xs.length).filterMap fun k =>
      let x := at! xs k Slot.zero
      if x.word = 0 then none else some (⟨node, num, k⟩, x)
  (i.blocks.flatMap fun r => some_ false r.first r.slots)
    ++ (upto i.chans.length).flatMap fun c => some_ true c (match i.chans[c]? with | some x => x.slots | none => [])

/-- The names of an instruction in a section. -/
def Inst.names (v : Inst) : Names := ⟨0, 0, v.node, v.num, v.idx⟩

/-- The instruction that names stand for. -/
def SecImage.inst (i : SecImage) (n : Names) : Inst :=
  if n.node then ⟨true, n.block, n.idx⟩
  else ⟨false, ((i.blocks.find? fun r => r.first ≤ n.block && n.block < r.first + r.group).map fun r => r.first).getD n.block, n.idx⟩

/-- The slot of an instruction. -/
def SecImage.slotV (i : SecImage) (v : Inst) : Slot := at! (i.slotsAt v.names) v.idx Slot.zero

/-- The opcode of an instruction. -/
def SecImage.opV (i : SecImage) (v : Inst) : Nat := opOf (i.slotV v).word

/-- The port and the instruction that a link of kind 00, 01 or 10 leads to. -/
def SecImage.linkTo (i : SecImage) (l : W32) : Inst × Nat :=
  if linkKind l = 2 then (i.inst ⟨0, 0, true, linkBlock l, linkSlot l / 4⟩, linkSlot l % 4)
  else (i.inst ⟨0, 0, false, linkBlock l, linkSlot l⟩, linkPort l)

/-- A token that an instruction sends on LK0 or LK1 leaves its wave: by its tag action, or by WADV or WSET (R199, R221, R222,
R461; log 89, DEDUCED). -/
def leavesWave (w : W32) (second : Bool) : Bool :=
  let ta := (fieldsOf w).ta.toNat
  ta = 1 || ta = 2 || (ta = 3 && second) || opOf w = 0x06 || opOf w = 0x07

/-- The word sends its result to other contexts (R229, R230). -/
def sendsAcross (w : W32) : Bool := opOf w = 0x0A || opOf w = 0x0B

/-- Everywhere that an instruction sends; the outputs of stream nodes are not traced (R342). -/
def SecImage.edges (i : SecImage) (v : Inst) : List Edge :=
  let x := i.slotV v
  let f := fieldsOf x.word
  let a := f.da.toNat
  let b := f.db.toNat
  let on (second : Bool) (l : W32) : List Edge := (i.links l).map fun k =>
    let d := i.linkTo k
    ⟨some v, d.1, d.2, second, leavesWave x.word second || sendsAcross x.word, sendsAcross x.word⟩
  (if a == 1 || (3 ≤ a && a ≤ 6) || b == 1 then on false x.lk0 else [])
    ++ if a == 2 || a == 3 || a == 4 || b == 2 then on true x.lk1 else []

/-- Outputs of a streamer's nodes. -/
def SecImage.streamNode (i : SecImage) (v : Inst) : Bool := i.homeAt v.names == .streamer

/-- STEER and GATE are the only branches (R461). -/
def SecImage.branch (i : SecImage) (v : Inst) : Bool := !v.node && (i.opV v = 0x02 || i.opV v = 0x05)

/-- One side of a branch: LK0, or LK1, which is nothing with DA 5 or 6 (R461). -/
def SecImage.side (i : SecImage) (v : Inst) (k : Bool) : List Edge := (i.edges v).filter fun e => e.second == k

/-- The tokens with which the section starts (R175). -/
def SecImage.starts (i : SecImage) : List Edge :=
  i.entries.map fun l => let d := i.linkTo l; ⟨none, d.1, d.2, false, false, false⟩

/-! ### Reachability -/

/-- Everything that `next` reaches from a frontier; `k` bounds the steps. -/
def reach (next : Inst → List Inst) : Nat → List Inst → List Inst → List Inst
  | 0, seen, _ => seen
  | _, seen, [] => seen
  | k + 1, seen, v :: r => if seen.contains v then reach next k seen r else reach next k (seen ++ [v]) (next v ++ r)

/-- More steps than a walk of the section makes. -/
def SecImage.fuel (i : SecImage) : Nat :=
  (i.insts.map fun x => (i.edges x.1).length + 1).foldl (· + ·) i.entries.length + 1

/-- Edges that stay within a wave, and are traced (R342, R461). -/
def SecImage.stays (i : SecImage) (v : Inst) : List Edge := if i.streamNode v then [] else (i.edges v).filter fun e => !e.leaves

/-- What an edge reaches within its wave, whatever the branches choose. -/
def SecImage.reached (i : SecImage) (es : List Edge) : List Inst :=
  reach (fun v => (i.stays v).map fun e => e.dst) i.fuel [] ((es.filter fun e => !e.leaves).map fun e => e.dst)

/-! ### Chained operations (R79, R80) -/

/-- The opcode is of a memory class whose literal holds a triple (R79, R255, R378, R404). -/
def chainOp (op : Nat) : Bool :=
  (0x40 ≤ op && op < 0x60) || op = 0xA4 || op = 0xA8 || op = 0xA9 || op = 0xAA || (0xC0 ≤ op && op ≤ 0xCA && op ≠ 0xC7)
    || (0xD0 ≤ op && op ≤ 0xD5) || op = 0xE1 || op = 0xE7

/-- The instruction is a chained operation. -/
def SecImage.chained (i : SecImage) (v : Inst) : Bool :=
  !v.node && chainOp (i.opV v) && litThis (i.slotV v).lit ≠ 0xFE

/-- PRED, THIS and SUCC of an instruction. -/
def SecImage.pred (i : SecImage) (v : Inst) : Nat := litPred (i.slotV v).lit
def SecImage.this (i : SecImage) (v : Inst) : Nat := litThis (i.slotV v).lit
def SecImage.succ (i : SecImage) (v : Inst) : Nat := litSucc (i.slotV v).lit

/-- Every chained instruction of the section. -/
def SecImage.chain (i : SecImage) : List Inst := (i.insts.map fun x => x.1).filter i.chained

/-- Each path of a branch reaches the MERGE that the other reaches, or leaves the wave, or ends with no further chained
operation (R461). -/
def SecImage.branchOk (i : SecImage) (v : Inst) : Bool :=
  let r (k : Bool) : List Inst := i.reached (i.side v k)
  let meets := (r false).any fun x => i.opV x = 0x03 && (r true).contains x
  [false, true].all fun k =>
    meets || ((i.side v k).any fun e => e.leaves)
      || ((r k).any fun x => (i.edges x).any fun e => e.leaves) || !(r k).any i.chained

/-- The section is a structured wave graph (R461). -/
def SecImage.structured (i : SecImage) : Bool := (i.insts.map fun x => x.1).all fun v => !i.branch v || i.branchOk v

/-! ### Paths of control (R461) -/

/-- How a wave begins: the tokens that enter it, each with whether it depends on a REGION's result, and whether a REGION has been
performed in an earlier wave. -/
structure WaveStart where
  tokens : List (Edge × Bool)
  after  : Bool
deriving DecidableEq, Repr

/-- A path of control through a wave: the instructions that lie on it, with the edges that its tokens take. -/
structure Path where
  start : WaveStart
  seen  : List Inst
  taken : List Edge
deriving DecidableEq, Repr

/-- The paths of a wave: one choice at every branch (R461). -/
def SecImage.pathsFrom (i : SecImage) (w : WaveStart) : Nat → List Inst → List Edge → List Inst → List Path
  | 0, seen, taken, _ => [⟨w, seen, taken⟩]
  | _, seen, taken, [] => [⟨w, seen, taken⟩]
  | k + 1, seen, taken, v :: r =>
    let go (es : List Edge) : List Path :=
      i.pathsFrom w k (seen ++ [v]) (taken ++ es) (((es.filter fun e => !e.leaves).map fun e => e.dst) ++ r)
    if seen.contains v then i.pathsFrom w k seen taken r
    else if i.streamNode v then go []
    else if i.branch v then go (i.side v false) ++ go (i.side v true)
    else go (i.edges v)

/-- The paths of a wave that begins so. -/
def SecImage.paths (i : SecImage) (w : WaveStart) : List Path := i.pathsFrom w i.fuel [] [] (w.tokens.map fun t => t.1.dst)

/-- What a path's tokens reach within its wave. -/
def Path.reached (x : Path) (fuel : Nat) (from_ : List Inst) : List Inst :=
  reach (fun v => (x.taken.filter fun e => e.src = some v && !e.leaves).map fun e => e.dst) fuel [] from_

/-- The instructions of a path that a token of another reaches. -/
def Path.below (x : Path) (fuel : Nat) (v : Inst) : List Inst :=
  x.reached fuel ((x.taken.filter fun e => e.src = some v && !e.leaves).map fun e => e.dst)

/-- Y may follow X in the chain, or stand first (R80 e, f). -/
def SecImage.follows (i : SecImage) (last : Option Inst) (y : Inst) : Bool :=
  match last with
  | none => i.pred y = 0xFD
  | some x => i.pred y = i.this x || i.succ x = i.this y

/-- An order of operations in which each follows the one before, none stands before one that it depends on, and the last has
SUCC = 0xFD; none where there is no such order (R80 e, f; log 89, DEDUCED). -/
def SecImage.orderOf (i : SecImage) (below : Inst → List Inst) : Nat → Option Inst → List Inst → Option (List Inst)
  | 0, _, _ => none
  | _, last, [] => match last with
    | some x => if i.succ x = 0xFD then some [] else none
    | none => some []
  | k + 1, last, rest =>
    (rest.filter fun y => i.follows last y && rest.all fun z => z = y || !(below z).contains y).findSome? fun y =>
      (i.orderOf below k (some y) (rest.filter fun z => z ≠ y)).map fun o => y :: o

/-- The chained operations of a path, and their order along it. -/
def SecImage.pathChain (i : SecImage) (x : Path) : List Inst := x.seen.filter i.chained
def SecImage.pathOrder (i : SecImage) (x : Path) : Option (List Inst) :=
  let c := i.pathChain x
  i.orderOf (x.below i.fuel) (c.length + 1) none c

/-! ### Waves -/

/-- REGION operations of a path, and what depends on the result of one (R180). -/
def SecImage.regions (i : SecImage) (x : Path) : List Inst := x.seen.filter fun v => i.opV v = 0x49 && !v.node
def SecImage.dependent (i : SecImage) (x : Path) : List Inst :=
  x.reached i.fuel (((x.start.tokens.filter fun t => t.2).map fun t => t.1.dst)
    ++ (x.taken.filter fun e => !e.leaves && match e.src with
      | some v => (i.regions x).contains v
      | none => false).map fun e => e.dst)

/-- The wave that a token enters, where its words say it: by a number of waves (0), by the length of its run and a number (1),
or at a number and what its tag action adds (2, 3) (R199, R221, R222). -/
def SecImage.shift (i : SecImage) (e : Edge) : Option (Nat × Nat) :=
  match e.src with
  | none => none
  | some v =>
    let w := (i.slotV v).word
    let f := fieldsOf w
    let ta := f.ta.toNat
    let op := opOf w
    let moved := op = 0x06 || op = 0x07
    if moved && 0x30 ≤ f.sb.toNat then none
    else
      let k := (if moved then (constInt f.sb.toNat).toNat else 0) + if ta = 1 || (ta = 3 && e.second) then 1 else 0
      some ((if op = 0x07 then 2 else 0) + (if ta = 2 then 1 else 0), k)

/-- Two chained operations are neighbours of one chain: one names the other (R79). -/
def SecImage.linked (i : SecImage) (x y : Inst) : Bool := i.follows (some x) y || i.follows (some y) x

/-- Two tokens that leave a path enter one wave: they leave one instruction together, or both reach some chained operation, whose place
they take together, or their words move them to the same wave and the chained operations that they reach belong to one chain, one of
them reaching none perhaps (R80, R461; log 89, DEDUCED). -/
def SecImage.together (i : SecImage) (a b : Edge × Bool) : Bool :=
  let chain (e : Edge) : List Inst := (i.reached [{ e with leaves := false }]).filter i.chained
  let x := chain a.1
  let y := chain b.1
  (a.1.src == b.1.src && a.1.second == b.1.second) || x.any y.contains
    || (!a.1.across && !b.1.across && (i.shift a.1).isSome && i.shift a.1 == i.shift b.1
      && (x.isEmpty || y.isEmpty || x.any fun v => y.any (i.linked v)))

/-- Tokens gathered into the waves that they enter: a token joins every group that holds one of its wave. -/
def SecImage.groups (i : SecImage) : List (Edge × Bool) → List (List (Edge × Bool))
  | [] => []
  | t :: r =>
    let gs := i.groups r
    let mine := gs.filter fun g => g.any (i.together t)
    (t :: mine.flatten) :: gs.filter fun g => !(g.any (i.together t))

/-- The waves that a path's tokens enter: of its own context, and of others (R461; log 89, DEDUCED). -/
def SecImage.nextStarts (i : SecImage) (x : Path) : List WaveStart :=
  let dep (e : Edge) : Bool := match e.src with
    | some v => (i.regions x).contains v || (i.dependent x).contains v
    | none => false
  let out (across : Bool) : List (List (Edge × Bool)) :=
    i.groups ((x.taken.filter fun e => e.leaves && e.across == across).map fun e => (e, dep e)).eraseDups
  ((out false).map fun g => ⟨g, x.start.after || !(i.regions x).isEmpty⟩) ++ (out true).map fun g => ⟨g, false⟩

/-- Every wave that the section can enter; `k` bounds how many. -/
def SecImage.wavesFrom (i : SecImage) : Nat → List WaveStart → List WaveStart → List WaveStart
  | 0, done, _ => done
  | _, done, [] => done
  | k + 1, done, w :: r =>
    if done.contains w then i.wavesFrom k done r
    else i.wavesFrom k (done ++ [w]) (r ++ (i.paths w).flatMap i.nextStarts)

/-- Every path of control through a wave of the section (R461). -/
def SecImage.allPaths (i : SecImage) : List Path :=
  (i.wavesFrom (2 ^ (2 * i.fuel)) [] [⟨i.starts.map fun e => (e, false), false⟩]).flatMap i.paths

/-! ### Lease bodies (R128) -/

/-- Tokens that reach a port of an instruction on a path. -/
def Path.into (x : Path) (v : Inst) (port : Nat) : List Edge :=
  (x.taken.filter fun e => e.dst = v && e.port == port && !e.leaves)
    ++ ((x.start.tokens.map fun t => t.1).filter fun e => e.dst = v && e.port == port)

/-- The opcode passes its operand A on unchanged: MOV, STEER, MERGE, GATE, LEASE (R120, R215 to R218). -/
def passesA (op : Nat) : Bool := op = 0x01 || op = 0x02 || op = 0x03 || op = 0x05 || op = 0x5D

/-- Where the token on a port comes from: the instructions that made it, through those that pass it on, or the port itself where
it comes from outside (R128; log 90, DEDUCED). -/
def SecImage.origins (i : SecImage) (x : Path) : Nat → Inst → Nat → List (Inst × Option Nat)
  | 0, v, p => [(v, some p)]
  | k + 1, v, p =>
    let es := x.into v p
    if es.isEmpty then [(v, some p)]
    else es.flatMap fun e => match e.src with
      | none => [(v, some p)]
      | some u =>
        if e.leaves || !passesA (i.opV u) || u.node then [(u, none)]
        else
          let f := fieldsOf (i.slotV u).word
          i.origins x k u (f.sa.toNat - 0x40) ++ if i.opV u = 0x03 then i.origins x k u (f.sb.toNat - 0x40) else []

/-- Where the line operand of a LEASE or an UNLEASE comes from. -/
def SecImage.lineOf (i : SecImage) (x : Path) (v : Inst) : List (Inst × Option Nat) :=
  i.origins x i.fuel v ((fieldsOf (i.slotV v).word).sa.toNat - 0x40)

/-- Both name the same line operand: the same address at the same displacement (R118, R242). -/
def SecImage.sameLine (i : SecImage) (x : Path) (u v : Inst) : Bool :=
  bits (i.slotV u).lit 29 0 = bits (i.slotV v).lit 29 0 &&
  (i.lineOf x u).any fun a => (i.lineOf x v).contains a

/-- LEASE instructions of a path. -/
def SecImage.leasesOn (i : SecImage) (x : Path) : List Inst := x.seen.filter fun v => i.opV v = 0x5D && !v.node

/-- What stands after an operation in an order. -/
def afterIn (o : List Inst) (v : Inst) : List Inst := (o.dropWhile fun y => y ≠ v).drop 1

/-- The UNLEASEs of a LEASE's line on a path, after it and before another LEASE of that line: those that name its operand; where there is none, those at its displacement
whose operand its result leads to, and no other LEASE's (R128; log 90, DEDUCED). -/
def SecImage.unleases (i : SecImage) (x : Path) (l : Inst) : List Inst :=
  let flow := x.below i.fuel l
  let o := (i.pathOrder x).getD []
  let next := (afterIn o l).filter fun y => i.opV y = 0x5D && i.sameLine x l y
  let us := x.seen.filter fun v => i.opV v = 0x5E && !v.node && (flow.contains v || (afterIn o l).contains v)
    && !next.any fun y => (afterIn o y).contains v
  let own := us.filter (i.sameLine x l)
  if !own.isEmpty then own
  else us.filter fun v => flow.contains v && bits (i.slotV l).lit 29 0 = bits (i.slotV v).lit 29 0
    && !(i.leasesOn x).any fun y => i.sameLine x y v

/-- The body of a LEASE on a path (R128): what lies on a dataflow path from its result to its UNLEASE, and the chained operations
between the two. -/
def SecImage.bodyOn (i : SecImage) (x : Path) (l : Inst) : List Inst :=
  let us := i.unleases x l
  let flow := (x.below i.fuel l).filter fun v => us.any fun u => (x.below i.fuel v).contains u
  let between := match i.pathOrder x with
    | some o => ((afterIn o l).takeWhile fun v => !us.contains v)
    | none => []
  (flow ++ between).eraseDups.filter fun v => v ≠ l && !us.contains v

/-- The body of a LEASE over every path. -/
def SecImage.body (i : SecImage) (paths : List Path) (l : Inst) : List Inst :=
  (paths.flatMap fun x => if (i.leasesOn x).contains l then i.bodyOn x l else []).eraseDups

/-- The LEASE instructions of a section. -/
def SecImage.leases (i : SecImage) : List Inst := (i.insts.map fun x => x.1).filter fun v => i.opV v = 0x5D && !v.node

/-- The element blocks that hold lease bodies, LEASE and UNLEASE among them, by the FIRST of their records (R128; log 47,
DEDUCED). -/
def SecImage.bodyBlocks (i : SecImage) : List Nat :=
  let ps := i.allPaths
  (i.leases.flatMap fun l =>
    let us := ps.flatMap fun x => if (i.leasesOn x).contains l then i.unleases x l else []
    (i.body ps l ++ us ++ [l]).filterMap fun v => if v.node then none else some v.num).eraseDups

end Sys2Proof.Machine
end

