-- ==== Sys2Proof/Machine/MemoryOps.lean ====
section
/-! DEFINITION. The memory instructions of groups 0x4 and 0x5 (R83, R118, R132, R138, R241 to R254): each
firing presents its operations; unchained ones leave at once, chained ones wait for their turn at the home
store buffer (R81, R87). -/

namespace Sys2Proof.Machine

/-- What every memory word does. `shape` gives the operation of each element, `fill` its data (none for a
format mismatch), `need` the rights of the issuer's check, `records` the elements that raise a POISON record
when an operand is poisoned (R89, R192, R244, R247, R401). -/
def State.memWord (s : State) (f : Fields) (op : Nat) (readsC : Bool) (records : List Nat) (need : Need)
    (shape : Nat → Ask) (fill : Option (Nat → Ask → Ask)) (piece : List Op → List Op) : State :=
  let fr := s.run.cur
  let base := (upto fr.run).map shape
  let dead := base.map fun a => { a with dead := true }
  let (as, s) : List Ask × State :=
    if fr.poisonOf f readsC then (dead, s.poisonRecords fr records)
    else if !fr.addressed f then (dead, s.formatRecord fr f)
    else
      match fill with
      | none => (dead, s.formatRecord fr f)
      | some g => s.checkAsks fr need 0 ((upto fr.run).map fun j => g j (shape j))
  let (os, s) := s.present fr f op as piece
  s.launchOps os

/-- Pieces of an unchained LDV or STV (R246): consecutive operations whose addresses ascend by the width
within one line, or one granule of scratch, name the first of them. -/
def pieces (os : List Op) : List Op :=
  let rec go (lead : Nat) (last : Option Op) : List Op → List Op
    | [] => []
    | o :: r =>
      let span := if o.level.cached then 64 else 16
      let joins := match last with
        | some q => !q.poison && !o.poison && o.va = q.va + 2 ^ o.width && o.ia = q.ia + 2 ^ o.width
            && o.ia / span = q.ia / span
        | none => false
      let l := if joins then lead else o.id
      { o with params := [2, l] } :: go l (some o) r
  match os with
  | [] => []
  | o :: _ => if o.chained then os else go 0 none os

/-- Operation `j` of a load (R244, R245): its format from SB. -/
def loadAsk (fr : Firing) (f : Fields) (kind : OpKind) (params : List Nat) (j : Nat) : Ask :=
  let fm := (Fmt.ofCode (f.sb.toNat % 16)).getD .i64
  { kind := kind, width := litWidth fr.slot.lit, va := fr.addrAt f j, data2 := fr.elemA f j, fmt := fm,
    params := params }

/-- Operation `j` of a store (R244, R245): its result is operand A. -/
def storeAsk (fr : Firing) (f : Fields) (kind : OpKind) (j : Nat) : Ask :=
  { kind := kind, width := litWidth fr.slot.lit, va := fr.addrAt f j, data2 := fr.elemA f j, fmt := fr.fmtOf f }

/-- An operation that only fills its chain place (R83, R245). -/
def nopAsk (fr : Firing) (f : Fields) (mute : Bool) (j : Nat) : Ask :=
  { kind := .nop, data2 := fr.elemA f j, fmt := fr.fmtOf f, mute := mute }

/-- The data of a store's elements. -/
def State.fillStore (s : State) (f : Fields) : Option (Nat → Ask → Ask) :=
  let fr := s.run.cur
  (s.storeData fr f (litWidth fr.slot.lit)).map fun vs j a => { a with data := w64 (at! vs j 0) }

/-- No data to fill in. -/
def noFill : Option (Nat → Ask → Ask) := some fun _ a => a

/-- LD: element by element (R244, R245). -/
def execLd (f : Fields) (s : State) : Result :=
  let fr := s.run.cur
  .next (s.memWord f 0x40 false (upto fr.run) { rd := true } (loadAsk fr f .load []) noFill asIs)

/-- ST (R244, R245). -/
def execSt (f : Fields) (s : State) : Result :=
  let fr := s.run.cur
  .next (s.memWord f 0x41 false (upto fr.run) { w := true } (storeAsk fr f .store) (s.fillStore f) asIs)

/-- LDV: as LD; unchained, in pieces (R245, R246). -/
def execLdv (f : Fields) (s : State) : Result :=
  let fr := s.run.cur
  .next (s.memWord f 0x42 false (upto fr.run) { rd := true } (loadAsk fr f .load []) noFill pieces)

/-- STV: as ST; unchained, in pieces (R245, R246). -/
def execStv (f : Fields) (s : State) : Result :=
  let fr := s.run.cur
  .next (s.memWord f 0x43 false (upto fr.run) { w := true } (storeAsk fr f .store) (s.fillStore f) pieces)

/-- LDG: operation 0 reads, and every element takes its value (R245). -/
def execLdg (f : Fields) (s : State) : Result :=
  let fr := s.run.cur
  .next (s.memWord f 0x44 false [0] { rd := true }
    (fun j => if j = 0 then loadAsk fr f .load [1] j else nopAsk fr f true j) noFill asIs)

/-- STS: only the last operation writes (R245). -/
def execSts (f : Fields) (s : State) : Result :=
  let fr := s.run.cur
  .next (s.memWord f 0x45 false [fr.run - 1] { w := true }
    (fun j => if j + 1 = fr.run then storeAsk fr f .store j else nopAsk fr f false j) (s.fillStore f) asIs)

/-- LDFE: a load that waits for a full granule; `.clr` empties it (R61, R248). -/
def execLdfe (f : Fields) (s : State) : Result :=
  let fr := s.run.cur
  .next (s.memWord f 0x47 false (upto fr.run) { rd := true }
    (loadAsk fr f (.ldfe (0x10 ≤ f.sb.toNat)) []) noFill asIs)

/-- STFE: a store that sets its granule full (R60, R248). -/
def execStfe (f : Fields) (s : State) : Result :=
  let fr := s.run.cur
  .next (s.memWord f 0x48 false (upto fr.run) { w := true } (storeAsk fr f .stfe) (s.fillStore f) asIs)

/-- CTRREAD: a relaxed read at the counter's place (R252). -/
def execCtrread (f : Fields) (s : State) : Result :=
  let fr := s.run.cur
  .next (s.memWord f 0x4F false (upto fr.run) { rd := true }
    (fun j => { kind := .ctrRead, width := 3, va := fr.addrAt f j, data2 := fr.elemA f j, fmt := .i64 })
    noFill asIs)

/-- PREF: each line is asked for, or the prefetch is dropped (R250). -/
def execPref (f : Fields) (s : State) : Result :=
  let fr := s.run.cur
  let ok (va : Nat) : Option Nat := rangeCheck (s.rangesOf fr.names.part fr.ctx) va 1 { rd := true }
  let ask (j : Nat) (ia : Nat) : Ask :=
    { kind := .pref, va := fr.addrAt f j, ia := ia, fmt := .a, mute := true }
  if fr.poisonOf f false then .next (s.poisonRecords fr (upto fr.run))
  else if !fr.addressed f then .next (s.formatRecord fr f)
  else
    let as := (upto fr.run).filterMap fun j => (ok (fr.addrAt f j)).map (ask j)
    let (os, s) := s.present fr f 0x4A as
    .next (s.launchOps os)

/-! ### Atomics and counters (R132 to R141) -/

/-- Operand b of an atomic, with its format: a port's own where the opcode takes it at the width, else the
fixed one (R138). -/
def State.amoB (s : State) (fr : Firing) (f : Fields) (o : AmoOp) (w : Nat) : Option (Fmt × List Nat) :=
  match fr.port f.sb.toNat with
  | some t =>
    if amoFmtOk o t.fmt && t.fmt.width = 8 * 2 ^ w then some (t.fmt, padTo fr.run (t.data.map BitVec.toNat)) else none
  | none => (s.source fr f.sb.toNat (amoOwnFmt o w)).map fun v => (amoOwnFmt o w, v)

/-- An atomic word: b from SB, c from port C for AMOCAS, both of one format (R138). -/
def State.amoWord (s : State) (f : Fields) (op : Nat) (o : AmoOp) : State :=
  let fr := s.run.cur
  let w := litWidth fr.slot.lit
  let b := s.amoB fr f o w
  let fm := match b with
    | some x => x.1
    | none => amoOwnFmt o w
  let shape (j : Nat) : Ask := { kind := .amo o, width := w, va := fr.addrAt f j, fmt := fm }
  let fill : Option (Nat → Ask → Ask) :=
    match b with
    | none => none
    | some (_, bs) =>
      if o = .cas then
        (s.source fr 0x42 fm).map fun cs j a => { a with data := w64 (at! bs j 0), data2 := w64 (at! cs j 0) }
      else some fun j a => { a with data := w64 (at! bs j 0) }
  s.memWord f op (o = .cas) (upto fr.run) { rd := true, w := true } shape fill asIs

/-- AMOADD (R138). -/
def execAmoadd (f : Fields) (s : State) : Result := .next (s.amoWord f 0x50 .add)
/-- AMOAND (R138). -/
def execAmoand (f : Fields) (s : State) : Result := .next (s.amoWord f 0x51 .and_)
/-- AMOOR (R138). -/
def execAmoor (f : Fields) (s : State) : Result := .next (s.amoWord f 0x52 .or_)
/-- AMOXOR (R138). -/
def execAmoxor (f : Fields) (s : State) : Result := .next (s.amoWord f 0x53 .xor_)
/-- AMOMIN (R138). -/
def execAmomin (f : Fields) (s : State) : Result := .next (s.amoWord f 0x54 .min_)
/-- AMOMAX (R138). -/
def execAmomax (f : Fields) (s : State) : Result := .next (s.amoWord f 0x55 .max_)
/-- AMOMINN (R138). -/
def execAmominn (f : Fields) (s : State) : Result := .next (s.amoWord f 0x56 .minn)
/-- AMOMAXN (R138). -/
def execAmomaxn (f : Fields) (s : State) : Result := .next (s.amoWord f 0x57 .maxn)
/-- AMOSWAP (R138). -/
def execAmoswap (f : Fields) (s : State) : Result := .next (s.amoWord f 0x58 .swap)
/-- AMOCAS (R138). -/
def execAmocas (f : Fields) (s : State) : Result := .next (s.amoWord f 0x59 .cas)
/-- AMOFADD (R138, R139). -/
def execAmofadd (f : Fields) (s : State) : Result := .next (s.amoWord f 0x5A .fadd)
/-- AMOFMIN (R138, R139). -/
def execAmofmin (f : Fields) (s : State) : Result := .next (s.amoWord f 0x4D .fmin)
/-- AMOFMAX (R138, R139). -/
def execAmofmax (f : Fields) (s : State) : Result := .next (s.amoWord f 0x4E .fmax)

/-- The DECREASE records of a CTRADD whose amount is negative: those elements are not sent (R133). -/
def State.decreases (s : State) (fr : Firing) (f : Fields) : State :=
  if fr.poisonOf f false || !fr.addressed f then s
  else
    match s.i64B fr f with
    | none => s
    | some vs => (upto fr.run).foldl (fun s j =>
        let v := at! vs j 0
        if toS 64 v < 0 then
          s.raise (fr.siteAt s j) { cause := 8, sub := 1, addr := fr.addrAt f j, info := v }
        else s) s

/-- CTRADD: a saturating add and a release, which needs W at its range (R34, R132, R133). -/
def execCtradd (f : Fields) (s : State) : Result :=
  let fr := s.run.cur
  let shape (j : Nat) : Ask := { kind := .amo .ctradd, width := 3, va := fr.addrAt f j, fmt := .i64 }
  let fill : Option (Nat → Ask → Ask) := (s.i64B fr f).map fun vs j a =>
    { a with data := w64 (at! vs j 0), dead := toS 64 (at! vs j 0) < 0 }
  .next ((s.decreases fr f).memWord f 0x5B false (upto fr.run) { w := true } shape fill asIs)

/-- CTRWAIT: an acquire that parks at the counter's place (R132, R134). -/
def execCtrwait (f : Fields) (s : State) : Result :=
  let fr := s.run.cur
  let shape (j : Nat) : Ask := { kind := .ctrWait, width := 3, va := fr.addrAt f j, fmt := .i64 }
  let fill : Option (Nat → Ask → Ask) := (s.i64B fr f).map fun vs j a => { a with data := w64 (at! vs j 0) }
  .next (s.memWord f 0x5C false (upto fr.run) { rd := true } shape fill asIs)

/-! ### Places in the chain, ranges and leases (R83, R118 to R120, R249, R251, R253) -/

/-- A word whose operand is a trigger of any format: its operations perform no access. -/
def State.triggerWord (s : State) (f : Fields) (op : Nat) (kind : OpKind) (mute : Bool) : State :=
  let fr := s.run.cur
  let poison := poisonedTok (fr.port f.sa.toNat) || poisonedTok (fr.port f.sb.toNat)
  let clash := !poison && fr.formatsDiffer f
  let s := if clash then s.formatRecord fr f else s
  let as := (upto fr.run).map fun j =>
    ({ kind := kind, data2 := fr.elemA f j, fmt := fr.fmtOf f, mute := mute, dead := poison || clash } : Ask)
  (s.present fr f op as).2

/-- MNOP: takes its places in the chain; poison has reached a memory port (R83). -/
def execMnop (f : Fields) (s : State) : Result :=
  let fr := s.run.cur
  let s := if poisonedTok (fr.port f.sa.toNat) then s.poisonRecords fr (upto fr.run) else s
  .next (s.triggerWord f 0x46 .nop true)

/-- REGION: takes its places; the guard faults of its context are reported as it fires (R64, R93, R249). -/
def execRegion (f : Fields) (s : State) : Result :=
  let fr := s.run.cur
  .next ((s.flushGuard fr.names.part fr.ctx).triggerWord f 0x49 .region false)

/-- FENCE: takes its places, as an acquire, a release or both (R106, R253). -/
def execFence (f : Fields) (s : State) : Result :=
  let k := bits s.run.cur.slot.lit 39 38
  .next (s.triggerWord f 0x5F (.fence (k % 2 == 1) (2 ≤ k)) false)

/-- A range operation (R251): the length is an unsigned operand B, the range is checked for RD. -/
def State.rangeWord (s : State) (f : Fields) (op : Nat) (kind : OpKind) : State :=
  let fr := s.run.cur
  let shape (j : Nat) : Ask := { kind := kind, va := fr.addrAt f j, data2 := fr.elemA f j, fmt := fr.fmtOf f }
  let dead := (upto fr.run).map fun j => { shape j with dead := true }
  let check (s : State) (j n : Nat) : Ask × State :=
    let a := { shape j with data := w64 n }
    if n = 0 then (a, s)
    else
      match rangeCheck (s.rangesOf fr.names.part fr.ctx) a.va n { rd := true } with
      | some ia => ({ a with ia := ia }, s)
      | none => ({ a with dead := true }, s.raise (fr.siteAt s j) { cause := 5, sub := 3, addr := a.va })
  let (as, s) : List Ask × State :=
    if fr.poisonOf f false then (dead, s.poisonRecords fr (upto fr.run))
    else if !fr.addressed f then (dead, s.formatRecord fr f)
    else
      match s.i64B fr f with
      | none => (dead, s.formatRecord fr f)
      | some ns => (upto fr.run).foldl (fun (x : List Ask × State) j =>
          let (a, t) := check x.2 j (at! ns j 0)
          (x.1 ++ [a], t)) ([], s)
  (s.present fr f op as).2

/-- FLUSHR (R251). -/
def execFlushr (f : Fields) (s : State) : Result := .next (s.rangeWord f 0x4B .flush)
/-- INVR (R251). -/
def execInvr (f : Fields) (s : State) : Result := .next (s.rangeWord f 0x4C .inval)

/-- The budget of a LEASE (R118, R119): a constant's value, a keep register, or the context's maximum; never
0, never above the smaller of MAX and CAP. -/
def State.leaseBudget (s : State) (fr : Firing) (f : Fields) : Nat :=
  let top := match s.ctx? fr.names.part fr.ctx with
    | some x => min x.leaseMax (s.part fr.names.part).leasecap
    | none => (s.part fr.names.part).leasecap
  let n := if f.sb = 0x7F then top
    else if f.sb.toNat < 0x40 then (constInt f.sb.toNat).toNat
    else (s.keepOf fr (f.sb.toNat - 0x48)).toNat
  min (max 1 n) top

/-- LEASE: checked for W at its range; granted when it is Next (R118 to R121). -/
def execLease (f : Fields) (s : State) : Result :=
  let fr := s.run.cur
  let b := s.leaseBudget fr f
  .next (s.memWord f 0x5D false (upto fr.run) { w := true }
    (fun j => { kind := .lease, va := fr.addrAt f j, data := w64 b, data2 := fr.elemA f j, fmt := fr.fmtOf f })
    noFill asIs)

/-- UNLEASE: needs only a valid range (R118, R125). -/
def execUnlease (f : Fields) (s : State) : Result :=
  let fr := s.run.cur
  .next (s.memWord f 0x5E false (upto fr.run) {}
    (fun j => { kind := .unlease, va := fr.addrAt f j, fmt := .i32 }) noFill asIs)

end Sys2Proof.Machine
end

