-- ==== Sys2Proof/Machine/Lease.lean ====
section
/-! DEFINITION. Leases (R121 to R130) and changes of a cluster's scratch ways (R57, R58): their steps, and
what ends them. -/

namespace Sys2Proof.Machine

/-! ### Scratch ways (R58) -/

/-- A mask is of the form 2ⁿ - 1 for n = 0 to 12 (R57). -/
def maskOk (m : Nat) : Bool := (upto 13).any fun n => 2 ^ n == m + 1

/-- Lines of a cluster that must leave for `n` scratch ways: in every set the least recently used that are
not leased, down to 12 - n (log 15, DEDUCED). -/
def State.leavingLines (s : State) (c n : Nat) : List L1Line :=
  let mine := s.mem.l1.filter fun x => x.cluster == c && !x.putting && x.st ≠ .i
  mine.filter fun x =>
    (s.leaseOn c x.asid x.line).isNone &&
      12 - n ≤ (mine.filter fun y => y.line % 512 == x.line % 512 &&
        ((s.leaseOn c y.asid y.line).isSome || x.use < y.use)).length

/-- Leased lines of some set are more than the ways that stay. -/
def State.leasesHold (s : State) (c n : Nat) : Bool :=
  s.mem.leases.any fun e => e.cluster == c &&
    12 - n < (s.mem.leases.filter fun f => f.cluster == c && f.line % 512 == e.line % 512).length

/-- The evictions of a growth are announced to the homes (R58). -/
def State.evictWays (s : State) (p c n : Nat) : State :=
  (s.leavingLines c n).foldl (fun s x => s.evictL1 p x) s

/-- A growth ends: the new scratch ways are zeroed and empty, without guard bits, and MASK takes its value (R58). -/
def State.setMask (s : State) (c m : Nat) : State :=
  let o := waysOf (s.mask c)
  let n := waysOf m
  let s := if o < n then s.wipeSpot (.cs c (o * 0x8000)) ((n - o) * 0x8000)
    else s.wipeSpot (.cs c (n * 0x8000)) ((o - n) * 0x8000)
  { s with mem := { s.mem with clways := s.mem.clways.set c m } }

/-- The bytes of a span touch `len` bytes from `off` of a bank of partition `p` (R54). -/
def Span.hits (x : Span) (s : State) (p : Nat) (b : Bank) (off len : Nat) : Bool :=
  match x.level, b with
  | .cs, .cs c => x.cluster == c && overlaps x.addr x.len off len
  | .sg, .cs c => (upto 4).any fun j => segCluster x.cluster j == c && overlaps x.addr x.len (j * 2 ^ 19 + off) len
  | .ss, .ss sl => (upto (s.part p).slicemap.length).any fun j =>
      at! (s.part p).slicemap j 0 == sl && overlaps x.addr x.len (j * 2 ^ 19 + off) len
  | _, _ => false

/-- Levels of a copy literal (R256, R258). -/
def copyS (l : W64) : Level := (levelOf (bits l 39 37)).getD .l1
def copyD (l : W64) : Level := (levelOf (bits l 36 34)).getD .l1

/-- Source and destination of each row of a copy. -/
def copySpans (sl dl : Level) (c rl : Nat) : List Nat → List Span
  | a :: b :: r => ⟨sl, a, rl, c, 0⟩ :: ⟨dl, b, rl, c, 0⟩ :: copySpans sl dl c rl r
  | _ => []

/-- Sources and destinations of a copy in flight, as its parameters give them (R257, R258). -/
def EngOp.copyRanges (e : EngOp) : List Span :=
  match e.kind, e.params with
  | .copy, _ :: _ :: rl :: rows => copySpans (copyS e.lit) (copyD e.lit) e.cluster rl rows
  | .copym, [c, d, n, src] => [⟨copyS e.lit, src, n, e.cluster, 0⟩, ⟨.cs, d, n, c, 0⟩]
  | _, _ => []

/-- A copy in flight has its source or its destination in `len` bytes from `off` of a bank (R58, R264). -/
def State.copiesIn (s : State) (b : Bank) (off len : Nat) : Bool :=
  s.work.engs.any fun e => e.copyRanges.any fun x => x.hits s e.names.part b off len

/-- A shrink is refused: a live region, a waiting LDFE, a copy in flight or a receiver ring lies in the ways
that leave (R58). -/
def State.shrinkRefused (s : State) (c lo : Nat) : Bool :=
  (s.mem.regions.any fun r => r.bank = .cs c && lo < r.off + r.len)
    || (s.work.ops.any fun o => o.phase = .parked && !o.level.cached && (match o.kind, o.spot s with
      | .ldfe _, .cs x y => x == c && lo ≤ y
      | _, _ => false))
    || s.copiesIn (.cs c) lo (2 ^ 19 - lo)
    || (s.work.rings.any fun r => r.cluster == c && lo < r.base + 128 * r.n)

/-- What becomes of a write of CLWAYS.MASK: done, refused, or begun and waiting for leases (R58). -/
inductive WayOutcome where
  | done (s : State) | refused | begun (s : State) | busy
deriving DecidableEq, Repr

/-- A write of CLWAYS.MASK (R57, R58) for the operation `op`, if one waits for it. One with a bit of [63:12] set is refused,
whoever writes it (log 77, DEDUCED). -/
def State.writeMask (s : State) (p c : Nat) (v : W64) (op : Option Nat) : WayOutcome :=
  let m := bits v 11 0
  let o := waysOf (s.mask c)
  let n := waysOf m
  if s.mem.ways.any fun w => w.cluster == c then .busy
  else if bits v 63 12 ≠ 0 || !maskOk m then .refused
  else if n = o then .done s
  else if n < o then (if s.shrinkRefused c (n * 0x8000) then .refused else .done (s.setMask c m))
  else
    let s := s.evictWays p c n
    if s.leasesHold c n then .begun { s with mem := { s.mem with ways := s.mem.ways ++ [⟨c, m, op⟩] } }
    else .done (s.setMask c m)

/-- The result of a WAYMASK, or of a WRSYS to CLWAYS (params = [9]): the status, or the mask as it then
stands (R263, R407). -/
def State.finishMask (s : State) (o : Op) (ok : Bool) : State :=
  let v := if o.params = [9] then s.mask (s.homeCluster o) else if ok then 1 else 0
  s.finish o (o.good v)

/-- A growth that waited for leases goes on, and ends when none is left in its way (R58). -/
def State.growOn (s : State) (p c : Nat) : State :=
  match s.mem.ways.find? fun w => w.cluster == c with
  | none => s
  | some w =>
    let n := waysOf w.mask
    let s := s.evictWays p c n
    if s.leasesHold c n then s
    else
      let s : State := { s with mem := { s.mem with ways := s.mem.ways.filter fun x => x.cluster ≠ c } }
      let s := s.setMask c w.mask
      match w.op.bind s.op? with
      | some o => s.finishMask o true
      | none => s

/-! ### The end of a lease (R125, R130) -/

/-- EndLease of R125: the entry is freed, the context learns of an expiry, the queued probe is served, and
what waited for the line goes on. A probe whose requester's L1 takes no line now is served later (R58). A line held beside the ways
of its set leaves, as the least recently used one that is not leased (R59, R65). -/
def State.endLease (s : State) (e : Lease) (byExpiry : Bool) : State :=
  let s : State := { s with mem := { s.mem with leases := s.mem.leases.filter fun x => x ≠ e } }
  let s := if !byExpiry then s else
    (s.modCtr e.cluster fun k => { k with expired := satCount k.expired 1 }).modCtx e.part e.ctx fun x =>
      match x.lines.findIdx? fun l => l == e.line with
      | some d => { x with expired := setAt x.expired d true }
      | none => x
  let s := match s.mem.cmsgs.find? fun m =>
      m.cluster == e.cluster && m.asid == e.asid && m.line == e.line && m.queued with
    | some m =>
      if (s.txn? m.req).any fun (t : Txn) => s.fillHeld t.req then
        { s with mem := { s.mem with cmsgs := modFirst (fun x => x.id == m.id) (fun x => { x with queued := false }) s.mem.cmsgs } }
      else s.serveProbe m
    | none => s
  let set := s.l1Set e.cluster e.line
  let s := if set.length ≤ 12 - waysOf (s.mask e.cluster) then s
    else
      match minBy (fun y : L1Line => y.use) (set.filter fun y => (s.leaseOn y.cluster y.asid y.line).isNone) with
      | some x => s.evictL1 e.part x
      | none => s
  s.growOn e.part e.cluster

/-- A lease-order fault (R129). -/
def State.leaseFault (s : State) (o : Op) (sub : Nat) : State :=
  s.raise (o.site s) { cause := 7, sub := sub, addr := alignDown o.ia 64 }

/-- The entry that holds a context's line. -/
def State.leaseOf (s : State) (p c line : Nat) : Option Lease :=
  s.mem.leases.find? fun e => e.part == p && e.ctx == c && e.line == line

/-- The EXPIRY record of a context with XTRAP, raised as its UNLEASE is performed, which names the LEASE's
block and slot (R130). -/
def State.expiryRecord (s : State) (o : Op) (names : Names) : State :=
  s.raise { o.site s with names := names } { cause := 7, sub := 4, addr := alignDown o.ia 64 }

/-- UNLEASE of R125: the innermost lease ends and its status is returned; an expiry that falls due first
comes first. -/
def State.unlease (s : State) (o : Op) : State :=
  let p := o.names.part
  let line := o.ia / 64
  match s.ctx? p o.ctx with
  | none => s.finish o (o.good 0)
  | some x =>
    if x.depth = 0 || at! x.lines (x.depth - 1) 0 ≠ line then (s.leaseFault o 3).finish o (o.good 0)
    else
      let s := match s.leaseOf p o.ctx line with
        | some e => s.endLease e (e.end_ ≤ s.dev.clock)
        | none => s
      let gone := match s.ctx? p o.ctx with
        | some y => at! y.expired (x.depth - 1) false
        | none => true
      let s := s.modCtx p o.ctx fun y => { y with depth := y.depth - 1 }
      let s := if gone && x.xtrap then s.expiryRecord o (at! x.leasers (x.depth - 1) o.names) else s
      s.finish o (o.good (if gone then 0 else 1))

/-! ### The grant (R121, R122, R129) -/

/-- A LEASE that is Next: refused for its order or depth; granted where the home cluster holds the line in E
or M already; else it asks its home for the line. It waits while no entry is free or one holds the line
(R121, R122). -/
def State.tryLease (s : State) (o : Op) : State :=
  let p := o.names.part
  let c := s.homeCluster o
  let line := o.ia / 64
  let asid := s.asidOf p o.ctx
  match s.ctx? p o.ctx with
  | none => s
  | some x =>
    if o.poison then s.finish o o.bad
    else if x.depth = 2 then (s.leaseFault o 2).finish o o.bad
    else if x.depth = 1 && line ≤ at! x.lines 0 0 then (s.leaseFault o 1).finish o o.bad
    else if 8 ≤ s.leaseUse c || (s.leaseOn c asid line).isSome
        || (s.work.ops.any fun q => q.kind = .lease && q.phase = .sent && s.homeCluster q == c && q.ia / 64 == line
          && s.asidOf q.names.part q.ctx == asid) then s
    else
      match s.l1? c asid line with
      | some l => if (l.st = .e || l.st = .m) && s.leafAdmits p asid o then s.grantLease o else s.sendReq o .upgrade
      | none => s.sendReq o .getM

end Sys2Proof.Machine
end

