-- ==== Sys2Proof/Machine/Engine.lean ====
section
/-! DEFINITION. Engine operations (R156 to R164, R171, R463): accesses that a home performs for a unit other
than a context's store buffer, the pieces of an operation, and its completion add. -/

namespace Sys2Proof.Machine

/-! ### One access at a home, performed whole (R74, R113, R117) -/

/-- What comes of an access that a home is asked to perform at once: it cannot yet (an open transaction, a
lease, a migration, a victim that must be recalled), it faults, or the place where it is performed. -/
inductive Now where
  | busy
  | fault (cause sub : Nat) (s : State)
  | ready (pl : Place_) (s : State)
deriving DecidableEq, Repr

/-- The home that serves a line for a unit without a seed: the slice that holds it, else the one that the hash
without a seed names (log 17, DESIGN CHOICE). -/
def State.homeFor (s : State) (p asid line : Nat) (seed : Option Nat) : Nat :=
  match seed with
  | some d => s.homeOf p asid line d
  | none =>
    match s.homesOf asid line with
    | h :: _ => h
    | [] => s.homeOf p asid line 0

/-- A line in the home's L2 with no victim left to recall: the recall of a victim is part of the step. -/
def State.fillNow (s : State) (p sl asid line seed pa : Nat) : Option State :=
  match s.l2? sl asid line with
  | some _ => some (s.touchL2 sl asid line false)
  | none =>
    let d := s.readPa (alignDown pa 64) 64
    let bad := s.paAwaiting (alignDown pa 64)
    match (s.noteLatency p asid).fillL2 p sl asid line seed d bad false false with
    | .done t => some t
    | .recall v =>
      if !s.lineFree v.asid v.line then none
      else
        match ((s.recallL1 p v.asid v.line (some sl)).noteLatency p asid).fillL2 p sl asid line seed d bad false false with
        | .done t => some t
        | .recall _ => none

/-- The home or an owner holds the line. -/
def State.lineHeld (s : State) (asid line : Nat) : Bool := !(s.homesOf asid line).isEmpty || (s.dirtyL1 asid line).isSome

/-- A replica enters a near slice, a victim with copies being recalled in the step (R68). -/
def State.replicaNow (s : State) (p near home asid line seed : Nat) : Option State :=
  match s.l2? near asid line, s.l2? home asid line with
  | some _, _ => some (s.touchL2 near asid line false)
  | none, none => none
  | none, some x =>
    match s.fillL2 p near asid line seed x.data x.bad false true with
    | .done t => some t
    | .recall v =>
      if !s.lineFree v.asid v.line then none
      else
        match (s.recallL1 p v.asid v.line (some near)).fillL2 p near asid line seed x.data x.bad false true with
        | .done t => some t
        | .recall _ => none

/-- An access to device memory performed at the home, or at the memory side where C = 0, with what the
directory does first (R74, R113, R157). A line of the host's memory is served at its home where the device holds it
(R151), else by the host (log 25, DESIGN CHOICE; log 50, DEDUCED), once no emulation holds its lock (R155); an atomic to the host's
memory or to an exported frame is passed on (R146, R154). Of a replicable page in home-and-replica mode a read leaves a replica in
the near slice `near` (R68). -/
def State.homeAt (s : State) (p asid ia : Nat) (seed : Option Nat) (need : Need) (who : Ident) (near : Option Nat) : Now :=
  let line := ia / 64
  let sl := s.homeFor p asid line seed
  if !s.lineFree asid line then .busy
  else
    let (w, s) := s.translate p sl asid ia need who
    match w with
    | .fault c u => .fault c u s
    | .leaf pa e _ =>
      if paHost pa && !bit (s.part p).hostwin 0 then .fault 5 9 s
      else if leafMig e && need.w then .busy
      else if s.lockHeld pa && !(leafC e && s.lineHeld asid line && !(need.rd && need.w)) then .busy
      else if !leafC e || paPeer pa || (paHost pa && !s.lineHeld asid line)
          || (need.rd && need.w && (paHost pa || (s.exported pa).isSome)) then
        let s := s.flushLine p asid line
        .ready (.pa sl pa) (if need.rd && paLocal pa then s.noteLatency p asid else s)
      else
        let s := if need.w then s.recallL1 p asid line (some sl) else s.demoteL1 p asid line (some sl)
        match s.fillNow p sl asid line (seed.getD 0) pa with
        | none => .busy
        | some t =>
          match near with
          | none => .ready (.l2 sl) t
          | some n =>
            if (t.part p).mode && leafRor e && !need.w then
              match t.replicaNow p n sl asid line (seed.getD 0) with
              | some u => .ready (.l2 n) u
              | none => .busy
            else .ready (.l2 sl) t

/-- The near slice in which a read is looked up first, where it holds the line as a replica (R68). -/
def State.nearReplica (s : State) (p asid line : Nat) (need : Need) (near : Option Nat) : Option Nat :=
  near.filter fun n => (s.part p).mode && !need.w && (s.part p).hasStrip (sliceStrip n)
    && (s.l2? n asid line).any fun x => x.replica

/-- An access for a unit that no store buffer serves (R68, R74, R113, R157): a read that its near slice can answer is performed
there, and any other at the home (log 50, DEDUCED). -/
def State.homeNow (s : State) (p asid ia : Nat) (seed : Option Nat) (need : Need) (who : Ident) (near : Option Nat := none) : Now :=
  match s.nearReplica p asid (ia / 64) need near with
  | none => s.homeAt p asid ia seed need who near
  | some n =>
    match s.translate p n asid ia need who with
    | (.fault c u, t) => .fault c u t
    | (.leaf _ e _, t) =>
      if leafRor e && leafC e then .ready (.l2 n) (t.touchL2 n asid (ia / 64) false)
      else t.homeAt p asid ia seed need who near

/-! ### Accesses that leave the device (R144, R151) -/

/-- An access that its home sends to a peer or to the host is under way, until its answer comes (R144, R151, R154): a
write to the host is posted, of no context; an atomic that the link does not carry is emulated, under its record (R155). -/
def State.sendOutside (s : State) (p asid sl : Nat) (who : OutsideWho) (x : ExtAccess) (pa : Nat) : State :=
  let (id, s) := s.newId
  let emulated : Bool := paHost pa && match x.kind with
    | .amo .add | .amo .swap | .amo .cas => x.width < 2
    | .amo _ => true
    | _ => false
  let site : Site := match who with
    | .unit w => { w with unit := sl, strip := sliceStrip sl }
    | _ => ⟨{ Names.zero with part := p }, 0, asid, 0, 0, sl, sliceStrip sl⟩
  if paHost pa && x.kind = .write then s.post p noCtx pa ((leBytes (2 ^ x.width) x.data.toNat).map some)
  else
    let s := if paHost pa && !emulated then s.askAt p id pa else s
    let s := if emulated then s.raise site { cause := 0x13, sub := 1, addr := x.addr } else s
    { s with work := { s.work with outs := s.work.outs ++ [⟨id, p, asid, who, x, true, pa, none⟩] } }

/-- The read of the word at a PA that a unit has sent. -/
def State.asked? (s : State) (k : OutsideWho) (pa : Nat) : Option OutsideReq :=
  s.work.outs.find? fun q => q.who = k && q.pa == pa && q.acc.kind = .read

/-- The addresses of the words that hold `n` bytes. -/
def wordsAt (a n : Nat) : List Nat := (upto ((a % 8 + n + 7) / 8)).map fun i => alignDown a 8 + 8 * i

/-- The reads of a unit that have been answered are taken. -/
def State.dropAsks (s : State) (k : OutsideWho) : State :=
  { s with work := { s.work with outs := s.work.outs.filter fun q => q.who ≠ k } }

/-- What comes of bytes that a unit reads through a window. -/
inductive Far where
  | wait (s : State) | refused (sub : Nat) | ok (bs : List Byte)
deriving DecidableEq, Repr

/-- `n` bytes at a PA in a window, read in words for a unit that goes on once every answer has come (R144, R151). -/
def State.farRead (s : State) (p asid sl ia : Nat) (k : OutsideWho) (pa n : Nat) : Far :=
  let ws := wordsAt pa n
  let got := ws.map fun a => (s.asked? k a).bind fun q => q.got
  if got.any Option.isNone then
    .wait ((ws.filter fun a => (s.asked? k a).isNone).foldl (fun s a =>
      s.sendOutside p asid sl k ⟨.read, 3, alignDown ia 8 + (a - alignDown pa 8), 0, 0, .i64⟩ a) s)
  else
    match got.find? fun x => x.any fun y => y.1 ≠ 0 with
    | some (some (sub, _)) => .refused sub
    | _ => .ok (slice (got.flatMap fun x => leBytes 8 ((x.map fun y => y.2.toNat).getD 0)) (pa % 8) n)

/-- The place lies behind a window: its slice and the PA. -/
def Place_.far : Place_ → Option (Nat × Nat)
  | .pa sl a => if paPeer a || paHost a then some (sl, a) else none
  | _ => none

/-- `n` bytes of device memory within one line, read at the home. -/
inductive ReadNow where
  | busy (s : State)
  | fault (cause sub : Nat) (s : State)
  | ok (bs : List Byte) (s : State)
deriving DecidableEq, Repr

/-- The lines that `n` bytes from an IA touch: start, length. -/
def linePieces (ia n : Nat) : Nat → List (Nat × Nat)
  | 0 => []
  | k + 1 =>
    if n = 0 then []
    else
      let m := min n (64 - ia % 64)
      (ia, m) :: linePieces (ia + m) (n - m) k

/-- A range of device memory read line by line at the homes, as `.l2` reads (R410, R462): a record, a descriptor or a
counter, which a poisoned line stops (R403). Words behind a window are asked for on behalf of `k` (R144, R151). -/
def State.readLines (s : State) (p asid : Nat) (seed : Option Nat) (need : Need) (who : Ident) (k : OutsideWho) :
    List (Nat × Nat) → List Byte → ReadNow
  | [], acc => .ok acc s
  | (a, n) :: r, acc =>
    match s.homeNow p asid a seed need who with
    | .busy => .busy s
    | .fault c u t => .fault c u t
    | .ready pl t =>
      match pl.far with
      | some (sl, pa) =>
        match t.farRead p asid sl a k pa n with
        | .wait u => .busy u
        | .refused sub => .fault 5 sub t
        | .ok bs => t.readLines p asid seed need who k r (acc ++ bs)
      | none =>
        if t.spoiledAt pl asid a n then .fault 0x0B 1 t else t.readLines p asid seed need who k r (acc ++ t.bytesAt pl asid a n)

/-- `n` bytes from an IA, read at the homes on behalf of `k`. -/
def State.readNow (s : State) (p asid ia n : Nat) (seed : Option Nat) (need : Need) (who : Ident) (k : OutsideWho) : ReadNow :=
  match s.readLines p asid seed need who k (linePieces ia n (n / 64 + 2)) [] with
  | .busy t => .busy t
  | .fault c u t => .fault c u (t.dropAsks k)
  | .ok bs t => .ok bs (t.dropAsks k)

/-- Bytes written within one line at a place, and the waits that they release (R135). -/
def State.writeNow (s : State) (pl : Place_) (asid ia : Nat) (bs : List Byte) (bad : List Nat := []) : State :=
  (s.writeAt pl asid ia bs bad).wakeAt pl asid ia bs.length

/-! ### Turns for a line (R112) -/

/-- No request for the line that waits at its home arrived before that of `who`. -/
def State.lineTurn (s : State) (asid line : Nat) (who : Requester) : Bool :=
  match s.mem.reqs.find? fun r => r.asid == asid && r.line == line && !r.waiting with
  | none => true
  | some r => r.from_ = who

/-- A unit that must wait for its line joins those that wait at the home, in arrival order (R112). A write to a page that is being
migrated waits without holding others back (R47). -/
def State.joinLine (s : State) (p asid ia : Nat) (seed : Option Nat) (who : Requester) (write : Bool) : State :=
  let mig : Bool := write && match s.findLeaf p asid ia with
    | .ok (e, _, _) => leafMig e
    | .error _ => false
  if s.mem.reqs.any fun r => r.from_ = who then
    { s with mem := { s.mem with reqs := modAll (fun r => r.from_ = who) (fun r => { r with waiting := mig }) s.mem.reqs } }
  else
    let (id, s) := s.newId
    { s with mem := { s.mem with reqs := s.mem.reqs ++
      [⟨id, s.homeFor p asid (ia / 64) seed, p, asid, ia / 64, seed.getD 0, .l2, 0x7FF, who, mig⟩] } }

/-- The unit waits for its line no more. -/
def State.leaveLine (s : State) (who : Requester) : State :=
  { s with mem := { s.mem with reqs := s.mem.reqs.filter fun r => r.from_ ≠ who } }

/-! ### Operations and pieces -/

/-- The state with an engine operation passed through `f`. -/
def State.modEng (s : State) (id : Nat) (f : EngOp → EngOp) : State :=
  { s with work := { s.work with engs := modFirst (fun e => e.id == id) f s.work.engs } }

/-- The engine operation `id`. -/
def State.eng? (s : State) (id : Nat) : Option EngOp := s.work.engs.find? fun e => e.id == id

/-- The engine operation is over. -/
def State.dropEng (s : State) (id : Nat) : State :=
  let other (w : Waiting) : Bool := match w.who with
    | .piece e _ => e ≠ id
    | _ => true
  let mine (r : HReq) : Bool := match r.from_ with
    | .piece e _ => e == id
    | _ => false
  { s with work := { s.work with engs := s.work.engs.filter fun e => e.id ≠ id,
                                 waits := s.work.waits.filter other },
           mem := { s.mem with reqs := s.mem.reqs.filter fun r => !mine r } }

/-- The site of an engine operation: its starting instruction, as its engine finds a fault (R463). -/
def EngOp.site (e : EngOp) : Site :=
  { names := e.names, port := 0, asid := e.asid, ctx := e.ctx, wave := e.wave, unit := e.names.unit e.cluster,
    strip := clusterStrip e.cluster }

/-- Bytes of the operation's data at `off`, from the reads done so far; none for a byte whose read was
refused (R463). -/
def EngOp.byteAt (e : EngOp) (off : Nat) : Option Byte :=
  match e.pieces.find? fun x => !x.write && x.off ≤ off && off < x.off + x.span.len with
  | some x => x.data[off - x.off]?
  | none => none

/-- What a write piece writes: its own data, or the data of the reads. -/
def EngOp.writeData (e : EngOp) (w : Piece) : List (Option Byte) :=
  if w.data.isEmpty then (upto w.span.len).map fun i => e.byteAt (w.off + i)
  else w.data.map some

/-- The offsets in a write piece of bytes that were poisoned where they were read (R403). -/
def EngOp.poisonIn (e : EngOp) (w : Piece) : List Nat :=
  if !w.data.isEmpty then []
  else (upto w.span.len).filter fun i =>
    e.pieces.any fun x => !x.write && x.bad && x.off ≤ w.off + i && w.off + i < x.off + x.span.len

/-- A piece is over; what it read is kept for every part of the command that shares it (R162). A write piece
leaves the list, and the reads with the last write. -/
def State.pieceDone (s : State) (e : EngOp) (x : Piece) (d : List Byte) (bad : Bool := false) : State :=
  if x.write then
    s.modEng e.id fun y =>
      let rest := y.pieces.filter fun z => z.id ≠ x.id
      { y with pieces := if rest.any fun z => z.write then rest else [] }
  else
    { s with work := { s.work with engs := s.work.engs.map fun y =>
      if y.starter == e.starter && (y.id == e.id || y.kind = .copym) then
        { y with pieces := modAll (fun z => !z.write && z.off == x.off) (fun z =>
          { z with data := d, got := true, out := false, bad := bad })
                   y.pieces }
      else y } }

/-- Where the bytes of an island operation's operand B stand among its data. -/
def nodeB : Nat := 2 ^ 30

/-- INFO of a fault at a piece (R400): of an island operation the SEQ of the packet that the piece reads (R321). -/
def EngOp.infoOf (e : EngOp) (x : Piece) : Nat :=
  if e.kind = .tile && e.names.node && nodeB ≤ x.off then at! e.params 5 0 else e.info

/-- The fields of an operation's word. -/
def EngOp.sel (e : EngOp) (b : Bool) : Nat := e.word.toNat / 2 ^ (if b then 6 else 13) % 128
/-- The port of operand A or B of an island operation. -/
def EngOp.portOf (e : EngOp) (b : Bool) : Nat := if e.sel b < 0x40 || 0x42 < e.sel b then 0 else e.sel b - 0x40

/-- The site of a fault at a piece: of an island operation at the port of the operand that the piece reads (R321, R398). -/
def EngOp.pieceSite (e : EngOp) (x : Piece) : Site :=
  if e.kind = .tile && e.names.node then { e.site with port := e.portOf (nodeB ≤ x.off) } else e.site

/-- The pieces of the operation are those of a memory operation of an element, which is no engine operation (TCVT, TSTAT, TSLICE,
TBUILD: R310, R314, R331): a fault before its task's first REGION aborts the task (R46, R93). -/
def EngOp.restarts (e : EngOp) : Bool := e.kind = .tile && !e.names.node

/-- A fault of a piece: it waits in place with its record, or is refused with its record (R171, R463). -/
def State.pieceFault (s : State) (e : EngOp) (x : Piece) (unit cause sub : Nat) : State :=
  let w := faultWaits cause sub
  let s := s.raise { e.pieceSite x with unit := unit } { cause := cause, sub := sub, addr := x.span.addr, info := e.infoOf x, wait := w }
  if w then
    { s with work := { s.work with waits := s.work.waits ++
      [⟨e.names.part, e.asid, granuleOf x.span.addr, .piece e.id x.id, e.restarts && !s.pastRegion e.names.part e.ctx⟩] } }
  else (s.modEng e.id fun y => { y with bad := true }).pieceDone e x []

/-- A fault of the counter add of an engine operation, at the counter's address, recorded under its starting instruction `at_` (R133,
R171, R463): it waits in place as piece 0, or is not made; the pieces stay as they are. -/
def State.addFault (s : State) (e : EngOp) (at_ : Site) (unit addr cause sub : Nat) : State :=
  let w := faultWaits cause sub
  let s := s.raise { at_ with unit := unit } { cause := cause, sub := sub, addr := addr, info := e.info, wait := w }
  if w then
    { s with work := { s.work with waits := s.work.waits ++
      [⟨e.names.part, e.asid, granuleOf addr, .piece e.id 0, false⟩] } }
  else s

/-- A read piece reads a ring entry or a descriptor (R346, R332, R382). -/
def EngOp.strict (e : EngOp) (x : Piece) : Bool :=
  e.kind = .mrecv || (e.kind = .sread && at! e.params 0 0 = 9) || (e.kind = .gemvb && x.off < 64)

/-- A read piece has met poison (R403; log 24, DESIGN CHOICE): a copy carries it to its destination; any other operation has no data of the
piece, and a ring entry or a descriptor raises its record. -/
def State.pieceSpoiled (s : State) (e : EngOp) (x : Piece) (unit : Nat) (d : List Byte) : State :=
  if e.kind = .copy || e.kind = .copym then s.pieceDone e x d true
  else
    let s := if e.strict x then s.raise { e.site with unit := unit } { cause := 0x0B, sub := 1, addr := x.span.addr } else s
    (s.modEng e.id fun y => { y with bad := true }).pieceDone e x []

/-- Bytes written one by one where they are there. -/
def State.writeSome (s : State) (x : Spot) : List (Option Byte) → State
  | [] => s
  | b :: bs =>
    let s := match b with
      | some v => s.writeSpot x [v]
      | none => s
    s.writeSome (x.add 1) bs

/-- An engine write to a granule of scratch: guard granules keep their bytes, the granule becomes full in the
same step (R64, R163). -/
def State.engFill (s : State) (e : EngOp) (x : Span) (sp : Spot) (bs : List (Option Byte)) (bad : List Nat) : State :=
  if bs.all Option.isNone then s
  else if s.guarded sp then s.noteGuards e.site x.level sp x.len
  else ((((s.writeSome sp bs).spoil sp.key.1 sp.key.2 bad).setFull sp true).wakeSpot sp bs.length).releaseFull sp

/-- A piece at scratch (R157). -/
def State.scratchPiece (s : State) (e : EngOp) (x : Piece) : State :=
  let sp := s.spotOf e.names.part x.span.cluster x.span.elem x.span.level x.span.addr
  if s.wayBlocked sp then s
  else if !s.scratchValid e.names.part x.span.cluster x.span.level x.span.addr x.span.len then
    s.pieceFault e x (e.names.unit e.cluster) 5 6
  else if x.write then (s.engFill e x.span sp (e.writeData x) (e.poisonIn x)).pieceDone e x []
  else
    let d := s.readSpot sp x.span.len
    let t := s.noteGuards e.site x.span.level sp x.span.len
    if s.spotSpoiled sp x.span.len then t.pieceSpoiled e x sp.unit d else t.pieceDone e x d

/-- The shadow address of an IA in a visible range that has a shadow (R164). -/
def Part.shadowOf (p : Part) (asid ia : Nat) : Option Nat :=
  (p.shadows.find? fun r => r.asid == asid && r.s ≤ ia && ia < r.s + r.size).map fun r => r.h + (ia - r.s)

/-- The lines of one byte list at a place; bytes whose read was refused keep their values (R463). -/
def fillGaps (old : List Byte) (bs : List (Option Byte)) : List Byte :=
  List.zipWith (fun o b => b.getD o) old bs

/-- A piece has left toward the PA of a peer or the host and awaits its answer (R144, R151). -/
def State.pieceOut (s : State) (e : EngOp) (x : Piece) (pa : Nat) : State :=
  let s := if paHost pa then s.askAt e.names.part e.id pa else s
  s.modEng e.id fun y =>
    { y with pieces := modAll (fun z => z.id == x.id) (fun z => { z with out := true, data := if z.write then z.data else [] }) y.pieces }

/-- A write piece to a shadow destination: at the memory side, in the frames that H's leaves name (R164), which may lie with a
peer or the host (R144, R151); it waits where H's leaf is being migrated (R47), and meets a scrubbed page as any access does
(R51). -/
def State.shadowPiece (s : State) (e : EngOp) (x : Piece) (h : Nat) (who : Ident) : State :=
  let sl := s.homeFor e.names.part e.asid (h / 64) none
  if (s.part e.names.part).isScrubbed e.asid h then s.pieceFault e x sl 4 1 else
  match s.walk e.names.part e.asid h { w := true } who with
  | .fault c u => s.pieceFault e x sl c u
  | .leaf pa l _ =>
    if paHost pa && !bit (s.part e.names.part).hostwin 0 then s.pieceFault e x sl 5 9
    else if leafMig l || s.lockHeld pa then s
    else if paPeer pa then s.pieceOut e x pa
    else if paHost pa then (s.post e.names.part e.ctx pa (e.writeData x)).pieceDone e x []
    else (s.writePaBad pa (fillGaps (s.readPa pa x.span.len) (e.writeData x)) (e.poisonIn x)).pieceDone e x []

/-- A splice that is attached to the stream port of the read takes what the read brings, as its fork (R47): `params` names the
port's section, channel and context, then its launch. -/
def State.fork (s : State) (e : EngOp) (x : Piece) (d : List Byte) (bad : Bool) : State :=
  let takes (y : EngOp) : Bool := y.kind = .splice && y.names.part == e.names.part && y.asid == e.asid
    && y.params.take 3 = [e.names.lsec, e.names.block, e.ctx]
  let covers (z : Piece) : Bool := !z.write && !z.got && x.span.addr ≤ z.span.addr
    && z.span.addr + z.span.len ≤ x.span.addr + x.span.len
  if e.kind ≠ .sread then s
  else
    { s with work := { s.work with engs := modAll takes (fun y =>
        { y with pieces := modAll covers (fun z =>
            { z with data := slice d (z.span.addr - x.span.addr) z.span.len, got := true, bad := bad }) y.pieces }) s.work.engs } }

/-- A piece at device memory whose place is `pl` (R157). Through a window it leaves and awaits its answer (R144, R151); a posted
write to the host is done as it leaves. -/
def State.placedPiece (s : State) (e : EngOp) (x : Piece) (pl : Place_) (home : Nat) : State :=
  match pl.far with
  | some (_, pa) =>
    if paHost pa && x.write then (s.post e.names.part e.ctx pa (e.writeData x)).pieceDone e x [] else s.pieceOut e x pa
  | none =>
    let old := s.bytesAt pl e.asid x.span.addr x.span.len
    if x.write then (s.writeNow pl e.asid x.span.addr (fillGaps old (e.writeData x)) (e.poisonIn x)).pieceDone e x []
    else if s.spoiledAt pl e.asid x.span.addr x.span.len then (s.pieceSpoiled e x home old).fork e x old true
    else (s.pieceDone e x old).fork e x old false

/-- A piece at device memory (R157), in its turn for its line (R112). The copies of a host line are first written back where its
level is `.mem`. A splice reads whatever the rights of the page (R47). -/
def State.devicePiece (s : State) (e : EngOp) (x : Piece) (who : Ident) : State :=
  let p := e.names.part
  let seed := (s.ctx? p e.ctx).map fun c => c.seed
  let need : Need := if x.write then { w := true } else { rd := e.kind ≠ .splice }
  let line := x.span.addr / 64
  let me := Requester.piece e.id x.id
  let home := s.homeFor p e.asid line seed
  if !s.lineTurn e.asid line me then s.joinLine p e.asid x.span.addr seed me x.write
  else
    let s := if x.span.level = .mem && s.lineFree e.asid line && s.lineInHost p e.asid line then s.flushLine p e.asid line else s
    match s.homeNow p e.asid x.span.addr seed need who (some (nearSlice e.cluster)) with
    | .busy => s.joinLine p e.asid x.span.addr seed me x.write
    | .fault c u t => (t.leaveLine me).pieceFault e x home c u
    | .ready pl t => (t.leaveLine me).placedPiece e x pl home

/-- The launch whose stream port a splice is attached to still runs, so that the port's own reads perform the copy (R47). -/
def State.attached (s : State) (e : EngOp) : Bool :=
  match e.params with
  | [_, _, _, q, l] => !(s.part e.names.part).gated && (s.part e.names.part).running.any fun r => r.queue == q && r.lseq == l
  | _ => false

/-- A piece of a splice (R47): a read of the page by IA, which an attached port brings as its fork; or a write of the new frame, whose
PA the piece names and which may lie with a peer or the host (R144, R151). -/
def State.splicePiece (s : State) (e : EngOp) (x : Piece) (who : Ident) : State :=
  let pa := x.span.addr
  if !x.write then (if s.attached e then s else s.devicePiece e x who)
  else if paPeer pa then s.pieceOut e x pa
  else if paHost pa then (s.post e.names.part noCtx pa (e.writeData x)).pieceDone e x []
  else (s.writePaBad pa (fillGaps (s.readPa pa x.span.len) (e.writeData x)) (e.poisonIn x)).pieceDone e x []

/-- A direct read of an HBM channel by a bank-side unit: no home and no cache takes part (R169); a line in a
window is refused (R334). -/
def State.bankPiece (s : State) (e : EngOp) (x : Piece) : State :=
  let p := e.names.part
  let sl := s.homeFor p e.asid (x.span.addr / 64) none
  match s.translate p sl e.asid x.span.addr { rd := true } .plain with
  | (.fault c u, s) => s.pieceFault e x sl c u
  | (.leaf pa _ _, t) =>
    if !paLocal pa then t.pieceFault e x sl 5 9
    else if t.paSpoiled pa x.span.len then t.pieceSpoiled e x sl (t.readPa pa x.span.len)
    else t.pieceDone e x (t.readPa pa x.span.len)

/-- Another part of a multicast has sent the read that this part shares with it, or waits with it (R162). -/
def State.sharedOut (s : State) (e : EngOp) (x : Piece) : Bool :=
  !x.write && e.kind = .copym && s.work.engs.any fun y =>
    y.id ≠ e.id && y.starter == e.starter && y.kind = .copym
      && y.pieces.any fun z => !z.write && z.off == x.off && (z.out || s.pieceWaits y z.id)

/-- One piece is performed at its place (R157, R158, R162, R164). -/
def State.performPiece (s : State) (e : EngOp) (x : Piece) (who : Ident) : State :=
  if x.got || x.out || s.sharedOut e x || s.pieceWaits e x.id || (x.write && !s.mayWrite e x) then s
  else if e.kind = .splice then s.splicePiece e x who
  else if x.span.level = .mem && e.kind = .gemvb then s.bankPiece e x
  else if !x.span.level.cached then s.scratchPiece e x
  else
    match if x.write && e.kind ≠ .tile then (s.part e.names.part).shadowOf e.asid x.span.addr else none with
    | some h => s.shadowPiece e x h who
    | none => s.devicePiece e x who

/-- The identity under which an engine operation asks (R43): a stream port has its graph's, and a splice of the partition monitor is
not checked (R47). -/
def State.engIdent (s : State) (e : EngOp) : Ident :=
  if e.kind = .splice then .any
  else if e.names.node && (e.kind = .sread || e.kind = .swrite) then
    match s.ctx? e.names.part e.ctx with
    | some x => .stream x.cid
    | none => .plain
  else .plain

/-- Eight bytes of an answer from a peer or the host reach the first piece that awaits one (R144, R151,
log 18, DESIGN CHOICE). -/
def State.answerPiece (s : State) (e : EngOp) (v : W64) (refused : Option (Nat × Nat)) : State :=
  match e.pieces.find? fun x => x.out with
  | none => s
  | some x =>
    match refused with
    | some (c, u) => s.pieceFault e x e.cluster c u
    | none =>
      if x.write then s.pieceDone e x []
      else
        let d := x.data ++ leBytes 8 v.toNat
        if x.span.len ≤ d.length then
          (s.modEng e.id fun y => { y with pieces := modAll (fun z => z.id == x.id) (fun z => { z with out := false }) y.pieces }).pieceDone
            e x (d.take x.span.len)
        else
          s.modEng e.id fun y =>
            { y with pieces := modAll (fun z => z.id == x.id) (fun z => { z with data := d }) y.pieces }

/-! ### The pieces of a byte range -/

/-- The pieces of `n` bytes of a level from `a`, which stand at `off` of the data: within one line of a cached
level, one granule of scratch (R157). `k` bounds their number. -/
def rangePieces (write : Bool) (lv : Level) (cluster : Nat) (a n off id : Nat) : Nat → List Piece
  | 0 => []
  | k + 1 =>
    if n = 0 then []
    else
      let g := if lv.cached then 64 else 16
      let m := min n (g - a % g)
      ⟨id, write, ⟨lv, a, m, cluster, 0⟩, off, [], false, false, false⟩
        :: rangePieces write lv cluster (a + m) (n - m) (off + m) (id + 1) k

/-- The pieces of a byte range. -/
def piecesOf (write : Bool) (lv : Level) (cluster a n off id : Nat) : List Piece :=
  rangePieces write lv cluster a n off id (n / 16 + 2)

/-! ### The completion add (R133, R161, R170) -/

/-- What comes of an add to a counter at its place: it cannot be made yet, it faults, or it is made, the trap
of an overflow going to the context named by the site. -/
inductive AddNow where
  | busy (s : State)
  | fault (cause sub : Nat) (s : State)
  | ok (s : State)
deriving DecidableEq, Repr

/-- An add to a counter by a unit (R133, R137); a poisoned counter is not added to (R403). One that a peer or the host keeps
is carried to it, and the unit goes on (R147, R154; log 76, DEDUCED). It takes its turn for the line (R112), in which `who` waits for
it; a unit that is not named there is tried again. -/
def State.ctrAddNow (s : State) (p asid : Nat) (seed : Option Nat) (w : Site) (cluster : Nat) (lv : Level)
    (addr n : Nat) (who : Option Requester := none) : AddNow :=
  let trap (s : State) (old : Nat) : State :=
    if 2 ^ 64 - 1 < old + n then s.raise w { cause := 8, sub := 2, addr := addr, info := n } else s
  if lv.cached then
    let me := who.getD (.piece 0 0)
    let wait : State := if who.isSome then s.joinLine p asid addr seed me true else s
    if !s.lineTurn asid (addr / 64) me then .busy wait
    else
    match s.homeNow p asid addr seed { rd := true, w := true } .plain with
    | .busy => .busy wait
    | .fault c u t => .fault c u (if who.isSome then t.leaveLine me else t)
    | .ready pl t =>
      let t := if who.isSome then t.leaveLine me else t
      match pl.far with
      | some (sl, pa) => .ok (t.sendOutside p asid sl (.unit w) ⟨.amo .ctradd, 3, addr, w64 n, 0, .i64⟩ pa)
      | none =>
      if t.spoiledAt pl asid addr 8 then .fault 0x0B 1 t
      else
        let old := leNat (t.bytesAt pl asid addr 8)
        .ok ((trap t old).writeNow pl asid addr (leBytes 8 (min (old + n) (2 ^ 64 - 1))))
  else
    let sp := s.spotOf p cluster 0 lv addr
    if s.wayBlocked sp then .busy s
    else if !s.scratchValid p cluster lv addr 8 then .fault 5 6 s
    else if s.spotSpoiled sp 8 then .fault 0x0B 1 s
    else
      let old := leNat (s.readSpot sp 8)
      let s := s.noteGuards w lv sp 8
      .ok (((trap s old).writeSpot sp (leBytes 8 (min (old + n) (2 ^ 64 - 1)))).wakeSpot sp 8)

end Sys2Proof.Machine
end

