-- ==== Sys2Proof/Machine/External.lean ====
section
/-! DEFINITION. Accesses from outside the store buffers (R112, R117, R133, R137, R144, R147, R152, R154): those of control cores
and of the host's aperture at a home, in their turn there, and the answers of peers and of the host to those that leave. -/

namespace Sys2Proof.Machine

/-- Rights that an access from outside needs (R40). -/
def extNeed : ExtKind → Need
  | .read => { rd := true }
  | .write => { w := true }
  | .amo _ => { rd := true, w := true }

/-- The access is one aligned piece of a line. -/
def extAligned (x : ExtAccess) : Bool := x.width ≤ 3 && x.addr % 2 ^ x.width = 0

/-- The new value of the bytes that an access changes: from the old value (R133, R138). -/
def extValue (x : ExtAccess) (old : Nat) : Nat :=
  let m := 2 ^ (8 * 2 ^ x.width)
  match x.kind with
  | .read => old
  | .write => x.data.toNat % m
  | .amo .cas => (amoNew .cas x.fmt old (x.cmp.toNat % m) (x.data.toNat % m)).1
  | .amo o => (amoNew o x.fmt old (x.data.toNat % m) 0).1

/-- A control core's AMOADD.D is a counter add, which saturates (R133, R137; log 79, DEDUCED); its amount is unsigned, one with bit 63
set too, of which the spec names no sign (log 112, DESIGN CHOICE). -/
def OutsideWho.access (w : OutsideWho) (x : ExtAccess) : ExtAccess :=
  match w, x.kind with
  | .core, .amo .add => if x.width = 3 then { x with kind := .amo .ctradd, fmt := .i64 } else x
  | _, _ => x

/-- The identity under which it asks (R43). -/
def OutsideWho.ident : OutsideWho → Ident
  | .core => .any
  | _ => .plain

/-- An access from outside has read poison (R403): what it is answered is free, and an atomic changes nothing (log 24, DESIGN CHOICE). -/
def State.answerPoison (s : State) (a : Nat) : State :=
  { s with run := { s.run with busRead := Config.hostWord s.run.fresh a, fresh := s.run.fresh + 1 } }

/-- A request of the host's aperture completes (R450). -/
def State.complete (s : State) (who : OutsideWho) (c : Completion) : State :=
  match who with
  | .host => { s with run := { s.run with done := c } }
  | _ => s

/-- The value that an agent outside is answered (log 5, DESIGN CHOICE). -/
def State.answer (s : State) (v : W64) : State := { s with run := { s.run with busRead := v } }

/-- An access is performed at its place, or leaves toward a peer or the host (R117, R144, R151, R152). -/
def State.outsideAt (s : State) (p asid ia : Nat) (who : OutsideWho) (x : ExtAccess) (pl : Place_) : State :=
  match pl.far with
  | some (sl, pa) => s.sendOutside p asid sl who { x with addr := ia } pa
  | none =>
    if x.kind ≠ .write && s.spoiledAt pl asid ia (2 ^ x.width) then (s.answerPoison ia).complete who .success
    else
      let old := leNat (s.bytesAt pl asid ia (2 ^ x.width))
      let t := if x.kind = .read then s else s.writeNow pl asid ia (leBytes (2 ^ x.width) (extValue x old))
      (t.answer (w64 old)).complete who .success

/-- A request that waits for its line at its home arrived before (R112). -/
def State.lineQueued (s : State) (asid line : Nat) : Bool :=
  s.mem.reqs.any fun r => r.asid == asid && r.line == line && !r.waiting

/-- An access that must wait joins the requests of its line at the home, in arrival order (R112). -/
def State.queueOutside (s : State) (p asid ia : Nat) (who : OutsideWho) (x : ExtAccess) : State :=
  let (id, s) := s.newId
  let (rid, s) := s.newId
  let r : HReq := ⟨rid, s.homeFor p asid (ia / 64) none, p, asid, ia / 64, 0, .l2, 0x7FF, .outside id, false⟩
  { s with
    mem := { s.mem with reqs := s.mem.reqs ++ [r] }
    work := { s.work with outs := s.work.outs ++ [⟨id, p, asid, who, { x with addr := ia }, false, 0, none⟩] } }

/-- An access at the home slice, as an `.l2` access (R112, R117, R152): one that faults changes nothing here, and one that must
wait joins the queue of its line. What it reads is answered to its agent (log 5, DESIGN CHOICE). -/
def State.outsideAccess (s : State) (p asid ia : Nat) (who : OutsideWho) (x : ExtAccess) : State :=
  let x := who.access x
  if s.lineQueued asid (ia / 64) then s.queueOutside p asid ia who x
  else
    match s.homeNow p asid ia none (extNeed x.kind) who.ident with
    | .busy => s.queueOutside p asid ia who x
    | .fault _ _ _ => s.complete who .abort
    | .ready pl t => t.outsideAt p asid ia who x pl

/-- The access of that number. -/
def State.out? (s : State) (id : Nat) : Option OutsideReq := s.work.outs.find? fun q => q.id == id

/-- The access is over. -/
def State.dropOut (s : State) (id : Nat) : State :=
  { s with work := { s.work with outs := s.work.outs.filter fun q => q.id ≠ id } }

/-- A queued access has its turn at its home (R112). -/
def State.serveOutside (s : State) (r : HReq) (id : Nat) : State :=
  match s.out? id with
  | none => s.dropReq r.id
  | some q =>
    match s.homeNow q.part q.asid q.acc.addr none (extNeed q.acc.kind) q.who.ident with
    | .busy => s
    | .fault _ _ t => ((t.dropReq r.id).dropOut id).complete q.who .abort
    | .ready pl t => ((t.dropReq r.id).dropOut id).outsideAt q.part q.asid q.acc.addr q.who q.acc pl

/-- The site of the traps of a unit's add; none for a control core and the host, which take no record (R137). -/
def OutsideWho.site : OutsideWho → Option Site
  | .unit w => some w
  | _ => none

/-- The unit awaits what it reads. -/
def OutsideWho.waits : OutsideWho → Bool
  | .asks _ _ _ _ => true
  | _ => false

/-- The answer to a read is kept for the unit that awaits it: 0 with the value, or the subcode of a refusal. -/
def State.gotOut (s : State) (id sub : Nat) (v : W64) : State :=
  { s with work := { s.work with outs := modAll (fun q => q.id == id) (fun q => { q with got := some (sub, v) }) s.work.outs } }

/-- The answer of a peer or of the host to an access that had left (R133, R144, R147): what an agent reads is answered to it; a
unit's add that overflows raises its record; a unit that awaits what it reads takes it as it goes on. -/
def State.answerOut (s : State) (q : OutsideReq) (v : W64) : State :=
  let old := v.toNat % 2 ^ (8 * 2 ^ q.acc.width)
  if q.who.waits then s.gotOut q.id 0 v else
  let s := s.dropOut q.id
  match q.who.site with
  | none => (s.answer (w64 old)).complete q.who .success
  | some w =>
    if 2 ^ 64 - 1 < old + q.acc.data.toNat then
      s.raise w { cause := 8, sub := 2, addr := q.acc.addr, info := q.acc.data.toNat }
    else s

/-- A peer or the link has refused an access that had left (R145, R151): a unit's raises its record. -/
def State.refuseOut (s : State) (q : OutsideReq) (sub : Nat) : State :=
  if q.who.waits then s.gotOut q.id sub 0 else
  let s := s.dropOut q.id
  match q.who.site with
  | none => s.complete q.who .abort
  | some w => s.raise w { cause := 5, sub := sub, addr := q.acc.addr }

end Sys2Proof.Machine
end

