-- ==== Sys2Proof/Machine/Registers.lean ====
section
/-! DEFINITION. The registers that software names (R407 to R409, R436, R449): who may read and write each, what
each reads, and what a plain write leaves in it (R8). Writes that do more than that are rows of their own. -/

namespace Sys2Proof.Machine

/-! ### Rights (R407, R408) -/

/-- A context has the right (R407). -/
def Right.ctxHas (r : Right) (priv : Bool) : Bool :=
  match r with
  | .u => true
  | .p => priv
  | _ => false

/-- A control core or the host has the right through the window of R409 (R34, R408, R450). Privileged writes are
the partition monitor's there. -/
def Right.agentHas (r : Right) (w : Agent) : Bool :=
  match w with
  | .monitor _ => r ≠ .none_
  | .thedom _ => r = .u || r = .c
  | .hostVf => r = .u || r = .c
  | _ => false

/-- The writer that an agent is: Thedom and the monitor on a core are that core (R51, R406). -/
def writerOf : Agent → Agent
  | .thedom k => .monitor k
  | w => w

/-- The agent's control core is one of the partition's (R409). -/
def Part.hasAgent (x : Part) (w : Agent) : Bool :=
  match w with
  | .monitor k => x.hasStrip k
  | .thedom k => x.hasStrip k
  | .hostVf => x.live
  | _ => false

/-! ### Registers of a context (R34, R67, R91, R124, R177, R268, R405) -/

/-- SYS.CHAIN (R91). -/
def Chain.word (c : Chain) : W64 := w64 (c.wave % 2 ^ 32 * 2 ^ 32 + c.home % 2048 * 2 ^ 16 + c.last % 256 * 256 + c.lastSucc % 256)

/-- A context-scoped selector as it reads, under the partition's lease ceiling. -/
def Ctx.reg (x : Ctx) (cap n : Nat) : W64 :=
  match n with
  | 1 => x.workid
  | 2 => w64 x.flags.toNat
  | 3 => w64 x.flags.toNat
  | 4 => w64 (x.seed % 2 ^ 16)
  | 5 => w64 ((if x.xtrap then 2 ^ 15 else 0) + cap % 64 * 256 + x.leaseMax % 64)
  | 6 => x.chain.word
  | 7 => if x.brk then 1 else 0
  | _ =>
    if 0x10 ≤ n && n < 0x20 then
      let r := at! x.ranges ((n - 0x10) / 2) (0, 0)
      if n % 2 = 0 then r.1 else r.2
    else 0

/-- The fields of RANGEn.VA and RANGEn.IA (R34). -/
def rangeVa (v : W64) : W64 := w64 (bits v 56 16 * 2 ^ 16 + bits v 13 8 * 256 + bits v 3 0)
def rangeIa (v : W64) : W64 := w64 (bits v 51 16 * 2 ^ 16)

/-- SYS.LEASEMAX.MAX after a write (R124). -/
def leaseMaxOf (cap : Nat) (v : W64) : Nat := if bits v 5 0 = 0 then 1 else min (bits v 5 0) cap

/-- The context with a context-scoped selector written. -/
def Ctx.setReg (x : Ctx) (cap n : Nat) (v : W64) : Ctx :=
  match n with
  | 1 => { x with workid := v }
  | 2 => { x with flags := BitVec.ofNat 5 (bits v 4 0) }
  | 4 => { x with seed := bits v 15 0 }
  | 5 => { x with xtrap := bit v 15, leaseMax := leaseMaxOf cap v }
  | 7 => { x with brk := bit v 0 }
  | _ =>
    if 0x10 ≤ n && n < 0x20 then
      let k := (n - 0x10) / 2
      let r := at! x.ranges k (0, 0)
      let rs := if x.ranges.length ≤ k then x.ranges ++ List.replicate (k + 1 - x.ranges.length) (0, 0) else x.ranges
      { x with ranges := setAt rs k (if n % 2 = 0 then (rangeVa v, r.2) else (r.1, rangeIa v)) }
    else x

/-! ### Registers of a partition -/

/-- QCFGn with its count of held launches (R387). -/
def Part.qcfgWord (x : Part) (q : Nat) : W64 :=
  setBits (at! x.qcfg q 0) 8 4 (x.held.filter fun h => h.queue == q).length

/-- SLICEMAP word `k` (R70). -/
def Part.mapWord (x : Part) (k : Nat) : W64 :=
  w64 ((upto 8).foldl (fun a j => a + at! x.slicemap (8 * k + j) 0xFF % 256 * 256 ^ j) 0)

/-- SLICECFG (R69): BUSY while a mode change waits or a layout request that changes it runs. -/
def Part.slicecfg (x : Part) : W64 :=
  w64 ((if x.cfgBusy then 2 ^ 16 else 0) + x.slicemap.length % 256 * 256 + (if x.mode then 1 else 0))

/-- A selector of a partition as it reads through the window (R408, R409); what has no read class reads 0. -/
def State.partReg (s : State) (p n : Nat) : W64 :=
  let x := s.part p
  match n with
  | 0x00 => s.dev.devid
  | 0x41 => s.dev.lsdcfg
  | 0x42 => x.slicecfg
  | 0x43 => w64 x.leasecap
  | 0x80 => x.asidbase
  | 0x84 => x.blkmove
  | 0x85 => x.hostwin
  | 0x89 => x.pctl
  | 0x8A => at! x.trapcfg 0 0
  | 0x8B => at! x.trapptr 0 0
  | 0x8C => at! x.trapcfg 1 0
  | 0x8D => at! x.trapptr 1 0
  | 0x8E => x.hostaper
  | _ =>
    if 0x50 ≤ n && n < 0x68 then x.mapWord (n - 0x50)
    else if 0xC0 ≤ n && n < 0x100 then at! x.tenants (n - 0xC0) 0
    else if 0x100 ≤ n && n < 0x140 then x.qcfgWord (n - 0x100)
    else if 0x140 ≤ n && n < 0x180 then at! x.qstatus (n - 0x140) 0
    else 0

/-- CLWAYS of a cluster (R57). -/
def State.clwaysWord (s : State) (c : Nat) : W64 :=
  w64 ((if s.mem.ways.any fun w => w.cluster == c then 2 ^ 16 else 0) + s.mask c % 4096)

/-- What RDSYS reads (R407). -/
def State.sysRead (s : State) (fr : Firing) (n : Nat) : W64 :=
  let p := fr.names.part
  match s.ctx? p fr.ctx with
  | none => 0
  | some x =>
    if n = 0x40 then s.clwaysWord x.chain.home
    else if 0x20 ≤ n && n < 0x28 then x.keep fr.cluster fr.elem (n - 0x20)
    else if (1 ≤ n && n < 8) || (0x10 ≤ n && n < 0x20) then x.reg (s.part p).leasecap n
    else s.partReg p n

/-- TRAPPTRn after a write (R399): HEAD, unless it lies above TAIL; both count modulo 2³² (log 44, DEDUCED). -/
def trapHead (old v : W64) : W64 :=
  let above := (bits v 31 0 + 2 ^ 32 - bits old 63 32) % 2 ^ 32
  if 0 < above && above < 2 ^ 31 then old else setBits old 31 0 (bits v 31 0)

/-- The partition after a plain write of a selector (R8): its writable fields take the value, the others keep
theirs. A register whose write does more than that has a row of its own. -/
def Part.setReg (x : Part) (n : Nat) (v : W64) : Part :=
  match n with
  | 0x43 => if bits v 5 0 = 16 || bits v 5 0 = 32 then { x with leasecap := bits v 5 0 } else x
  | 0x84 => if bit x.blkmove 63 then x else { x with blkmove := setBits x.blkmove 59 25 (bits v 59 25) }
  | 0x85 => { x with hostwin := w64 (bits v 63 47 * 2 ^ 47 + (if bit v 2 then 4 else 0) + if bit v 0 then 1 else 0) }
  | 0x89 =>
    if bit x.pctl 63 then x
    else
      let w := setBits (setBits (setBits x.pctl 62 61 (bits v 62 61)) 57 57 (bits v 57 57)) 47 12 (bits v 47 12)
      { x with pctl := if bit v 63 then setBits w 60 58 1 else w }
  | 0x8A => { x with trapcfg := setAt x.trapcfg 0 (w64 (bits v 47 12 * 4096 + bits v 5 0)) }
  | 0x8B => { x with trapptr := modAt x.trapptr 0 fun o => trapHead o v }
  | 0x8C => { x with trapcfg := setAt x.trapcfg 1 (w64 (bits v 47 12 * 4096 + bits v 5 0)) }
  | 0x8D => { x with trapptr := modAt x.trapptr 1 fun o => trapHead o v }
  | 0x8E => { x with hostaper := w64 (bits v 63 16 * 2 ^ 16) }
  | _ =>
    if 0xC0 ≤ n && n < 0x100 then
      { x with tenants := setAt x.tenants (n - 0xC0) (w64 (bits v 63 16 * 2 ^ 16 + bits v 1 0)) }
    else if 0x100 ≤ n && n < 0x140 then
      { x with qcfg := setAt x.qcfg (n - 0x100) (w64 (bits v 63 36 * 2 ^ 36 + bits v 3 0)) }
    else x

/-- LSDCFG with its fields from a word that is written (R143). -/
def lsdcfgFields (v : W64) : W64 := w64 (bits v 13 8 * 256 + bits v 5 0)

/-! ### The mailbox and the handle table (R436, R449) -/

/-- Word `k` of a handle. -/
def Handle.word (h : Handle) (k : Nat) : W64 :=
  match k with
  | 0 => h.w0 | 1 => h.w1 | 2 => h.w2 | _ => h.w3

/-- The handle with a word written (R436): a reserved bit ignores the write and reads 0 (R3). -/
def Handle.setWord (h : Handle) (k : Nat) (v : W64) : Handle :=
  match k with
  | 0 => { h with w0 := w64 (bits v 43 16 * 2 ^ 16 + bits v 8 0) }
  | 1 => { h with w1 := v }
  | 2 => { h with w2 := w64 (bits v 31 0) }
  | _ => { h with w3 := 0 }

/-- THYMECTL (R453): the counts of the strip that it shows. -/
def State.thymectlWord (s : State) : W64 :=
  let t := at! s.dev.thyme (bits s.dev.thymectl 19 16) Thyme.empty
  w64 (min t.lost 0xFFFF * 2 ^ 48 + t.count % 2 ^ 16 * 2 ^ 32 + bits s.dev.thymectl 19 16 * 2 ^ 16 + bits s.dev.thymectl 11 0)

/-- Word `k` of the event that THYMECTL names (R452, R453). -/
def State.thymeWord (s : State) (k : Nat) : W64 :=
  let t := at! s.dev.thyme (bits s.dev.thymectl 19 16) Thyme.empty
  match t.events.get (bits s.dev.thymectl 11 0) with
  | none => 0
  | some e => match k with
    | 0 => e.w0 | 1 => e.w1 | 2 => e.w2 | _ => e.w3

/-- The control core runs: a fused strip has none (R26, R416); before boot step 5 that of strip b alone runs, and none where no
image is valid (R445). -/
def State.coreThere (s : State) : Agent → Bool
  | .monitor c | .thedom c => c < 16 && s.stripState c ≠ 6 && (match s.dev.reduced with
    | some b => c == b
    | none => s.dev.mbstat ≠ 0x0F)
  | _ => true

/-- The register at a core physical address (R409, R449); none where no register lies there. -/
def coreRegister (a : Nat) : Option RegRef :=
  let o := a - 0x3FF000000000
  if a % 8 ≠ 0 || a < 0x3FF000000000 then none
  else if o < 0x10000 then some (.sel (o / 8))
  else if o < 0x110000 then some (.ctxSel ((o - 0x10000) / 0x100) (o % 0x100 / 8))
  else if o < 0x114000 then some (.cluster ((o - 0x110000) / 8))
  else if 0x100000000 ≤ o && o < 0x100010000 then some (.mailbox (o - 0x100000000))
  else none

/-- The register that an agent finds at an address: a control core at a core physical address, a virtual function and the physical
function at an offset of BAR0 (R409, R449, R450). -/
def agentRegister (w : Agent) (a : Nat) : Option RegRef :=
  match w with
  | .thedom _ => coreRegister a
  | .monitor _ => coreRegister a
  | .hostVf => if a < 0x200000 then coreRegister (0x3FF000000000 + a) else none
  | .hostPf => if a < 0x10000 then some (.mailbox a) else none
  | .sage => none

/-- The register that an access of an agent names. -/
def namedRegister (r : RegRef) (w : Agent) : Option RegRef :=
  match r with
  | .address a => agentRegister w a
  | r => some r

/-- A register of the mailbox as it reads (R449); other offsets hold none and read 0. -/
def State.mailboxRead (s : State) (o : Nat) : W64 :=
  if o = 0 then w64 (s.dev.mbstat % 256)
  else if o = 0x200 then s.dev.layoutreq
  else if o = 0x208 then s.dev.layoutstat
  else if o = 0x400 then s.dev.lsdcfg
  else if o = 0x408 then s.dev.pwrcap
  else if o = 0x1000 then s.thymectlWord
  else if o % 8 ≠ 0 then 0
  else if 0x100 ≤ o && o < 0x180 then at! s.dev.strips ((o - 0x100) / 8) 0
  else if 0x180 ≤ o && o < 0x200 then at! s.dev.frames ((o - 0x180) / 8) 0
  else if 0x300 ≤ o && o < 0x380 then at! s.dev.exports ((o - 0x300) / 8) 0
  else if 0x1020 ≤ o && o < 0x1040 then s.thymeWord ((o - 0x1020) / 8)
  else 0

/-- The device after the partition monitor's plain write of a mailbox register (R8, R145, R417, R418, R453). -/
def Dev.setMailbox (d : Dev) (o : Nat) (v : W64) : Dev :=
  if o % 8 ≠ 0 then d
  else if o = 0x200 then
    if bit d.layoutreq 63 then d else { d with layoutreq := w64 (bits v 62 44 * 2 ^ 44 + bits v 31 0) }
  else if o = 0x1000 then { d with thymectl := w64 (bits v 19 16 * 2 ^ 16 + bits v 11 0) }
  else if 0x180 ≤ o && o < 0x200 then { d with frames := setAt d.frames ((o - 0x180) / 8) v }
  else if 0x300 ≤ o && o < 0x380 then
    { d with exports := setAt d.exports ((o - 0x300) / 8) (w64 (bits v 47 8 * 256 + bits v 1 0)) }
  else d

/-- A field of a slot (R185), by its number: WORD, LK0, LK1, LIT. -/
def Slot.field (x : Slot) : Nat → W64
  | 0 => w64 x.word.toNat
  | 1 => w64 x.lk0.toNat
  | 2 => w64 x.lk1.toNat
  | _ => x.lit

/-- The slot with a field written. -/
def Slot.setField (x : Slot) (k : Nat) (v : W64) : Slot := match k with
  | 0 => { x with word := v.setWidth 32 }
  | 1 => { x with lk0 := v.setWidth 32 }
  | 2 => { x with lk1 := v.setWidth 32 }
  | _ => { x with lit := v }

/-- The agent may write the tables of a cluster: it is the monitor of the partition that holds it (R185; log 62, DESIGN CHOICE). -/
def Part.tableRight (x : Part) (w : Agent) (c el i k : Nat) : Bool := match w with
  | .monitor _ => x.hasAgent w && x.hasCluster c && el < 16 && i < 64 && k < 4
  | _ => false

/-- A register as an agent outside the fabric reads it (R408, R409, R449, R450): what it has no right to reads 0,
and so does a context that is free. -/
def State.readNamed (s : State) (p : Nat) (w : Agent) (r : RegRef) : W64 :=
  let x := s.part p
  match r with
  | .mailbox o => match w with
    | .monitor _ => if s.coreThere w then s.mailboxRead o else 0
    | .hostPf => if o = 8 then 0 else s.mailboxRead o
    | _ => 0
  | .handle i k => match w with
    | .monitor _ => if x.hasAgent w then ((x.handles.get i).map fun h => h.word k).getD 0 else 0
    | _ => 0
  | .cluster c => match w with
    | .monitor _ => if x.hasAgent w && x.hasCluster c then s.clwaysWord c else 0
    | _ => 0
  | .table c el i k => if x.tableRight w c el i k then (s.slot c el i).field k else 0
  | .address _ => 0
  | .sel n =>
    if !(x.hasAgent w && (readRight n).agentHas w) then 0
    else if n = 0x83 then (if x.frFail.contains (writerOf w) then 1 else 0)
    else s.partReg p n
  | .ctxSel c n =>
    if !(x.hasAgent w && (readRight n).agentHas w && (n < 8 || (0x10 ≤ n && n < 0x20))) then 0
    else
      match s.ctx? p c with
      | some y => if n = 0 then s.dev.devid else y.reg x.leasecap n
      | none => 0

/-- What an agent reads at a register, by name or by address; where no register lies, 0 (R409, R450). -/
def State.readReg (s : State) (p : Nat) (w : Agent) (r : RegRef) : W64 := match namedRegister r w with
  | some n => s.readNamed p w n
  | none => 0

end Sys2Proof.Machine
end

