-- ==== Sys2Proof/Machine/Launch.lean ====
section
/-! DEFINITION. Launch records and their submission (R172 to R174, R387 to R389, R410). -/

namespace Sys2Proof.Machine

/-- A launch record of 32 words (R172). -/
def launchRec (ws : List W64) : LaunchRec :=
  let w (k : Nat) : W64 := at! ws k 0
  { index := bits (w 0) 15 0, gen := bits (w 0) 23 16, mode := bit (w 0) 44, nf := bits (w 0) 47 45,
    secFirst := bits (w 0) 51 48, secCount := bits (w 0) 55 52,
    widths := (upto 6).map fun i => bits (w 1) (6 * i + 5) (6 * i), tcb := (w 2).toNat, donectr := (w 3).toNat,
    schedbase := (w 4).toNat, counts := (upto 6).map fun i => (w (6 + i)).toNat,
    args := (upto 4).map fun i => w (12 + i),
    ranges := (upto 8).map fun i => (rangeVa (w (16 + 2 * i)), rangeIa (w (17 + 2 * i))) }

/-- A reserved field is not zero, or NF or SECCOUNT has a value that is rejected (R173, FORMAT of R389). -/
def badFormat (ws : List W64) : Bool :=
  let w (k : Nat) : W64 := at! ws k 0
  bits (w 0) 43 24 ≠ 0 || bits (w 0) 63 56 ≠ 0 || bits (w 1) 63 36 ≠ 0 || w 5 ≠ 0 || bits (w 0) 47 45 = 7
    || bits (w 0) 55 52 = 0

/-- The handle that INDEX names, where it is live, of generation GEN and the ASID's own (R436). -/
def Part.handle (x : Part) (index gen asid : Nat) : Option Handle :=
  match x.handles.get index with
  | none => none
  | some h => if bit h.w0 8 && bits h.w0 7 0 = gen && bits h.w0 27 16 = asid then some h else none

/-- ASID of a queue (R387). -/
def Part.queueAsid (x : Part) (q : Nat) : Nat := bits (at! x.qcfg q 0) 63 52
/-- PRIO of a queue. -/
def Part.queuePrio (x : Part) (q : Nat) : Nat := bits (at! x.qcfg q 0) 2 1
/-- V of a queue. -/
def Part.queueOn (x : Part) (q : Nat) : Bool := bit (at! x.qcfg q 0) 0

/-- The sum of the widths of the fields used, and the bit at which field `i` begins (R174). -/
def LaunchRec.shift (l : LaunchRec) (i : Nat) : Nat := (l.widths.take i).foldl (· + ·) 0

/-- The checks of R389 in their order. `disabled` and `badAddr` say what the submitter found; `ws` is the record,
none where reading it failed. -/
def Part.submitStatus (x : Part) (q : Nat) (disabled badAddr : Bool) (ws : Option (List W64)) : Nat :=
  if disabled || !x.queueOn q || x.queueAsid q = 0 then 1
  else if badAddr then 2
  else
    match ws with
    | none => 3
    | some ws =>
      let l := launchRec ws
      if 16 ≤ (x.held.filter fun h => h.queue == q).length then 4
      else if badFormat ws then 5
      else
        match x.handle l.index l.gen (x.queueAsid q) with
        | none => 6
        | some h =>
          if bits h.w0 35 28 + 1 < l.secFirst + l.secCount then 7
          else if 64 < l.shift l.nf then 8
          else if (upto l.nf).any fun i => 2 ^ at! l.widths i 0 < at! l.counts i 0 then 9
          else if l.tcb % 64 ≠ 0 || l.donectr % 8 ≠ 0 || l.schedbase % 4096 ≠ 0 then 10
          else 0

/-- A submission ends (R388, R389): accepted, its record is copied and numbered; refused, nothing changes but the
queue's status word, which is returned. -/
def State.submitted (s : State) (p q code : Nat) (ws : List W64) : W64 × State :=
  let x := s.part p
  let n := at! x.qseq q 0
  let x := if code = 0 then
      { x with held := x.held ++ [⟨q, n, launchRec ws, false, false, none, false⟩], qseq := setAt x.qseq q ((n + 1) % 2 ^ 32) }
    else x
  let v := w64 (code * 2 ^ 56 + (x.held.filter fun h => h.queue == q).length * 2 ^ 32 + n)
  (v, s.setPart p { x with qstatus := setAt x.qstatus q v })

/-- The 32 words of a record that stands at a PA (R388): at the memory side, or in host memory, whose content is
free (log 22, DESIGN CHOICE); none where the link fails the read (R151, R389), which is free too. -/
def State.recordAt (s : State) (pa : Nat) : Option (List W64) × State :=
  if paHost pa then
    (if Config.linkFails s.run.fresh then none else some ((upto 32).map fun k => Config.hostWord s.run.fresh (pa + 8 * k)),
      { s with run := { s.run with fresh := s.run.fresh + 1 } })
  else (some ((upto 32).map fun k => w64 (leNat (s.readPa (pa + 8 * k) 8))), s)

/-- LAUNCH_SUBMIT (R388, R389): a write to LSUBMITn; an AMOSWAP.D returns the status word. A record in poisoned memory, behind a
closed host window or on a link that fails is not read (READ of R389). -/
def execLaunchSubmit (p q : Nat) (v : W64) (s : State) : Result :=
  let x := s.part p
  if !x.live || 64 ≤ q then .next s
  else
    let pa := bits v 47 8 * 256
    let badAddr := bits v 63 48 ≠ 0 || bits v 7 0 ≠ 0 || !((paLocal pa && !s.paReserved p pa) || paHost pa)
    let (ws, s) : Option (List W64) × State := if badAddr then (none, s) else s.recordAt pa
    let failed := (paHost pa && !bit x.hostwin 0) || s.paSpoiled pa 256
    let (st, s) := s.submitted p q (x.submitStatus q false badAddr (if failed then none else ws)) (ws.getD [])
    .next { s with run := { s.run with busRead := st } }

/-- The words that bytes hold. -/
def wordsOf (bs : List Byte) (n : Nat) : List W64 := (upto n).map fun k => w64 (leNat (slice bs (8 * k) 8))

/-- The TASKSPAWN of operation `id` reads its record in the coherent view and submits it (R410): its status word; none while a
home, a peer or the host has yet to serve the read. -/
def State.spawn (s : State) (id : Nat) (x : Ctx) (q va : Nat) : Option W64 × State :=
  let p := x.part
  let off := (s.part p).queueAsid q ≠ x.asid
  let done (s : State) (bad : Bool) (ws : Option (List W64)) : Option W64 × State :=
    let (v, t) := s.submitted p q ((s.part p).submitStatus q off bad ws) (ws.getD [])
    (some v, t)
  if va % 256 ≠ 0 then done s true none
  else
    match rangeCheck x.ranges va 256 { rd := true } with
    | none => done s false none
    | some ia =>
      match s.readNow p x.asid ia 256 (some x.seed) { rd := true } .plain (.asks 0 id 0 0) with
      | .busy t => (none, t)
      | .fault _ _ t => done t false none
      | .ok bs t => done t false (some (wordsOf bs 32))

end Sys2Proof.Machine
end

