-- ==== Sys2Proof/WellFormed.lean ====
section
/-! DEFINITION. Well-formed steps: a word passes every check of R207 that looks at the word alone, and
an event's parameters lie in the ranges of what they name (R37, R177, R387, R415, R451). -/

namespace Sys2Proof

/-- A partition number (R415). -/
def partOk (p : Nat) : Bool := p < 16
/-- A hardware queue (R387). -/
def queueOk (q : Nat) : Bool := q < 64
/-- A context (R177). -/
def ctxOk (c : Nat) : Bool := c < 4096
/-- An ASID (R37). -/
def asidOk (a : Nat) : Bool := a < 4096
/-- A cluster ID (R18). -/
def clusterOk (c : Nat) : Bool := c < 2048 && c / 16 % 8 < 7 && c % 16 < 12
/-- An access of at most eight bytes. -/
def accessOk (x : ExtAccess) : Bool := x.width ≤ 3
/-- Every grant lies in 8 to 64 (R451), one a strip. -/
def grantsOk (g : List Nat) : Bool := g.length == 16 && g.all fun x => 8 ≤ x && x ≤ 64
/-- A plan of partitions names runs of strips that exist (R26, R415). -/
def planOk (l : List (Nat × Nat × Nat)) : Bool :=
  l.all fun x => x.1 < 16 && 1 ≤ x.2.2 && x.2.1 + x.2.2 ≤ 16

/-- The well-formed steps. -/
def Instr.wellFormed (i : Instr) : Bool :=
  match i with
  | .mov f => Machine.wordOk 0x01 f
  | .steer f => Machine.wordOk 0x02 f
  | .merge f => Machine.wordOk 0x03 f
  | .select f => Machine.wordOk 0x04 f
  | .gate f => Machine.wordOk 0x05 f
  | .wadv f => Machine.wordOk 0x06 f
  | .wset f => Machine.wordOk 0x07 f
  | .itag f => Machine.wordOk 0x08 f
  | .ctxnew f => Machine.wordOk 0x09 f
  | .ctxsend f => Machine.wordOk 0x0A f
  | .ctxret f => Machine.wordOk 0x0B f
  | .ctxfree f => Machine.wordOk 0x0C f
  | .sink f => Machine.wordOk 0x0D f
  | .stop f => Machine.wordOk 0x0E f
  | .add f => Machine.wordOk 0x10 f
  | .sub f => Machine.wordOk 0x11 f
  | .adds f => Machine.wordOk 0x12 f
  | .addsn f => Machine.wordOk 0x13 f
  | .subs f => Machine.wordOk 0x14 f
  | .subsn f => Machine.wordOk 0x15 f
  | .mul f => Machine.wordOk 0x16 f
  | .mulh f => Machine.wordOk 0x17 f
  | .mulhn f => Machine.wordOk 0x18 f
  | .div f => Machine.wordOk 0x19 f
  | .divn f => Machine.wordOk 0x1A f
  | .rem f => Machine.wordOk 0x1B f
  | .remn f => Machine.wordOk 0x1C f
  | .madd f => Machine.wordOk 0x1D f
  | .neg f => Machine.wordOk 0x1E f
  | .abs f => Machine.wordOk 0x1F f
  | .and_ f => Machine.wordOk 0x20 f
  | .or_ f => Machine.wordOk 0x21 f
  | .xor_ f => Machine.wordOk 0x22 f
  | .andn f => Machine.wordOk 0x23 f
  | .not_ f => Machine.wordOk 0x24 f
  | .shl f => Machine.wordOk 0x25 f
  | .shrl f => Machine.wordOk 0x26 f
  | .shra f => Machine.wordOk 0x27 f
  | .rotl f => Machine.wordOk 0x28 f
  | .clz f => Machine.wordOk 0x29 f
  | .ctz f => Machine.wordOk 0x2A f
  | .popc f => Machine.wordOk 0x2B f
  | .brev f => Machine.wordOk 0x2C f
  | .bfx f => Machine.wordOk 0x2D f
  | .bfi f => Machine.wordOk 0x2E f
  | .byteperm f => Machine.wordOk 0x2F f
  | .ceq f => Machine.wordOk 0x30 f
  | .cne f => Machine.wordOk 0x31 f
  | .clt f => Machine.wordOk 0x32 f
  | .cle f => Machine.wordOk 0x33 f
  | .cltn f => Machine.wordOk 0x34 f
  | .clen f => Machine.wordOk 0x35 f
  | .min_ f => Machine.wordOk 0x36 f
  | .max_ f => Machine.wordOk 0x37 f
  | .minn f => Machine.wordOk 0x38 f
  | .maxn f => Machine.wordOk 0x39 f
  | .lea f => Machine.wordOk 0x3A f
  | .idx f => Machine.wordOk 0x3B f
  | .sext f => Machine.wordOk 0x3C f
  | .zext f => Machine.wordOk 0x3D f
  | .narrow f => Machine.wordOk 0x3E f
  | .narrows f => Machine.wordOk 0x3F f
  | .ld f => Machine.wordOk 0x40 f
  | .st f => Machine.wordOk 0x41 f
  | .ldv f => Machine.wordOk 0x42 f
  | .stv f => Machine.wordOk 0x43 f
  | .ldg f => Machine.wordOk 0x44 f
  | .sts f => Machine.wordOk 0x45 f
  | .mnop f => Machine.wordOk 0x46 f
  | .ldfe f => Machine.wordOk 0x47 f
  | .stfe f => Machine.wordOk 0x48 f
  | .region f => Machine.wordOk 0x49 f
  | .pref f => Machine.wordOk 0x4A f
  | .flushr f => Machine.wordOk 0x4B f
  | .invr f => Machine.wordOk 0x4C f
  | .amofmin f => Machine.wordOk 0x4D f
  | .amofmax f => Machine.wordOk 0x4E f
  | .ctrread f => Machine.wordOk 0x4F f
  | .amoadd f => Machine.wordOk 0x50 f
  | .amoand f => Machine.wordOk 0x51 f
  | .amoor f => Machine.wordOk 0x52 f
  | .amoxor f => Machine.wordOk 0x53 f
  | .amomin f => Machine.wordOk 0x54 f
  | .amomax f => Machine.wordOk 0x55 f
  | .amominn f => Machine.wordOk 0x56 f
  | .amomaxn f => Machine.wordOk 0x57 f
  | .amoswap f => Machine.wordOk 0x58 f
  | .amocas f => Machine.wordOk 0x59 f
  | .amofadd f => Machine.wordOk 0x5A f
  | .ctradd f => Machine.wordOk 0x5B f
  | .ctrwait f => Machine.wordOk 0x5C f
  | .lease f => Machine.wordOk 0x5D f
  | .unlease f => Machine.wordOk 0x5E f
  | .fence f => Machine.wordOk 0x5F f
  | .fadd f => Machine.wordOk 0x60 f
  | .fsub f => Machine.wordOk 0x61 f
  | .fmul f => Machine.wordOk 0x62 f
  | .ffma f => Machine.wordOk 0x63 f
  | .ffms f => Machine.wordOk 0x64 f
  | .fnfma f => Machine.wordOk 0x65 f
  | .fdiv f => Machine.wordOk 0x66 f
  | .fsqrt f => Machine.wordOk 0x67 f
  | .fmin f => Machine.wordOk 0x68 f
  | .fmax f => Machine.wordOk 0x69 f
  | .fminm f => Machine.wordOk 0x6A f
  | .fmaxm f => Machine.wordOk 0x6B f
  | .fabs f => Machine.wordOk 0x6C f
  | .fneg f => Machine.wordOk 0x6D f
  | .fcpys f => Machine.wordOk 0x6E f
  | .fclass f => Machine.wordOk 0x6F f
  | .fceq f => Machine.wordOk 0x70 f
  | .fclt f => Machine.wordOk 0x71 f
  | .fcle f => Machine.wordOk 0x72 f
  | .fcun f => Machine.wordOk 0x73 f
  | .fcvt f => Machine.wordOk 0x74 f
  | .fcvti f => Machine.wordOk 0x75 f
  | .icvtf f => Machine.wordOk 0x76 f
  | .icvtfn f => Machine.wordOk 0x77 f
  | .frint f => Machine.wordOk 0x78 f
  | .fscale f => Machine.wordOk 0x79 f
  | .fexpo f => Machine.wordOk 0x7A f
  | .fmant f => Machine.wordOk 0x7B f
  | .fsplit f => Machine.wordOk 0x7C f
  | .fexp2f f => Machine.wordOk 0x80 f
  | .flog2m f => Machine.wordOk 0x81 f
  | .frcp f => Machine.wordOk 0x82 f
  | .frsq f => Machine.wordOk 0x83 f
  | .fsin1 f => Machine.wordOk 0x84 f
  | .fcos1 f => Machine.wordOk 0x85 f
  | .ftanh f => Machine.wordOk 0x86 f
  | .fsigm f => Machine.wordOk 0x87 f
  | .ferf f => Machine.wordOk 0x88 f
  | .vsplit f => Machine.wordOk 0x90 f
  | .vjoin f => Machine.wordOk 0x91 f
  | .vbcast f => Machine.wordOk 0x92 f
  | .vredadd f => Machine.wordOk 0x93 f
  | .vredmax f => Machine.wordOk 0x94 f
  | .vredmin f => Machine.wordOk 0x95 f
  | .vscan f => Machine.wordOk 0x96 f
  | .vperm f => Machine.wordOk 0x97 f
  | .vslide f => Machine.wordOk 0x98 f
  | .vcompact f => Machine.wordOk 0x99 f
  | .vexpand f => Machine.wordOk 0x9A f
  | .viota f => Machine.wordOk 0x9B f
  | .vfredadd f => Machine.wordOk 0x9C f
  | .vlen f => Machine.wordOk 0x9D f
  | .vdot f => Machine.wordOk 0x9E f
  | .tld f => Machine.wordOk 0xA0 f
  | .tst f => Machine.wordOk 0xA1 f
  | .mma f => Machine.wordOk 0xA2 f
  | .mmaz f => Machine.wordOk 0xA3 f
  | .tcvt f => Machine.wordOk 0xA4 f
  | .ttrans f => Machine.wordOk 0xA5 f
  | .tadd f => Machine.wordOk 0xA6 f
  | .tscale f => Machine.wordOk 0xA7 f
  | .gemvb f => Machine.wordOk 0xA8 f
  | .cbload f => Machine.wordOk 0xA9 f
  | .tstat f => Machine.wordOk 0xAA f
  | .tfill f => Machine.wordOk 0xAB f
  | .tslice f => Machine.wordOk 0xAC f
  | .tbuild f => Machine.wordOk 0xAD f
  | .sopen f => Machine.wordOk 0xB0 f
  | .sread f => Machine.wordOk 0xB1 f
  | .swrite f => Machine.wordOk 0xB2 f
  | .sclose f => Machine.wordOk 0xB3 f
  | .isect f => Machine.wordOk 0xB4 f
  | .union f => Machine.wordOk 0xB5 f
  | .spaacc f => Machine.wordOk 0xB6 f
  | .spaflush f => Machine.wordOk 0xB7 f
  | .stoplvl f => Machine.wordOk 0xB8 f
  | .scount f => Machine.wordOk 0xB9 f
  | .copy f => Machine.wordOk 0xC0 f
  | .copym f => Machine.wordOk 0xC1 f
  | .copy2d f => Machine.wordOk 0xC2 f
  | .shadow f => Machine.wordOk 0xC3 f
  | .publish f => Machine.wordOk 0xC4 f
  | .feset f => Machine.wordOk 0xC5 f
  | .feclr f => Machine.wordOk 0xC6 f
  | .copystat f => Machine.wordOk 0xC7 f
  | .waymask f => Machine.wordOk 0xC8 f
  | .alloc f => Machine.wordOk 0xC9 f
  | .free f => Machine.wordOk 0xCA f
  | .ringreg f => Machine.wordOk 0xD0 f
  | .msend f => Machine.wordOk 0xD1 f
  | .mrecv f => Machine.wordOk 0xD2 f
  | .mpeek f => Machine.wordOk 0xD3 f
  | .mack f => Machine.wordOk 0xD4 f
  | .ringdereg f => Machine.wordOk 0xD5 f
  | .trap f => Machine.wordOk 0xE0 f
  | .syscall f => Machine.wordOk 0xE1 f
  | .rdsys f => Machine.wordOk 0xE2 f
  | .wrsys f => Machine.wordOk 0xE3 f
  | .yield f => Machine.wordOk 0xE4 f
  | .halt f => Machine.wordOk 0xE5 f
  | .taskdone f => Machine.wordOk 0xE6 f
  | .taskspawn f => Machine.wordOk 0xE7 f
  | .workid f => Machine.wordOk 0xE8 f
  | .perfrd f => Machine.wordOk 0xE9 f
  | .break f => Machine.wordOk 0xEA f
  | .assert f => Machine.wordOk 0xEB f
  | .elog f => Machine.wordOk 0xEC f
  | .clock f => Machine.wordOk 0xED f
  | .coldReset _ _ => true
  | .warmReset _ _ => true
  | .reducedServiceEnd plan _ => planOk plan
  | .sageWatchdogRecovery => true
  | .dieBridgeDown => true
  | .hostLsdcfgWrite _ => true
  | .registerWrite p _ _ _ => partOk p
  | .sysFlagsrcRead p c => partOk p && ctxOk c
  | .xlatinv p _ => partOk p
  | .fresumeRetry p _ => partOk p
  | .fresumeKill p _ => partOk p
  | .framescrub p _ _ => partOk p
  | .asidbaseWrite p _ => partOk p
  | .clwaysWrite p cluster _ => partOk p && clusterOk cluster
  | .slicecfgModeWrite p _ => partOk p
  | .blkmove p _ => partOk p
  | .moveInstall => true
  | .moveSweep => true
  | .moveFree => true
  | .pctlSave p _ => partOk p
  | .saveSettleRound => true
  | .pctlRestore p _ => partOk p
  | .ctxctlResume p _ => partOk p
  | .ctxctlKill p _ => partOk p
  | .scvalWrite p _ _ => partOk p
  | .scdoneWrite p _ _ => partOk p
  | .launchSubmit p q _ => partOk p && queueOk q
  | .grow _ => true
  | .shrink _ => true
  | .defrag _ => true
  | .reserve _ => true
  | .release _ => true
  | .stripScrubDone => true
  | .rehashWalk => true
  | .layoutCommit => true
  | .stripZeroDone => true
  | .hostApertureAccess p x => partOk p && accessOk x
  | .peerAccess x => accessOk x
  | .reductionMerge x => accessOk x
  | .hostCompletionTimeout _ => true
  | .emulate _ _ => true
  | .coreMemoryAccess p asid x => partOk p && asidOk asid && accessOk x
  | .getS => true
  | .getM => true
  | .upgrade => true
  | .putS => true
  | .putO => true
  | .inv => true
  | .invAck => true
  | .forwardedProbe => true
  | .l2Access => true
  | .memAccess => true
  | .chainPerform => true
  | .leaseGrant => true
  | .leaseExpiry => true
  | .ctrwaitRepresent => true
  | .enginePiece => true
  | .engineCompletionAdd => true
  | .publishPoint => true
  | .splice p asid _ _ => partOk p && asidOk asid
  | .islandStep => true
  | .tokenArrival => true
  | .flitCross => true
  | .creditReturn => true
  | .messageReceive => true
  | .ringEntryComplete => true
  | .messageAck => true
  | .trapRecordWrite => true
  | .thymeEventWrite => true
  | .qosWindowEnd => true
  | .powerPeriod grants => grantsOk grants
  | .launchStart => true
  | .sectionLoad => true
  | .blockEvict => true
  | .blockReload => true
  | .dispatch => true
  | .schedTableDispatch => true
  | .releaseIslands => true
  | .taskRetire => true
  | .launchComplete => true
  | .taskAbort => true
  | .taskRequeue => true
  | .statRecordMerge => true
  | .statRecordApply => true
  | .hostCompletion _ _ => true
  | .peerAcknowledgement _ _ _ => true

end Sys2Proof
end

