-- ==== Sys2Proof/Machine/Issue.lean ====
section
/-! DEFINITION. The issue of a matched set (R187, R190, R396): the firing is latched under the slot as it
stands, its word is decoded, and a word that is no instruction traps (R187, R208). -/

namespace Sys2Proof.Machine

/-- The slot's word reads keep register `k`: as a source (R189), by RDSYS (R407), or as the counter, the mask or the
strides of a copy (R256 to R258). -/
def Slot.readsKeep (r : Slot) (k : Nat) : Bool :=
  let op := opOf r.word
  let f := fieldsOf r.word
  f.sa.toNat = 0x48 + k || f.sb.toNat = 0x48 + k || (op = 0xE2 && bits r.lit 11 0 = 0x20 + k)
    || (0xC0 ≤ op && op ≤ 0xC2 && bit r.lit 32 && bits r.lit 29 27 = k)
    || (op = 0xC1 && bits r.lit 26 24 = k) || (op = 0xC2 && bits r.lit 23 21 = k)

/-- The firing reads a keep register of its context that an error has poisoned (R403). -/
def State.keepSpoiled (s : State) (f : Firing) : Bool :=
  !f.names.node && match s.ctx? f.names.part f.ctx with
    | some x => x.badKeeps.any fun e => e.1 == f.cluster && e.2.1 == f.elem && f.slot.readsKeep e.2.2
    | none => false

/-- The firing with an operand poisoned: its A, else its B, else its C. -/
def Firing.poisoned (f : Firing) : Firing :=
  let bad (t : Token) : Token := { t with poison := true }
  if f.a.isSome then { f with a := f.a.map bad }
  else if f.b.isSome then { f with b := f.b.map bad }
  else { f with c := f.c.map bad }

/-- The firing takes the record of its slot as it stands when it issues (R187), the element counts the
firing and the issue slot of its context (R411), and the latch holds it. -/
def State.latch (s : State) (f : Firing) : State :=
  let i := if f.names.node then f.names.idx else 32 * f.half + f.names.idx
  let f := if f.names.node then f else { f with slot := s.slot f.cluster f.elem i }
  let f := if s.keepSpoiled f then f.poisoned else f
  let s := { s with run := { s.run with cur := f } }
  if f.names.node then s
  else s.modElem f.cluster f.elem fun e =>
    { e with firings := satCount e.firings 1, slots := e.slots.set f.ctx (satCount (e.slots.getD f.ctx 0) 1),
             last := e.last.set f.half s.run.steps }

/-- The tokens that an element's matching store holds, unmatched or in sets that wait to issue: their number and the bytes
of their elements in the operand buffer (R16). -/
def State.storeUse (s : State) (at_ : Nat × Nat) : Nat × Nat :=
  let sets := s.fab.ready.filter fun f => !f.names.node && f.cluster == at_.1 && f.elem == at_.2
  let ts := (s.fab.waiting.filter fun t => t.at_ = some at_)
    ++ sets.flatMap fun f => f.a.toList ++ f.b.toList ++ f.c.toList
  (ts.length, (ts.map fun t => payloadBytes t.fmt t.data.length).foldl (· + ·) 0)

/-- Its 128 entries or its 16 KiB operand buffer are full (R16, R183). -/
def State.storeFull (s : State) (at_ : Nat × Nat) : Bool := 128 ≤ (s.storeUse at_).1 || 16384 ≤ (s.storeUse at_).2

/-- A token finds room there. -/
def State.storeRoom (s : State) (at_ : Nat × Nat) (t : Token) : Bool :=
  (s.storeUse at_).1 < 128 && (s.storeUse at_).2 + payloadBytes t.fmt t.data.length ≤ 16384

/-- The slot is one that the loader accepts: its literal and its links (R207; log 40, DEDUCED). -/
def slotOk (s : Slot) : Bool :=
  let op := opOf s.word
  let f := fieldsOf s.word
  literalOk op f s.lit && linksOk op f s.lk0 s.lk1

/-- The instruction of the latched firing, when its slot is one that the loader accepts where it stands. -/
def issuedWord (s : State) : Option Instr :=
  let fr := s.run.cur
  match decodeWord fr.slot.word with
  | .ok i => if i.wellFormed && slotOk fr.slot && s.slotInSection fr.names fr.slot then some i else none
  | .error _ => none

/-- A word that is no instruction: the operands are consumed, nothing is sent, and an
illegal-instruction trap names the block and slot: EMPTY for a zero word, OPCODE else (R187, R208). -/
def illegalWord (s : State) : State :=
  let fr := s.run.cur
  s.raise (fr.site s) { cause := 0x01, sub := if fr.slot.word = 0 then 2 else 1 }

/-- The section that `placeWord` loads: one block and one channel of one slot, placed on element 0 of cluster 0; a streamer's
second node is the SPAACC that a SPAFLUSH names (R346). -/
def fetchSection (home : Home) (r : Slot) : Section :=
  { part := 0, lsec := 0, base := 0, index := 0, gen := 0, sec := 0, recs := 0,
    image := { blocks := [⟨0, 1, 0, 0, false, [r]⟩], routes := [], hops := [], fanout := [],
               chans := [⟨home == .streamer, 2, [r, ⟨0xB6000000, 0, 0, 0⟩]⟩], entries := [0], trees := [] },
    table := [(0, (⟨true, false, false, ⟨0, 0, 0⟩⟩ : PlEntry).word)] }

/-- A link that leads back to the placed word, on a port that it reads (R201, R207); zero where DA and DB use none. -/
def placedLink (home : Home) (used : Bool) (w : W32) : W32 :=
  let p := if wordReads w 0 then 0 else if wordReads w 1 then 1 else 2
  if !used then 0
  else if home == .elem then BitVec.ofNat 32 (p * 2 ^ 11)
  else BitVec.ofNat 32 (2 ^ 31 + p * 2 ^ 13)

/-- The slot of a placed word, with a literal and links that suit it (log 11, DESIGN CHOICE). -/
def placedSlot (home : Home) (w : W32) : Slot :=
  let f := fieldsOf w
  let a := f.da.toNat
  let b := f.db.toNat
  let k0 := a == 1 || (3 ≤ a && a ≤ 6) || b == 1
  let k1 := a == 2 || a == 3 || a == 4 || b == 2
  ⟨w, placedLink home k0 w, placedLink home k1 w, placedLit (opOf w) f⟩

/-- The context in which `placeWord` lets the word fire: that of a task just dispatched from queue 0. -/
def fetchCtx : Ctx :=
  { part := 0, id := 0, live := true, asid := 1, priv := false, prio := 0, queue := 0,
    lseq := 0, section_ := 0, lsec := 0, workid := 0, nf := 0, widths := [], args := [], ranges := [],
    seed := 0, flags := 0, xtrap := false, leaseMax := 16, brk := false, chain := ⟨0, 0xFD, 0xFD, 0, []⟩,
    depth := 0, lines := [], expired := [], leasers := [], halted := false, resume := [], guard := none, guardN := 0, orphans := [],
    region := false, done := false, root := 0, created := [], cid := 0, aborted := false,
    kinit := [], keeps := [], badKeeps := [] }

/-- The channel in which `placeWord` places a word of an island or a stream port: unit 0. -/
def fetchChannel (island : Bool) (r : Slot) : Channel :=
  { part := 0, lsec := 0, chan := 0, island := island, unit := 0, slots := [r], accs := [], oslots := [], bad := [], sctx := [] }

/-- A word placed to issue next: in slot 0 of element 0 of cluster 0, or in node 0 of a channel where it is a node's,
with a literal that suits its opcode, a context, and an operand token of one element, zero, of a format that suits
it, on each port. -/
def placeWord (s : State) (w : W32) : State :=
  let home := homeOf (opOf w)
  let node := home ≠ .elem
  let r : Slot := placedSlot home w
  let n : Names := ⟨0, 0, node, 0, 0⟩
  let t (port : Nat) : Token :=
    ⟨0, n, port, 0, 0, 0, placedFmt (opOf w) (fieldsOf w) port, false, [0], some (0, 0), 0⟩
  let f : Firing := ⟨n, 0, 0, 0, r, 0, 0, 1, some (t 0), some (t 1), some (t 2)⟩
  let s := s.setSlot 0 0 0 r
  { s with ctxs := fetchCtx :: s.ctxs,
           ldr := { s.ldr with
             sections := fetchSection home r :: s.ldr.sections,
             channels := if node then fetchChannel (home == .island) r :: s.ldr.channels else s.ldr.channels },
           run := { s.run with agenda := [.issue f] } }

end Sys2Proof.Machine
end

