-- ==== Sys2Proof/Machine/Contexts.lean ====
section
/-! DEFINITION. The pool of contexts (R77, R177, R182, R339), and the instructions that make, reach and end
contexts (R225 to R231). -/

namespace Sys2Proof.Machine

/-! ### The pool (R77, R177, R182) -/

/-- Something on its way still names the context, so that its number is given to no new one (R182). -/
def State.ctxNamed (s : State) (p c : Nat) : Bool :=
  let tok (t : Token) : Bool := t.dest.part == p && t.ctx == c
  s.fab.net.any tok || s.fab.waiting.any tok || s.fab.held.any tok
    || (s.fab.ready.any fun f => f.names.part == p && f.ctx == c)
    || (s.work.ops.any fun o => o.names.part == p && (o.ctx == c || (o.kind = .send && o.params.head? = some c)))
    || (s.work.engs.any fun e => e.names.part == p && e.ctx == c)
    || (s.mem.leases.any fun e => e.part == p && e.ctx == c)
    || (s.part p).tasks.any fun t => t.ctx == c && !t.ready

/-- A free context (R177, R182); which of them is a free choice (log 21, DESIGN CHOICE). -/
def State.pickCtx (s : State) (p : Nat) : Option Nat × State :=
  let (k, s) := s.draw 4096
  (findFrom (fun c => !(s.ctxs.any fun x => x.part == p && x.id == c) && !s.ctxNamed p c) 4096 4096 k, s)

/-- The cluster has a free chain slot: it keeps chain state for 64 contexts (R77); an abort frees its own (R94). No
task is homed in a fenced strip, or in one that the partition has no longer (R423). -/
def State.chainSlot (s : State) (p c : Nat) : Bool :=
  (s.part p).hasCluster c && s.stripState (clusterStrip c) ≠ 5
    && (s.ctxs.filter fun x => x.part == p && x.chain.home == c && !x.aborted).length < 64

/-- A SHRINK of the partition runs. -/
def State.shrinking (s : State) (p : Nat) : Bool := match s.dev.layout with
  | some l => l.op = 2 && l.part == p
  | none => false

/-- The run onto which Load maps q: during a SHRINK the strips that are not fenced (R423, R430). -/
def State.loadRun (s : State) (p : Nat) : Nat × Nat := match s.dev.layout with
  | some l => if l.op = 2 && l.part == p then (l.newF, l.newN) else ((s.part p).first, (s.part p).count)
  | none => ((s.part p).first, (s.part p).count)

/-- The cluster of a run that stands in the place of a given one: itself, or that of its column and row in the nearest
strip (R424). -/
def inRun (run : Nat × Nat) (c : Nat) : Nat :=
  let s := clusterStrip c
  let t := if s < run.1 then run.1 else if run.1 + run.2 ≤ s then run.1 + run.2 - 1 else s
  mkCluster t (clusterCol c) (clusterRow c)

/-- The cluster that takes a context whose home leaves: the partner, or the next in the order of R178 that has a free
chain slot (R424). -/
def State.partner (s : State) (p c : Nat) : Option Nat :=
  let run := s.loadRun p
  let cs := (upto (84 * run.2)).map (clusterOfQ run.1)
  let i := (cs.findIdx? fun x => x == inRun run c).getD 0
  (cs.drop i ++ cs.take i).find? fun x => s.chainSlot p x

/-- The cluster that an entry gives a block: where it stands, or, where it is not loaded, where it stood last, or what stands in that
cluster's place once its strip is fenced or gone (R357, R423). -/
def State.standsIn (s : State) (p : Nat) (e : PlEntry) : Nat :=
  if e.valid then e.place.cluster else inRun (s.loadRun p) e.place.cluster

/-- The region of a section: the clusters that hold its element blocks (R357). -/
def State.region (s : State) (p : Nat) (x : Section) : List Nat :=
  ((x.places.filter fun e => e.1 < 4096).map fun e => s.standsIn p e.2).eraseDups

/-- Channels of streamer blocks of a section. -/
def State.streamers (s : State) (p lsec : Nat) : List Channel :=
  s.ldr.channels.filter fun c => c.part == p && c.lsec == lsec && !c.island

/-- The contexts that hold a slot of a streamer island: of any of its 16 ports (R338, R339). -/
def State.islandCtxs (s : State) (p island : Nat) : List Nat :=
  ((s.ldr.channels.filter fun c => c.part == p && !c.island && c.unit / 16 == island).flatMap fun c =>
    c.sctx.map fun x => x.ctx).eraseDups

/-- Every streamer island of the section has a free context slot (R339). -/
def State.streamRoom (s : State) (p lsec : Nat) : Bool :=
  (s.streamers p lsec).all fun c => (s.islandCtxs p (c.unit / 16)).length < 64

/-- A context's state at a stream channel before it does anything (R339). -/
def StreamCtx.fresh (c : Nat) : StreamCtx := ⟨c, none, [], [], [], [], [], [], []⟩

/-- The context takes a slot at every streamer island of its section (R339). -/
def State.takeStreams (s : State) (p lsec c : Nat) : State :=
  { s with ldr := { s.ldr with
      channels := modAll (fun x => x.part == p && x.lsec == lsec && !x.island)
        (fun x => { x with sctx := x.sctx ++ [StreamCtx.fresh c] }) s.ldr.channels } }

/-- One of a list of clusters that has a free chain slot, by a free choice (R77; log 21, DESIGN CHOICE). -/
def State.pickHome (s : State) (p : Nat) (cs : List Nat) : Option Nat × State :=
  let ok := cs.filter fun c => s.chainSlot p c
  match ok with
  | [] => (none, s)
  | c :: _ =>
    let (k, s) := s.draw ok.length
    (some (at! ok k c), s)

/-- A guard fault that a created context has noted is kept for the retirement of its task (R64, R231). -/
def State.keepGuard (s : State) (p c : Nat) : State :=
  match s.ctx? p c with
  | none => s
  | some x =>
    match x.guard with
    | none => s
    | some r =>
      if x.root = c then s
      else s.modCtx p x.root fun y => { y with orphans := y.orphans ++ { r with w2 := w64 (r.w2.toNat + x.guardN) } :: x.orphans }

/-- A context's record is gone, with its place at every streamer island, the results awaited for it, and its
tokens in matching stores and node ports (R182). A matched set that has not issued is discarded with them (log 87, DESIGN CHOICE). -/
def State.freeCtx (s : State) (p c : Nat) : State :=
  let s := s.keepGuard p c
  let mine (t : Token) : Bool := t.dest.part == p && t.ctx == c
  { s with
    ctxs := s.ctxs.filter fun x => !(x.part == p && x.id == c)
    fab := { s.fab with
      waiting := s.fab.waiting.filter fun t => !mine t
      held := s.fab.held.filter fun t => !mine t
      ready := s.fab.ready.filter fun f => !(f.names.part == p && f.ctx == c) }
    work := { s.work with gathers := s.work.gathers.filter fun g => !(g.names.part == p && g.ctx == c) }
    ldr := { s.ldr with
      channels := modAll (fun x => x.part == p)
        (fun x => { x with sctx := x.sctx.filter fun y => y.ctx ≠ c }) s.ldr.channels } }

/-- Every memory operation and engine operation of a context is over (R182, R228). -/
def State.quiet (s : State) (p c : Nat) : Bool :=
  !(s.work.ops.any fun o => o.names.part == p && o.ctx == c)
    && !(s.work.engs.any fun e => e.names.part == p && e.ctx == c)
    && !(s.work.msgs.any fun m => m.op.names.part == p && m.op.ctx == c)

/-! ### CTXNEW (R226) -/

/-- A firing that waits goes back among the ready sets; it is counted when it issues again. -/
def State.waitFiring (s : State) (fr : Firing) : State :=
  let s := s.modElem fr.cluster fr.elem fun e =>
    { e with firings := e.firings - 1, slots := e.slots.set fr.ctx (e.slots.getD fr.ctx 0 - 1) }
  { s with fab := { s.fab with ready := s.fab.ready ++ [fr] } }

/-- The context that CTXNEW makes of its caller (R226, R231; log 49, DEDUCED). -/
def Ctx.child (x : Ctx) (id home : Nat) : Ctx :=
  { x with id := id, flags := 0, xtrap := false, leaseMax := 16, brk := false, chain := ⟨0, 0xFD, 0xFD, home, []⟩,
           depth := 0, lines := [], expired := [], leasers := [], halted := false, resume := [], guard := none,
           guardN := 0, orphans := [], done := false, created := [], kinit := [], keeps := [], badKeeps := [] }

/-- One context is made for the firing (R226); none while the pool, the chain slots or the streamer slots are
empty. -/
def State.newCtx (s : State) (x : Ctx) : Option Nat × State :=
  let p := x.part
  if !s.streamRoom p x.lsec then (none, s)
  else
    match s.pickCtx p with
    | (none, _) => (none, s)
    | (some c, s') =>
      let (home, s') := if s'.chainSlot p x.chain.home then (some x.chain.home, s')
        else s'.pickHome p (match s'.section? p x.lsec with
          | some sec => s'.region p sec
          | none => [])
      match home with
      | none => (none, s)
      | some h =>
        let s' : State := { s' with ctxs := s'.ctxs ++ [x.child c h] }
        let s' := s'.modCtx p x.root fun r => { r with created := r.created ++ [c] }
        (some c, s'.takeStreams p x.lsec c)

/-- The linkage of element `j` (R225). -/
def linkage (wave caller created : Nat) : Nat := wave % 2 ^ 32 * 2 ^ 32 + caller % 4096 * 2 ^ 16 + created % 4096

/-- The contexts of the elements from `done.length` on are made, as far as the pool goes. -/
def State.newCtxs (s : State) (x : Ctx) (wave : Nat) : Nat → List W64 → List W64 × State
  | 0, made => (made, s)
  | n + 1, made =>
    match s.newCtx x with
    | (none, s) => (made, s)
    | (some c, s) => s.newCtxs x wave n (made ++ [w64 (linkage (wave + made.length) x.id c)])

/-- CTXNEW (R226). A firing that finds the pool empty waits with the linkages it has made, kept in the place of
port C, which it does not read. -/
def execCtxnew (f : Fields) (s : State) : Result :=
  let fr := s.run.cur
  if fr.poisonOf f false then .next (s.sendTo fr f.ta.toNat f.da.toNat (fr.poisonRes f .i64))
  else
    match s.ctx? fr.names.part fr.ctx with
    | none => .next s
    | some x =>
      let made := match fr.c with
        | some t => if t.id = 0 && t.port = 3 then t.data else []
        | none => []
      let (made, s) := s.newCtxs x fr.wave (fr.run - made.length) made
      if made.length < fr.run then
        let t : Token := ⟨0, fr.names, 3, fr.ctx, fr.wave, 0, .i64, false, made, none, 0⟩
        .next (s.waitFiring { fr with c := some t })
      else .next (s.sendTo fr f.ta.toNat f.da.toNat (fr.res f .i64 (made.map BitVec.toNat)))

/-! ### CTXSEND and CTXRET (R227, R229, R230) -/

/-- The check of a context that a linkage names: its trap where it is free or of another ASID (R229). -/
def State.checkNamed (s : State) (fr : Firing) (c : Nat) : Option Trap :=
  match s.ctx? fr.names.part c with
  | none => some { cause := 1, sub := 7 }
  | some x => if x.asid = s.asidOf fr.names.part fr.ctx then none else some { cause := 2, sub := 3 }

/-- One element leaves for another context on the links that DA names (R227). -/
def State.sendAcross (s : State) (w : Site) (cluster da : Nat) (lk0 lk1 : W32) (t : Token) : State :=
  let s := if da = 1 || da = 3 then s.sendLink w ⟨false, cluster⟩ lk0 t else s
  if da = 2 || da = 3 then s.sendLink w ⟨false, cluster⟩ lk1 t else s

/-- The token of one element for a context (R227). -/
def acrossToken (a : Token) (j c wave : Nat) : Token :=
  { a with ctx := c, wave := wave, stop := 0, data := [at! a.data j 0], at_ := none, flits := 0 }

/-- The delivery of an element waits for the release as an unchained operation of the sender (R230): params
hold the target context, the wave, DA, the links, the format and the poison. -/
def State.sendLater (s : State) (fr : Firing) (da : Nat) (t : Token) : State :=
  let (id, s) := s.newId
  let a : Ask := { kind := .send, data := at! t.data 0 0, fmt := t.fmt, mute := true,
                   params := [t.ctx, t.wave, da, fr.slot.lk0.toNat, fr.slot.lk1.toNat, if t.poison then 1 else 0] }
  let o := mkOp s fr 0 0 id 0 a
  let o : Op := { o with pred := 0xFE, this := 0xFE, succ := 0xFE }
  { s with work := { s.work with ops := s.work.ops ++ [o] } }

/-- A delivery whose operations before it have been performed leaves (R230). -/
def State.runSend (s : State) (o : Op) : State :=
  match o.params with
  | [c, wave, da, lk0, lk1, bad] =>
    let t : Token := ⟨0, Names.zero, 0, c, wave, 0, o.fmt, bad = 1, [o.data], none, 0⟩
    (s.endOp o).sendAcross (o.site s) o.cluster da (BitVec.ofNat 32 lk0) (BitVec.ofNat 32 lk1) t
  | _ => s.endOp o

/-- The elements of a CTXSEND or CTXRET, in order: checked, then sent, or held for the release. -/
def State.acrossAll (s : State) (fr : Firing) (da : Nat) (a b : Token) (ret : Bool) (now : Bool) : List Nat → State
  | [] => s
  | j :: r =>
    let l := at! b.data j 0
    let c := if ret then bits l 27 16 else bits l 11 0
    let wave := if ret then bits l 63 32 else 0
    let s := match s.checkNamed fr c with
      | some t => s.raise (fr.siteAt s j) t
      | none =>
        let t := acrossToken a j c wave
        if now then s.sendAcross (fr.siteAt s j) fr.cluster da fr.slot.lk0 fr.slot.lk1 t else s.sendLater fr da t
    s.acrossAll fr da a b ret now r

/-- CTXSEND or CTXRET: a poisoned linkage discards every element (R229); under a poisoned A, a linkage of another format raises
no mismatch (R190). -/
def State.across (s : State) (f : Fields) (ret : Bool) : State :=
  let fr := s.run.cur
  match fr.port f.sa.toNat, fr.port f.sb.toNat with
  | some a, some b =>
    if b.poison then s
    else if b.fmt ≠ .i64 then if a.poison then s.sendFailed fr f a.fmt else s.mismatch fr f a.fmt
    else s.acrossAll fr f.da.toNat a b ret (s.leftBefore fr.names.part fr.ctx).isEmpty (upto fr.run)
  | _, _ => s

/-- CTXSEND (R227, R229, R230). -/
def execCtxsend (f : Fields) (s : State) : Result := .next (s.across f false)
/-- CTXRET (R227, R229, R230). -/
def execCtxret (f : Fields) (s : State) : Result := .next (s.across f true)

/-! ### CTXFREE (R228, R229) -/

/-- The check of a context that CTXFREE names: none frees it, else its trap (R229). -/
def State.checkFree (s : State) (fr : Firing) (c : Nat) : Option Trap :=
  match s.checkNamed fr c with
  | some t => some t
  | none =>
    match s.ctx? fr.names.part c, s.ctx? fr.names.part fr.ctx with
    | some x, some me => if x.root = me.root && x.id ≠ x.root then none else some { cause := 1, sub := 7 }
    | _, _ => some { cause := 1, sub := 7 }

/-- The contexts that passed their checks are freed, and the traps of the others raised. -/
def State.freeAll (s : State) (fr : Firing) : List (Nat × Nat × Option Trap) → State
  | [] => s
  | (j, c, e) :: r =>
    let s := match e with
      | some t => s.raise (fr.siteAt s j) t
      | none => s.freeCtx fr.names.part c
    s.freeAll fr r

/-- CTXFREE: it waits until the operations of every context that it may free are over (R228). All its elements are checked before any
is freed, so that one named twice is freed once, with no trap (log 96, DESIGN CHOICE). -/
def execCtxfree (f : Fields) (s : State) : Result :=
  let fr := s.run.cur
  let p := fr.names.part
  match fr.port f.sa.toNat with
  | none => .next s
  | some t =>
    if t.poison then .next (s.sendTo fr 0 f.da.toNat (fr.poisonRes f t.fmt))
    else if t.fmt ≠ .i64 then .next (s.mismatch fr f t.fmt)
    else
      let cs := (upto fr.run).map fun j => (j, bits (at! t.data j 0) 11 0)
      if cs.all fun x => (s.checkFree fr x.2).isSome || s.quiet p x.2 then
        let r := fr.res f .i64 (t.data.map BitVec.toNat)
        let w := fr.site s
        let s := s.freeAll fr (cs.map fun x => (x.1, x.2, s.checkFree fr x.2))
        .next (s.sendAcross w fr.cluster f.da.toNat fr.slot.lk0 fr.slot.lk1 (r.token fr.ctx))
      else .next (s.waitFiring fr)

end Sys2Proof.Machine
end

