-- ==== Sys2Proof/Machine/EngineOps.lean ====
section
/-! DEFINITION. The engine commands of group 0xC (R255 to R264): each firing presents its commands and its
checks; what each command does when its turn comes stands beside it. -/

namespace Sys2Proof.Machine

/-! ### Presenting commands (R255) -/

/-- A command word: its operands are addresses on ports unless `fmtOk` says otherwise; `shape` gives the command
of an element, `check` its checks, none for a format mismatch (R255). -/
def State.command (s : State) (f : Fields) (op : Nat) (fmtOk : Bool) (shape : Nat → Ask)
    (check : Option (State → Nat → Ask → Ask × State)) : State :=
  let fr := s.run.cur
  let dead := (upto fr.run).map fun j => { shape j with dead := true }
  let (as, s) : List Ask × State :=
    if fr.poisonOf f false then (dead, s.poisonRecords fr (upto fr.run))
    else if !fmtOk then (dead, s.formatRecord fr f)
    else
      match check with
      | none => (dead, s.formatRecord fr f)
      | some g => (upto fr.run).foldl (fun (x : List Ask × State) j =>
          let (a, t) := g x.2 j (shape j)
          (x.1 ++ [a], t)) ([], s)
  (s.present fr f op as).2

/-- Element `j` of the port that SB names. -/
def Firing.elemB (fr : Firing) (f : Fields) (j : Nat) : W64 :=
  match fr.port f.sb.toNat with
  | some t => at! t.data j 0
  | none => 0

/-- The port has a format. -/
def Firing.portIs (fr : Firing) (sel : Nat) (ok : Fmt → Bool) : Bool :=
  match fr.port sel with
  | some t => ok t.fmt
  | none => false

/-- A check of `n` bytes of a level for a command: the IA or the offset, or its trap (R35, R54, R55, R257). -/
def State.engCheck (s : State) (fr : Firing) (lv : Level) (a n : Nat) (need : Need) : Except Trap Nat :=
  if lv.cached then
    match rangeCheck (s.rangesOf fr.names.part fr.ctx) a n need with
    | some ia => .ok ia
    | none => .error { cause := 5, sub := 3, addr := a }
  else if s.rangeBlocked fr.cluster lv a n || s.scratchValid fr.names.part fr.cluster lv a n then .ok a
  else .error { cause := 5, sub := 6, addr := a }

/-- What becomes of a command's scratch ranges as its turn comes (R54, R58): valid, held back by a change of scratch ways, or no
longer valid, with the address that fails. -/
inductive Late where
  | ok | wait
  | bad (addr : Nat)
deriving DecidableEq, Repr

/-- The scratch ranges of a command, tested again where a change of scratch ways held their check back (R58). -/
def State.lateCheck (s : State) (o : Op) : List (Level × Nat × Nat) → Late
  | [] => .ok
  | (lv, a, n) :: r =>
    if lv.cached || n = 0 then s.lateCheck o r
    else if s.rangeBlocked o.cluster lv a n then .wait
    else if s.scratchValid o.names.part o.cluster lv a n then s.lateCheck o r
    else .bad a

/-- A command goes on once its scratch ranges have been tested: it waits, or is refused with SCRATCH (R55, R58). -/
def State.afterLate (s : State) (o : Op) (rs : List (Level × Nat × Nat)) (go : State) : State :=
  match s.lateCheck o rs with
  | .ok => go
  | .wait => s
  | .bad a => s.refuse o { cause := 5, sub := 6, addr := a }

/-- Check8Aligned of R257. -/
def State.check8 (s : State) (fr : Firing) (lv : Level) (a : Nat) : Except Trap Nat :=
  if a % 8 ≠ 0 then .error { cause := 5, sub := 7, addr := a }
  else s.engCheck fr lv a 8 { rd := true, w := true }

/-- A command that a check stops performs nothing; its record is raised and its result poisoned (R255). -/
def State.stopAsk (s : State) (fr : Firing) (j : Nat) (a : Ask) (t : Trap) : Ask × State :=
  ({ a with dead := true }, s.raise (fr.siteAt s j) t)

/-! ### COPY, COPY2D and COPYM (R256 to R258) -/

/-- Fields of a copy literal (R256, R258). -/
def copyBytes (l : W64) : Bool := bit l 33
def copyCV (l : W64) : Bool := bit l 32
def copyCK (l : W64) : Nat := bits l 29 27
def copyMK (l : W64) : Nat := bits l 26 24
def copyCL (l : W64) : Level := (levelOf (bits l 26 24)).getD .l1

/-- Rows of a copy: row length, source and destination offset of each row (R257). -/
def copyRows (twoD : Bool) (l strides : W64) : Nat × List (Int × Int) :=
  if twoD then
    (bits l 20 8, (upto (bits l 7 0 + 1)).map fun (r : Nat) =>
      ((r : Int) * toS 32 (bits strides 31 0), (r : Int) * toS 32 (bits strides 63 32)))
  else (bits l 23 0, [(0, 0)])

/-- The checks of the rows of a copy, in order (R257): their sources and destinations as the pieces name
them. `dst` is none for a multicast, whose destinations are checked target by target. -/
def State.checkRows (s : State) (fr : Firing) (src : Level × Nat) (dst : Option (Level × Nat)) (rl : Nat) :
    List (Int × Int) → Except Trap (List (Nat × Nat))
  | [] => .ok []
  | (so, d_) :: r => do
    let a ← s.engCheck fr src.1 (addr64 src.2 so) rl { rd := true }
    let b ← match dst with
      | some (lv, d) => s.engCheck fr lv (addr64 d d_) rl { w := true }
      | none => .ok 0
    let rest ← s.checkRows fr src dst rl r
    return (a, b) :: rest

/-- The checks of a copy command, and what it carries: params hold the counter's place, the row length, then
source and destination of each row (R257). -/
def State.checkCopy (s : State) (fr : Firing) (twoD : Bool) (j : Nat) (a : Ask) : Ask × State :=
  let l := fr.slot.lit
  let (rl, rows) := copyRows twoD l (s.keepOf fr (bits l 23 21))
  let k := (s.keepOf fr (copyCK l)).toNat
  let run : Except Trap (List Nat) := do
    let rs ← if rl = 0 then .ok [] else
      s.checkRows fr (copyS l, a.va) (some (copyD l, a.data.toNat)) rl rows
    let c ← if copyCV l then s.check8 fr (copyCL l) k else .ok 0
    return c :: rl * rows.length :: rl :: rs.flatMap fun x => [x.1, x.2]
  match run with
  | .ok ps => ({ a with params := ps }, s)
  | .error t => s.stopAsk fr j a t

/-- A copy's command of an element: source A, destination B, result A. -/
def copyAsk (fr : Firing) (f : Fields) (kind : OpKind) (j : Nat) : Ask :=
  { kind := kind, va := (fr.elemA f j).toNat, data := fr.elemB f j, data2 := fr.elemA f j, fmt := .a }

/-- Both operands carry addresses. -/
def Firing.twoAddr (fr : Firing) (f : Fields) : Bool :=
  fr.portIs f.sa.toNat (· = .a) && fr.portIs f.sb.toNat (· = .a)

/-- COPY (R256, R257). -/
def execCopy (f : Fields) (s : State) : Result :=
  let fr := s.run.cur
  .next (s.command f 0xC0 (fr.twoAddr f) (copyAsk fr f .copy) (some fun t j a => t.checkCopy fr false j a))

/-- COPY2D (R256, R257). -/
def execCopy2d (f : Fields) (s : State) : Result :=
  let fr := s.run.cur
  .next (s.command f 0xC2 (fr.twoAddr f) (copyAsk fr f .copy) (some fun t j a => t.checkCopy fr true j a))

/-- The targets of a multicast mask in a partition (R258). -/
def Part.maskTargets (x : Part) (m : W64) : List Nat :=
  x.clusters.filter fun c =>
    (upto 16).any fun k => bit m (19 + k) && clusterStrip (x.alias_ (128 * k)) == clusterStrip c
      && bit m (12 + clusterCol c) && bit m (clusterRow c)

/-- The checks of a multicast, in the order of a copy's: the source, then the mask; params hold the counter's offset, the length, the
source, and the mask (R258; log 30, DEDUCED). -/
def State.checkCopym (s : State) (fr : Firing) (j : Nat) (a : Ask) : Ask × State :=
  let l := fr.slot.lit
  let m := s.keepOf fr (copyMK l)
  let n := bits l 23 0
  let k := (s.keepOf fr (copyCK l)).toNat
  match if n = 0 then .ok 0 else s.engCheck fr (copyS l) a.va n { rd := true } with
  | .error t => s.stopAsk fr j a t
  | .ok src =>
    if bits m 63 35 ≠ 0 then s.stopAsk fr j a { cause := 5, sub := 12, addr := a.va }
    else ({ a with params := [k, n, src, m.toNat] }, s)

/-- COPYM (R258). -/
def execCopym (f : Fields) (s : State) : Result :=
  let fr := s.run.cur
  .next (s.command f 0xC1 (fr.twoAddr f) (copyAsk fr f .copym) (some fun t j a => t.checkCopym fr j a))

/-- Slots of a cluster's copy engine in use (R257, R258). -/
def State.copySlots (s : State) (c : Nat) : List (Nat × Nat) :=
  ((s.work.engs.filter fun e => e.cluster == c
      && ((e.kind = .copy && !(copyCV e.lit && e.ctr.isNone)) || e.kind = .copym)).map fun e =>
    (e.starter, e.ctx)).eraseDups

/-- An engine operation that an operation starts (R156). -/
def engOf (s : State) (o : Op) (id : Nat) (kind : EngKind) (pieces : List Piece)
    (ctr : Option (Level × Nat × Nat)) : EngOp :=
  { id := id, starter := o.id, chained := o.chained, kind := kind, names := o.names, ctx := o.ctx,
    asid := s.asidOf o.names.part o.ctx, wave := o.wave, cluster := o.cluster, scope := o.scope,
    pieces := pieces, bad := false, ctr := ctr, gather := none, word := o.word, lit := o.lit, args := [],
    params := o.params, info := 0, flush := none }

/-- An engine operation is accepted, unless it has neither a piece nor a completion add (R156). -/
def State.addEng (s : State) (e : EngOp) : State :=
  if e.pieces.isEmpty && e.ctr.isNone then s
  else { s with work := { s.work with engs := s.work.engs ++ [e] } }

/-- Read and write pieces of rows: `off` runs through the rows, identifiers from 1. -/
def rowPieces (sl dl : Level) (c rl : Nat) : List Nat → Nat → Nat → List Piece
  | a :: b :: r, off, id =>
    let rs := piecesOf false sl c a rl off id
    let ws := piecesOf true dl c b rl off (id + rs.length)
    rs ++ ws ++ rowPieces sl dl c rl r (off + rl) (id + rs.length + ws.length)
  | _, _, _ => []

/-- A copy command whose turn has come: accepted where the engine has a free slot (R257). -/
def State.startCopy (s : State) (o : Op) : State :=
  let l := o.lit
  if 128 ≤ (s.copySlots o.cluster).length then s
  else
    match o.params with
    | c :: total :: rl :: rows =>
      let held := (copySpans (copyS l) (copyD l) o.cluster rl rows).map fun x => (x.level, x.addr, x.len)
      s.afterLate o (held ++ if copyCV l then [(copyCL l, c, 8)] else []) <|
      let (id, s) := s.newId
      let ps := rowPieces (copyS l) (copyD l) o.cluster rl rows 0 1
      let ctr := if copyCV l then some (copyCL l, c, if copyBytes l then total else 1) else none
      (s.addEng (engOf s o id .copy ps ctr)).finish o o.operand
    | _ => s.finish o o.operand

/-- One target's part of a multicast; a target whose offsets fail their check gets none, with the record
(R258). -/
def State.startPart (s : State) (o : Op) (k n src : Nat) (c : Nat) : State :=
  let l := o.lit
  let d := o.data.toNat
  let fail (sub a : Nat) : State := s.raise { o.site s with unit := c } { cause := 5, sub := sub, addr := a }
  if n ≠ 0 && !s.scratchValid o.names.part c .cs d n then fail 6 d
  else if copyCV l && k % 8 ≠ 0 then fail 7 k
  else if copyCV l && !s.scratchValid o.names.part c .cs k 8 then fail 6 k
  else
    let (id, s) := s.newId
    let rs := piecesOf false (copyS l) o.cluster src n 0 1
    let ws := piecesOf true .cs c d n 0 (1 + rs.length)
    let ctr := if copyCV l then some (Level.cs, k, if copyBytes l then n else 1) else none
    s.addEng { engOf s o id .copym (rs ++ ws) ctr with params := [c, d, n, src] }

/-- A multicast whose turn has come; it waits for a change of scratch ways in a target (R58, R258). -/
def State.startCopym (s : State) (o : Op) : State :=
  if 128 ≤ (s.copySlots o.cluster).length then s
  else
    match o.params with
    | [k, n, src, m] =>
      let cs := (s.part o.names.part).maskTargets (w64 m)
      let l := o.lit
      if cs.any fun c => s.rangeBlocked c .cs o.data.toNat n || (copyCV l && s.rangeBlocked c .cs k 8) then s
      else
        s.afterLate o [(copyS l, src, n)] ((cs.foldl (fun s c => s.startPart o k n src c) s).finish o o.operand)
    | _ => s.finish o o.operand

/-- COPYSTAT: the occupancy of the cluster's engine, one word in every element (R259). -/
def execCopystat (f : Fields) (s : State) : Result :=
  let fr := s.run.cur
  let slots := s.copySlots fr.cluster
  let mine := (slots.filter fun x => x.2 == fr.ctx).length
  let stall := s.work.engs.any fun e =>
    e.cluster == fr.cluster && e.names.part == fr.names.part && e.ctx == fr.ctx && (e.kind = .copy || e.kind = .copym)
      && s.work.waits.any fun w => match w.who with
        | .piece i _ => i == e.id
        | _ => false
  let v := (if stall then 2 ^ 16 else 0) + slots.length * 256 + mine
  .next (s.sendTo fr 0 f.da.toNat
    { fr.res f .i64 (List.replicate fr.run v) with poison := fr.poisonOf f false })

/-! ### FESET and FECLR (R260) -/

/-- The level that bits [35:33] of a literal name (R260, R264). -/
def feLevel (l : W64) : Level := (levelOf (litLevel l)).getD .cs

/-- The check of a range of granules: both ends aligned, the range valid (R260). -/
def State.checkFe (s : State) (fr : Firing) (ns : List Nat) (j : Nat) (a : Ask) : Ask × State :=
  let n := at! ns j 0
  let lv := feLevel fr.slot.lit
  if a.va % 16 ≠ 0 || n % 16 ≠ 0 then s.stopAsk fr j a { cause := 5, sub := 7, addr := a.va }
  else if n ≠ 0 && !s.rangeBlocked fr.cluster lv a.va n && !s.scratchValid fr.names.part fr.cluster lv a.va n then
    s.stopAsk fr j a { cause := 5, sub := 6, addr := a.va }
  else ({ a with ia := a.va, data := w64 n }, s)

/-- FESET or FECLR (R260); data2 holds operand A, params 1 for FESET. -/
def State.feWord (s : State) (f : Fields) (op : Nat) (kind : OpKind) : State :=
  let fr := s.run.cur
  s.command f op (fr.portIs f.sa.toNat (· = .a))
    (fun j => { kind := kind, va := (fr.elemA f j).toNat, data2 := fr.elemA f j, fmt := .a })
    ((s.i64B fr f).map fun ns t j a => t.checkFe fr ns j a)

/-- FESET (R260). -/
def execFeset (f : Fields) (s : State) : Result := .next (s.feWord f 0xC5 .feset)
/-- FECLR (R260). -/
def execFeclr (f : Fields) (s : State) : Result := .next (s.feWord f 0xC6 .feclr)

/-- The granules of a range, in ascending order: a guard granule is noted and left, the others change, and a
full one serves its waits (R61, R64, R260). -/
def State.runFe (s : State) (o : Op) (v : Bool) : State :=
  let lv := feLevel o.lit
  s.afterLate o [(lv, o.ia, o.data.toNat)] <|
  let s := (upto (o.data.toNat / 16)).foldl (fun (s : State) i =>
    let x := s.spotOf o.names.part o.cluster o.elem lv (o.ia + 16 * i)
    if s.guarded x then s.noteGuard o.names.part o.ctx (guardRecord (o.site s) lv x)
    else
      let s := s.setFull x v
      if v then s.releaseFull x else s) s
  s.finish o o.operand

/-! ### SHADOW and PUBLISH (R165, R261, R262) -/

/-- The check of a range base for SHADOW and PUBLISH: a valid range that grants RD and W (log 19, DEDUCED). -/
def State.checkBase (s : State) (fr : Firing) (va n : Nat) : Except Trap Nat :=
  match rangeCheck (s.rangesOf fr.names.part fr.ctx) va n { rd := true, w := true } with
  | some ia => .ok ia
  | none => .error { cause := 5, sub := 3, addr := va }

/-- SHADOW (R261): ia holds S, params H, which a DROP does not read: the pair names its own. -/
def execShadow (f : Fields) (s : State) : Result :=
  let fr := s.run.cur
  let n := bits fr.slot.lit 15 0 * 2 ^ 16
  let drop := bit fr.slot.lit 32
  let check (t : State) (j : Nat) (a : Ask) : Ask × State :=
    match t.checkBase fr a.va n, t.checkBase fr a.data.toNat n with
    | .ok x, .ok y => ({ a with ia := x, params := [y] }, t)
    | .error e, _ => t.stopAsk fr j a e
    | .ok x, .error e => if drop then ({ a with ia := x, params := [0] }, t) else t.stopAsk fr j a e
  .next (s.command f 0xC3 (fr.twoAddr f)
    (fun j => { kind := .shadow (bit fr.slot.lit 32), va := (fr.elemA f j).toNat, data := fr.elemB f j, fmt := .i64 })
    (some check))

/-- PUBLISH (R262). -/
def execPublish (f : Fields) (s : State) : Result :=
  let fr := s.run.cur
  let check (t : State) (j : Nat) (a : Ask) : Ask × State :=
    match t.checkBase fr a.va 1 with
    | .ok x => ({ a with ia := x }, t)
    | .error e => t.stopAsk fr j a e
  .next (s.command f 0xC4 (fr.portIs f.sa.toNat (· = .a))
    (fun j => { kind := .publish, va := (fr.elemA f j).toNat, data2 := fr.elemA f j, fmt := .a }) (some check))

/-- The leaves of a range: offset of each page in the range, its word, its address, log₂ of its size; none
where some page has no valid leaf, or one that does not lie whole in the range. -/
def State.leavesOf (s : State) (p asid ia n : Nat) : Nat → Nat → Option (List (Nat × W64 × Nat × Nat))
  | 0, _ => some []
  | k + 1, off =>
    if n ≤ off then some []
    else
      match s.findLeaf p asid (ia + off) with
      | .error _ => none
      | .ok (e, a, z) =>
        if (ia + off) % 2 ^ z ≠ 0 || n < off + 2 ^ z then none
        else (s.leavesOf p asid ia n k (off + 2 ^ z)).map fun r => (off, e, a, z) :: r

/-- Two ranges can be paired: the same leaf sizes, all with RD and W, none migrating (R261). -/
def State.pairable (s : State) (p asid a b n : Nat) : Bool :=
  match s.leavesOf p asid a n (n / 2 ^ 16) 0, s.leavesOf p asid b n (n / 2 ^ 16) 0 with
  | some xs, some ys =>
    let ok (e : W64) : Bool := leafRd e && leafW e && !leafMig e
    xs.map (fun x => (x.1, x.2.2.2)) = ys.map (fun x => (x.1, x.2.2.2))
      && xs.all (fun x => ok x.2.1) && ys.all fun x => ok x.2.1
  | _, _ => false

/-- No line of a range has an open transaction or a lease, so that its homes can block it (R165). -/
def State.rangeFree (s : State) (asid ia n : Nat) : Bool :=
  (s.mem.txns.all fun t => t.req.asid ≠ asid || !overlaps (64 * t.req.line) 64 ia n)
    && s.mem.leases.all fun e => e.asid ≠ asid || !overlaps (64 * e.line) 64 ia n

/-- Every cached copy of a range is written back and discarded (R165). -/
def State.flushRange (s : State) (p asid ia n : Nat) : State :=
  (s.cachedLines asid ia n).foldl (fun s l => s.flushLine p asid l) s

/-- The refusals of SHADOW (R261). -/
def State.shadowRefused (s : State) (p asid a b n : Nat) (drop : Bool) : Bool :=
  let live := (s.part p).shadows
  if drop then !(live.any fun r => r.asid == asid && r.s == a && r.size == n)
  else
    a % 2 ^ 16 ≠ 0 || b % 2 ^ 16 ≠ 0 || overlaps a n b n || 64 ≤ live.length
      || (live.any fun r => r.asid == asid && (overlaps a n r.s r.size || overlaps a n r.h r.size
        || overlaps b n r.s r.size || overlaps b n r.h r.size))
      || !s.pairable p asid a b n

/-- A SHADOW whose turn has come: refused, or the pair is made or removed at the SHADOW point (R261). It waits
while a line of the ranges is not free. -/
def State.runShadow (s : State) (o : Op) (drop : Bool) : State :=
  let p := o.names.part
  let asid := s.asidOf p o.ctx
  let n := bits o.lit 15 0 * 2 ^ 16
  let pair := (s.part p).shadows.find? fun r => r.asid == asid && r.s == o.ia && r.size == n
  let b := match pair with
    | some r => if drop then r.h else at! o.params 0 0
    | none => at! o.params 0 0
  if s.shadowRefused p asid o.ia b n drop then s.finish o (o.good 0)
  else if !s.rangeFree asid o.ia n || !s.rangeFree asid b n then s
  else
    let s := (s.flushRange p asid o.ia n).flushRange p asid b n
    let s := s.modPart p fun x =>
      { x with shadows := if drop then x.shadows.filter fun r => !(r.asid == asid && r.s == o.ia && r.size == n)
               else x.shadows ++ [⟨asid, o.ia, b, n⟩] }
    s.finish o (o.good 1)

/-- A PUBLISH whose turn has come: refused where its operand is no S of a live pair; else it has passed step 1
of R165 and is parked until its point. -/
def State.runPublish (s : State) (o : Op) : State :=
  let asid := s.asidOf o.names.part o.ctx
  if (s.part o.names.part).shadows.any fun r => r.asid == asid && r.s == o.ia then s.park o []
  else s.refuse o { cause := 5, sub := 11, addr := o.ia }

/-- The leaves of S and H exchange their FRAME fields in the tables in memory (R262). -/
def State.swapLeaves (s : State) : List ((Nat × W64 × Nat × Nat) × (Nat × W64 × Nat × Nat)) → State
  | [] => s
  | (x, y) :: r =>
    let fx := bits x.2.1 47 16
    let fy := bits y.2.1 47 16
    let s := s.writePa x.2.2.1 (leBytes 8 (setBits x.2.1 47 16 fy).toNat)
    let s := s.writePa y.2.2.1 (leBytes 8 (setBits y.2.1 47 16 fx).toNat)
    s.swapLeaves r

/-- Translation entries of a range dropped in every slice. -/
def State.dropXlat (s : State) (asid ia n : Nat) : State :=
  { s with mem := { s.mem with xlat := s.mem.xlat.filter fun x =>
      !(x.asid == asid && overlaps (x.page * 2 ^ x.size) (2 ^ x.size) ia n) } }

/-- PUBLISH_POINT (R165, R262; subject: op): refused where its pair has been dropped meanwhile, or where its pages no longer fit (log
97, DESIGN CHOICE); else recall, exchange of the leaves and the publish point, at which the
whole range changes; waits are tested against the new content, and the result leaves. -/
def execPublishPoint (s : State) : Result :=
  match s.op? s.run.subj.a with
  | none => .next s
  | some o =>
    let p := o.names.part
    let asid := s.asidOf p o.ctx
    if (s.part p).stopped then .next s else
    match (s.part p).shadows.find? fun r => r.asid == asid && r.s == o.ia with
    | none =>
      if o.kind = .publish && o.phase = .parked then .next (s.refuse o { cause := 5, sub := 11, addr := o.ia }) else .next s
    | some r =>
      if o.kind ≠ .publish || o.phase ≠ .parked || !s.rangeFree asid r.s r.size || !s.rangeFree asid r.h r.size then .next s
      else
        match s.leavesOf p asid r.s r.size (r.size / 2 ^ 16) 0, s.leavesOf p asid r.h r.size (r.size / 2 ^ 16) 0 with
        | some xs, some ys =>
          if (xs.any fun x => leafMig x.2.1) || ys.any fun x => leafMig x.2.1 then .next s
          else
            let s := (s.flushRange p asid r.s r.size).swapLeaves (List.zip xs ys)
            let s := (s.dropXlat asid r.s r.size).dropXlat asid r.h r.size
            .next ((s.wakeIa p asid r.s r.size).finish o o.operand)
        | _, _ => .next (s.refuse o { cause := 5, sub := 11, addr := o.ia })

/-! ### WAYMASK, ALLOC and FREE (R263, R264) -/

/-- WAYMASK: privileged; an unprivileged one changes nothing, whatever its operand's format (R209, R263; log 35, DEDUCED). -/
def execWaymask (f : Fields) (s : State) : Result :=
  let fr := s.run.cur
  let priv := match s.ctx? fr.names.part fr.ctx with
    | some x => x.priv
    | none => false
  let check (t : State) (j : Nat) (a : Ask) : Ask × State :=
    if priv then (a, t) else if j = 0 then t.stopAsk fr j a { cause := 2, sub := 1 } else ({ a with dead := true }, t)
  .next (s.command f 0xC8 (!priv || fr.portIs f.sa.toNat (· = .i64))
    (fun j => { kind := .waymask, data := fr.elemA f j, fmt := .i64 }) (some check))

/-- A WAYMASK whose turn has come writes the mask of its home cluster (R58, R263). The elements of a firing, or of a WRSYS to
CLWAYS (params = [9]), do so one after the other in wave order (R263, R407). -/
def State.runWaymask (s : State) (o : Op) : State :=
  if s.work.ops.any fun q => q.kind = .waymask && q.gather == o.gather && q.j < o.j then s
  else
    match s.writeMask o.names.part (s.homeCluster o) o.data (some o.id) with
    | .busy => s
    | .refused => s.finishMask o false
    | .done t => t.finishMask o true
    | .begun t => t.modOp o.id fun x => { x with phase := .parked }

/-- The bank that an ALLOC or a FREE names: a cluster's scratch or a slice's, none where there is no such
bank (R264). -/
def State.bankOf (s : State) (p c : Nat) (lv : Level) (j : Nat) : Option Bank :=
  match lv with
  | .cs => if j = 0 then some (.cs c) else none
  | .sg => if j < 4 then some (.cs (segCluster c j)) else none
  | .ss => ((s.part p).slicemap[j]?).map .ss
  | _ => none

/-- Bytes of a bank, and how many live regions it holds at most (R264). -/
def State.bankSize (s : State) : Bank → Nat
  | .cs c => s.csSize c
  | .ss _ => 2 ^ 19
def bankMax : Bank → Nat
  | .cs _ => 64
  | .ss _ => 256

/-- An offset passes the tests of Alloc (R264). -/
def allocFits (rs : List Region) (size m o : Nat) : Bool :=
  32 ≤ o && o + m + 32 ≤ size && rs.all fun r =>
    !overlaps (o - 32) (m + 64) r.off r.len && !overlaps o m (r.off - 32) (r.len + 64)

/-- The lowest offset that passes: 32, or one that follows another region closely, tried in order. -/
def allocAt (rs : List Region) (size m : Nat) : Option Nat :=
  let cands := 32 :: rs.flatMap fun r => [r.off + r.len + 32, r.off + r.len + 64]
  minBy id (cands.filter fun o => allocFits rs size m o)

/-- ALLOC (R264): data2 holds the bank's number. -/
def execAlloc (f : Fields) (s : State) : Result :=
  let fr := s.run.cur
  let bs := if f.sb = 0x7F then some [] else s.i64B fr f
  .next (s.command f 0xC9 (fr.portIs f.sa.toNat (· = .i64))
    (fun j => { kind := .alloc, data := fr.elemA f j, fmt := .a })
    (bs.map fun v t j a => ({ a with data2 := w64 (at! v j 0) }, t)))

/-- The offset of a region as a token names it (R54, R264). -/
def encodeOff (lv : Level) (j o : Nat) : Nat :=
  match lv with
  | .sg => j * 2 ^ 19 + o
  | .ss => j * 2 ^ 19 + o
  | _ => o

/-- An ALLOC whose turn has come (R63, R264). A bank that does not exist holds no region (log 20, DEDUCED). -/
def State.runAlloc (s : State) (o : Op) : State :=
  let lv := feLevel o.lit
  let j := o.data2.toNat
  let none_ := s.finish o (o.good (2 ^ 64 - 1))
  match s.bankOf o.names.part o.cluster lv j with
  | none => none_
  | some b =>
    let n := o.data.toNat
    let rs := s.mem.regions.filter fun r => r.bank = b
    let m := alignUp n 16
    if n = 0 || s.bankSize b < n || bankMax b ≤ rs.length then none_
    else
      match allocAt rs (s.bankSize b) m with
      | none => none_
      | some a =>
        let asid := s.asidOf o.names.part o.ctx
        let s : State := { s with mem := { s.mem with regions := s.mem.regions ++ [⟨b, a, m, o.names.part, asid⟩] } }
        let x : Spot := b.at_ a
        let s := s.setGuards (Region.guards ⟨b, a, m, o.names.part, asid⟩)
        let s := (upto (m / 16)).foldl (fun (s : State) i => s.setFull (x.add (16 * i)) false) s
        s.finish o (o.good (encodeOff lv j a))

/-- FREE (R264). -/
def execFree (f : Fields) (s : State) : Result :=
  let fr := s.run.cur
  .next (s.command f 0xCA (fr.portIs f.sa.toNat (· = .a))
    (fun j => { kind := .free, va := (fr.elemA f j).toNat, fmt := .i64 }) (some fun t _ a => (a, t)))

/-- The operation is an LDFE or a CTRWAIT. -/
def Op.awaits (o : Op) : Bool :=
  match o.kind with
  | .ldfe _ => true
  | .ctrWait => true
  | _ => false

/-- A waiting LDFE or CTRWAIT lies in the region, registered or turned away (R62, R135, R136). -/
def State.waitIn (s : State) (r : Region) : Bool :=
  s.work.ops.any fun o => o.awaits && (o.phase = .parked || o.phase = .turned) && !o.level.cached
    && (o.spot s).bank = some r.bank && overlaps (o.spot s).off (2 ^ o.width) r.off r.len

/-- A receiver ring lies in the region. -/
def State.ringIn (s : State) (r : Region) : Bool :=
  s.work.rings.any fun q => r.bank = .cs q.cluster && overlaps q.base (128 * q.n) r.off r.len

/-- A FREE whose turn has come (R264): 1 when the region goes, with the guards that it alone claims; else
0. -/
def State.runFree (s : State) (o : Op) : State :=
  let p := o.names.part
  let lv := feLevel o.lit
  let b := (s.bankOf p o.cluster lv (o.va / 2 ^ 19)).bind fun b => some (b, o.va % 2 ^ 19)
  let asid := s.asidOf p o.ctx
  match b with
  | none => s.finish o (o.good 0)
  | some (b, a) =>
    match s.mem.regions.find? fun r => r.bank = b && r.off == a && r.asid == asid && r.part == p with
    | none => s.finish o (o.good 0)
    | some r =>
      if s.waitIn r || s.ringIn r || s.copiesIn r.bank r.off r.len then s.finish o (o.good 0)
      else
        let s : State := { s with mem := { s.mem with regions := s.mem.regions.filter fun x => x ≠ r } }
        (s.clearGuards r).finish o (o.good 1)

end Sys2Proof.Machine
end

