-- ==== Sys2Proof/Machine/Tiles.lean ====
section
/-! DEFINITION. Tile references (R305, R316, R336), the tile instructions of elements: TCVT, TSTAT, CBLOAD, TSLICE
and TBUILD (R310 to R314, R330, R331), and the bank-side product GEMVB (R332 to R334). Their reads and writes
go in pieces (R157); each part's pieces done, the next part follows. -/

namespace Sys2Proof.Machine

/-! ### References (R305, R316, R321, R336) -/

/-- What a tile reference names: a packet in memory, an accumulator or an operand slot of an island. -/
inductive TileRef where
  | mem (level : Level) (addr : Nat)
  | acc (i : Nat)
  | slot (i : Nat)
deriving DecidableEq, Repr

/-- The refusal of R303, with the packet's SEQ. -/
def tileTrap (seq : Nat) : Trap := { cause := 3, sub := 2, info := seq }

/-- What a token element of format T or A names, for an island node or an element (R305, R316, R321, R336). Ones in the reserved field
of R305 are ignored (R3). -/
def tileRef (f : Fmt) (v : W64) (node : Bool) : Except Trap TileRef :=
  let lv := bits v 63 61
  let a := bits v 56 0
  let mem (l : Level) : Except Trap TileRef :=
    if a % 32 ≠ 0 then .error { cause := 5, sub := 7, addr := a }
    else .ok (.mem l a)
  if f = .a then (if bits v 63 57 ≠ 0 then .error (tileTrap 0) else mem .l1)
  else
    match lv with
    | 0 => mem .l1
    | 3 =>
      if !node || bits v 60 7 ≠ 0 || (!bit v 6 && 8 ≤ bits v 5 0) then .error (tileTrap 0)
      else .ok (if bit v 6 then .slot (bits v 5 0) else .acc (bits v 5 0))
    | 5 => if node then .error (tileTrap 0) else mem .cs
    | 6 => if node then .error (tileTrap 0) else mem .sg
    | 7 => mem .ss
    | _ => .error (tileTrap 0)

/-- The token carries references. -/
def refFmt (f : Fmt) : Bool := f = .t || f = .a

/-- The check of `n` bytes of a level for a context at a cluster (R35, R54, R55); at an offset that a change of scratch ways
concerns, the pieces wait for its end and are tested then (R58). -/
def State.bytesCheck (s : State) (p c cluster : Nat) (lv : Level) (a n : Nat) (need : Need) : Except Trap Nat :=
  if lv.cached then
    match rangeCheck (s.rangesOf p c) a n need with
    | some ia => .ok ia
    | none => .error { cause := 5, sub := 3, addr := a }
  else if s.rangeBlocked cluster lv a n || s.scratchValid p cluster lv a n then .ok a
  else .error { cause := 5, sub := 6, addr := a }

/-- The check of a packet's bytes for an engine operation. -/
def State.packetCheck (s : State) (e : EngOp) (lv : Level) (a n : Nat) (need : Need) : Except Trap Nat :=
  s.bytesCheck e.names.part e.ctx e.cluster lv a n need

/-! ### Reading in parts -/

/-- Every read whose bytes stand in `[lo, hi)` of the data is done. -/
def EngOp.got (e : EngOp) (lo hi : Nat) : Bool :=
  e.pieces.all fun x => x.write || x.got || x.off < lo || hi ≤ x.off

/-- The bytes of the reads in `[lo, hi)`, in their order; none where one of them was refused. -/
def EngOp.bytes (e : EngOp) (lo hi : Nat) : Option (List Byte) :=
  let ps := e.pieces.filter fun x => !x.write && lo ≤ x.off && x.off < hi
  if ps.all fun x => x.data.length = x.span.len then some (ps.flatMap fun x => x.data) else none

/-- The next free piece number. -/
def EngOp.nextPiece (e : EngOp) : Nat := e.pieces.foldl (fun m x => max m (x.id + 1)) 1

/-- Further reads of an operation: `n` bytes of a level from `a` (an IA or an offset), which stand at `off`. -/
def EngOp.alsoRead (e : EngOp) (lv : Level) (a n off : Nat) : EngOp :=
  { e with pieces := e.pieces ++ piecesOf false lv e.cluster a n off e.nextPiece }

/-- The writes of an operation: bytes to a level from `a`. -/
def writePieces (lv : Level) (cluster a : Nat) (bs : List Byte) (id : Nat) : List Piece :=
  (piecesOf true lv cluster a bs.length 0 id).map fun x => { x with data := slice bs x.off x.span.len }

/-- The operation is replaced. -/
def State.setEng (s : State) (e : EngOp) : State := s.modEng e.id fun _ => e

/-- A packet element's operation ends: its pieces are gone, and its element has its result. -/
def State.endTile (s : State) (e : EngOp) (r : Op → ElemRes) : State :=
  let s := s.dropEng e.id
  match s.op? e.starter with
  | some o => s.finish o (r o)
  | none => s

/-- A packet element's operation is refused: its trap, a poisoned result, nothing written (R303). -/
def State.refuseTile (s : State) (e : EngOp) (t : Trap) : State := (s.raise e.site t).endTile e Op.bad

/-- Where a reference of an element's operation leads: its level and address. -/
def tilePlace (v : W64) : Level × Nat :=
  match tileRef .t v false with
  | .ok (.mem l a) => (l, a)
  | _ => (.l1, 0)

/-- The codebooks of a partition (R302). -/
def State.books (s : State) (p : Nat) : List (List W32) := (s.part p).codebooks

/-- A count record of one packet (R306, R307). -/
def packetRecord (c : Counts) : StatRec :=
  { StatRec.zero with nan := c.nan, inf := c.inf, sat := c.sat, ufz := c.ufz, maxexp := c.maxexp, tiles := 1 }

/-! ### Presenting (R247, R310 to R331) -/

/-- A tile word of an element: `shape` gives the operation of an element from its operands, and the references
among them are checked (R303, R305, R401). -/
def State.tileWord (s : State) (f : Fields) (op : Nat) (fmtOk : Bool) (b : Option (List Nat)) (twoRefs : Bool)
    (shape : W64 → W64 → Ask) : List Op × State :=
  let fr := s.run.cur
  let fa := match fr.port f.sa.toNat with
    | some t => t.fmt
    | none => .t
  let fb := match fr.port f.sb.toNat with
    | some t => t.fmt
    | none => .t
  let dead := (upto fr.run).map fun j => { shape (fr.elemA f j) 0 with dead := true }
  let one (t : State) (j : Nat) (bv : Nat) : Ask × State :=
    let x := fr.elemA f j
    let a := shape x (w64 bv)
    match tileRef fa x false with
    | .error e => t.stopAsk fr j a e
    | .ok _ =>
      if twoRefs then
        match tileRef fb (w64 bv) false with
        | .error e => t.stopAsk fr j a e
        | .ok _ => (a, t)
      else (a, t)
  let (as, s) : List Ask × State :=
    if fr.poisonOf f false then (dead, s.poisonRecords fr (upto fr.run))
    else if !fmtOk then (dead, s.formatRecord fr f)
    else
      match b with
      | none => (dead, s.formatRecord fr f)
      | some bs => (upto fr.run).foldl (fun (x : List Ask × State) j =>
          let (a, t) := one x.2 j (at! bs j 0)
          (x.1 ++ [a], t)) ([], s)
  s.present fr f op as

/-- Elements of a port as numbers. -/
def Firing.elems (fr : Firing) (sel : Nat) : Option (List Nat) :=
  (fr.port sel).map fun t => padTo fr.run (t.data.map BitVec.toNat)

/-! ### Starting (R35, R157) -/

/-- The engine record of an operation of an element, with reads of `n` bytes of its packet from the start. -/
def State.readHead (s : State) (o : Op) (kind : EngKind) (lv : Level) (a n : Nat) : State :=
  match s.bytesCheck o.names.part o.ctx o.cluster lv a n { rd := true } with
  | .error t => s.refuse o t
  | .ok ia =>
    let (id, s) := s.newId
    let e := engOf s o id kind (piecesOf false lv o.cluster ia n 0 1) none
    let e : EngOp := { e with args := [o.data, o.data2], params := [0] }
    (s.addEng e).modOp o.id fun x => { x with phase := .sent }

/-- The 32 bytes of a header built by TBUILD (R330). -/
def builtHeader (l : W64) (seq : Nat) : List Byte := leBytes 8 (bits l 44 0) ++ leBytes 8 (seq % 2 ^ 32) ++ leBytes 16 0

/-- A TBUILD writes its header. -/
def State.startBuild (s : State) (o : Op) : State :=
  let (lv, a) := tilePlace o.data
  match s.bytesCheck o.names.part o.ctx o.cluster lv a 32 { w := true } with
  | .error t => s.refuse o t
  | .ok ia =>
    let (id, s) := s.newId
    let e := engOf s o id .tile (writePieces lv o.cluster ia (builtHeader o.lit o.data2.toNat) 1) none
    let e : EngOp := { e with args := [o.data, o.data2], params := [2] }
    (s.addEng e).modOp o.id fun x => { x with phase := .sent }

/-- A GEMVB is accepted: its chain place is performed, and its descriptor is read (R156, R334). -/
def State.startGemvb (s : State) (o : Op) : State :=
  match s.bytesCheck o.names.part o.ctx o.cluster .l1 o.va 64 { rd := true } with
  | .error t => s.refuse o t
  | .ok ia =>
    let (id, s) := s.newId
    let e := engOf s o id .gemvb (piecesOf false .l1 o.cluster ia 64 0 1) none
    let e : EngOp := { e with args := [o.data], params := [0], gather := some (o.gather, o.j) }
    (s.addEng e).endOp o

/-- A tile operation of an element begins. -/
def State.startTile (s : State) (o : Op) : State :=
  if o.poison then s.finish o o.bad
  else
    match o.kind with
    | .tbuild => s.startBuild o
    | .gemvb => s.startGemvb o
    | .cbload => s.readHead o .cbload .l1 o.va 1024
    | _ =>
      let (lv, a) := tilePlace o.data
      s.readHead o .tile lv a 32

/-- Unchained tile operations leave at once (R87). -/
def State.launchTiles (s : State) (os : List Op) : State :=
  os.foldl (fun s o => if o.chained then s else s.startTile o) s

/-- TCVT (R310). -/
def execTcvt (f : Fields) (s : State) : Result :=
  let fr := s.run.cur
  let (os, s) := s.tileWord f 0xA4 (fr.portIs f.sa.toNat refFmt && fr.portIs f.sb.toNat refFmt)
    (fr.elems f.sb.toNat) true fun a b => { kind := .tcvt, data := a, data2 := b, fmt := .t }
  .next (s.launchTiles os)

/-- TSTAT (R314). -/
def execTstat (f : Fields) (s : State) : Result :=
  let fr := s.run.cur
  let (os, s) := s.tileWord f 0xAA (fr.portIs f.sa.toNat refFmt) (some []) false
    fun a _ => { kind := .tstat, data := a, fmt := .i64 }
  .next (s.launchTiles os)

/-- TSLICE: the index from a port of any integer format, a constant or a keep register (R331). Format P marks a
result that has no format of its own. -/
def execTslice (f : Fields) (s : State) : Result :=
  let fr := s.run.cur
  let (os, s) := s.tileWord f 0xAC (fr.portIs f.sa.toNat refFmt) ((s.ownSource fr f.sb.toNat).map fun x => x.1) false
    fun a b => { kind := .tslice, data := a, data2 := b, fmt := .p }
  .next (s.launchTiles os)

/-- TBUILD (R330). -/
def execTbuild (f : Fields) (s : State) : Result :=
  let fr := s.run.cur
  let (os, s) := s.tileWord f 0xAD (fr.portIs f.sa.toNat refFmt) ((s.ownSource fr f.sb.toNat).map fun x => x.1) false
    fun a b => { kind := .tbuild, data := a, data2 := b, fmt := .t }
  .next (s.launchTiles os)

/-- A word whose operand is an address aligned to 64 bytes (R313, R332). -/
def State.lineWord (s : State) (f : Fields) (op : Nat) (kind : OpKind) (fmt : Fmt) : List Op × State :=
  let fr := s.run.cur
  let dead := (upto fr.run).map fun j => ({ kind := kind, data2 := fr.elemA f j, fmt := fmt, dead := true } : Ask)
  let one (t : State) (j : Nat) : Ask × State :=
    let x := fr.elemA f j
    let a : Ask := { kind := kind, va := x.toNat, data := x, data2 := x, fmt := fmt }
    if x.toNat % 64 ≠ 0 then t.stopAsk fr j a { cause := 5, sub := 7, addr := x.toNat } else (a, t)
  let (as, s) : List Ask × State :=
    if fr.poisonOf f false then (dead, s.poisonRecords fr (upto fr.run))
    else if !fr.addressed f then (dead, s.formatRecord fr f)
    else (upto fr.run).foldl (fun (x : List Ask × State) j =>
      let (a, t) := one x.2 j
      (x.1 ++ [a], t)) ([], s)
  s.present fr f op as

/-- CBLOAD: always chained, a release (R313). -/
def execCbload (f : Fields) (s : State) : Result := .next (s.lineWord f 0xA9 .cbload .a).2

/-- GEMVB (R332, R334): its result is the address of the descriptor. -/
def execGemvb (f : Fields) (s : State) : Result :=
  let (os, s) := s.lineWord f 0xA8 .gemvb .a
  .next (s.launchTiles os)

/-! ### Going on when pieces are done -/

/-- A position in one linear order of a memory, so that two byte ranges can be compared (R311): device memory,
a segment's scratch, slice scratch. -/
def linearAt (cluster : Nat) (lv : Level) (a : Nat) : Nat × Nat :=
  match lv with
  | .cs => (1, clusterRow cluster % 4 * 2 ^ 19 + a)
  | .sg => (1, a)
  | .ss => (2, a)
  | _ => (0, a)

/-- The packets of a TCVT overlap (R311). -/
def tilesOverlap (c : Nat) (x : Level × Nat) (n : Nat) (y : Level × Nat) (m : Nat) : Bool :=
  let p := linearAt c x.1 x.2
  let q := linearAt c y.1 y.2
  p.1 == q.1 && overlaps p.2 n q.2 m

/-- A TCVT whose source has arrived: encoded and written, or refused (R311, R312; log 36, DEDUCED). -/
def State.tcvtOn (s : State) (e : EngOp) (h : TileHdr) (bs : List Byte) : State :=
  let c := tileCtl e.lit
  let dst := tilePlace (at! e.args 1 0)
  let src := tilePlace (at! e.args 0 0)
  match encodeTile c h.plain h.seq (h.decode bs (s.books e.names.part)) with
  | none => s.refuseTile e (tileTrap h.seq)
  | some (out, enc) =>
    match s.packetCheck e dst.1 dst.2 out.length { w := true }, s.packetCheck e src.1 src.2 h.length { rd := true } with
    | .error t, _ => s.refuseTile e t
    | _, .error t => s.refuseTile e t
    | .ok d, .ok a =>
      if tilesOverlap e.cluster (src.1, a) h.length (dst.1, d) out.length then s.refuseTile e (tileTrap h.seq)
      else
        let dec := countRows (h.decode bs (s.books e.names.part))
        let cnt : Counts := { dec with sat := enc.sat, ufz := enc.ufz }
        let s := if c.sten then s.sendStat e.names e.ctx c.stree (packetRecord cnt) else s
        s.setEng { e with params := [2], pieces := writePieces dst.1 e.cluster d out e.nextPiece }

/-- The summary word of TSTAT (R314). -/
def tstatWord (c : Counts) : Nat :=
  c.nan % 2 ^ 16 * 2 ^ 48 + c.inf % 2 ^ 16 * 2 ^ 32 + c.zero % 2 ^ 16 * 2 ^ 16 + c.maxexp % 2 ^ 9

/-- A TSTAT whose packet has arrived (R314). -/
def State.tstatOn (s : State) (e : EngOp) (h : TileHdr) (bs : List Byte) : State :=
  let cnt := countRows (h.decode bs (s.books e.names.part))
  let s := if bit e.lit 19 then s.sendStat e.names e.ctx (bits e.lit 23 20) (packetRecord cnt) else s
  s.endTile e fun o => o.good (tstatWord cnt)

/-- Elements of a packet that TSLICE can read (R331). -/
def TileHdr.count (h : TileHdr) : Nat := if h.plain then h.rows * h.cols else h.rows * h.k

/-- The offset of element `x` of the row-major body (R304, R331). -/
def TileHdr.elemAt (h : TileHdr) (x : Nat) : Nat :=
  let per := max 1 (if h.plain then h.cols else h.k)
  h.dataAt (x / per) + x % per * (tileBits h.fmt / 8)

/-- The token format of a packet that TSLICE reads. -/
def sliceFmt (f : Nat) : Fmt :=
  match f with
  | 0 => .f32 | 1 => .bf16 | _ => .f16

/-- What follows a latched header: the body's reads after the check of the whole packet, or a refusal
(R303, R305, R326). -/
def State.tileHead (s : State) (e : EngOp) (k : OpKind) (bs : List Byte) : State :=
  match parseTile bs with
  | none => s.refuseTile e (tileTrap (tileSeq bs))
  | some h =>
    let src := tilePlace (at! e.args 0 0)
    let x := (at! e.args 1 0).toNat
    match s.packetCheck e src.1 src.2 h.length { rd := true } with
    | .error t => s.refuseTile e t
    | .ok a =>
      if k = .tslice then
        if 2 < h.fmt || h.count ≤ x then s.refuseTile e (tileTrap h.seq)
        else s.setEng { e.alsoRead src.1 (a + h.elemAt x) (tileBits h.fmt / 8) 32 with params := [1] }
      else if h.used = 32 then s.refuseTile e (tileTrap h.seq)
      else s.setEng { e.alsoRead src.1 (a + 32) (h.used - 32) 32 with params := [1] }

/-- An element's tile operation goes on when its pieces allow (R311, R314, R330, R331). -/
def State.tileOn (s : State) (e : EngOp) : State :=
  match s.op? e.starter with
  | none => if e.pieces.all fun x => x.got then s.dropEng e.id else s
  | some o =>
    match at! e.params 0 0 with
    | 0 =>
      if !e.got 0 32 then s
      else
        match e.bytes 0 32 with
        | none => s.endTile e Op.bad
        | some bs => s.tileHead e o.kind bs
    | 1 =>
      if !e.got 32 (2 ^ 30) then s
      else
        match e.bytes 0 32, e.bytes 32 (2 ^ 30) with
        | some hd, some bs =>
          match parseTile hd with
          | none => s.endTile e Op.bad
          | some h =>
            if o.kind = .tslice then
              s.endTile e fun _ => ⟨w64 (leNat bs), sliceFmt h.fmt, false⟩
            else if o.kind = .tstat then s.tstatOn e h (hd ++ bs)
            else s.tcvtOn e h (hd ++ bs)
        | _, _ => s.endTile e Op.bad
    | _ =>
      if !e.pieces.isEmpty then s
      else if e.bad then s.endTile e Op.bad
      else s.endTile e fun o => o.good (if o.kind = .tcvt then o.data2.toNat else o.data.toNat)

/-- A CBLOAD goes on: with its 16 lines read, every decoder of the partition holds the table (R313). -/
def State.cbloadOn (s : State) (e : EngOp) : State :=
  if !e.got 0 1024 then s
  else
    match e.bytes 0 1024 with
    | none => s.endTile e Op.bad
    | some bs =>
      let table := (upto 256).map fun j => (BitVec.ofNat 32 (leNat (slice bs (4 * j) 4)) : W32)
      let s := s.modPart e.names.part fun x => { x with codebooks := setAt x.codebooks (bits e.lit 33 32) table }
      s.endTile e fun o => o.good o.data.toNat

/-! ### GEMVB (R332 to R334) -/

/-- A descriptor of GEMVB (R332). -/
structure Gemv where
  bfmt    : Nat
  cbid    : Nat
  af32    : Bool
  acc     : Bool
  sten    : Bool
  stree   : Nat
  n       : Nat
  k       : Nat
  bbase   : Nat
  bstride : Nat
  sbase   : Nat
  abase   : Nat
  ybase   : Nat
deriving DecidableEq, Repr

/-- Bytes of a row of B. -/
def Gemv.rowBytes (d : Gemv) : Nat := d.k * tileBits d.bfmt / 8

/-- The descriptor that 64 bytes hold; none where it breaks a "must" (R332). -/
def parseGemv (bs : List Byte) : Option Gemv :=
  let w (i : Nat) : Nat := leNat (slice bs (8 * i) 8)
  let d : Gemv :=
    { bfmt := nbits (w 0) 3 0, cbid := nbits (w 0) 5 4, af32 := (w 0).testBit 6, acc := (w 0).testBit 7,
      sten := (w 0).testBit 8, stree := nbits (w 0) 12 9, n := w 0 / 2 ^ 32, k := w 1 % 2 ^ 32, bbase := w 2,
      bstride := w 3, sbase := w 4, abase := w 5, ybase := w 6 }
  if (d.bfmt = 1 || d.bfmt = 3 || d.bfmt = 6 || d.bfmt = 9) && (d.bfmt = 9 || d.cbid = 0) && nbits (w 0) 31 13 = 0
      && 1 ≤ d.n && d.k % 32 = 0 && d.rowBytes % 64 = 0 && w 1 / 2 ^ 32 = 0 && d.bbase % 256 = 0
      && d.bstride % 256 = 0 && d.rowBytes ≤ d.bstride && d.ybase % 4 = 0 && w 7 = 0
  then some d else none

/-- Where the operands of a GEMVB stand among its data. -/
def gemvB : Nat := 2 ^ 80
def gemvS : Nat := 2 ^ 160
def gemvA : Nat := 2 ^ 161
def gemvY : Nat := 2 ^ 162

/-- Bytes of the vector, and of the scales. -/
def Gemv.aBytes (d : Gemv) : Nat := d.k * if d.af32 then 4 else 2
def Gemv.sBytes (d : Gemv) : Nat := if d.bfmt = 1 then 0 else d.n * (d.k / 32)

/-- The check of `n` bytes of device memory for a GEMVB; of no bytes there is none (K may be 0, R332). -/
def State.gemvCheck (s : State) (e : EngOp) (a n : Nat) (need : Need) : Except Trap Nat :=
  if n = 0 then .ok 0 else s.packetCheck e .l1 a n need

/-- The lines of B, read at their channels (R169, R333). -/
def State.gemvRows (s : State) (e : EngOp) (d : Gemv) : Nat → Except Trap (List Piece)
  | 0 => .ok []
  | i + 1 => do
    let before ← s.gemvRows e d i
    let ia ← s.gemvCheck e (addr64 d.bbase (i * d.bstride : Nat)) d.rowBytes { rd := true }
    let id := before.length + 2
    return before ++ (upto (d.rowBytes / 64)).map fun l =>
      (⟨id + l, false, ⟨.mem, ia + 64 * l, 64, e.cluster, 0⟩, gemvB + i * d.rowBytes + 64 * l, [], false, false, false⟩ : Piece)

/-- The reads of a GEMVB after its descriptor; the trap of a range that fails its check (R171). -/
def State.gemvReads (s : State) (e : EngOp) (d : Gemv) : Except Trap EngOp := do
  let rows ← s.gemvRows e d d.n
  let sc ← s.gemvCheck e d.sbase d.sBytes { rd := true }
  let a ← s.gemvCheck e d.abase d.aBytes { rd := true }
  let y ← s.gemvCheck e d.ybase (4 * d.n) { rd := d.acc, w := true }
  let e : EngOp := { e with pieces := e.pieces ++ rows }
  let e := if d.sBytes = 0 then e else e.alsoRead .l1 sc d.sBytes gemvS
  let e := e.alsoRead .l1 a d.aBytes gemvA
  return if d.acc then e.alsoRead .l1 y (4 * d.n) gemvY else e

/-- The counts that a computed GEMVB keeps in its `params` for the record of its completion: STREE and five counts (R334). -/
def gemvKept (tree : Nat) (c : Counts) : List Nat := [2, tree, c.nan, c.inf, c.sat, c.ufz, c.maxexp]

/-- The statistics record of a GEMVB that is complete (R306, R334). -/
def State.gemvRecord (s : State) (e : EngOp) : State :=
  match e.params with
  | [2, tree, nan, inf, sat, ufz, maxexp] =>
    s.sendStat e.names e.ctx tree (packetRecord { nan := nan, inf := inf, sat := sat, ufz := ufz, maxexp := maxexp })
  | _ => s

/-- A GEMVB ends: its record is sent, and its result is the descriptor's address. -/
def State.endGemv (s : State) (e : EngOp) (bad : Bool) : State :=
  let s := (s.dropEng e.id).gemvRecord e
  match e.gather with
  | some (g, j) => s.deliver g j ⟨at! e.args 0 0, .a, bad⟩
  | none => s

/-- Every piece of a GEMVB has been performed; at SY its result waits for the context's posted writes, whose zero-length read
leaves now (R153, R160, R334). -/
def State.gemvOver (s : State) (e : EngOp) : State :=
  if e.scope = 3 && s.unposted e.names.part e.ctx e.flush then
    if e.flush.isNone then s.modEng e.id fun y => { y with flush := some s.run.nextId } else s
  else s.endGemv e false

/-- The values of row `i` of B (R298 to R301). -/
def Gemv.row (d : Gemv) (books : List (List W32)) (b sc : List Byte) : List FVal :=
  let vs := rowCodes d.bfmt d.k b (at! books d.cbid [])
  if d.bfmt = 1 then vs
  else List.zipWith (fun i v => scaled (at! sc (i / 32) 0).toNat v) (upto vs.length) vs

/-- y of one row (R333): the lines of each 256-byte piece summed in order, then the pieces. -/
def gemvRow (y : Nat) (per : Nat) (b a : List FVal) : Nat :=
  let lines := (List.zip (groupsOf per b (b.length + 1)) (groupsOf per a (a.length + 1)))
  let rec go : Nat → List (List FVal × List FVal) → Nat → Nat
    | 0, _, y => y
    | n + 1, ls, y =>
      if ls.isEmpty then y
      else
        let t := (ls.take 4).foldl (fun t p => addF32 t (dotGroup p.1 p.2)) 0
        go n (ls.drop 4) (addF32 y (unpack (fpOf .f32) t))
  go (lines.length + 1) lines y

/-- Row `i` of a GEMVB whose reads are done; none where one of them was refused (R463). -/
def EngOp.gemvValue (e : EngOp) (d : Gemv) (books : List (List W32)) (a : List FVal) (i : Nat) :
    Option (Nat × List FVal) := do
  let b ← e.bytes (gemvB + i * d.rowBytes) (gemvB + (i + 1) * d.rowBytes)
  let per := d.k / 32
  let sc ← if d.bfmt = 1 then some [] else (List.range per).mapM fun q => e.byteAt (gemvS + i * per + q)
  let y ← if d.acc then ((List.range 4).mapM fun q => e.byteAt (gemvY + 4 * i + q)).map leNat else some 0
  let row := d.row books b sc
  return (gemvRow y (512 / tileBits d.bfmt) row a, row)

/-- The bytes of consecutive rows whose value is there, each run with its first row. -/
def valueRuns : List (Nat × Option Nat) → List (Nat × List Byte)
  | [] => []
  | (i, v) :: r =>
    match v, valueRuns r with
    | none, rest => rest
    | some x, (j, bs) :: rest => if j = i + 1 then (i, leBytes 4 x ++ bs) :: rest else (i, leBytes 4 x) :: (j, bs) :: rest
    | some x, [] => [(i, leBytes 4 x)]

/-- At CL the result of a GEMVB is sent once its writes have left the cluster (R160, R334; log 38, DEDUCED). -/
def State.gemvRelease (s : State) (id : Nat) : State :=
  match s.eng? id with
  | none => s
  | some e =>
    match e.gather with
    | some (g, j) =>
      if e.scope = 0 && s.engDone e true then
        (s.modEng id fun y => { y with gather := none }).deliver g j ⟨at! e.args 0 0, .a, false⟩
      else s
    | none => s

/-- A GEMVB with all its reads done: y is written, and its counts are kept for its completion (R333, R334). -/
def State.gemvCompute (s : State) (e : EngOp) (d : Gemv) (y : Nat) : State :=
  let books := s.books e.names.part
  let w := if d.af32 then 4 else 2
  let a := (e.bytes gemvA gemvY).map fun bs =>
    (upto d.k).map fun k => unpack (fpOf (if d.af32 then .f32 else .bf16)) (leNat (slice bs (w * k) w))
  let rows := (upto d.n).map fun i => (i, a.bind fun a => e.gemvValue d books a i)
  let writes := (valueRuns (rows.map fun r => (r.1, r.2.map fun v => v.1))).flatMap fun r =>
    writePieces .l1 e.cluster (y + 4 * r.1) r.2 (e.nextPiece + 2 * r.1)
  let kept := if d.sten then gemvKept d.stree (countRows (rows.filterMap fun r => r.2.map fun v => v.2)) else [2]
  let e : EngOp := { e with params := kept, pieces := writes }
  if writes.isEmpty then (s.setEng e).gemvOver e else (s.setEng e).gemvRelease e.id

/-- A GEMVB goes on when its pieces allow; in reduced service it is refused (R446). -/
def State.gemvOn (s : State) (e : EngOp) : State :=
  match at! e.params 0 0 with
  | 0 =>
    if !e.got 0 64 then s
    else
      match e.bytes 0 64 with
      | none => s.endGemv e true
      | some bs =>
        match if s.dev.reduced.isSome then none else parseGemv bs with
        | none => (s.raise e.site (tileTrap 0)).endGemv e true
        | some d =>
          match s.gemvReads e d with
          | .error t => (s.raise e.site t).endGemv e true
          | .ok e => s.setEng { e with params := [1] }
  | 1 =>
    if !e.got 0 (2 ^ 200) then s
    else
      match (e.bytes 0 64).bind parseGemv with
      | none => s.endGemv e true
      | some d =>
        match s.gemvCheck e d.ybase (4 * d.n) { w := true } with
        | .error t => (s.raise e.site t).endGemv e true
        | .ok y => s.gemvCompute e d y
  | _ => if e.pieces.isEmpty then s.gemvOver e else s.gemvRelease e.id

end Sys2Proof.Machine
end

