-- ==== Sys2Proof/Machine/Islands.lean ====
section
/-! DEFINITION. Matrix islands (R315 to R329): the firing of an island node makes one operation for each wave;
the packets it names are read in pieces, and ISLAND_STEP performs it on accumulators and operand slots as one
step. -/

namespace Sys2Proof.Machine

/-! ### Island state (R315) -/

/-- An accumulator at the load of its section. -/
def Acc.zero : Acc := ⟨false, 64, 64, 0, List.replicate 4096 0⟩

/-- The channel of a name. -/
def State.channel? (s : State) (n : Names) : Option Channel :=
  s.ldr.channels.find? fun c => c.part == n.part && c.lsec == n.lsec && c.chan == n.block

/-- The state with a channel passed through `f`. -/
def State.modChannel (s : State) (n : Names) (f : Channel → Channel) : State :=
  { s with ldr := { s.ldr with
      channels := modFirst (fun c => c.part == n.part && c.lsec == n.lsec && c.chan == n.block) f s.ldr.channels } }

/-- Where a channel stands: at column 0 of the first or the last row of its strip. An island has number 4 × strip
plus 0 or 1 at the top edge, 2 or 3 at the bottom (R19, R316); a stream port 32 × strip plus 0 to 15 at the top, 16 to
31 at the bottom (R338). -/
def Channel.cluster (c : Channel) : Nat :=
  let n := if c.island then 4 else 32
  mkCluster (c.unit / n) 0 (if c.unit % n < n / 2 then 0 else 11)

/-- An accumulator or operand slot that is replaced whole is poisoned no longer (R403). -/
def Channel.mended (c : Channel) (k : Nat) : Channel := { c with bad := c.bad.filter fun x => x ≠ k }

/-- Accumulator `i` of a channel. -/
def Channel.acc (c : Channel) (i : Nat) : Acc := at! c.accs i Acc.zero
/-- Element (i, j) of an accumulator. -/
def Acc.get (a : Acc) (i j : Nat) : W32 := at! a.elems (64 * i + j) 0

/-- An accumulator with a kind, a shape and a SEQ, whose region holds `g` and whose other elements are zero. -/
def Acc.make (int : Bool) (m n : Nat) (seq : W32) (g : Nat → Nat → Nat) : Acc :=
  { int := int, rows := m, cols := n, seq := seq,
    elems := (upto 64).flatMap fun i => (upto 64).map fun j =>
      if i < m && j < n then BitVec.ofNat 32 (g i j) else 0 }

/-- The reference of an accumulator, of an operand slot (R316). -/
def accRef (i : Nat) : Nat := 3 * 2 ^ 61 + i
def slotRef (i : Nat) : Nat := 3 * 2 ^ 61 + 2 ^ 6 + i

/-! ### Operations of a node (R318, R320, R321)

The operation of a node is kept among the engine operations. `args` holds its operands, `params` how far its
two packets have come (0 the header is read, 1 the body, 2 no packet in memory), the format codes of the
operands, the stop level, and the SEQ of operand B's packet, `info` that of A's; once the writes of a TST run, its kind is
`.tst`. -/

/-- The operation of wave `j` of a firing. -/
def nodeEng (s : State) (fr : Firing) (f : Fields) (id j : Nat) : EngOp :=
  let v (sel : Nat) : W64 := match fr.port sel with
    | some t => at! t.data j 0
    | none => 0
  let code (sel : Nat) : Nat := match fr.port sel with
    | some t => t.fmt.code
    | none => 15
  { id := id, starter := id, chained := false, kind := .tile, names := fr.names, ctx := fr.ctx,
    asid := s.asidOf fr.names.part fr.ctx, wave := fr.wave + j, cluster := fr.cluster, scope := 0, pieces := [],
    bad := false, ctr := none, gather := none, word := fr.slot.word, lit := fr.slot.lit,
    args := [v f.sa.toNat, v f.sb.toNat],
    params := [2, 2, code f.sa.toNat, code f.sb.toNat, fr.stopOf f, 0], info := 0, flush := none }

/-- The site of an operation at a port of its node: SLOT is 4 × node + port (R398). -/
def EngOp.portSite (e : EngOp) (port : Nat) : Site := { e.site with port := port }

/-- The operation performs nothing; its result will be poisoned (R303, R321). -/
def EngOp.spoil (e : EngOp) : EngOp := { e with bad := true, pieces := [] }

/-- INFO of a format mismatch: the format codes of A and B; 0 for an operand that no token carries (R400). -/
def EngOp.fmtInfo (e : EngOp) : Nat :=
  let code (i : Nat) : Nat := if at! e.params i 15 = 15 then 0 else at! e.params i 0
  code 2 + 16 * code 3

/-- The reference of operand A or B. -/
def EngOp.ref (e : EngOp) (b : Bool) : Except Trap TileRef :=
  let c := at! e.params (if b then 3 else 2) 15
  let f := (Fmt.ofCode c).getD .i64
  if !refFmt f then .error { cause := 3, sub := 1, info := e.fmtInfo }
  else tileRef f (at! e.args (if b then 1 else 0) 0) true

/-- The header reads of a packet operand: phase 0 for that operand, and its pieces. -/
def State.nodeRead (s : State) (e : EngOp) (b : Bool) (lv : Level) (a : Nat) : Except Trap EngOp :=
  match s.packetCheck e lv a 32 { rd := true } with
  | .error t => .error t
  | .ok ia =>
    let e := e.alsoRead lv ia 32 (if b then nodeB else 0)
    .ok { e with params := setAt e.params (if b then 1 else 0) 0 }

/-- The kinds of reference that an operand may be (R322, R326, R327, R329). -/
structure RefRule where
  mem  : Bool
  acc  : Bool
  slot : Bool

/-- An operand is checked, and read where it is a packet in memory. -/
def State.nodeOperand (s : State) (e : EngOp) (b : Bool) (rule : RefRule) (read : Bool) : Except Trap EngOp :=
  match e.ref b with
  | .error t => .error t
  | .ok (.mem lv a) => if !rule.mem then .error (tileTrap 0) else if read then s.nodeRead e b lv a else .ok e
  | .ok (.acc _) => if rule.acc then .ok e else .error (tileTrap 0)
  | .ok (.slot _) => if rule.slot then .ok e else .error (tileTrap 0)

/-- The operands of an operation in order, with the port whose check fails. -/
def State.nodePrep (s : State) (e : EngOp) : List (Bool × RefRule × Bool) → State × EngOp
  | [] => (s, e)
  | (b, rule, read) :: r =>
    match s.nodeOperand e b rule read with
    | .ok e => s.nodePrep e r
    | .error t => (s.raise (e.portSite (e.portOf b)) t, e.spoil)

/-- What a node's firing does (R318): one operation for each wave, in wave order; a poisoned operand spoils each,
with a POISON record where it is an address or an engine operand (R401). -/
def State.nodeWord (s : State) (f : Fields) (memory : Bool) (prep : State → EngOp → State × EngOp) : State :=
  let fr := s.run.cur
  (upto fr.run).foldl (fun (s : State) j =>
    let (id, s) := s.newId
    let e := nodeEng s fr f id j
    let bad := poisonedTok (fr.port f.sa.toNat) || poisonedTok (fr.port f.sb.toNat)
    let port := if poisonedTok (fr.port f.sa.toNat) then e.portOf false else e.portOf true
    let (s, e) : State × EngOp :=
      if bad then
        (if memory then s.raise (e.portSite port) { cause := 0x0C, sub := 1 } else s, e.spoil)
      else prep s e
    { s with work := { s.work with engs := s.work.engs ++ [e] } }) s

def anyPacket : RefRule := ⟨true, false, true⟩
def memPacket : RefRule := ⟨true, false, false⟩
def islandSrc : RefRule := ⟨false, true, true⟩
def accOnly : RefRule := ⟨false, true, false⟩

/-- TLD (R326). -/
def execTld (f : Fields) (s : State) : Result :=
  .next (s.nodeWord f true fun s e => s.nodePrep e [(false, memPacket, true)])
/-- TST (R327). -/
def execTst (f : Fields) (s : State) : Result :=
  .next (s.nodeWord f true fun s e => s.nodePrep e [(false, islandSrc, false), (true, memPacket, false)])
/-- MMA (R322). -/
def execMma (f : Fields) (s : State) : Result :=
  .next (s.nodeWord f true fun s e => s.nodePrep e [(false, anyPacket, true), (true, anyPacket, true)])
/-- MMAZ (R322). -/
def execMmaz (f : Fields) (s : State) : Result :=
  .next (s.nodeWord f true fun s e => s.nodePrep e [(false, anyPacket, true), (true, anyPacket, true)])
/-- TTRANS (R329). -/
def execTtrans (f : Fields) (s : State) : Result :=
  .next (s.nodeWord f false fun s e => s.nodePrep e [(false, accOnly, false)])
/-- TADD (R329). -/
def execTadd (f : Fields) (s : State) : Result :=
  .next (s.nodeWord f false fun s e => s.nodePrep e [(false, accOnly, false), (true, accOnly, false)])
/-- TSCALE (R329). -/
def execTscale (f : Fields) (s : State) : Result :=
  .next (s.nodeWord f false fun s e => s.nodePrep e [(false, accOnly, false)])

/-- The format that TFILL's value must have (R328). -/
def fillFmt (l : W64) : Fmt := if bit l 3 then .i32 else .f32

/-- TFILL: a value from a port must be F32 or I32 as IKIND says; a constant takes that format (R328). -/
def execTfill (f : Fields) (s : State) : Result :=
  .next (s.nodeWord f false fun s e =>
    let want := fillFmt e.lit
    if e.sel false < 0x40 then
      (s, { e with args := [w64 ((constIn want (e.sel false)).getD 0), 0] })
    else if at! e.params 2 15 = want.code then (s, e)
    else
      (s.raise (e.portSite (e.portOf false))
        { cause := 3, sub := 1, info := e.fmtInfo }, e.spoil))

/-! ### Going on when pieces are done (R321, R326) -/

/-- A packet operand whose header has arrived is latched: the body is read after the check of the whole packet,
or the operation is refused. In reduced service an island takes formats 0x0 to 0x2 only (R446). -/
def State.nodeHead (s : State) (e : EngOp) (b : Bool) : State × EngOp :=
  let lo := if b then nodeB else 0
  let i := if b then 1 else 0
  if e.bad || at! e.params i 2 ≠ 0 || !e.got lo (lo + 32) then (s, e)
  else
    let fail (t : Trap) : State × EngOp := (s.raise (e.portSite (e.portOf b)) t, e.spoil)
    match e.bytes lo (lo + 32), e.ref b with
    | some bs, .ok (.mem lv a) =>
      match (parseTile bs).filter fun h => s.dev.reduced.isNone || h.fmt ≤ 2 with
      | none => fail (tileTrap (tileSeq bs))
      | some h =>
        if e.word.toNat / 2 ^ 24 = 0xA0 && 16384 < h.length then fail (tileTrap h.seq)
        else
          match s.packetCheck e lv a h.length { rd := true } with
          | .error t => fail t
          | .ok ia =>
            let e := e.alsoRead lv (ia + 32) (h.used - 32) (lo + 32)
            let e : EngOp := { e with params := setAt e.params i 1 }
            (s, if b then { e with params := setAt e.params 5 h.seq } else { e with info := h.seq })
    | _, _ => (s, e.spoil)

/-- The result of an operation leaves on its node's links (R320): one token of run 1, format T. -/
def State.nodeSend (s : State) (e : EngOp) (v : Option Nat) : State :=
  let s := s.dropEng e.id
  match s.channel? e.names with
  | none => s
  | some c =>
    let slot := at! c.slots e.names.idx Slot.zero
    let t : Token := ⟨0, Names.zero, 0, e.ctx, e.wave, at! e.params 4 0, .t, v.isNone, [w64 (v.getD 0)], none, 0⟩
    let da := e.word.toNat / 8 % 8
    let port := e.names.sender e.cluster
    let s := if da % 2 = 1 then s.sendLink e.site port slot.lk0 t else s
    if 2 ≤ da then s.sendLink e.site port slot.lk1 t else s

/-- An operation of a node goes on when its pieces allow; a TST whose writes are done sends its result. -/
def State.nodeOn (s : State) (e : EngOp) : State :=
  if e.kind = .tst then (if e.pieces.isEmpty then s.nodeSend e (some (at! e.args 1 0).toNat) else s)
  else
    let (s, e) := s.nodeHead e false
    let (s, e) := s.nodeHead e true
    s.setEng e

/-! ### The step (R320, R322 to R329) -/

/-- Every byte that the operation fetches has arrived. -/
def EngOp.fetched (e : EngOp) : Bool :=
  e.bad || (e.pieces.all (fun x => x.got) && at! e.params 0 2 ≠ 0 && at! e.params 1 2 ≠ 0)

/-- Accumulators and operand slots that an operation uses; slots count from 8. -/
def EngOp.uses (e : EngOp) : List Nat :=
  let r (b : Bool) : List Nat := match e.ref b with
    | .ok (.acc i) => [i]
    | .ok (.slot i) => [8 + i]
    | _ => []
  let dst := match e.word.toNat / 2 ^ 24 with
    | 0xA0 => [8 + bits e.lit 5 0]
    | 0xA1 => []
    | _ => [bits e.lit 2 0]
  dst ++ r false ++ r true

/-- Accumulators and operand slots that an operation reads; MMA reads its own accumulator too. -/
def EngOp.sources (e : EngOp) : List Nat :=
  let op := e.word.toNat / 2 ^ 24
  if op = 0xA1 || op = 0xA2 then e.uses else e.uses.drop 1

/-- A piece of the operation waits in place on a fault. -/
def State.stalled (s : State) (e : EngOp) : Bool :=
  s.work.waits.any fun w => match w.who with
    | .piece i _ => i == e.id
    | _ => false

/-- The operations of the same channel that came before, a TST whose writes go on among them. -/
def State.earlier (s : State) (e : EngOp) : List EngOp :=
  (s.work.engs.takeWhile fun q => q.id ≠ e.id).filter fun q =>
    (q.kind = .tile || q.kind = .tst) && q.names.node && q.names.part == e.names.part && q.names.lsec == e.names.lsec
      && q.names.block == e.names.block

/-- The operation may take its step: its bytes are there, those of its node before it have taken theirs, and it uses nothing that
a stalled operation before it uses (R320, R321; log 46, DEDUCED). -/
def State.nodeReady (s : State) (e : EngOp) : Bool :=
  e.kind = .tile && e.names.node && e.fetched
    && (s.earlier e).all fun q =>
      (q.kind = .tst || q.names.idx ≠ e.names.idx) && (!s.stalled q || (q.uses.all fun u => !e.uses.contains u))

/-- The packet that an operand names: read from memory, or in an operand slot; its bytes with its header, of KIND 0;
else the SEQ of what is refused. -/
def State.nodePacket (e : EngOp) (c : Channel) (b : Bool) : Except Nat (TileHdr × List Byte) :=
  let lo := if b then nodeB else 0
  let bs : Option (List Byte) := match e.ref b with
    | .ok (.slot i) => some (at! c.oslots i [])
    | .ok (.mem _ _) => e.bytes lo (lo + 2 ^ 20)
    | _ => none
  match bs with
  | none => .error 0
  | some bs =>
    match parseTile bs with
    | some h => if h.plain then .error h.seq else .ok (h, bs)
    | none => .error (if bs.isEmpty then 0 else tileSeq bs)

/-- The operation is refused at its step (R303): it changes nothing. -/
def State.nodeRefuse (s : State) (e : EngOp) (port seq : Nat) : State :=
  (s.raise (e.portSite port) (tileTrap seq)).nodeSend e none

/-- A count record of an operand packet whose header asks for one (R306). -/
def State.nodeStat (s : State) (e : EngOp) (h : TileHdr) (rows : List (List FVal)) : State :=
  if h.sten then s.sendStat e.names e.ctx h.stree (packetRecord (countRows rows)) else s

/-- MMA and MMAZ (R322 to R325). -/
def State.stepMma (s : State) (e : EngOp) (c : Channel) (zero : Bool) : State :=
  match State.nodePacket e c false, State.nodePacket e c true with
  | .error q, _ => s.nodeRefuse e (e.portOf false) q
  | _, .error q => s.nodeRefuse e (e.portOf true) q
  | .ok (ha, ba), .ok (hb, bb) =>
    let i := bits e.lit 2 0
    let old := c.acc i
    let int := tileInt ha.fmt
    let shape := zero || (old.int == int && old.rows == ha.rows && old.cols == hb.rows)
    if ha.k ≠ hb.k || int ≠ tileInt hb.fmt || !shape then s.nodeRefuse e (e.portOf false) ha.seq
    else
      let ra := ha.decode ba (s.books e.names.part)
      let rb := hb.decode bb (s.books e.names.part)
      let g := min (groupSize ha.fmt) (groupSize hb.fmt)
      let at_ (x y : Nat) : Nat :=
        let base := if zero then 0 else (old.get x y).toNat
        let u := at! ra x []
        let v := at! rb y []
        if int then mmaInt base u v else mmaFloat g base u v
      let kept := Acc.make int ha.rows hb.rows (BitVec.ofNat 32 ha.seq) at_
      -- MMA leaves the elements outside its shape as they are
      let new := if zero then kept
        else { kept with elems := (upto 4096).map fun p =>
          if p / 64 < ha.rows && p % 64 < hb.rows then at! kept.elems p 0 else at! old.elems p 0 }
      let s := (s.nodeStat e ha ra).nodeStat e hb rb
      (s.modChannel e.names fun c => { c.mended i with accs := setAt c.accs i new }).nodeSend e (some (accRef i))

/-- TLD: the slot is replaced whole (R326); its pad bytes, which are never read, are zero (R304). -/
def State.stepTld (s : State) (e : EngOp) : State :=
  let i := bits e.lit 5 0
  match e.bytes 0 nodeB with
  | none => s.nodeSend e none
  | some bs =>
    let bs := bs ++ List.replicate (alignUp bs.length 32 - bs.length) 0
    (s.modChannel e.names fun c => { c.mended (8 + i) with oslots := setAt c.oslots i bs }).nodeSend e (some (slotRef i))

/-- The exact values of an accumulator's region (R327). -/
def Acc.values (a : Acc) : List (List FVal) :=
  (upto a.rows).map fun i => (upto a.cols).map fun j =>
    let x := (a.get i j).toNat
    if a.int then .fin (toS 32 x < 0) (toS 32 x).natAbs 0 else unpack (fpOf .f32) x

/-- The packet that a TST writes, with its counts; none where it is refused (R327). -/
def tstPacket (e : EngOp) (c : Channel) : Option (List Byte × Option Counts) :=
  match e.ref false with
  | .ok (.slot i) =>
    let bs := at! c.oslots i []
    if bs.isEmpty then none else some (bs, none)
  | .ok (.acc i) =>
    let a := c.acc i
    let k := tileCtl e.lit
    (encodeTile k (k.tfmt ≤ 2) a.seq.toNat a.values).map fun x => (x.1, some x.2)
  | _ => none

/-- TST: the source is read at the step, and its writes begin (R327; log 48, DEDUCED). -/
def State.stepTst (s : State) (e : EngOp) (c : Channel) : State :=
  let seq := match e.ref false with
    | .ok (.acc i) => (c.acc i).seq.toNat
    | .ok (.slot i) => tileSeq (at! c.oslots i [])
    | _ => 0
  match tstPacket e c, e.ref true with
  | some (bs, cnt), .ok (.mem lv a) =>
    match s.packetCheck e lv a bs.length { w := true } with
    | .error t => (s.raise (e.portSite (e.portOf true)) t).nodeSend e none
    | .ok ia =>
      let k := tileCtl e.lit
      let s := match cnt with
        | some n => if k.sten then s.sendStat e.names e.ctx k.stree (packetRecord n) else s
        | none => s
      s.setEng { e with kind := .tst, info := seq, pieces := writePieces lv e.cluster ia bs 1 }
  | _, _ => s.nodeRefuse e (e.portOf false) seq

/-- TFILL (R328). -/
def State.stepTfill (s : State) (e : EngOp) : State :=
  let i := bits e.lit 2 0
  let new := Acc.make (bit e.lit 3) (bits e.lit 11 6 + 1) (bits e.lit 17 12 + 1) 0 fun _ _ => (at! e.args 0 0).toNat
  (s.modChannel e.names fun c => { c.mended i with accs := setAt c.accs i new }).nodeSend e (some (accRef i))

/-- The scale of TSCALE: from a port of the source's format, or a constant in it; none for a mismatch (R329). -/
def scaleOf (e : EngOp) (int : Bool) : Option Nat :=
  let want : Fmt := if int then .i32 else .f32
  if e.sel true < 0x40 then constIn want (e.sel true)
  else if at! e.params 3 15 = want.code then some ((at! e.args 1 0).toNat % 2 ^ 32)
  else none

/-- TTRANS, TADD and TSCALE on the accumulators that their operands name (R329). -/
def State.stepAcc (s : State) (e : EngOp) (c : Channel) (op : Nat) : State :=
  let src (b : Bool) : Acc := match e.ref b with
    | .ok (.acc i) => c.acc i
    | _ => Acc.zero
  let a := src false
  let b := src true
  let i := bits e.lit 2 0
  let put (new : Acc) : State :=
    (s.modChannel e.names fun c => { c.mended i with accs := setAt c.accs i new }).nodeSend e (some (accRef i))
  let f := fpOf .f32
  match op with
  | 0xA5 => put (Acc.make a.int a.cols a.rows a.seq fun x y => (a.get y x).toNat)
  | 0xA6 =>
    if a.int ≠ b.int || a.rows ≠ b.rows || a.cols ≠ b.cols then s.nodeRefuse e (e.portOf false) a.seq.toNat
    else put (Acc.make a.int a.rows a.cols a.seq fun x y =>
      if a.int then (a.get x y).toNat + (b.get x y).toNat else (fpAdd f (a.get x y).toNat (b.get x y).toNat).1)
  | _ =>
    match scaleOf e a.int with
    | none =>
      (s.raise (e.portSite (e.portOf true))
        { cause := 3, sub := 1, info := e.fmtInfo }).nodeSend e none
    | some v => put (Acc.make a.int a.rows a.cols a.seq fun x y =>
        if a.int then (a.get x y).toNat * v else (fpMul f (a.get x y).toNat v).1)

/-- ISLAND_STEP (R320; subject: op): an island operation whose bytes have all arrived takes its step. One that reads a poisoned
accumulator or slot changes nothing and sends poison (R403; log 24, DESIGN CHOICE). -/
def execIslandStep (s : State) : Result :=
  match s.eng? s.run.subj.a with
  | none => .next s
  | some e =>
    match s.channel? e.names with
    | none => .next s
    | some c =>
      if !s.nodeReady e || (s.part e.names.part).stopped then .next s
      else if e.bad || e.sources.any c.bad.contains then .next (s.nodeSend e none)
      else
        match e.word.toNat / 2 ^ 24 with
        | 0xA0 => .next (s.stepTld e)
        | 0xA1 => .next (s.stepTst e c)
        | 0xA2 => .next (s.stepMma e c false)
        | 0xA3 => .next (s.stepMma e c true)
        | 0xAB => .next (s.stepTfill e)
        | op => .next (s.stepAcc e c op)

end Sys2Proof.Machine
end

