-- ==== Sys2Proof/Machine/Streams.lean ====
section
/-! DEFINITION. Stream nodes (R338 to R354): each firing hands its elements to its node, which takes them in wave
order, sends its outputs at consecutive waves, and reads and writes memory in engine pieces. -/

namespace Sys2Proof.Machine

/-! ### Nodes, their queues and their outputs (R339 to R341) -/

/-- A node of a stream channel for one context: its names and place, its record, and the context's state there. -/
structure Node where
  names   : Names
  cluster : Nat
  ctx     : Nat
  slot    : Slot
  st      : StreamCtx
deriving DecidableEq, Repr

/-- The node that names and a context name. -/
def State.node? (s : State) (n : Names) (ctx : Nat) : Option Node :=
  match s.channel? n with
  | none => none
  | some c =>
    match c.sctx.find? fun x => x.ctx == ctx with
    | none => none
    | some st =>
      some ⟨n, c.cluster, ctx, at! c.slots n.idx Slot.zero, st⟩

/-- The state with a context's state at a stream channel passed through `f`. -/
def State.modStream (s : State) (n : Names) (ctx : Nat) (f : StreamCtx → StreamCtx) : State :=
  s.modChannel n fun c => { c with sctx := modFirst (fun x => x.ctx == ctx) f c.sctx }

/-- The opcode of a node, its DA and DB, and the select of operand A or B. -/
def Node.op (n : Node) : Nat := n.slot.word.toNat / 2 ^ 24
def Node.dest (n : Node) (second : Bool) : Nat := n.slot.word.toNat / (if second then 1 else 8) % 8
def Node.sel (n : Node) (b : Bool) : Nat := n.slot.word.toNat / 2 ^ (if b then 6 else 13) % 128
/-- The port that operand A names. -/
def Node.portA (n : Node) : Nat := if n.sel false < 0x40 || 0x42 < n.sel false then 0 else n.sel false - 0x40

/-- The elements that wait for operand A, for operand B. -/
def Node.queueA (n : Node) : List SElem := n.st.headA.getD n.names.idx []
def Node.queueB (n : Node) : List SElem := n.st.headB.getD n.names.idx []

/-- The site of a node's fault on an element of a wave: SLOT is 4 × node + port (R398). -/
def Node.site (n : Node) (s : State) (wave : Nat) : Site :=
  { names := n.names, port := n.portA, asid := s.asidOf n.names.part n.ctx, ctx := n.ctx, wave := wave,
    unit := nearSlice n.cluster, strip := clusterStrip n.cluster }

/-- A data element, and a stop (R340). -/
def dataElem (f : Fmt) (v : Nat) : SElem := ⟨0, f, false, w64 v, 0, false⟩
def stopElem (f : Fmt) (l : Nat) (bad : Bool) : SElem := ⟨l, f, bad, 0, 0, false⟩
def badElem (f : Fmt) : SElem := ⟨0, f, true, 0, 0, false⟩

/-- Elements in the runs in which a node sends them (R340, R341): up to 32 data elements of one format, all good or
all poisoned; a stop alone. -/
def streamRuns : List SElem → List (List SElem)
  | [] => []
  | x :: r =>
    match streamRuns r with
    | (y :: ys) :: rest =>
      if x.stop = 0 && y.stop = 0 && x.fmt = y.fmt && x.poison = y.poison && ys.length < 31
      then (x :: y :: ys) :: rest else [x] :: (y :: ys) :: rest
    | rest => [x] :: rest

/-- One run leaves at the next wave of the node's output, on the links that DA or DB names, or to the statistics
tap (R198, R341, R343). A run whose last wave would pass 2^32 - 1 leaves poisoned with the WAVE trap (R200), and the
output's next wave stays (log 106, DESIGN CHOICE). -/
def State.emitRun (s : State) (n : Node) (second : Bool) (xs : List SElem) : State :=
  match s.node? n.names n.ctx, xs with
  | some m, x :: _ =>
    let key := (n.names.idx, if second then 1 else 0)
    let next := m.st.outw.getD key 0
    let past := 2 ^ 32 < next + xs.length
    let wave := min next (2 ^ 32 - 1)
    let w := n.site s wave
    let s :=
      if past then (if x.poison then s else s.raise w { cause := 1, sub := 4 })
      else s.modStream n.names n.ctx fun st => { st with outw := st.outw.set key (next + xs.length) }
    let t : Token :=
      { id := 0, dest := Names.zero, port := 0, ctx := n.ctx, wave := wave, stop := x.stop, fmt := x.fmt,
        poison := x.poison || past, data := xs.map fun e => if e.poison || past then 0 else e.val, at_ := none, flits := 0 }
    let port := n.names.sender n.cluster
    match n.dest second with
    | 1 => s.sendLink w port n.slot.lk0 t
    | 2 => s.sendLink w port n.slot.lk1 t
    | 3 => (s.sendLink w port n.slot.lk0 t).sendLink w port n.slot.lk1 t
    | 7 => s.sendStat n.names n.ctx 0 { StatRec.zero with taps := xs.length }
    | _ => s
  | _, _ => s

/-- A node sends elements on its primary or secondary result. -/
def State.emit (s : State) (n : Node) (second : Bool) (xs : List SElem) : State :=
  (streamRuns xs).foldl (fun s r => s.emitRun n second r) s

/-- The elements of a token, one for each wave (R340). -/
def Token.elems (t : Token) : List SElem :=
  (upto t.data.length).map fun j => ⟨t.stop, t.fmt, t.poison, at! t.data j 0, t.wave + j, j = 0⟩

/-- The elements of the firing's tokens join their queues (R341). -/
def State.enqueue (s : State) (fr : Firing) (f : Fields) : State :=
  let add (q : Tbl Nat (List SElem)) (t : Option Token) : Tbl Nat (List SElem) :=
    match t with
    | some t => q.set fr.names.idx (q.getD fr.names.idx [] ++ t.elems)
    | none => q
  s.modStream fr.names fr.ctx fun st =>
    { st with headA := add st.headA (fr.port f.sa.toNat), headB := add st.headB (fr.port f.sb.toNat) }

/-- What a node does with the elements at the head of its queues: what it leaves in them, the elements it sends on
its two results, and the state; none while it waits. -/
structure Taken where
  s  : State
  a  : List SElem
  b  : List SElem
  o1 : List SElem
  o2 : List SElem

/-- A node takes elements until it waits; `k` bounds how many. -/
def State.takeAll (s : State) (names : Names) (ctx : Nat)
    (one : State → Node → List SElem → List SElem → Option Taken) : Nat → List SElem → List SElem → State
  | 0, o1, o2 =>
    match s.node? names ctx with
    | some n => (s.emit n false o1).emit n true o2
    | none => s
  | k + 1, o1, o2 =>
    match s.node? names ctx with
    | none => s
    | some n =>
      match one s n n.queueA n.queueB with
      | none => (s.emit n false o1).emit n true o2
      | some t =>
        let s := t.s.modStream names ctx fun st =>
          { st with headA := st.headA.set names.idx t.a, headB := st.headB.set names.idx t.b }
        s.takeAll names ctx one k (o1 ++ t.o1) (o2 ++ t.o2)

/-- A node takes what it can. -/
def State.pump (s : State) (names : Names) (ctx : Nat)
    (one : State → Node → List SElem → List SElem → Option Taken) : State :=
  match s.node? names ctx with
  | none => s
  | some n => s.takeAll names ctx one (n.queueA.length + n.queueB.length + 1) [] []

/-! ### The simple nodes: STOPLVL, SCOUNT, SPAACC, SPAFLUSH (R350 to R352) -/

/-- STOPLVL (R352). -/
def takeStoplvl (s : State) (n : Node) (a b : List SElem) : Option Taken :=
  match a with
  | [] => none
  | x :: r =>
    let l : Int := (x.stop : Int) + toS 4 (bits n.slot.lit 3 0)
    if x.stop = 0 then some ⟨s, r, b, [x], []⟩
    else if 7 < l then
      some ⟨s.raise (n.site s x.wave) { cause := 1, sub := 5 }, r, b, [stopElem x.fmt x.stop true], []⟩
    else if l ≤ 0 then some ⟨s, r, b, [], []⟩
    else some ⟨s, r, b, [stopElem x.fmt l.toNat x.poison], []⟩

/-- SCOUNT (R352). -/
def takeScount (s : State) (n : Node) (a b : List SElem) : Option Taken :=
  match a with
  | [] => none
  | x :: r =>
    let i := n.names.idx
    let c := n.st.counts.getD i 0
    let put (v : Nat) : State := s.modStream n.names n.ctx fun st => { st with counts := st.counts.set i v }
    if x.stop = 0 then some ⟨put (c + 1), r, b, [], []⟩
    else some ⟨put 0, r, b, [{ dataElem .i32 (c % 2 ^ 32) with poison := x.poison }, x], []⟩

/-- A tile of zero entries (R350). -/
def Tile.zero (n : Nat) : Tile := ⟨List.replicate n 0, List.replicate n false, List.replicate n false, 0⟩

/-- The columns of a SPAACC. -/
def Node.columns (n : Node) : Nat := bits n.slot.lit 9 0 + 1
/-- The tile that a SPAACC fills. -/
def Node.tile (n : Node) : Tile := n.st.tiles.getD n.names.idx (Tile.zero n.columns)

/-- Reads that a port's SREADs have made and have not counted yet: bytes. -/
def State.liveBytes (s : State) (n : Node) : Nat :=
  ((s.work.engs.filter fun e => e.kind = .sread && e.names.part == n.names.part && e.names.lsec == n.names.lsec
    && e.names.node && e.names.block == n.names.block && e.ctx == n.ctx && at! e.params 0 0 < 8).flatMap
      fun e => e.pieces.filter fun x => x.got).foldl (fun m x => m + x.data.length) 0

/-- INFO of a BOUND record or a piece's fault at a stream port: elements emitted or written, and bytes (R347). -/
def State.portInfo (s : State) (n : Node) : Nat := match n.st.stream with
  | some x => (x.count + x.written) % 2 ^ 32 * 2 ^ 32 + (x.bytes + s.liveBytes n) % 2 ^ 32
  | none => 0

/-- The BOUND trap of a node. -/
def State.boundTrap (s : State) (n : Node) (wave : Nat) : State :=
  s.raise (n.site s wave) { cause := 5, sub := 13, info := s.portInfo n }

/-- The format-mismatch trap of a node (R344). -/
def State.formatTrap (s : State) (n : Node) (x : SElem) : State :=
  s.raise (n.site s x.wave) { cause := 3, sub := 1, info := x.fmt.code }

/-- The same of a node that takes an element of A and one of B: INFO gives both formats (R400; log 31, DEDUCED). -/
def State.pairTrap (s : State) (n : Node) (x y : SElem) : State :=
  s.raise (n.site s x.wave) { cause := 3, sub := 1, info := x.fmt.code + 16 * y.fmt.code }

/-- Entry `j` of a tile takes a data element: the exact sum rounded once (R350). -/
def Tile.add (t : Tile) (x : SElem) (bad : Bool) : Tile :=
  let j := t.j
  let v := BitVec.ofNat 32 (addF32 (at! t.vals j 0).toNat (unpack (fpOf x.fmt) x.val.toNat))
  { t with vals := if bad then t.vals else setAt t.vals j v, occ := setAt t.occ j true,
           bad := if bad then setAt t.bad j true else t.bad }

/-- SPAACC (R350). A poisoned element, or one of another format, poisons its entry (R344, R351; log 34, DEDUCED). -/
def takeSpaacc (s : State) (n : Node) (a b : List SElem) : Option Taken :=
  match a with
  | [] => none
  | x :: r =>
    let i := n.names.idx
    let t := n.tile
    let put (s : State) (t : Tile) : State := s.modStream n.names n.ctx fun st => { st with tiles := st.tiles.set i t }
    if x.stop = 0 then
      let ok := x.fmt = .f16 || x.fmt = .bf16 || x.fmt = .f32
      let s := if x.poison || ok then s else s.formatTrap n x
      if n.columns ≤ t.j then some ⟨s.boundTrap n x.wave, r, b, [], []⟩
      else some ⟨put s (t.add x (x.poison || !ok)), r, b, [], []⟩
    else if x.stop < bits n.slot.lit 14 12 then some ⟨put s { t with j := t.j + 1 }, r, b, [], []⟩
    else
      match n.st.handed.get i with
      | some _ => none
      | none =>
        let s := s.modStream n.names n.ctx fun st =>
          { st with tiles := st.tiles.set i (Tile.zero n.columns), handed := st.handed.set i t }
        some ⟨s, r, b, [stopElem x.fmt x.stop x.poison], []⟩

/-- The elements of a handed tile: bits [63:32] the value, bits [31:0] the column (R351). -/
def Tile.row (t : Tile) (dropz : Bool) : List SElem :=
  (upto t.occ.length).filterMap fun j =>
    let v := (at! t.vals j 0).toNat
    let bad := at! t.bad j false
    if !at! t.occ j false || (dropz && !bad && v % 2 ^ 31 = 0) then none
    else some (if bad then badElem .i64 else dataElem .i64 (v * 2 ^ 32 + j))

/-- SPAFLUSH (R351). A poisoned stop gives the row's elements poisoned, in their places (R344). -/
def takeSpaflush (s : State) (n : Node) (a b : List SElem) : Option Taken :=
  match a with
  | [] => none
  | x :: r =>
    let k := bits n.slot.lit 2 0
    if x.stop = 0 then
      some ⟨if x.first then s.raise (n.site s x.wave) { cause := 1, sub := 9 } else s, r, b, [], []⟩
    else
      let row := match n.st.handed.get k with
        | some t => (t.row (bit n.slot.lit 3)).map fun e => if x.poison then badElem .i64 else e
        | none => []
      some ⟨s.modStream n.names n.ctx fun st => { st with handed := st.handed.del k }, r, b, row ++ [x], []⟩

/-! ### ISECT and UNION (R349) -/

/-- Absent(c) of R349, for the element that stands alone, poisoned with it (R344; log 34, DEDUCED). -/
def absentElem (e : SElem) : SElem :=
  { dataElem .i64 ((2 ^ 32 - 1) * 2 ^ 32 + e.val.toNat % 2 ^ 32) with poison := e.poison }

/-- One turn of the loop of Pair (R349), with the format rules of R344. -/
def takePair (union : Bool) (s : State) (n : Node) (a b : List SElem) : Option Taken :=
  match a, b with
  | x :: ra, y :: rb =>
    let odd (e : SElem) : Bool := e.stop = 0 && !e.poison && e.fmt ≠ .i64 && (union || e.fmt ≠ .i32)
    let clash := x.stop = 0 && y.stop = 0 && !x.poison && !y.poison && x.fmt ≠ y.fmt
    let cx := x.val.toNat % 2 ^ 32
    let cy := y.val.toNat % 2 ^ 32
    if odd x then some ⟨s.pairTrap n x y, ra, b, [badElem .i64], [badElem .i64]⟩
    else if odd y then some ⟨s.pairTrap n x y, a, rb, [badElem .i64], [badElem .i64]⟩
    else if clash then some ⟨s.pairTrap n x y, ra, rb, [badElem .i64], [badElem .i64]⟩
    else if x.stop = 0 && y.stop = 0 && cx = cy then some ⟨s, ra, rb, [x], [y]⟩
    else if x.stop = 0 && (y.stop ≠ 0 || cx < cy) then
      some ⟨s, ra, b, if union then [x] else [], if union then [absentElem x] else []⟩
    else if y.stop = 0 then
      some ⟨s, a, rb, if union then [absentElem y] else [], if union then [y] else []⟩
    else if x.stop = y.stop then
      let bad := x.poison || y.poison
      some ⟨s, ra, rb, [stopElem x.fmt x.stop bad], [stopElem y.fmt y.stop bad]⟩
    else
      let l := max x.stop y.stop
      some ⟨s.raise (n.site s x.wave) { cause := 1, sub := 8 }, ra, rb, [stopElem x.fmt l true], [stopElem y.fmt l true]⟩
  | _, _ => none

/-! ### Descriptors (R345) -/

/-- Fields of a descriptor. -/
def Stream.word (x : Stream) (i : Nat) : Nat := (at! x.desc i 0).toNat
def Stream.mode (x : Stream) : Nat := x.word 0 % 4
def Stream.pair (x : Stream) : Bool := (x.word 0).testBit 2
def Stream.allf (x : Stream) : Bool := (x.word 0).testBit 3
def Stream.efmt (x : Stream) : Fmt := (Fmt.ofCode (nbits (x.word 0) 7 4)).getD .i64
def Stream.level (x : Stream) : Level := if nbits (x.word 0) 10 8 = 7 then .ss else .l1
def Stream.nfib (x : Stream) : Nat := x.word 0 / 2 ^ 32
def Stream.ptr (x : Stream) : Nat := x.word 2
def Stream.nelem (x : Stream) : Nat := x.word 3 % 2 ^ 32
def Stream.rep (x : Stream) : Nat := x.word 3 / 2 ^ 32
def Stream.ctr (x : Stream) : Nat := x.word 4
def Stream.size (x : Stream) : Nat := x.efmt.width / 8
/-- The format of what SREAD emits. -/
def Stream.out (x : Stream) : Fmt := if x.pair then .i64 else x.efmt
/-- Fibres that one request reads, each time. -/
def Stream.fibres (x : Stream) : Nat := if x.allf then x.nfib else 1

/-- The descriptor keeps every "must" of R345. -/
def Stream.ok (x : Stream) : Bool :=
  let w0 := x.word 0
  let code := nbits w0 7 4
  x.mode ≠ 3 && (code ≤ 7 || code = 9) && (nbits w0 10 8 = 0 || nbits w0 10 8 = 7) && nbits w0 31 11 = 0
    && x.word 5 = 0 && x.word 6 = 0 && x.word 7 = 0 && x.base % x.size = 0 && x.ptr % 4 = 0 && x.ctr % 8 = 0
    && (if x.mode = 0 then x.nfib ≠ 0 && (!x.pair || code = 2) && x.ctr = 0
        else !x.pair && !x.allf && x.nfib = 0 && x.ptr = 0 && x.rep = 0 && (x.mode = 2 || x.ctr = 0))

/-! ### Engine operations of a port

SREAD keeps one engine operation for each input element, in order. `params` holds how far it has come, the stop
level, the format code, 1 for a poisoned element, the occasion (the fibre of a request, R347) and the elements of it that have
left, and `args` the element and the bounds of the fibre. -/

/-- How far an operation of a port has come: its pointers are read (0), its elements are read (1), nothing is read
(2), the occasion is out of bounds (3), its pointers were refused (4), it waits
for a flush (8), it opens its stream (9), its flush is over (10). -/
def EngOp.phase (e : EngOp) : Nat := at! e.params 0 0

/-- The engine operation of an element at a node. -/
def portEng (s : State) (n : Node) (id : Nat) (kind : EngKind) (x : SElem) (phase : Nat) (ps : List Piece) : EngOp :=
  { id := id, starter := id, chained := false, kind := kind, names := n.names, ctx := n.ctx,
    asid := s.asidOf n.names.part n.ctx, wave := x.wave, cluster := n.cluster, scope := 1, pieces := ps, bad := false,
    ctr := none, gather := none, word := n.slot.word, lit := n.slot.lit, args := [x.val, 0, 0],
    params := [phase, x.stop, x.fmt.code, if x.poison then 1 else 0, 0, 0], info := s.portInfo n, flush := if phase = 8 then some id else none }

/-- An engine operation enters the list. -/
def State.addPort (s : State) (n : Node) (kind : EngKind) (x : SElem) (phase : Nat) (ps : List Piece) : State :=
  let (id, s) := s.newId
  { s with work := { s.work with engs := s.work.engs ++ [portEng s n id kind x phase ps] } }

/-- The check of a port's bytes (R35, R54). -/
def State.portCheck (s : State) (n : Node) (lv : Level) (a k : Nat) (need : Need) : Except Trap Nat :=
  s.bytesCheck n.names.part n.ctx n.cluster lv a k need

/-- The fibre of an occasion. -/
def Stream.fibreOf (x : Stream) (val k : Nat) : Nat := if x.allf then k % x.nfib else val

/-- The reads of `k` bytes of a port at `off` of an operation's data, each checked as it stands (R35, R157): one that fails
its check raises its trap and reads nothing. -/
def State.portReads (s : State) (n : Node) (wave : Nat) (lv : Level) (a k off id : Nat) : State × List Piece :=
  (piecesOf false lv n.cluster a k off id).foldl (fun (r : State × List Piece) x =>
    match r.1.portCheck n lv x.span.addr x.span.len { rd := true } with
    | .ok ia => (r.1, r.2 ++ [{ x with span := { x.span with addr := ia } }])
    | .error t => (r.1.raise (n.site r.1 wave) t, r.2 ++ [{ x with got := true }])) (s, [])

/-- The reads of the two pointers of a fibre; none where their check fails. -/
def State.pointerReads (s : State) (n : Node) (x : Stream) (f id : Nat) : Except Trap (List Piece) :=
  match s.portCheck n x.level (addr64 x.ptr (4 * f : Nat)) 8 { rd := true } with
  | .ok a => .ok (piecesOf false x.level n.cluster a 8 0 id)
  | .error t => .error t

/-- An input element of SREAD becomes an operation (R347, R348). -/
def State.request (s : State) (n : Node) (st : Stream) (x : SElem) : State :=
  let gather := st.mode ≠ 0
  if st.phase = .failed || st.mode = 2 || 0 < x.stop || x.poison then s.addPort n .sread x 2 []
  else if x.fmt ≠ .i64 && (gather || x.fmt ≠ .i32) then
    (s.formatTrap n x).addPort n .sread { x with poison := true } 2 []
  else
    let v := x.val.toNat
    if gather then
      let i := v / 2 ^ 32
      if i = 2 ^ 32 - 1 || st.nelem ≤ i then s.addPort n .sread x 2 []
      else
        match s.portCheck n st.level (addr64 st.base (i * st.size : Nat)) st.size { rd := true } with
        | .error t => (s.raise (n.site s x.wave) t).addPort n .sread { x with poison := true } 2 []
        | .ok a => s.addPort n .sread x 1 (piecesOf false st.level n.cluster a st.size 16 1)
    else if !st.allf && st.nfib ≤ v then s.addPort n .sread x 2 []
    else
      match s.pointerReads n st (st.fibreOf v 0) 1 with
      | .error t => (s.raise (n.site s x.wave) t).addPort n .sread { x with poison := true } 2 []
      | .ok ps => s.addPort n .sread x 0 ps

/-- An element of SREAD is taken once its stream is open or has failed; on a write stream its firing raises the
STREAM trap once (R346). -/
def takeSread (s : State) (n : Node) (a b : List SElem) : Option Taken :=
  match a, n.st.stream with
  | x :: r, some st =>
    if st.phase = .open_ || st.phase = .failed then
      let s := if st.phase = .open_ && st.mode = 2 && x.first then s.raise (n.site s x.wave) { cause := 1, sub := 9 } else s
      some ⟨s.request n st x, r, b, [], []⟩
    else none
  | _, _ => none

/-- The element of `k` bytes that stands at an offset of an operation's data; none where a read was refused. -/
def EngOp.elem (e : EngOp) (off k : Nat) : Option Nat := ((List.range k).mapM fun q => e.byteAt (off + q)).map leNat

/-- What an SREAD operation emits that reads nothing: with the traps of R200 and BOUND. -/
def State.emitPlain (s : State) (n : Node) (st : Stream) (e : EngOp) : State × List SElem :=
  let l := at! e.params 1 0
  let bad := at! e.params 3 0 = 1
  let f := st.out
  let v := (at! e.args 0 0).toNat
  if st.phase = .failed || st.mode = 2 then (s, [if 0 < l then stopElem f l true else badElem f])
  else if 0 < l then
    if st.mode = 0 then
      if l = 7 then (s.raise (n.site s e.wave) { cause := 1, sub := 5 }, [stopElem f l true])
      else (s, [stopElem f (l + 1) bad])
    else (s, [stopElem f l bad])
  else if st.mode = 0 then
    let k := (st.rep + 1) * st.fibres
    if bad then (s, List.replicate k (stopElem f 1 true))
    else ((upto k).foldl (fun s _ => s.boundTrap n e.wave) s, List.replicate k (stopElem f 1 true))
  else if bad then (s, [badElem f])
  else if v / 2 ^ 32 = 2 ^ 32 - 1 then (s, [dataElem f 0])
  else (s.boundTrap n e.wave, [badElem f])

/-- Every read of the operation's data at an offset is over. -/
def EngOp.gotAt (e : EngOp) (off : Nat) : Bool :=
  e.pieces.all fun x => x.write || x.got || off < x.off || x.off + x.span.len ≤ off

/-- The leading elements of `i, i + 1, .. , k - 1` of an occasion whose reads are over. -/
def EngOp.readyFrom (e : EngOp) (size : Nat) (i k : Nat) : List Nat :=
  ((upto (k - i)).map fun j => i + j).takeWhile fun j => e.gotAt (16 + j * size)

/-- What an occasion of an SREAD operation emits next, as far as its reads are over, and whether it is then over (R347). -/
def State.emitRead (s : State) (n : Node) (st : Stream) (e : EngOp) : State × List SElem × Bool :=
  let f := st.out
  match e.phase with
  | 3 => (s.boundTrap n e.wave, [stopElem f 1 true], true)
  | 4 => (s, [stopElem f 1 true], true)
  | _ =>
    let val (i p : Nat) : SElem :=
      match e.elem (16 + i * st.size) st.size with
      | some v => dataElem f (if st.pair then p * 2 ^ 32 + v else v)
      | none => badElem f
    if st.mode = 0 then
      let lo := (at! e.args 1 0).toNat
      let k := (at! e.args 2 0).toNat - lo
      let sent := at! e.params 5 0
      let is := e.readyFrom st.size sent k
      let all := sent + is.length = k
      (s, (is.map fun i => val i (lo + i)) ++ (if all then [stopElem f 1 false] else []), all)
    else if e.gotAt 16 then (s, [val 0 0], true)
    else (s, [], false)

/-- The port counts what it emitted and the bytes it read for the context (R347). -/
def State.countOut (s : State) (n : Node) (xs : List SElem) (bytes : Nat) : State :=
  s.modStream n.names n.ctx fun st => { st with stream := st.stream.map fun x =>
    { x with count := x.count + (xs.filter fun e => e.stop = 0).length, bytes := x.bytes + bytes } }

/-- The operations of one port for one context. -/
def EngOp.ofPort (e x : EngOp) : Bool :=
  e.names.part == x.names.part && e.names.lsec == x.names.lsec && e.names.block == x.names.block && e.names.node && x.names.node
    && e.ctx == x.ctx

/-- A read of the port before the operation waits in place: what the port sends later waits behind it (R347). -/
def State.portStalled (s : State) (e : EngOp) : Bool :=
  (s.work.engs.takeWhile fun x => x.id ≠ e.id).any fun x =>
    x.kind = .sread && x.phase < 8 && x.ofPort e && x.pieces.any fun y => s.pieceWaits x y.id

/-- A read of a port waits in place for a context: every node of the port waits behind it (R347). -/
def State.portStuck (s : State) (names : Names) (ctx : Nat) : Bool :=
  s.work.engs.any fun x => x.kind = .sread && x.phase < 8 && x.names.part == names.part && x.names.lsec == names.lsec
    && x.names.block == names.block && x.names.node && x.ctx == ctx && x.pieces.any fun y => s.pieceWaits x y.id

/-- The first SREAD operation of a node that is not over, of an open port; none while its port is stalled. -/
def State.frontRead (s : State) (n : Names) (ctx : Nat) : Option EngOp :=
  match s.work.engs.find? fun e => e.kind = .sread && e.names = n && e.ctx == ctx && e.phase < 8 with
  | some e => if s.portStalled e then none else some e
  | none => none

/-- The next occasion of a request, or its end (R347). -/
def State.nextOccasion (s : State) (n : Node) (st : Stream) (e : EngOp) : State :=
  let k := at! e.params 4 0 + 1
  if st.mode ≠ 0 || (st.rep + 1) * st.fibres ≤ k then s.dropEng e.id
  else
    let ps := setAt (setAt (setAt e.params 4 k) 5 0) 0
    match s.pointerReads n st (st.fibreOf (at! e.args 0 0).toNat k) e.nextPiece with
    | .ok reads => s.setEng { e with params := ps 0, pieces := reads }
    | .error t => (s.raise (n.site s e.wave) t).setEng { e with params := ps 4, pieces := [] }

/-- The outputs of a node's operations leave in order, as far as their reads are done (R347, R348). -/
def State.flushReads (s : State) (names : Names) (ctx : Nat) : Nat → State
  | 0 => s
  | k + 1 =>
    match s.node? names ctx, s.frontRead names ctx with
    | some n, some e =>
      match n.st.stream with
      | none => s
      | some st =>
        if e.phase = 0 then s
        else if e.phase = 2 then
          let (s, xs) := s.emitPlain n st e
          (((s.dropEng e.id).emit n false xs).countOut n xs 0).flushReads names ctx k
        else
          let (s, xs, done) := s.emitRead n st e
          if done then
            let bytes := (e.pieces.filter fun x => x.got).foldl (fun m x => m + x.data.length) 0
            (((s.emit n false xs).countOut n xs bytes).nextOccasion n st e).flushReads names ctx k
          else
            let left := at! e.params 5 0 + xs.length
            ((s.emit n false xs).countOut n xs 0).modEng e.id fun y => { y with params := setAt y.params 5 left }
    | _, _ => s

/-- More turns than a node's operations have occasions. -/
def State.portTurns (s : State) : Nat := 2 ^ 65 + s.work.engs.length

/-- A node's operations go on: the pointers of a fibre are there, and its elements are read (R347). -/
def State.sreadElems (s : State) (n : Node) (st : Stream) (e : EngOp) : State :=
  if e.phase ≠ 0 || !e.got 0 (2 ^ 70) then s
  else
    match e.elem 0 4, e.elem 4 4 with
    | some lo, some hi =>
      if hi < lo || st.nelem < hi then s.setEng { e with params := setAt e.params 0 3 }
      else
        let e : EngOp := { e with args := [at! e.args 0 0, w64 lo, w64 hi] }
        let k := (hi - lo) * st.size
        if k = 0 then s.setEng { e with params := setAt e.params 0 1 }
        else
          let (s, reads) := s.portReads n e.wave st.level (addr64 st.base (lo * st.size : Nat)) k 16 e.nextPiece
          s.setEng { e with pieces := e.pieces ++ reads, params := setAt e.params 0 1 }
    | _, _ => s.setEng { e with params := setAt e.params 0 4 }

/-! ### SOPEN (R346) -/

/-- SOPEN refused: its result, the address of the descriptor, is poisoned. -/
def refusedOpen : List SElem := [badElem .a]

/-- An SOPEN is taken (R346): its descriptor is read, or it is refused. -/
def State.openStream (s : State) (n : Node) (x : SElem) (bias : Nat) : State × List SElem :=
  let put (s : State) (ph : StreamPhase) : State :=
    s.modStream n.names n.ctx fun st => { st with stream := some ⟨ph, [], 0, 0, 0, 0⟩ }
  let busy : Bool := match n.st.stream with
    | some st => st.phase ≠ .closed
    | none => false
  if x.poison then (s, refusedOpen)
  else if x.stop = 0 && x.fmt ≠ .a then (s.formatTrap n x, refusedOpen)
  else if busy then (s.raise (n.site s x.wave) { cause := 1, sub := 9 }, refusedOpen)
  else if x.val.toNat % 64 ≠ 0 then
    ((put s .failed).raise (n.site s x.wave) { cause := 3, sub := 3, addr := x.val.toNat }, refusedOpen)
  else
    match s.portCheck n .l1 x.val.toNat 64 { rd := true } with
    | .error t => ((put s .failed).raise (n.site s x.wave) t, refusedOpen)
    | .ok a =>
      let (id, s) := (put s .opening).newId
      let e := portEng s n id .sread x 9 (piecesOf false .l1 n.cluster a 64 0 1)
      ({ s with work := { s.work with engs := s.work.engs ++ [{ e with args := [x.val, w64 bias, 0] }] } }, [])

/-- An SOPEN of the node reads its descriptor. -/
def State.opens (s : State) (n : Node) : Bool :=
  s.work.engs.any fun e => e.names = n.names && e.ctx == n.ctx && e.phase = 9 && e.kind = .sread

/-- SOPEN takes an element of A, and of B where SB names a port (R346). -/
def takeSopen (s : State) (n : Node) (a b : List SElem) : Option Taken :=
  if s.opens n then none
  else
    match a with
    | [] => none
    | x :: r =>
      if 0x40 ≤ n.sel true && n.sel true ≤ 0x42 then
        match b with
        | [] => none
        | y :: rb =>
          if y.poison || x.poison then some ⟨s, r, rb, refusedOpen, []⟩
          else if y.stop = 0 && !(y.fmt.isInt || y.fmt = .a) then some ⟨s.pairTrap n x y, r, rb, refusedOpen, []⟩
          else
            let (s, o) := s.openStream n x y.val.toNat
            some ⟨s, r, rb, o, []⟩
      else
        let (s, o) := s.openStream n x (if n.sel true < 0x30 then wrap 64 (constInt (n.sel true)) else 0)
        some ⟨s, r, b, o, []⟩

/-- The descriptor of an SOPEN has arrived (R346). -/
def State.opened (s : State) (n : Node) (e : EngOp) : State :=
  let s := s.dropEng e.id
  let put (st : Stream) : State := s.modStream n.names n.ctx fun y => { y with stream := some st }
  let fail (s : State) (bs : Bool) : State :=
    (if bs then s.raise (n.site s e.wave) { cause := 3, sub := 3, addr := (at! e.args 0 0).toNat } else s).emit n false refusedOpen
  match e.bytes 0 64 with
  | none => fail (put ⟨.failed, [], 0, 0, 0, 0⟩) false
  | some bs =>
    let desc := (upto 8).map fun i => w64 (leNat (slice bs (8 * i) 8))
    let st : Stream := ⟨.open_, desc, addr64 (at! desc 1 0).toNat ((at! e.args 1 0).toNat : Nat), 0, 0, 0⟩
    let ptrs : Bool := st.mode ≠ 0 || match s.portCheck n st.level st.ptr (4 * (st.nfib + 1)) { rd := true } with
      | .ok _ => true
      | .error _ => false
    if st.ok && ptrs then (put st).emit n false [dataElem .a (at! e.args 0 0).toNat]
    else fail (put ⟨.failed, [], 0, 0, 0, 0⟩) true

/-! ### SWRITE (R353) -/

/-- The node whose port has written `k` elements. -/
def Node.wrote (n : Node) (st : Stream) (k : Nat) : Node :=
  { n with st := { n.st with stream := some { st with written := k, bytes := st.bytes + (k - st.written) * st.size } } }

/-- The elements of one token that are written, each with the address that its own check gives, with the traps of those that
are not. -/
def State.writable (s : State) (n : Node) (st : Stream) (at_ : Nat) : List SElem → State × List (Nat × SElem)
  | [] => (s, [])
  | x :: r =>
    if x.poison then s.writable n st at_ r
    else if x.fmt ≠ st.efmt then (s.formatTrap n x).writable n st at_ r
    else if st.nelem ≤ at_ then (s.boundTrap (n.wrote st at_) x.wave).writable n st at_ r
    else
      match s.portCheck n st.level (addr64 st.base (at_ * st.size : Nat)) st.size { w := true } with
      | .error t => (s.raise (n.site s x.wave) t).writable n st at_ r
      | .ok a =>
        let (s, xs) := s.writable n st (at_ + 1) r
        (s, (a, x) :: xs)

/-- Bytes at addresses, joined where they follow one another. -/
def byteRuns : List (Nat × List Byte) → List (Nat × List Byte)
  | [] => []
  | (a, bs) :: r =>
    match byteRuns r with
    | (b, cs) :: rest => if b = a + bs.length then (a, bs ++ cs) :: rest else (a, bs) :: (b, cs) :: rest
    | [] => [(a, bs)]

/-- The write pieces of byte runs. -/
def runPieces (lv : Level) (cluster : Nat) : List (Nat × List Byte) → Nat → List Piece
  | [], _ => []
  | (a, bs) :: r, id =>
    let ps := writePieces lv cluster a bs id
    ps ++ runPieces lv cluster r (id + ps.length)

/-- The counter of a write stream: its level and checked address; the trap where its check fails (R137, R345). -/
def State.streamCtr (s : State) (n : Node) (st : Stream) : Except Trap (Option (Level × Nat)) :=
  if st.ctr = 0 then .ok none
  else
    match s.portCheck n st.level st.ctr 8 { w := true } with
    | .ok a => .ok (some (st.level, a))
    | .error t => .error t

/-- The data elements of one token are written at n, n + 1, .. as one engine operation, whose completion adds their
count to the counter (R353). -/
def State.writeToken (s : State) (n : Node) (st : Stream) (x : SElem) (xs : List SElem) : State :=
  let (s, ys) := s.writable n st st.written xs
  if ys.isEmpty then s
  else
    let runs := byteRuns (ys.map fun y => (y.1, leBytes st.size y.2.val.toNat))
    let (id, s) := s.newId
    let e := portEng s n id .swrite x 1 (runPieces st.level n.cluster runs 1)
    let (s, ctr) : State × Option (Level × Nat × Nat) := match s.streamCtr n st with
      | .ok c => (s, c.map fun c => (c.1, c.2, ys.length))
      | .error t => (s.raise (n.site s x.wave) t, none)
    let s := s.modStream n.names n.ctx fun y => { y with stream := y.stream.map fun z =>
      { z with written := z.written + ys.length, bytes := z.bytes + ys.length * st.size } }
    { s with work := { s.work with engs := s.work.engs ++ [{ e with ctr := ctr }] } }

/-- SWRITE takes the elements of one token, once its stream is open or has failed (R346, R353). -/
def takeSwrite (s : State) (n : Node) (a b : List SElem) : Option Taken :=
  match a, n.st.stream with
  | x :: r, some st =>
    if st.phase ≠ .open_ && st.phase ≠ .failed then none
    else
      let more := r.takeWhile fun y => !y.first
      let rest := r.drop more.length
      let wrong := st.phase = .open_ && st.mode ≠ 2
      let s := if wrong then s.raise (n.site s x.wave) { cause := 1, sub := 9 } else s
      if 0 < x.stop then
        some ⟨s, rest, b, (x :: more).map fun y => if st.phase = .failed then { y with poison := true } else y, []⟩
      else if wrong || st.phase = .failed then some ⟨s, rest, b, [], []⟩
      else some ⟨s.writeToken n st x (x :: more), rest, b, [], []⟩
  | _, _ => none

/-! ### SCLOSE (R354) -/

/-- A read or a write of the port for the context is not over with respect to SCLOSE's scope, or awaits its turn. -/
def State.portBusy (s : State) (n : Node) : Bool :=
  s.work.engs.any fun e => (e.kind = .sread || e.kind = .swrite) && e.names.part == n.names.part
    && e.names.lsec == n.names.lsec && e.names.block == n.names.block && e.ctx == n.ctx && e.phase ≠ 10
    && !(bits n.slot.lit 31 30 = 0 && e.kind = .swrite && e.phase ≠ 8 && e.ctr.isNone && s.engDone e true)

/-- The flush that an SCLOSE at SY waited for is over (R153). -/
def State.closeFlushed (s : State) (n : Node) : Bool :=
  s.work.engs.any fun e => e.kind = .swrite && e.names.part == n.names.part && e.names.lsec == n.names.lsec
    && e.names.block == n.names.block && e.ctx == n.ctx && e.phase = 10

/-- SCLOSE waits until the pieces and adds of its stream are done, at CL until its writes have left the cluster
(R160), at SY with the posted writes of the context (R153, R354); HOST_COMPLETION ends the wait for those. -/
def takeSclose (s : State) (n : Node) (a b : List SElem) : Option Taken :=
  match a, n.st.stream with
  | x :: r, some st =>
    match st.phase with
    | .opening => none
    | .open_ =>
      if s.portBusy n then none
      else if bits n.slot.lit 31 30 = 3 && !s.closeFlushed n && s.unposted n.names.part n.ctx none then
        some ⟨s.addPort n .swrite x 8 [], a, b, [], []⟩
      else
        let s := s.modStream n.names n.ctx fun y => { y with stream := some { st with phase := .closed } }
        let v := if st.mode = 2 then st.written else st.count
        some ⟨s, r, b, [{ dataElem .i64 v with poison := x.poison }], []⟩
    | _ => some ⟨s.raise (n.site s x.wave) { cause := 1, sub := 9 }, r, b, [badElem .i64], []⟩
  | _, _ => none

/-! ### Going on -/

/-- A node takes what it can, by its opcode; while its partition is gated it takes nothing (R413, step 1), and its
reads go on; of a stopped partition nothing goes on (R142). -/
def State.pumpNode (s : State) (names : Names) (ctx : Nat) : State :=
  match s.node? names ctx with
  | none => s
  | some n =>
    if (s.part names.part).stopped then s
    else
      let s := if n.op = 0xB1 then s.flushReads names ctx s.portTurns else s
      if (s.part names.part).gated || s.portStuck names ctx then s
      else match n.op with
      | 0xB0 => s.pump names ctx takeSopen
      | 0xB1 => (s.pump names ctx takeSread).flushReads names ctx s.portTurns
      | 0xB2 => s.pump names ctx takeSwrite
      | 0xB3 => s.pump names ctx takeSclose
      | 0xB4 => s.pump names ctx (takePair false)
      | 0xB5 => s.pump names ctx (takePair true)
      | 0xB6 => s.pump names ctx takeSpaacc
      | 0xB7 => s.pump names ctx takeSpaflush
      | 0xB8 => s.pump names ctx takeStoplvl
      | 0xB9 => s.pump names ctx takeScount
      | _ => s

/-- Every node of a channel takes what it can: a stream has opened, or an operation is over. -/
def State.pumpPort (s : State) (names : Names) (ctx : Nat) : State :=
  (upto 8).foldl (fun s i => s.pumpNode { names with idx := i } ctx) s

/-- The ports of a partition go on once its gate ends (R413). -/
def State.pumpAll (s : State) (p : Nat) : State :=
  let nodes := (s.ldr.channels.filter fun c => c.part == p && !c.island).flatMap fun c => c.sctx.map fun x =>
    (({ part := p, lsec := c.lsec, node := true, block := c.chan, idx := 0 } : Names), x.ctx)
  nodes.foldl (fun s n => s.pumpPort n.1 n.2) s

/-- An operation of a stream port goes on when its pieces allow. -/
def State.portOn (s : State) (e : EngOp) : State :=
  match s.node? e.names e.ctx with
  | none => if e.got 0 (2 ^ 70) then s.dropEng e.id else s
  | some n =>
    if e.kind = .swrite then
      let t := if e.pieces.isEmpty && e.ctr.isNone && e.phase ≠ 8 then s.dropEng e.id else s
      t.pumpPort e.names e.ctx
    else if e.phase = 9 then
      if e.got 0 64 then (s.opened n e).pumpPort e.names e.ctx else s
    else
      match n.st.stream with
      | none => s
      | some st =>
        let s := (s.sreadElems n st e).flushReads e.names e.ctx s.portTurns
        s.pumpPort e.names e.ctx

/-- The elements of the firing join their node, which takes what it can (R341), unless a read of its port waits in place
(R347). -/
def State.streamWord (s : State) (f : Fields) (one : State → Node → List SElem → List SElem → Option Taken) : State :=
  let fr := s.run.cur
  let s := s.enqueue fr f
  if s.portStuck fr.names fr.ctx then s else s.pump fr.names fr.ctx one

/-- SOPEN (R346). -/
def execSopen (f : Fields) (s : State) : Result := .next (s.streamWord f takeSopen)

/-- SREAD (R347, R348). -/
def execSread (f : Fields) (s : State) : Result :=
  let s := s.streamWord f takeSread
  .next (s.flushReads s.run.cur.names s.run.cur.ctx s.portTurns)

/-- SWRITE (R353). -/
def execSwrite (f : Fields) (s : State) : Result := .next (s.streamWord f takeSwrite)

/-- SCLOSE (R354). -/
def execSclose (f : Fields) (s : State) : Result :=
  .next ((s.streamWord f takeSclose).pumpPort s.run.cur.names s.run.cur.ctx)

/-- ISECT (R349). -/
def execIsect (f : Fields) (s : State) : Result := .next (s.streamWord f (takePair false))

/-- UNION (R349). -/
def execUnion (f : Fields) (s : State) : Result := .next (s.streamWord f (takePair true))

/-- SPAACC (R350). -/
def execSpaacc (f : Fields) (s : State) : Result := .next (s.streamWord f takeSpaacc)

/-- SPAFLUSH (R351): the tile it frees lets its SPAACC go on (R350). -/
def execSpaflush (f : Fields) (s : State) : Result :=
  .next ((s.streamWord f takeSpaflush).pumpPort s.run.cur.names s.run.cur.ctx)

/-- STOPLVL (R352). -/
def execStoplvl (f : Fields) (s : State) : Result := .next (s.streamWord f takeStoplvl)

/-- SCOUNT (R352). -/
def execScount (f : Fields) (s : State) : Result := .next (s.streamWord f takeScount)

end Sys2Proof.Machine
end

