-- ==== Sys2Proof/Machine/Fabric.lean ====
section
/-! DEFINITION. The fabric: a token reaches its element or node and is matched (R183, R187, R218, R286, R318, R341,
R361), and flits cross hops, are ejected, and give their credits back (R366 to R373). -/

namespace Sys2Proof.Machine

/-! ### Matching (R183) -/

/-- The wave after a token's last one. -/
def Token.hi (t : Token) : Nat := t.wave + t.data.length

/-- The token stands at a port of what the names name, for a context. -/
def Token.stands (t : Token) (n : Names) (ctx port : Nat) : Bool := t.dest = n && t.ctx == ctx && t.port == port

/-- The ports whose tokens a firing of a word needs (R183, R195). -/
def wordPorts (w : W32) : List Nat :=
  let f := fieldsOf w
  let c := steers f || match wordRule (opOf w) with
    | some r => r.portC
    | none => false
  let named := [f.sa.toNat, f.sb.toNat]
  (if named.contains 0x40 then [0] else []) ++ (if named.contains 0x41 then [1] else [])
    ++ (if c || named.contains 0x42 then [2] else [])

/-- The first tokens, one on each of the ports, whose runs overlap within `[lo, hi)` (Match of R183). -/
def findSet (ts : List Token) (n : Names) (ctx : Nat) : List Nat → Nat → Nat → Option (List Token)
  | [], lo, hi => if lo < hi then some [] else none
  | q :: qs, lo, hi =>
    (ts.filter fun t => t.stands n ctx q).findSome? fun t =>
      (findSet ts n ctx qs (max lo t.wave) (min hi t.hi)).map fun r => t :: r

/-- The parts of a token outside `[lo, hi)` (R183). -/
def Token.outside (t : Token) (lo hi : Nat) : List Token :=
  (if t.wave < lo then [t.slice 0 (lo - t.wave)] else [])
    ++ (if hi < t.hi then [t.slice (hi - t.wave) (t.hi - hi)] else [])

/-- A firing of tokens, each cut to the waves `[lo, hi)`; the parts outside stay in place (R183). -/
def State.fireSet (s : State) (fr : Firing) (lo hi : Nat) (set : List Token) : State :=
  let cut (t : Token) : Token := t.slice (lo - t.wave) (hi - lo)
  let on (q : Nat) : Option Token := (set.find? fun t => t.port == q).map cut
  let fr : Firing := { fr with wave := lo, run := hi - lo, a := on 0, b := on 1, c := on 2 }
  let waiting := s.fab.waiting.flatMap fun t => if set.contains t then t.outside lo hi else [t]
  { s with fab := { s.fab with waiting := waiting, ready := s.fab.ready ++ [fr] } }

/-- The set that fires next among the tokens that wait for a word: a MERGE's token alone (R218), a VJOIN's pair whose
waves follow each other (R286), else an overlapping set (R183). -/
def nextSet (ts : List Token) (w : W32) (n : Names) (ctx : Nat) : Option (Nat × Nat × List Token) :=
  match opOf w with
  | 0x03 => (ts.find? fun t => t.stands n ctx 0 || t.stands n ctx 1).map fun t => (t.wave, t.hi, [t])
  | 0x91 =>
    (ts.filter fun t => t.stands n ctx 0).findSome? fun a =>
      (ts.find? fun b => b.stands n ctx 1 && a.hi == b.wave).map fun b => (a.wave, a.hi, [a, b])
  | _ =>
    let ps := wordPorts w
    if ps.isEmpty then none
    else
      (findSet ts n ctx ps 0 (2 ^ 32 + 64)).map fun set =>
        (set.foldl (fun m t => max m t.wave) 0, set.foldl (fun m t => min m t.hi) (2 ^ 32 + 64), set)

/-- A VJOIN takes its second token whole (R286). -/
def State.fireJoin (s : State) (fr : Firing) (a b : Token) : State :=
  let fr : Firing := { fr with wave := a.wave, run := a.data.length, a := some a, b := some b, c := none }
  { s with fab := { s.fab with waiting := s.fab.waiting.filter fun t => t ≠ a && t ≠ b, ready := s.fab.ready ++ [fr] } }

/-- Every set that can fire does; `k` bounds their number. -/
def State.matchAll (s : State) (fr : Firing) (w : W32) : Nat → State
  | 0 => s
  | k + 1 =>
    match nextSet s.fab.waiting w fr.names fr.ctx with
    | none => s
    | some (lo, hi, set) =>
      match opOf w, set with
      | 0x91, [a, b] => (s.fireJoin fr a b).matchAll fr w k
      | _, _ => (s.fireSet fr lo hi set).matchAll fr w k

/-- A token joins the matching store, and what can fire becomes ready. -/
def State.acceptToken (s : State) (t : Token) (fr : Firing) (w : W32) : State :=
  let s : State := { s with fab := { s.fab with waiting := s.fab.waiting ++ [t] } }
  let mine := s.fab.waiting.filter fun x => x.dest = t.dest && x.ctx == t.ctx
  s.matchAll fr w (mine.foldl (fun m x => m + x.data.length) 1)

/-! ### Arrival (R183, R187, R318, R341, R361) -/

/-- The token leaves the fabric. -/
def State.takeToken (s : State) (id : Nat) : State :=
  { s with fab := { s.fab with net := s.fab.net.filter fun t => t.id ≠ id } }

/-- The entry of a block in its section. -/
def State.entry? (s : State) (n : Names) : Option PlEntry := (s.section? n.part n.lsec).bind fun x => x.places.get n.num

/-- The state with a placement entry passed through `f`. -/
def State.modEntry (s : State) (p lsec num : Nat) (f : PlEntry → PlEntry) : State :=
  s.modSection p lsec fun x =>
    match x.places.get num with
    | some e => x.setPlace num (f e)
    | none => x

/-- The migration engine moves the block, by itself or with its whole element, and has not installed it yet (R359, R361). -/
def State.moves (s : State) (p lsec block : Nat) : Bool := match (s.part p).move with
  | some m => m.step = 1 && ((m.lsec == lsec && m.block == block) || (m.pair && match s.entry? ⟨p, lsec, false, block, 0⟩ with
    | some e => e.valid && e.place.cluster == m.src.cluster && e.place.elem == m.src.elem
    | none => false))
  | none => false

/-- The held tokens of a block leave for it, in the order in which they were held (R394). -/
def State.sendHeldFor (s : State) (p lsec b : Nat) (pl : Place) : State :=
  let mine (t : Token) : Bool := t.dest.part == p && t.dest.lsec == lsec && !t.dest.node && t.dest.block == b
  let go := (s.fab.held.filter mine).map fun t => { t with at_ := some (pl.cluster, pl.elem), flits := tokenFlits t }
  { s with fab := { s.fab with held := s.fab.held.filter fun t => !mine t, net := s.fab.net ++ go } }

/-- An eviction of the block that has begun is cancelled: its entry is valid again, and tokens held meanwhile follow (R393). -/
def State.cancelEvict (s : State) (p lsec b : Nat) : State :=
  match s.entry? ⟨p, lsec, false, b, 0⟩ with
  | none => s
  | some e =>
    if !e.moving || s.moves p lsec b then s
    else (s.modEntry p lsec b fun x => { x with valid := true, moving := false }).sendHeldFor p lsec b e.place

/-- A token reaches the element that holds its block: a zero word discards it with the EMPTY trap (R187). An eviction
of the block that has begun is cancelled (R393). -/
def State.arriveElem (s : State) (t : Token) (pl : Place) : State :=
  let n := t.dest
  let s := s.takeToken t.id
  let s := s.cancelEvict n.part n.lsec n.block
  let fr : Firing := ⟨n, pl.cluster, pl.elem, pl.half, Slot.zero, t.ctx, 0, 1, none, none, none⟩
  let w := (s.slot pl.cluster pl.elem (32 * pl.half + n.idx)).word
  if w = 0 then s.raise { fr.site s with port := t.port, wave := t.wave } { cause := 1, sub := 2 }
  else s.acceptToken t fr w

/-- A token that finds a full store is held on its route; but a match never needs a free entry, so the tokens that stand
there and complete one, with those that wait or with each other, are taken (R183, R184; log 23, DEDUCED). -/
def State.arriveMatch (s : State) (t : Token) (pl : Place) : State :=
  let here := s.fab.net.filter fun x => x.flits = 0 && x.dest = t.dest && x.ctx == t.ctx && x.at_ = t.at_
  match nextSet (s.fab.waiting ++ here) (s.slot pl.cluster pl.elem (32 * pl.half + t.dest.idx)).word t.dest t.ctx with
  | none => s
  | some (_, _, set) => if set.contains t then (set.filter here.contains).foldl (fun s x => s.arriveElem x pl) s else s

/-- A token that reaches an element without its block is forwarded to where the block has gone (R361), or resolved
again there, sent on, or held (R187). -/
def State.resend (s : State) (t : Token) (at_ : Nat × Nat) : State :=
  let n := t.dest
  let fwd := (s.part n.part).forwards.any fun x =>
    x.lsec == n.lsec && x.block == n.block && x.cluster == at_.1 && x.elem == at_.2
  let (pl, s) : Option Place × State :=
    if fwd then ((s.entry? n).map fun e => e.place, s) else s.resolve ⟨false, at_.1⟩ n
  match pl with
  | none =>
    let s := s.takeToken t.id
    { s with fab := { s.fab with held := s.fab.held ++ [t] } }
  | some pl =>
    let go (x : Token) : Token := { x with at_ := some (pl.cluster, pl.elem), flits := tokenFlits x }
    { s with fab := { s.fab with net := modFirst (fun x => x.id == t.id) go s.fab.net } }

/-- The firing that a node's tokens make. -/
def nodeFiring (c : Channel) (n : Names) (ctx : Nat) : Firing :=
  ⟨n, c.cluster, 0, 0, at! c.slots n.idx Slot.zero, ctx, 0, 1, none, none, none⟩

/-- A token reaches an island node, which holds up to 8 of a port (R318). -/
def State.arriveIsland (s : State) (t : Token) (c : Channel) : State :=
  if 8 ≤ (s.fab.waiting.filter fun x => x.dest = t.dest && x.port == t.port).length then s
  else
    let fr := nodeFiring c t.dest t.ctx
    (s.takeToken t.id).acceptToken t fr fr.slot.word

/-- The WAVE trap of a stream port (R341). -/
def State.waveTrap (s : State) (c : Channel) (t : Token) : State :=
  s.raise { (nodeFiring c t.dest t.ctx).site s with port := t.port, wave := t.wave } { cause := 1, sub := 4 }

/-- The tokens of a stream port that its next wave allows are consumed, in wave order; those below it are discarded
(R341). -/
def State.consume (s : State) (c : Channel) (n : Names) (ctx port : Nat) : Nat → State
  | 0 => s
  | k + 1 =>
    match s.node? n ctx with
    | none => s
    | some x =>
      let next := x.st.next.getD (n.idx, port) 0
      match s.fab.waiting.find? fun t => t.stands n ctx port && t.wave ≤ next with
      | none => s
      | some t =>
        let s : State := { s with fab := { s.fab with waiting := dropFirst (fun y => y = t) s.fab.waiting } }
        if t.wave < next then (s.waveTrap c t).consume c n ctx port k
        else
          let s := s.modStream n ctx fun st => { st with next := st.next.set (n.idx, port) (next + t.data.length) }
          let on (q : Nat) : Option Token := if port = q then some t else none
          let fr : Firing :=
            { nodeFiring c n ctx with wave := t.wave, run := t.data.length, a := on 0, b := on 1, c := on 2 }
          ({ s with fab := { s.fab with ready := s.fab.ready ++ [fr] } } : State).consume c n ctx port k

/-- SREAD, SWRITE and SCLOSE take nothing before their port's stream is open (R346). -/
def Node.closed (n : Node) : Bool :=
  (n.op = 0xB1 || n.op = 0xB2 || n.op = 0xB3) && match n.st.stream with
    | some x => x.phase ≠ .open_ && x.phase ≠ .failed
    | none => true

/-- Tokens that have entered a stream port and wait there until its stream is open (R346). -/
def State.queuedAt (s : State) (n : Node) : Nat :=
  (n.queueA.filter fun e => e.first).length
    + (s.fab.ready.filter fun fr => fr.names = n.names && fr.ctx == n.ctx).length

/-- A token reaches a stream port: 64 of a context may wait there (R341), those that wait for the stream to open among them
(R346). -/
def State.arriveStream (s : State) (t : Token) (c : Channel) : State :=
  match s.node? t.dest t.ctx with
  | none => s.takeToken t.id
  | some x =>
    let next := x.st.next.getD (t.dest.idx, t.port) 0
    let here := (s.fab.waiting.filter fun y => y.stands t.dest t.ctx t.port).length
    if next < t.wave && 64 ≤ here then s
    else if x.closed && next ≤ t.wave && 64 ≤ here + s.queuedAt x then s
    else
      let s := s.takeToken t.id
      let s : State := { s with fab := { s.fab with waiting := s.fab.waiting ++ [t] } }
      s.consume c t.dest t.ctx t.port (here + 1)

/-- The context takes no token: it is free, or its task has been aborted (R94, R182). -/
def State.deadCtx (s : State) (p c : Nat) : Bool := match s.ctx? p c with
  | some x => x.aborted
  | none => true

/-- A token whose flits have all been ejected reaches its destination. -/
def State.arrive (s : State) (t : Token) : State :=
  let n := t.dest
  if (s.section? n.part n.lsec).isNone || s.deadCtx n.part t.ctx then s.takeToken t.id
  else if n.node then
    match s.channel? n with
    | none => s.takeToken t.id
    | some c =>
      if c.slots.length ≤ n.idx then s.takeToken t.id
      else if c.island then s.arriveIsland t c
      else s.arriveStream t c
  else
    match s.entry? n, t.at_ with
    | some e, some at_ =>
      if (e.valid || e.moving) && e.place.cluster == at_.1 && e.place.elem == at_.2 then
        (if s.storeRoom at_ t then s.arriveElem t e.place else s.arriveMatch t e.place)
      else s.resend t at_
    | _, _ => s.takeToken t.id

/-- A packet. -/
def State.packet? (s : State) (id : Nat) : Option Packet := s.fab.packets.find? fun p => p.id == id

/-- Flits are ejected to the local port of a cluster (R366, R411). -/
def State.countEjected (s : State) (cluster n : Nat) : State :=
  s.modCtr cluster fun k => { k with ejected := satCount k.ejected n }

/-- The flits of a token that is taken whole are ejected. -/
def State.ejectToken (s : State) (t : Token) : State :=
  let s : State := { s with fab := { s.fab with net := modFirst (fun x => x.id == t.id) (fun x => { x with flits := 0 }) s.fab.net } }
  match t.at_ with
  | some a => if t.dest.node then s else s.countEjected a.1 t.flits
  | none => s

/-- TOKEN_ARRIVAL (R183, R187, R318, R341, R361; subject: token): a token whose flits have been ejected, or that is on no listed route,
reaches its destination. -/
def execTokenArrival (s : State) : Result :=
  match s.fab.net.find? fun t => t.id == s.run.subj.a with
  | some t =>
    if (s.part t.dest.part).stopped then .next s
    else if t.flits = 0 then .next (s.arrive t)
    else if (s.packet? t.id).isSome then .next s
    else .next ((s.ejectToken t).arrive { t with flits := 0 })
  | none => .next s

/-! ### Hops (R366 to R373) -/

/-- The hop that a flit crosses next: none where it has crossed its last. -/
def State.nextHop (s : State) (f : Flit) : Option Nat := (s.packet? f.packet).bind fun p => p.path[f.hop]?

/-- The flits that a hop buffer holds. -/
def Hop.flits (h : Hop) : List Flit := h.shared ++ h.ev0.toList ++ h.ev1.toList

/-- A flit leaves the hop buffer that holds it; its slot's credit is on its way back. -/
def Hop.release (h : Hop) (f : Flit) : Hop :=
  if h.shared.contains f then { h with shared := dropFirst (fun x => x = f) h.shared, owed := h.owed + 1 }
  else if h.ev0 = some f then { h with ev0 := none, owed0 := true }
  else if h.ev1 = some f then { h with ev1 := none, owed1 := true }
  else h

/-- A flit enters a hop buffer: a shared slot with a credit, else the escape slot of its class; none where it waits
(R366, R372). -/
def Hop.enter (h : Hop) (f : Flit) (escape : Bool) : Option Hop :=
  if h.shared.length + h.owed < 8 then some { h with shared := h.shared ++ [f] }
  else if !escape then none
  else if f.vc1 then (if h.ev1.isNone && !h.owed1 then some { h with ev1 := some f } else none)
  else if h.ev0.isNone && !h.owed0 then some { h with ev0 := some f } else none

/-- The ring that a message is sent to (R375). -/
def State.ringOf (s : State) (m : Msg) : Option Ring :=
  s.work.rings.find? fun r => r.cluster == (s.part m.op.names.part).alias_ (bits m.ring 26 16) && r.slot == bits m.ring 2 0

/-- The first flit of a message is at its ring's box (R381). -/
def State.headArrived (s : State) (m : Msg) : Bool :=
  match s.packet? m.id with
  | none => true
  | some p => (s.fab.hops.flatMap Hop.flits).any fun f => f.packet == m.id && f.idx == 0 && f.hop == p.path.length

/-- A message waits for a free entry of its ring (R381). -/
def State.msgWaits (s : State) (id : Nat) : Bool :=
  match s.work.msgs.find? fun m => m.id == id with
  | none => false
  | some m => m.state = .flying && match s.ringOf m with
    | some r => r.n ≤ r.rtail - r.head
    | none => false

/-- The ring of a message has no free entry for one whose first flit arrives now, behind those that have arrived and hold none yet
(R372, R381). -/
def State.ringFull (s : State) (id : Nat) : Bool :=
  match s.work.msgs.find? fun m => m.id == id with
  | none => false
  | some m => match s.ringOf m with
    | some r => r.n ≤ r.rtail - r.head
        + (s.work.msgs.filter fun x => x.id ≠ id && x.state = .flying && x.ring == m.ring && s.headArrived x).length
    | none => false

/-- The flit crosses into the buffer of its packet's last hop, at the ring's box where it is one of a message. -/
def Packet.atEnd (p : Packet) (f : Flit) : Bool := f.hop + 1 = p.path.length

/-- The hop buffer with a flit that crosses into it; none where the flit holds no credit for a slot there (R366, R371, R372). -/
def State.crossing (s : State) (hop : Hop) (f : Flit) : Option Hop :=
  (s.packet? f.packet).bind fun p =>
    let full := if f.idx = 0 then s.ringFull p.id else p.full
    hop.enter { f with hop := f.hop + 1, vc1 := f.vc1 || f.hop = p.dateline, entered := s.run.nextId }
      !(p.isMsg && p.atEnd f && full)

/-- The class of a flit in a hop buffer: VC0, VC1 or escape (R373). -/
def Hop.lane (h : Hop) (f : Flit) : Nat := if h.shared.contains f then (if f.vc1 then 1 else 0) else 2

/-- A flit of the same route and class entered a hop buffer before this one, and is there yet (R373). -/
def State.overtakes (s : State) (h : Hop) (f : Flit) : Bool :=
  h.flits.any fun g => g.entered < f.entered && h.lane g == h.lane f
    && (s.packet? g.packet).map (fun p => p.route) = (s.packet? f.packet).map fun p => p.route

/-- The flits of hop buffers and injecting ports that may leave, in the order of their routes (R366, R373). -/
def State.leaders (s : State) : List Flit :=
  let first (f : Flit) : Bool := !(s.fab.inject.any fun g => g.entered < f.entered && s.nextHop g = s.nextHop f
    && (s.packet? g.packet).map (fun p => p.route) = (s.packet? f.packet).map fun p => p.route)
  (s.fab.hops.flatMap fun h => h.flits.filter fun f => !s.overtakes h f) ++ s.fab.inject.filter first

/-- The flit that crosses an output next: of those that may leave, whose next hop it is, and that hold a
credit, the one that entered the box earliest (R366, R368). -/
def State.contender (s : State) (h : Nat) (hop : Hop) : Option Flit :=
  minBy (fun f => f.entered) (s.leaders.filter fun f => s.nextHop f = some h && (s.crossing hop f).isSome)

/-- A message's first flit has reached its ring's box, where it finds an entry free or none (R372). -/
def State.noteFull (s : State) (f : Flit) : State :=
  match s.packet? f.packet with
  | none => s
  | some p =>
    if !(p.isMsg && p.atEnd f && f.idx = 0) then s
    else
      let full := s.ringFull p.id
      { s with fab := { s.fab with packets := modFirst (fun x => x.id == p.id) (fun x => { x with full := full }) s.fab.packets } }

/-- A flit crosses the output into the downstream hop buffer (R366, R371, R372). -/
def State.crossHop (s : State) (h : Nat) : State :=
  match s.fab.hops[h]? with
  | none => s
  | some hop =>
    match s.contender h hop with
    | none => s
    | some f =>
      match s.crossing hop f with
      | none => s
      | some hop' =>
        let s := (s.noteFull f).newId.2
        let hops := setAt (s.fab.hops.map fun x => if x.flits.contains f then x.release f else x) h hop'
        { s with fab := { s.fab with hops := hops, inject := s.fab.inject.filter fun x => x ≠ f } }

/-- The flits of a message leave the fabric once its entry is reserved, or it is refused (R381). -/
def State.mayEject (s : State) (p : Packet) : Bool :=
  !p.isMsg || s.work.msgs.all fun m => m.id ≠ p.id || m.state ≠ .flying

/-- The first flit of a hop buffer that has reached its last stop is ejected to the local port, none before one of its route and class
that waits (R366, R373). -/
def State.ejectHop (s : State) (h : Nat) : State :=
  match s.fab.hops[h]? with
  | none => s
  | some hop =>
    let done (f : Flit) : Bool := match s.packet? f.packet with
      | some p => f.hop == p.path.length && s.mayEject p
      | none => true
    match minBy (fun f => f.entered) (hop.flits.filter fun f => done f && !s.overtakes hop f) with
    | none => s
    | some f =>
      let s : State := { s with fab := { s.fab with hops := setAt s.fab.hops h (hop.release f) } }
      let count (s : State) : State := { s with
        fab := { s.fab with
          packets := (s.fab.packets.map fun p => if p.id == f.packet then { p with left := p.left - 1 } else p).filter
            fun p => p.left ≠ 0
          net := modFirst (fun t => t.id == f.packet) (fun t => { t with flits := t.flits - 1 }) s.fab.net }
        work := { s.work with
          msgs := modFirst (fun m => m.id == f.packet) (fun m => { m with flits := m.flits - 1 }) s.work.msgs } }
      let end_ := hopEnd (hop.col, hop.row) (hop.dir, hop.len)
      if end_.1 % 8 = 7 then count s else (count s).countEjected (mkCluster (end_.1 / 8) (end_.1 % 8) end_.2) 1

/-- FLIT_CROSS (R366 to R372; subject: hop, 0 to cross into its buffer, 1 to be ejected from it); none of a partition that Sage has
stopped (R142). -/
def execFlitCross (s : State) : Result :=
  .next (if s.fab.hops[s.run.subj.a]?.any fun h => (s.part h.part).stopped then s
    else if s.run.subj.b = 0 then s.crossHop s.run.subj.a else s.ejectHop s.run.subj.a)

/-- CREDIT_RETURN (R366; subject: hop): the slots whose flits have left it are free again. -/
def execCreditReturn (s : State) : Result :=
  .next { s with fab := { s.fab with
    hops := modAt s.fab.hops s.run.subj.a fun h => { h with owed := h.owed - 1, owed0 := false, owed1 := false } } }

end Sys2Proof.Machine
end

