-- ==== Sys2Proof/Machine/Rings.lean ====
section
/-! DEFINITION. Receiver rings and messages (R375 to R386): the instructions of group 0xD present their commands;
what each does when its turn comes, how a message travels, and its entry, its count and its acknowledgement. -/

namespace Sys2Proof.Machine

/-! ### The words (R378) -/

/-- Ring words put the ring ID in data, the address or the count in va and data2. -/
def ringAsk (fr : Firing) (f : Fields) (kind : OpKind) (fmt : Fmt) (j : Nat) : Ask :=
  { kind := kind, va := (fr.elemB f j).toNat, data := fr.elemA f j, data2 := fr.elemB f j, fmt := fmt }

/-- No check as the command is presented: the interface makes them all (R379 to R385). -/
def noCheck : Option (State → Nat → Ask → Ask × State) := some fun s _ a => (a, s)

/-- Operand A carries a ring ID. -/
def Firing.ringId (fr : Firing) (f : Fields) : Bool := fr.portIs f.sa.toNat (· = .i64)

/-- RINGREG (R379): va holds BASE, data the address of the tail counter. -/
def execRingreg (f : Fields) (s : State) : Result :=
  let fr := s.run.cur
  .next (s.command f 0xD0 (fr.twoAddr f)
    (fun j => { kind := .ringreg, va := (fr.elemA f j).toNat, data := fr.elemB f j, fmt := .i64 }) noCheck)

/-- MSEND (R380). -/
def execMsend (f : Fields) (s : State) : Result :=
  let fr := s.run.cur
  .next (s.command f 0xD1 (fr.ringId f && fr.portIs f.sb.toNat (· = .a)) (ringAsk fr f .msend .i64) noCheck)

/-- MRECV (R382). -/
def execMrecv (f : Fields) (s : State) : Result :=
  let fr := s.run.cur
  .next (s.command f 0xD2 (fr.ringId f && fr.portIs f.sb.toNat (· = .a)) (ringAsk fr f .mrecv .a) noCheck)

/-- MPEEK (R383). -/
def execMpeek (f : Fields) (s : State) : Result :=
  let fr := s.run.cur
  .next (s.command f 0xD3 (fr.ringId f) (ringAsk fr f .mpeek .i64) noCheck)

/-- MACK (R383): data2 holds the count. -/
def execMack (f : Fields) (s : State) : Result :=
  let fr := s.run.cur
  .next (s.command f 0xD4 (fr.ringId f) (ringAsk fr f .mack .i64)
    ((s.i64B fr f).map fun ns t j a => ({ a with data2 := w64 (at! ns j 0) }, t)))

/-- RINGDEREG (R384). -/
def execRingdereg (f : Fields) (s : State) : Result :=
  let fr := s.run.cur
  .next (s.command f 0xD5 (fr.ringId f) (ringAsk fr f .ringdereg .i64) noCheck)

/-! ### Rings (R375, R376) -/

/-- A ring ID has a reserved bit set (R375). -/
def ringReserved (id : W64) : Bool := bits id 63 27 ≠ 0 || bits id 7 3 ≠ 0

/-- The ring in a slot of a cluster. -/
def State.ring? (s : State) (c slot : Nat) : Option Ring := s.work.rings.find? fun r => r.cluster == c && r.slot == slot

/-- The state with a ring passed through `f`. -/
def State.modRing (s : State) (c slot : Nat) (f : Ring → Ring) : State :=
  { s with work := { s.work with rings := modFirst (fun r => r.cluster == c && r.slot == slot) f s.work.rings } }

/-- A ring fault: nothing changes and the result is poisoned (R385). -/
def State.ringFault (s : State) (o : Op) (sub : Nat) (id : W64) : State :=
  (s.raise { o.site s with unit := s.homeCluster o } { cause := 10, sub := sub, info := id.toNat }).finish o o.bad

/-- The ring that an owner's instruction names, or the subcode of its ring fault; the checks in the order of R385. -/
def State.ownRing (s : State) (o : Op) : Except Nat Ring :=
  let id := o.data
  let c := (s.part o.names.part).alias_ (bits id 26 16)
  if ringReserved id then .error 1
  else if c ≠ s.homeCluster o then .error 5
  else
    match s.ring? c (bits id 2 0) with
    | none => .error 1
    | some r =>
      if r.closing.isSome || r.tag ≠ bits id 15 8 then .error 1
      else if r.part ≠ o.names.part || r.ctx ≠ o.ctx then .error 5
      else .ok r

/-- The ID of a ring. -/
def ringIdOf (c tag slot : Nat) : Nat := c * 2 ^ 16 + tag * 2 ^ 8 + slot

/-- The checks of RINGREG; its counter's level and address (R379). -/
def State.regCheck (s : State) (o : Op) : Option (Level × Nat) :=
  let l := o.lit
  let h := s.homeCluster o
  let n := 2 ^ bits l 36 32
  let t := o.data.toNat
  if (s.ring? h (bits l 2 0)).isSome || o.va % 128 ≠ 0 || bits l 36 32 < 8 || 18 < bits l 36 32
      || !s.scratchValid o.names.part h .cs o.va n || t % 8 ≠ 0 then none
  else
    match levelOf (bits l 39 37) with
    | none => none
    | some lv =>
      match s.bytesCheck o.names.part o.ctx h lv t 8 { rd := true, w := true } with
      | .ok a => some (lv, a)
      | .error _ => none

/-- The ring is recorded, and its ID returned (R376, R379). -/
def State.registerRing (s : State) (o : Op) (lv : Level) (a t0 : Nat) : State :=
  let l := o.lit
  let h := s.homeCluster o
  let r : Ring :=
    { cluster := h, slot := bits l 2 0, part := o.names.part, ctx := o.ctx, asid := s.asidOf o.names.part o.ctx,
      base := o.va, n := 2 ^ bits l 36 32 / 128, tag := bits l 15 8, ctrLvl := lv, ctrAddr := a, rtail := t0,
      wtail := t0, head := t0, closing := none }
  ({ s with work := { s.work with rings := s.work.rings ++ [r] } } : State).finish o
    (o.good (ringIdOf h r.tag r.slot))

/-- A RINGREG whose turn has come (R379); it waits for the end of a change of the scratch ways where its ring would lie (R58). -/
def State.runRingreg (s : State) (o : Op) : State :=
  let h := s.homeCluster o
  let p := o.names.part
  if s.rangeBlocked h .cs o.va (2 ^ bits o.lit 36 32) then s else
  match s.regCheck o with
  | none => s.ringFault o 6 (w64 (ringIdOf h (bits o.lit 15 8) (bits o.lit 2 0)))
  | some (lv, a) =>
    if lv.cached then
      let seed := (s.ctx? p o.ctx).map fun x => x.seed
      match s.readNow p (s.asidOf p o.ctx) a 8 seed { rd := true, w := true } .plain (.asks 0 o.id 0 0) with
      | .busy t => t
      | .fault c u t => t.opFault { o with ia := a } (t.homeFor p (t.asidOf p o.ctx) (a / 64) seed) c u
      | .ok bs t => t.registerRing o lv a (leNat bs)
    else
      let x := s.spotOf p h 0 lv a
      if s.wayBlocked x then s
      else if s.spotSpoiled x 8 then s.refuse o { cause := 0x0B, sub := 1, addr := a }
      else (s.noteGuards (o.site s) lv x 8).registerRing o lv a (leNat (s.readSpot x 8))

/-! ### MSEND (R380) -/

/-- Send slots of an interface that are held. -/
def State.sendSlots (s : State) (c : Nat) : Nat := (s.work.msgs.filter fun m => m.from_ == c).length

/-- The path of a message on its route: none where ROUTE does not serve both clusters (R380). -/
def State.msgPath (s : State) (o : Op) (src dst : Nat) : Option (List ((Nat × Nat) × (Nat × Nat)) × Nat) :=
  let route := bits o.lit 10 0
  if route = 0 then some ([], 0xFF)
  else
    match s.section? o.names.part o.names.lsec with
    | none => none
    | some sec =>
      if bit (at! sec.image.routes (route - 1) 0) 0 then routePath sec route (clusterPos src) (clusterPos dst)
      else none

/-- An MSEND whose turn has come: refused, or accepted where its home interface has a free send slot, and then
performed; its payload is read in pieces (R380, R385; log 53, DEDUCED). A ring ID that names a strip which the partition does not have
faults as FRAME (R423; log 102, DEDUCED). -/
def State.runMsend (s : State) (o : Op) : State :=
  let h := s.homeCluster o
  let n := bits o.lit 29 23
  let lv := (levelOf (litLevel o.lit)).getD .l1
  let c := (s.part o.names.part).alias_ (bits o.data 26 16)
  if ringReserved o.data then s.ringFault o 1 o.data
  else if !(s.part o.names.part).hasStrip (clusterStrip c) then
    s.refuse o { cause := 5, sub := 5, addr := o.data.toNat }
  else if (s.msgPath o h c).isNone then s.ringFault o 2 o.data
  else if 16 ≤ s.sendSlots h then s
  else
    match s.bytesCheck o.names.part o.ctx h lv o.va n { rd := true } with
    | .error t => s.refuse o t
    | .ok a =>
      let (id, s) := s.newId
      let m : Msg :=
        { id := id, op := o, from_ := h, ring := o.data, asid := s.asidOf o.names.part o.ctx, data := [],
          route := bits o.lit 10 0, state := .queued, n := 0, flits := 0 }
      let (eid, s) := s.newId
      let e : EngOp := { engOf s o eid .msend (piecesOf false lv h a n 0 1) none with cluster := h, params := [0, id] }
      ({ s with work := { s.work with msgs := s.work.msgs ++ [m], engs := s.work.engs ++ [e] } } : State).endOp o

/-- The message is changed. -/
def State.setMsg (s : State) (id : Nat) (f : Msg → Msg) : State :=
  { s with work := { s.work with msgs := modFirst (fun m => m.id == id) f s.work.msgs } }

/-- The message is over: its send slot is free (R380). -/
def State.dropMsg (s : State) (id : Nat) : State :=
  { s with work := { s.work with msgs := s.work.msgs.filter fun m => m.id ≠ id } }

/-- A message is refused at the interface of a ring's cluster, or takes an entry there; the flits of one that is on no listed route are
ejected with it (R367, R381). -/
def State.settleMsg (s : State) (m : Msg) (f : Msg → Msg) : State :=
  let whole := (s.packet? m.id).isNone
  let s := if whole then s.countEjected ((s.part m.op.names.part).alias_ (bits m.ring 26 16)) m.flits else s
  s.setMsg m.id fun x => f (if whole then { x with flits := 0 } else x)

/-- An earlier message of the same context to the same ring has not been acknowledged (R380). -/
def State.msgBehind (s : State) (m : Msg) : Bool :=
  (s.work.msgs.takeWhile fun x => x.id ≠ m.id).any fun x =>
    x.op.names.part == m.op.names.part && x.op.ctx == m.op.ctx && x.ring == m.ring

/-- A message with its payload is injected on its route (R380), but not while its partition is gated (R413). -/
def State.injectMsg (s : State) (m : Msg) : State :=
  if m.state ≠ .queued || m.data.isEmpty || s.msgBehind m || (s.part m.op.names.part).gated then s
  else
    let n := (16 + m.data.length + 31) / 32
    let s := s.setMsg m.id fun x => { x with state := .flying, flits := n }
    match s.msgPath m.op m.from_ ((s.part m.op.names.part).alias_ (bits m.ring 26 16)) with
    | some (h :: hs, dl) => s.injectPacket (m.op.names.part, m.op.names.lsec, bits m.op.lit 10 0) m.id n true (h :: hs) dl
    | _ => s

/-- Every message that may be injected is. -/
def State.injectMsgs (s : State) : State := s.work.msgs.foldl (fun s m => s.injectMsg m) s

/-- The result of an MSEND (R380). -/
def State.msgResult (s : State) (o : Op) (r : ElemRes) : State := if o.gather = 0 then s else s.deliver o.gather o.j r

/-- A payload whose reads are done goes into its message; one that was refused frees the send slot (R463). -/
def State.msendOn (s : State) (e : EngOp) : State :=
  if at! e.params 0 0 ≠ 0 || !e.got 0 128 then s
  else
    let id := at! e.params 1 0
    let s := s.dropEng e.id
    match s.work.msgs.find? fun m => m.id == id with
    | none => s
    | some m =>
      match e.bytes 0 128 with
      | none => ((s.dropMsg id).msgResult m.op m.op.bad).injectMsgs
      | some bs => (s.setMsg id fun x => { x with data := bs }).injectMsgs

/-! ### Reception (R377, R381) -/

/-- The bytes of an entry (R377). -/
def entryBytes (m : Msg) (n : Nat) : List Byte :=
  leBytes 8 (m.data.length + m.from_ * 2 ^ 16 + n % 2 ^ 32 * 2 ^ 32) ++ leBytes 8 (m.asid % 4096) ++ m.data
    ++ List.replicate (112 - m.data.length) 0

/-- When the head flit of a message entered its ring's box; messages of one ring reserve in that order. -/
def State.headEntered (s : State) (m : Msg) : Nat :=
  ((((s.fab.hops.flatMap Hop.flits).find? fun f => f.packet == m.id && f.idx == 0).map fun f => f.entered)).getD 0

/-- A message whose first flit came before waits for an entry of the same ring. -/
def State.msgFirst (s : State) (m : Msg) : Bool :=
  s.work.msgs.all fun x =>
    x.id == m.id || x.state ≠ .flying || x.ring ≠ m.ring || (s.packet? x.id).isNone || !s.headArrived x
      || s.headEntered m ≤ s.headEntered x

/-- MESSAGE_RECEIVE (R381; subject: msg): the first flit of a message is checked; it waits for space, then entry n is
reserved and written as engine pieces, whose guard records go to the ring's owner (R385). -/
def execMessageReceive (s : State) : Result :=
  match s.work.msgs.find? fun m => m.id == s.run.subj.a with
  | none => .next s
  | some m =>
    if m.state ≠ .flying || !s.headArrived m || (s.part m.op.names.part).stopped then .next s
    else
      match s.ringOf m with
      | none => .next (s.settleMsg m fun x => { x with state := .nacked 1 })
      | some r =>
        if r.tag ≠ bits m.ring 15 8 || r.asid ≠ m.asid || r.part ≠ m.op.names.part || r.closing.isSome then
          .next (s.settleMsg m fun x => { x with state := .nacked 1 })
        else if r.n ≤ r.rtail - r.head || !s.msgFirst m then .next s
        else
          let n := r.rtail
          let s := s.modRing r.cluster r.slot fun x => { x with rtail := n + 1 }
          let (id, s) := s.newId
          let e : EngOp :=
            { id := id, starter := 0, chained := false, kind := .msend, names := m.op.names, ctx := r.ctx, asid := r.asid,
              wave := m.op.wave, cluster := r.cluster, scope := m.op.scope,
              pieces := writePieces .cs r.cluster (r.base + 128 * (n % r.n)) (entryBytes m n) 1, bad := false,
              ctr := some (r.ctrLvl, r.ctrAddr, 1), gather := none, word := m.op.word, lit := m.op.lit, args := [],
              params := [1, m.id], info := 0, flush := none }
          let s := s.settleMsg m fun x => { x with state := .reserved, n := n }
          .next { s with work := { s.work with engs := s.work.engs ++ [e] } }

/-! ### MRECV (R382) -/

/-- The copy of an MRECV begins: 128 bytes of an entry to the destination. -/
def State.copyEntry (s : State) (o : Op) (r : Ring) : State :=
  let lv := (levelOf (litLevel o.lit)).getD .l1
  let n := r.head + bits o.lit 7 0
  match s.bytesCheck o.names.part o.ctx r.cluster lv o.va 128 { w := true } with
  | .error t => s.refuse o t
  | .ok d =>
    let (id, s) := s.newId
    let here (x : Piece) : Piece :=
      if x.write && lv = .es then { x with span := { x.span with cluster := o.cluster, elem := o.elem } } else x
    let ps := (rowPieces .cs lv r.cluster 128 [r.base + 128 * (n % r.n), d] 0 1).map here
    let e : EngOp := { engOf s o id .mrecv ps none with cluster := r.cluster }
    (s.modOp o.id fun x => { x with phase := .sent }).addEng e

/-- The entry that an MRECV waits for is complete. -/
def Ring.hasEntry (r : Ring) (o : Op) : Bool := r.head + bits o.lit 7 0 < r.wtail

/-- An MRECV whose turn has come (R382, R385). -/
def State.runMrecv (s : State) (o : Op) : State :=
  match s.ownRing o with
  | .error u => s.ringFault o u o.data
  | .ok r =>
    if r.n ≤ bits o.lit 7 0 then s.ringFault o 4 o.data
    else if r.hasEntry o then s.copyEntry o r
    else s.park o []

/-- The parked MRECVs of a ring whose entries are complete go on. -/
def State.wakeRing (s : State) (c slot : Nat) : State :=
  match s.ring? c slot with
  | none => s
  | some r =>
    (s.work.ops.filter fun o => o.kind = .mrecv && o.phase = .parked && (s.part r.part).alias_ (bits o.data 26 16) == c && bits o.data 2 0 == slot
      && r.part == o.names.part && r.ctx == o.ctx && r.hasEntry o).foldl (fun s o => s.copyEntry o r) s

/-- An MRECV ends when every piece has been performed (R382). -/
def State.mrecvOn (s : State) (e : EngOp) : State :=
  if !e.pieces.isEmpty then s
  else s.endTile e fun o => if e.bad then o.bad else o.good o.va

/-! ### MPEEK, MACK and RINGDEREG (R383, R384) -/

/-- An MPEEK whose turn has come (R383). -/
def State.runMpeek (s : State) (o : Op) : State :=
  match s.ownRing o with
  | .error u => s.ringFault o u o.data
  | .ok r => s.finish o (o.good (r.wtail - r.head))

/-- A MACK whose turn has come (R383, R385). -/
def State.runMack (s : State) (o : Op) : State :=
  match s.ownRing o with
  | .error u => s.ringFault o u o.data
  | .ok r =>
    let c := o.data2.toNat
    if r.wtail - r.head < c then s.ringFault o 3 o.data
    else
      let s := s.modRing r.cluster r.slot fun x => { x with head := x.head + c }
      (s.wakeRing r.cluster r.slot).finish o (o.good (r.head + c))

/-- A ring that takes no more messages is freed once its entries are complete, and messages that wait for space there are refused; the
RINGDEREG that closed it returns WTAIL (R384). -/
def State.drainRing (s : State) (c slot : Nat) : State :=
  match s.ring? c slot with
  | none => s
  | some r =>
    match r.closing with
    | none => s
    | some id =>
      if r.wtail ≠ r.rtail then s
      else
        let late := s.work.msgs.filter fun m => m.state = .flying && s.headArrived m && s.ringOf m = some r
        let s : State := { s with work := { s.work with rings := s.work.rings.filter fun x => x ≠ r } }
        let s := late.foldl (fun s m => s.settleMsg m fun x => { x with state := .nacked 1 }) s
        match s.op? id with
        | some o => s.finish o (o.good r.wtail)
        | none => s

/-- A RINGDEREG whose turn has come (R384). -/
def State.runRingdereg (s : State) (o : Op) : State :=
  match s.ownRing o with
  | .error u => s.ringFault o u o.data
  | .ok r =>
    let s := (s.park o []).modRing r.cluster r.slot fun x => { x with closing := some o.id }
    s.drainRing r.cluster r.slot

/-- The rings of a context are closed as it retires (R384). -/
def State.closeRings (s : State) (p c : Nat) : State :=
  (s.work.rings.filter fun r => r.part == p && r.ctx == c).foldl (fun s r =>
    (s.modRing r.cluster r.slot fun x => if x.closing.isSome then x else { x with closing := some 0 }).drainRing r.cluster r.slot) s

/-! ### Completion and acknowledgement (R380, R381, R385) -/

/-- The entry of a message is complete, in its turn: WTAIL passes it, and what waited for it goes on (R381, R382, R384). -/
def State.completeEntry (s : State) (m : Msg) (e : EngOp) : Option State :=
  if e.params ≠ [1, m.id] then some s
  else
    match s.ringOf m with
    | none => none
    | some r =>
      if r.wtail ≠ m.n then none
      else
        let s := s.modRing r.cluster r.slot fun x => { x with wtail := m.n + 1 }
        let s := s.modEng e.id fun y => { y with params := [2, m.id] }
        some ((s.wakeRing r.cluster r.slot).drainRing r.cluster r.slot)

/-- The acknowledgement of a message leaves. -/
def State.ackMsg (s : State) (m : Msg) (e : EngOp) : State := (s.dropEng e.id).setMsg m.id fun x => { x with state := .acked }

/-- RING_ENTRY_COMPLETE (R381, R385; subject: msg): entries complete in number order, once all that the MSEND releases at its
scope has been performed; then the tail counter is added to, and the acknowledgement leaves. An add that faults waits in place,
or is lost (R171, R463). -/
def execRingEntryComplete (s : State) : Result :=
  match s.work.msgs.find? fun m => m.id == s.run.subj.a with
  | none => .next s
  | some m =>
    match s.entryEng m.id with
    | none => .next s
    | some e =>
      if m.state ≠ .reserved || !e.pieces.isEmpty || m.flits ≠ 0 || s.pieceWaits e 0 || (s.part m.op.names.part).stopped
          || !s.chainDone m.op.names.part m.op.ctx m.id m.op.id (m.op.scope = 0) then .next s
      else
        match s.completeEntry m e with
        | none => .next s
        | some s =>
          match e.ctr with
          | none => .next (s.ackMsg m e)
          | some (lv, a, n) =>
            match s.ctrAddNow e.names.part e.asid ((s.ctx? e.names.part e.ctx).map fun x => x.seed) (m.op.site s) e.cluster lv a n (some (.piece e.id 0)) with
            | .busy t => .next t
            | .fault c u t =>
              let t := t.addFault e (m.op.site s) e.cluster a c u
              if faultWaits c u then .next t else .next (t.ackMsg m e)
            | .ok t => .next (t.ackMsg m e)

/-- MESSAGE_ACK (R380, R385; subject: msg): the acknowledgement reaches the sender's interface; the send slot is free,
and the MSEND has its result. The context's next message to the ring follows. -/
def execMessageAck (s : State) : Result :=
  match s.work.msgs.find? fun m => m.id == s.run.subj.a with
  | none => .next s
  | some m =>
    if (s.part m.op.names.part).stopped then .next s
    else
    match m.state with
    | .acked => .next (((s.dropMsg m.id).msgResult m.op (m.op.good m.n)).injectMsgs)
    | .nacked u =>
      let s := s.raise { m.op.site s with unit := m.from_ } { cause := 10, sub := u, info := m.ring.toNat }
      .next (((s.dropMsg m.id).msgResult m.op m.op.bad).injectMsgs)
    | _ => .next s

end Sys2Proof.Machine
end

