-- ==== Sys2Proof/Machine/Chain.lean ====
section
/-! DEFINITION. The home store buffer (R81 to R93, R98, R103 to R107): what a chained operation does when its turn
comes, forwarding from stores that wait, and the rows CHAIN_PERFORM, LEASE_GRANT, LEASE_EXPIRY and
CTRWAIT_REPRESENT. -/

namespace Sys2Proof.Machine

/-! ### Operations that perform no access of their own (R93, R251, R253, R406, R410) -/

/-- The result of an operation that passes its operand on. -/
def Op.pass (o : Op) : ElemRes := if o.poison then o.bad else o.operand

/-- REGION is performed: the restartable part of its task ends, and its count of aborts is cleared (R93, R402). -/
def State.runRegion (s : State) (o : Op) : State :=
  let p := o.names.part
  let s := match s.ctx? p (s.rootOf p o.ctx) with
    | some x => s.modPart p fun y => { y with aborts := y.aborts.del (x.queue, x.lseq, x.workid.toNat) }
    | none => s
  (s.modTask p (s.rootOf p o.ctx) fun x => { x with region := true }).finish o o.pass

/-- A FLUSHR or an INVR handles the lines left to it: those that are free now; the others stay queued at their homes,
and the instruction completes when none is left (R251). -/
def State.walkRange (s : State) (o : Op) (lines : List Nat) : State :=
  let p := o.names.part
  let asid := s.asidOf p o.ctx
  let go (s : State) (l : Nat) : State :=
    if o.kind = .inval && s.lineInHost p asid l then s.discardLine asid l else s.flushLine p asid l o.ctx
  let left := lines.filter fun l => !s.lineFree asid l
  let s := (lines.filter fun l => s.lineFree asid l).foldl go s
  if left.isEmpty then s.finish o o.operand
  else s.modOp o.id fun x => { x with phase := .sent, params := left }

/-- A SYSCALL whose turn has come: its record, with argument 0 in INFO and argument 1 in ADDR, and its chain parked
until an SCDONE (R406). -/
def State.runSyscall (s : State) (o : Op) : State :=
  (s.raise (o.site s) { cause := 0x11, sub := 0, addr := o.data2.toNat, info := o.data.toNat, code := bits o.lit 15 0 }).park o []

/-- A TASKSPAWN whose turn has come (R410). -/
def State.runSpawn (s : State) (o : Op) : State :=
  match s.ctx? o.names.part o.ctx with
  | none => s
  | some x =>
    match s.spawn o.id x (bits o.lit 5 0) o.va with
    | (none, t) => t
    | (some v, t) => t.finish o (o.good v.toNat)

/-! ### An operation whose turn has come (R81) -/

/-- What an operation does when it may be performed; one that is poisoned performs nothing but for its place
(R89). -/
def State.runOp (s : State) (o : Op) : State :=
  match o.kind with
  | .region => s.runRegion o
  | .fence _ _ => s.finish o o.pass
  | .lease => s
  | k =>
    if o.poison then s.finish o o.bad
    else
      match k with
      | .unlease => s.unlease o
      | .flush => s.walkRange o (if o.data = 0 then [] else s.cachedLines (s.asidOf o.names.part o.ctx) o.ia o.data.toNat)
      | .inval => s.walkRange o (if o.data = 0 then [] else s.cachedLines (s.asidOf o.names.part o.ctx) o.ia o.data.toNat)
      | .copy => s.startCopy o
      | .copym => s.startCopym o
      | .shadow d => s.runShadow o d
      | .publish => s.runPublish o
      | .feset => s.runFe o true
      | .feclr => s.runFe o false
      | .waymask => s.runWaymask o
      | .alloc => s.runAlloc o
      | .free => s.runFree o
      | .ringreg => s.runRingreg o
      | .msend => s.runMsend o
      | .mrecv => s.runMrecv o
      | .mpeek => s.runMpeek o
      | .mack => s.runMack o
      | .ringdereg => s.runRingdereg o
      | .syscall => s.runSyscall o
      | .spawn => s.runSpawn o
      | .send => s.runSend o
      | .tcvt => s.startTile o
      | .tstat => s.startTile o
      | .cbload => s.startTile o
      | .gemvb => s.startTile o
      | .tslice => s.startTile o
      | .tbuild => s.startTile o
      | _ => s.startPiece o

/-! ### Forwarding (R85, R98) -/

/-- The byte `j` of an operation's place: its memory and address, by which two operations of a context are
compared. -/
def Op.byteKey (o : Op) (s : State) (j : Nat) : Option Level × Nat :=
  if o.level.cached then (none, o.ia + j)
  else
    let k := ((o.spot s).add j).key
    (some k.1, k.2)

/-- The operation changes bytes of its place. -/
def Op.stores (o : Op) : Bool := match o.kind with
  | .store => !o.poison
  | .stfe => !o.poison
  | .amo _ => !o.poison
  | .ldfe _ => !o.poison
  | _ => false

/-- The buffered operations that come before an operation in chain order, as far as each is there: none when one
of them is missing. `n` bounds their number. -/
def chainBefore (all : List Op) (o : Op) : Nat → Chain → Option (List Op)
  | 0, _ => none
  | n + 1, c =>
    if c.isNext o then some []
    else
      match all.find? fun q => c.isNext q with
      | none => none
      | some q => (chainBefore all o n (c.after q)).map fun r => q :: r

/-- The byte that the stores before a load write at its byte `j`: the latest; none where no store writes it, or
another operation does. -/
def forwardByte (s : State) (o : Op) (before : List Op) (j : Nat) : Option Byte :=
  match before.reverse.find? fun q => q.stores && (upto (2 ^ q.width)).any fun i => q.byteKey s i = o.byteKey s j with
  | none => none
  | some q =>
    if q.kind = .store || q.kind = .stfe then
      ((upto (2 ^ q.width)).find? fun i => q.byteKey s i = o.byteKey s j).map fun i => BitVec.ofNat 8 (q.data.toNat >>> (8 * i))
    else none

/-- The operation is an acquire (R100, R105, R243, R382, R406). -/
def Op.isAcquire (o : Op) : Bool :=
  match o.kind with
  | .load => o.ord
  | .ldfe _ => o.ord
  | .ctrWait => true
  | .mrecv => true
  | .syscall => true
  | .amo .ctradd => false
  | .amo _ => o.ord
  | .fence acq _ => acq
  | _ => false

/-- The operation may change bytes by more than a value stored at its own address: it writes a range, or changes what an address or
a scratch offset holds (R51, R58, R164, R251, R264, R310, R382). -/
def Op.rewrites (o : Op) : Bool :=
  match o.kind with
  | .mrecv | .tcvt | .tbuild | .alloc | .free | .waymask | .inval | .publish | .shadow _ => true
  | _ => false

/-- A relaxed chained load whose bytes are all written by stores before it in the buffer takes its value from
them at once; its place in the chain is performed when its turn comes (R85, R98). None is taken past an acquire that waits
(R105), nor past an operation that may change the bytes (R85). -/
def State.tryForward (s : State) (x : Ctx) (o : Op) : State :=
  if o.kind ≠ .load || o.ord || o.poison || o.gather = 0 || o.entry = .outside then s
  else
    let all := s.work.ops.filter fun q => q.names.part == x.part && q.ctx == x.id && q.chained && q.entry ≠ .outside
    match chainBefore all o (all.length + 1) x.chain with
    | none => s
    | some before =>
      if before.any fun q => q.isAcquire || q.rewrites then s
      else
        match (upto (2 ^ o.width)).mapM fun j => forwardByte s o before j with
        | none => s
        | some bs =>
          let t := s.modOp o.id fun y => { y with kind := .nop, gather := 0 }
          let w := some (Port.mk false (s.homeCluster o))
          if o.params = [1] then t.deliverAll o.gather (o.good (leNat bs)) w else t.deliver o.gather o.j (o.good (leNat bs)) w

/-! ### CHAIN_PERFORM -/

/-- The operation is one that its chain has already passed (R90). -/
def Chain.stale (c : Chain) (o : Op) : Bool := o.wave < c.wave || (o.wave == c.wave && c.seen.contains o.this)

/-- The operation may be performed as far as the operations before it go; a SY release first flushes the posted
writes of its function (R93, R104, R153). -/
def State.turn (s : State) (o : Op) : State :=
  if o.follows || (o.waitsBefore && !s.released o) then s
  else if s.unflushed o then s.flushRead o
  else s.runOp o

/-- The operation is Next in its chain, or has none (R79, R81). -/
def Ctx.takes (x : Ctx) (o : Op) : Bool := !o.chained || x.chain.isNext o

/-- The entry of an operation that reaches its home store buffer (R84): a shared one while there is one, else the kept entry of
its context's chain slot for the Next operation; another one stays at the network interface. -/
def State.entryFor (s : State) (o : Op) (next : Bool) : Entry :=
  if !o.chained || o.entry ≠ .outside then o.entry
  else if s.sharedUse (s.homeCluster o) < 192 then .shared
  else if next then .kept
  else .outside

/-- An operation takes its entry (R84). -/
def State.enter (s : State) (o : Op) (e : Entry) : State :=
  if o.entry = e then s else s.modOp o.id fun x => { x with entry := e }

/-- A buffered operation is stale, Next, or waits in the buffer, where it may be forwarded to (R81, R84, R85, R90). The results of
a firing one of whose operations is discarded are not sent: they await one that never comes (log 78, DESIGN CHOICE). -/
def State.performBuffered (s : State) (x : Ctx) (o : Op) : State :=
  if o.chained && x.halted then s
  else if o.chained && x.chain.stale o then (s.raise (o.site s) { cause := 1, sub := 3 }).dropOp o.id
  else
    let e := s.entryFor o (x.takes o)
    let s := s.enter o e
    if x.takes o then s.turn { o with entry := e } else s.tryForward x { o with entry := e }

/-- A wait that has reached its place is performed there where what it waits for has come while its context was halted (R61, R135,
R405). -/
def State.retest (s : State) (o : Op) : State :=
  if s.chainHalted o then s
  else
    match o.kind with
    | .ctrWait => if o.level.cached then s.wakeIa o.names.part (s.asidOf o.names.part o.ctx) o.ia 8 else s.wakeSpot (o.spot s) 8
    | .ldfe _ => if s.isFull (o.spot s) then s.releaseFull (o.spot s) else s
    | _ => s

/-- CHAIN_PERFORM (R81, R84, R90; subject: op): an operation that waits in the buffer is performed when it is Next, or
when it is unchained and what it waited for is over; a halted context performs none of its chain (R405; log 45, DESIGN CHOICE), and
a partition that Sage has stopped performs none (R142). -/
def execChainPerform (s : State) : Result :=
  match s.op? s.run.subj.a with
  | none => .next s
  | some o =>
    match s.ctx? o.names.part o.ctx with
    | none => .next s
    | some x =>
      if (s.part o.names.part).stopped then .next s
      else
        match o.phase with
        | .buffered => .next (s.performBuffered x o)
        | .sent =>
          if o.kind = .flush || o.kind = .inval then .next (s.walkRange o o.params) else .next s
        | .parked => .next (s.retest o)
        | _ => .next s

/-! ### Leases and waits -/

/-- LEASE_GRANT (R121, R131; subject: op). -/
def execLeaseGrant (s : State) : Result :=
  match s.op? s.run.subj.a with
  | none => .next s
  | some o =>
    match s.ctx? o.names.part o.ctx with
    | none => .next s
    | some x =>
      if o.kind = .lease && o.phase = .buffered && x.takes o && !x.halted && !(s.part o.names.part).gated
          && !(s.part o.names.part).stopped then
        let e := s.entryFor o true
        .next ((s.enter o e).tryLease { o with entry := e })
      else .next s

/-- LEASE_EXPIRY (R125; subject: cluster, entry). -/
def execLeaseExpiry (s : State) : Result :=
  match s.mem.leases.find? fun e => e.cluster == s.run.subj.a && e.entry == s.run.subj.b with
  | none => .next s
  | some e => if e.end_ ≤ s.dev.clock && !(s.part e.part).stopped then .next (s.endLease e true) else .next s

/-- The table at which a CTRWAIT registers: a cluster's or a slice's (R135). -/
def Op.waitTable (o : Op) (s : State) : Bank :=
  if o.level.cached then
    let seed := match s.ctx? o.names.part o.ctx with
      | some x => x.seed
      | none => 0
    .ss (s.homeOf o.names.part (s.asidOf o.names.part o.ctx) (o.ia / 64) seed)
  else
    match o.spot s with
    | .ss sl _ => .ss sl
    | x => .cs x.unit

/-- The table has a free registration (R135). -/
def State.tableRoom (s : State) : Bank → Bool
  | .ss sl => s.sliceRegs sl < 2048
  | .cs c => s.clusterRegs c < 64

/-- CTRWAIT_REPRESENT (R135; subject: op): of the waits that a full table turned away, the first is presented again
once a registration is free. Until it has registered, no later one is; one that finds the table full again ranks last (log 95,
DESIGN CHOICE). Those of a halted context's chain wait for its resume (R405). -/
def execCtrwaitRepresent (s : State) : Result :=
  match s.op? s.run.subj.a with
  | none => .next s
  | some o =>
    let first := (s.work.ops.find? fun q =>
      q.phase = .turned && q.waitTable s = o.waitTable s && !s.chainHalted q).map fun q => q.id
    if o.phase = .turned && first = some o.id && !(s.part o.names.part).stopped && s.tableRoom (o.waitTable s) then
      .next ((s.modOp o.id fun x => { x with phase := .buffered }).startAccess { o with phase := .buffered })
    else .next s

end Sys2Proof.Machine
end

