-- ==== Sys2Proof/Machine/Tasks.lean ====
section
/-! DEFINITION. The ends of tasks (R94, R180, R182, R231, R402, R405): abort, requeueing, retirement and
kill, and the resolution of faults that wait (R46). -/

namespace Sys2Proof.Machine

/-! ### Launches and their tasks -/

/-- The running launch of a queue and number. -/
def Part.run? (x : Part) (q l : Nat) : Option Running := x.running.find? fun r => r.queue == q && r.lseq == l

/-- The state with a running launch passed through `f`. -/
def State.modRun (s : State) (p q l : Nat) (f : Running → Running) : State :=
  s.modPart p fun x => { x with running := modFirst (fun r => r.queue == q && r.lseq == l) f x.running }

/-- The cursor of a schedule table whose entry's task has ended goes on (R179). -/
def Cursor.ended (c : Cursor) (t : Nat) : Cursor :=
  if c.task = some t then { c with entries := c.entries.drop 1, task := none } else c

/-- A task of a launch has ended: failed ones are counted, and the cursor that dispatched it goes on (R179,
R182). `t` is what the cursor holds for it. -/
def State.taskEnded (s : State) (p q l t : Nat) (failed : Bool) : State :=
  s.modRun p q l fun r =>
    { r with failed := if failed then r.failed + 1 else r.failed, cursors := r.cursors.map fun c => c.ended t }

/-- What a cursor holds for a task that is held for requeueing: the mark of its own cluster. -/
def heldMark (cluster : Nat) : Nat := 4096 + cluster

/-- The mark of a task that a cursor of the launch dispatched; 0 for one that none did. -/
def Running.markOf (r : Running) (c : Nat) : Nat :=
  ((r.cursors.find? fun k => k.task = some c).map fun k => heldMark k.cluster).getD 0

/-! ### Abort and kill (R94, R405) -/

/-- The operation awaits the answer of a peer, of the host or of an emulation. -/
def Op.away (o : Op) : Bool := o.phase = .parked && match o.params with
  | 5 :: _ => true
  | 6 :: _ => true
  | 7 :: _ => true
  | 9 :: _ => true
  | _ => false

/-- The operation has left its buffer toward its place, so that it is not recalled: it is on its way, or waits at its place for a
counter, a full granule or a free registration (R94). -/
def Op.gone (o : Op) : Bool :=
  o.phase = .sent || o.phase = .turned || o.away || (o.phase = .parked && match o.kind with
    | .ctrWait => true
    | .ldfe _ => true
    | _ => false)

/-- The operation is performed by pieces of its own, so that what has left are those (R94, R157). -/
def State.inPieces (s : State) (o : Op) : Bool := s.work.engs.any fun e => e.starter == o.id

/-- The operations and engine operations of one context are discarded, but for what has left: its results are
dropped (R94). Its tokens and ready sets go, and its streams close (R339). -/
def State.cancelCtx (s : State) (p c : Nat) : State :=
  let mine (n : Names) (k : Nat) : Bool := n.part == p && k == c
  let lost := (s.work.ops.filter fun o => mine o.names o.ctx && (!o.gone || s.inPieces o)).map fun o => o.id
  let s := lost.foldl (fun s id => s.dropOp id) s
  let mute (o : Op) : Op := if mine o.names o.ctx then { o with gather := 0 } else o
  let keep (e : EngOp) : EngOp :=
    if mine e.names e.ctx then
      { e with kind := .copy, ctr := none, gather := none, pieces := e.pieces.filter fun x => x.out, params := [] }
    else e
  let engs := (s.work.engs.map keep).filter fun e => !(mine e.names e.ctx && e.pieces.isEmpty)
  let gone (w : Waiting) : Bool := match w.who with
    | .piece e _ => !engs.any fun x => x.id == e
    | _ => false
  let tok (t : Token) : Bool := mine t.dest t.ctx
  { s with
    work := { s.work with
      ops := s.work.ops.map mute
      engs := engs
      waits := s.work.waits.filter fun w => !gone w
      gathers := s.work.gathers.filter fun g => !mine g.names g.ctx }
    fab := { s.fab with
      waiting := s.fab.waiting.filter fun t => !tok t
      held := s.fab.held.filter fun t => !tok t
      ready := s.fab.ready.filter fun f => !mine f.names f.ctx }
    ldr := { s.ldr with
      channels := modAll (fun x => x.part == p)
        (fun x => { x with sctx := x.sctx.filter fun y => y.ctx ≠ c }) s.ldr.channels } }

/-- The contexts of a task. -/
def State.taskCtxs (s : State) (p root : Nat) : List Nat :=
  (s.ctxs.filter fun x => x.part == p && x.root == root && x.live).map fun x => x.id

/-- Every context of a task is stopped for good: it issues nothing more and takes no token (R94, R231). -/
def State.cancelTask (s : State) (p root : Nat) : State :=
  ((s.taskCtxs p root).foldl (fun s c => s.cancelCtx p c) s).modTask p root fun x => { x with aborted := true, resume := [] }

/-- A task that its FRESUME has named goes back to its launch (R46): ahead of every requeued one of it, or to the cursor
that dispatched it. A launch that dispatches nothing more counts it as failed (R395). -/
def Running.takeBack (r : Running) (t : HeldTask) : Running :=
  if r.stopped then { r with failed := r.failed + 1, cursors := r.cursors.map fun c => c.ended t.ctx }
  else if r.launch.mode then
    { r with cursors := r.cursors.map fun c => if c.task = some t.ctx then { c with task := none } else c }
  else { r with requeue := t.wid.toNat :: r.requeue }

/-- The task goes to the head of its hardware queue (R46): it is the next of the queue to be dispatched, by its launch or by the cursor
that its mark names (R176). -/
def State.putBack (s : State) (p : Nat) (t : HeldTask) : State :=
  let ahead : Bool := match (s.part p).run? t.queue t.lseq with
    | some r => !r.stopped
    | none => false
  (s.modRun p t.queue t.lseq fun r => r.takeBack t).modPart p fun x =>
    { x with heads := if ahead then (t.queue, t.lseq, t.ctx) :: x.heads else x.heads }

/-! ### FRESUME (R46) -/

/-- An operation that waited in place is presented again (R46); that of a halted context's chain waits for its resume (R405). -/
def State.retryOp (s : State) (o : Op) : State :=
  let halted := s.chainHalted o
  let s : State := { s with work := { s.work with waits := s.work.waits.filter fun w => w.who ≠ .op o.id } }
  let s := (s.members o).foldl (fun s x => s.modOp x.id fun y => { y with phase := .buffered }) s
  let o' : Op := { o with phase := .buffered }
  if halted then s else if o.kind = .lease then s.tryLease o' else s.startPiece o'

/-- An operation that waited in place is given up: its result is poisoned (R46). -/
def State.killOp (s : State) (o : Op) : State := (s.members o).foldl (fun s x => s.finish x x.bad) s

/-- A piece that waited in place is performed again; an add takes its turn for its counter's line again (R46, R171). -/
def State.retryPiece (s : State) (g : EngOp) (k : Nat) : State :=
  match g.pieces.find? fun x => x.id == k with
  | some x => s.performPiece g x (s.engIdent g)
  | none =>
    match g.ctr with
    | some (lv, a, _) =>
      if lv.cached then s.joinLine g.names.part g.asid a ((s.ctx? g.names.part g.ctx).map fun x => x.seed) (.piece g.id 0) true
      else s
    | none => s

/-- One wait is retried, or given up. A wait of the sequencer that is given up is skipped (R462). -/
def State.resolveWait (s : State) (p : Nat) (kill : Bool) (w : Waiting) : State :=
  let s : State := { s with work := { s.work with waits := s.work.waits.filter fun x => x ≠ w } }
  match w.who with
  | .op id =>
    match s.op? id with
    | none => s
    | some o => if kill then s.killOp o else s.retryOp o
  | .piece e k =>
    match s.eng? e with
    | none => s
    | some g =>
      if !kill then s.retryPiece g k
      else
        match g.pieces.find? fun x => x.id == k with
        | some x => (s.modEng e fun y => { y with bad := true }).pieceDone g x []
        | none => s.modEng e fun y => { y with bad := true, ctr := none }
  | .seqr _ q l what => if kill then s.modPart p fun x => { x with skips := (q, l, what) :: x.skips } else s

/-- A FRESUME waits (R46, R94; log 58, DEDUCED): a task that a fault on its granule aborts is still to be aborted, or one that it
would place still has operations on their way. -/
def State.fresumeDue (s : State) (p asid g : Nat) (kill : Bool) : Bool :=
  (s.work.waits.any fun w => w.part == p && w.asid == asid && w.granule == g && w.aborts)
    || (!kill && (s.part p).tasks.any fun t => t.asid == asid && t.granule == g && !t.ready)

/-- FRESUME (R46): held tasks of the granule first, in the order in which they aborted, then the waits in the order in which
they arrived (log 58, DEDUCED). -/
def State.fresume (s : State) (p asid g : Nat) (kill : Bool) : State :=
  let hit (t : HeldTask) : Bool := t.asid == asid && t.granule == g
  let tasks := (s.part p).tasks.filter hit
  let s := s.modPart p fun x => { x with tasks := x.tasks.filter fun t => !hit t }
  let s := if kill then tasks.foldl (fun s t => s.taskEnded p t.queue t.lseq t.ctx true) s
    else tasks.reverse.foldl (fun s t => s.putBack p t) s
  (s.work.waits.filter fun w => w.part == p && w.asid == asid && w.granule == g).foldl
    (fun s w => s.resolveWait p kill w) s

/-- The writes of FRESUME that wait are performed in their order, as far as none is due to wait further. -/
def State.runFresumes (s : State) (p : Nat) : List W64 → State
  | [] => s.modPart p fun x => { x with fresumes := [] }
  | v :: r =>
    if s.fresumeDue p (bits v 63 52) (bits v 51 16) (bit v 0) then s.modPart p fun x => { x with fresumes := v :: r }
    else (s.fresume p (bits v 63 52) (bits v 51 16) (bit v 0)).runFresumes p r

/-- The writes of FRESUME that wait go on, but not while the partition is gated (R414). -/
def State.pumpFresumes (s : State) (p : Nat) : State :=
  if (s.part p).gated then s else s.runFresumes p (s.part p).fresumes

/-! ### Abort, requeueing and retirement -/

/-- The task of a context is aborted for a fault on a granule: it is held for requeueing, or at its 64th abort dropped and counted
as failed under a record at `w` (R46, R94, R402). -/
def State.abortTask (s : State) (p c g : Nat) (w : Site) : State :=
  let root := s.rootOf p c
  match s.ctx? p root with
  | none => s
  | some x =>
    if x.aborted then s
    else
      let key := (x.queue, x.lseq, x.workid.toNat)
      let n := (s.part p).aborts.getD key 0 + 1
      let s := s.cancelTask p root
      if 64 ≤ n then
        let s := s.modPart p fun y => { y with aborts := y.aborts.del key }
        ((s.raise w { cause := 9, sub := 1, info := n }).taskEnded p x.queue x.lseq root true).pumpFresumes p
      else
        (s.modPart p fun y =>
          { y with aborts := y.aborts.set key n,
                   tasks := y.tasks ++ [⟨x.asid, g, x.queue, x.lseq, x.workid, false, root⟩] }).pumpFresumes p

/-- TASK_ABORT (R46, R94, R310, R402; subject: op): an operation whose fault, or that of a piece of it, was found before its task's
first REGION was performed aborts the task. -/
def execTaskAbort (s : State) : Result :=
  let id := s.run.subj.a
  match s.op? id with
  | some o =>
    match s.work.waits.find? fun w => w.who = .op id && w.aborts with
    | some w => if o.phase = .faulted && !(s.part o.names.part).stopped then .next (s.abortTask o.names.part o.ctx w.granule (o.site s)) else .next s
    | none =>
      match s.work.engs.find? fun e => e.starter == id, s.work.waits.find? fun w => w.aborts && match w.who with
          | .piece e _ => s.work.engs.any fun y => y.id == e && y.starter == id
          | _ => false with
      | some e, some w => .next (s.abortTask e.names.part e.ctx w.granule e.site)
      | _, _ => .next s
  | none => .next s

/-- Nothing of the contexts of a task is on its way (R94, R182). -/
def State.taskQuiet (s : State) (p root : Nat) : Bool := (s.taskCtxs p root).all fun c => s.quiet p c

/-- Every context of a task is freed. -/
def State.freeTask (s : State) (p root : Nat) : State := (s.taskCtxs p root).foldl (fun s c => s.freeCtx p c) s

/-- No context of the task holds a ring. -/
def State.noRings (s : State) (p root : Nat) : Bool :=
  s.work.rings.all fun r => !(r.part == p && (s.taskCtxs p root).contains r.ctx)

/-- The rings of a task close (R384). -/
def State.closeTask (s : State) (p root : Nat) : State := (s.taskCtxs p root).foldl (fun s c => s.closeRings p c) s

/-- TASK_REQUEUE (R46, R94; subject: p, c): the operations of an aborted task that had left are over; its contexts
are freed, and the task is held until its FRESUME. A task that was killed is freed in the same way (R405). -/
def execTaskRequeue (s : State) : Result :=
  let p := s.run.subj.a
  let c := s.run.subj.b
  match s.ctx? p c with
  | none => .next s
  | some x =>
    if !x.aborted || x.root ≠ x.id || (s.part p).stopped || !s.taskQuiet p c then .next s
    else
      let s := s.closeTask p c
      if !s.noRings p c then .next s
      else
        let mark := (((s.part p).run? x.queue x.lseq).map fun r => r.markOf c).getD 0
        let s := s.freeTask p c
        match (s.part p).tasks.find? fun t => t.ctx == c && !t.ready with
        | none => .next s
        | some t =>
          let t' : HeldTask := { t with ready := true, ctx := mark }
          let s := s.modRun p x.queue x.lseq fun r =>
            { r with cursors := r.cursors.map fun k => if k.task = some c then { k with task := some mark } else k }
          .next ((s.modPart p fun y => { y with tasks := modFirst (fun z => z = t) (fun _ => t') y.tasks }).pumpFresumes p)

/-- An operation of a context has its operands at an island node and waits there (R182, R320; log 39, DEDUCED). -/
def State.islandWaits (s : State) (p c : Nat) : Bool :=
  s.fab.ready.any fun f => f.names.node && f.names.part == p && f.ctx == c
    && s.ldr.channels.any fun k => k.part == p && k.lsec == f.names.lsec && k.chan == f.names.block && k.island

/-- A node of a stream channel waits for a wave: a token stands at its port with a later one, or an element stands at one
of its ports whose partner has not come (R341; log 107, DEDUCED). -/
def State.streamWaits (s : State) (p c : Nat) : Bool :=
  let stream (k : Channel) : Bool := k.part == p && !k.island
  (s.fab.waiting.any fun t => t.dest.node && t.dest.part == p && t.ctx == c
    && s.ldr.channels.any fun k => stream k && k.lsec == t.dest.lsec && k.chan == t.dest.block)
  || s.ldr.channels.any fun k => stream k && k.sctx.any fun st => st.ctx == c && (upto 8).any fun i =>
      let sel := (at! k.slots i Slot.zero).word.toNat / 2 ^ 6 % 128
      0x40 ≤ sel && sel ≤ 0x42 && (st.headA.getD i []).isEmpty != (st.headB.getD i []).isEmpty

/-- TASK_RETIRE (R64, R90, R182, R231, R384; subject: p, c): a task that is done, whose operations are over, whose
chain stands at the start of a wave and whose
created contexts are freed, closes its rings, reports its guard fault and those of the contexts that it created, and frees its
context (log 39, DEDUCED). -/
def execTaskRetire (s : State) : Result :=
  let p := s.run.subj.a
  let c := s.run.subj.b
  match s.ctx? p c with
  | none => .next s
  | some x =>
    if !x.done || x.aborted || x.root ≠ x.id || (s.part p).stopped || s.taskCtxs p c ≠ [c] || x.chain.last ≠ 0xFD || !s.quiet p c
        || s.islandWaits p c || s.streamWaits p c then .next s
    else
      let s := s.closeTask p c
      if !s.noRings p c then .next s
      else .next (((x.orphans.foldl State.pushTrap (s.flushGuard p c)).freeCtx p c).taskEnded p x.queue x.lseq c false)

/-- A task is killed (R405): dropped, and counted as failed in its launch. -/
def State.killTask (s : State) (p root : Nat) : State :=
  match s.ctx? p root with
  | none => s
  | some x => if x.aborted then s else (s.cancelTask p root).taskEnded p x.queue x.lseq root true

/-! ### FRESUME and CTXCTL (R46, R405) -/

/-- A write of FRESUME with its fields; while the partition is gated it is held until the restore (R414). -/
def State.writeFresume (s : State) (p : Nat) (v : W64) : State :=
  (s.modPart p fun x => { x with fresumes := x.fresumes ++ [v] }).pumpFresumes p

/-- FRESUME_RETRY (R46): a write with KILL = 0. -/
def execFresumeRetry (p : Nat) (v : W64) (s : State) : Result :=
  if bit v 0 then .next s else .next (s.writeFresume p v)

/-- FRESUME_KILL (R46): a write with KILL = 1. -/
def execFresumeKill (p : Nat) (v : W64) (s : State) : Result :=
  if bit v 0 then .next (s.writeFresume p v) else .next s

/-- CTXCTL names a halted context of the partition (R405). -/
def State.haltedCtx (s : State) (p : Nat) (v : W64) : Bool := match s.ctx? p (bits v 11 0) with
  | some x => x.halted
  | none => false

/-- CTXCTL_RESUME (R405). -/
def execCtxctlResume (p : Nat) (v : W64) (s : State) : Result :=
  if bits v 63 62 = 1 && s.haltedCtx p v then .next (s.resume p (bits v 11 0)) else .next s

/-- CTXCTL_KILL (R405): the context's task is dropped and counted as failed. -/
def execCtxctlKill (p : Nat) (v : W64) (s : State) : Result :=
  if bits v 63 62 = 2 && s.haltedCtx p v then .next (s.killTask p (s.rootOf p (bits v 11 0))) else .next s

end Sys2Proof.Machine
end

