-- ==== Sys2Proof/Machine/EnginePiece.lean ====
section
/-! DEFINITION. The rows of the engines (R157, R158, R161, R171, R463): one piece at its place with what its
operation does next, the completion add, and the splice (R47 to R49). -/

namespace Sys2Proof.Machine

/-- Every piece is over. -/
def EngOp.over (e : EngOp) : Bool := e.pieces.all fun x => !x.write && x.got

/-- A copy command whose last part ends is counted by its cluster's engine (R411). -/
def State.countCopy (s : State) (e : EngOp) : State :=
  if e.kind ≠ .copy && e.kind ≠ .copym || (s.work.engs.any fun x => x.id ≠ e.id && x.starter == e.starter) then s
  else s.modCtr e.cluster fun k => { k with copies := satCount k.copies 1 }

/-- An engine operation goes on as far as its pieces allow. -/
def State.engOn (s : State) (id : Nat) : State :=
  match s.eng? id with
  | none => s
  | some e =>
    match e.kind with
    | .copy => if e.over && e.ctr.isNone then (s.countCopy e).dropEng id else s
    | .copym => if e.over && e.ctr.isNone then (s.countCopy e).dropEng id else s
    | .tile => if e.names.node then s.nodeOn e else s.tileOn e
    | .tst => s.nodeOn e
    | .cbload => s.cbloadOn e
    | .gemvb => s.gemvOn e
    | .sread => s.portOn e
    | .swrite => s.portOn e
    | .msend => s.msendOn e
    | .mrecv => s.mrecvOn e
    | .splice => if e.over && e.ctr.isNone then s.dropEng id else s

/-- ENGINE_PIECE (R157, R158, R171, R463; subject: eng, piece); none is performed of a partition that Sage has stopped (R142). The INFO of a stream port's fault is what its port
has counted (R347, R400). -/
def execEnginePiece (s : State) : Result :=
  match s.eng? s.run.subj.a with
  | none => .next s
  | some e =>
    if (s.part e.names.part).stopped then .next s else
    let e := if e.kind = .sread || e.kind = .swrite then
        match s.node? e.names e.ctx with
        | some n => { e with info := s.portInfo n }
        | none => e
      else e
    let s := match e.pieces.find? fun x => x.id == s.run.subj.b with
      | some x => s.performPiece e x (s.engIdent e)
      | none => s
    .next (s.engOn e.id)

/-- The completion add may be made: every piece has been performed with respect to the operation's scope, no fault of it waits,
and so have the operations before its starting instruction in chain order (R161, R171). -/
def State.mayAdd (s : State) (e : EngOp) : Bool :=
  e.kind ≠ .msend && (e.over || ((e.kind = .copy || e.kind = .copym) && s.engDone e (e.scope = 0))) && !s.pieceWaits e 0
    && !(e.scope = 3 && s.unposted e.names.part e.ctx e.flush)
    && (!e.chained || s.chainDone e.names.part e.ctx e.id e.starter (e.scope = 0))

/-- All that an add at SY still waits for is that the context's posted writes reach the host: a zero-length read leaves (R153). -/
def State.addFlush (s : State) (e : EngOp) : State :=
  if e.flush.isNone && s.mayAdd { e with scope := 2 } then s.modEng e.id fun y => { y with flush := some s.run.nextId } else s

/-- The operation is over once its add is made or given up; pieces of one at CL that have left its cluster are still
performed (R160). -/
def State.endAdd (s : State) (e : EngOp) : State :=
  if !e.over then s.modEng e.id fun y => { y with ctr := none } else
  let s := (s.countCopy e).dropEng e.id
  if e.kind = .swrite then s.pumpPort e.names e.ctx else s

/-- ENGINE_COMPLETION_ADD (R133, R161, R170, R171; subject: eng). An add that faults waits in place, or is not made,
under its record. -/
def execEngineCompletionAdd (s : State) : Result :=
  match s.eng? s.run.subj.a with
  | none => .next s
  | some e =>
    match e.ctr with
    | none => .next s
    | some (lv, a, n) =>
      if (s.part e.names.part).stopped then .next s
      else if !s.mayAdd e then .next (s.addFlush e)
      else
        let seed := (s.ctx? e.names.part e.ctx).map fun x => x.seed
        let c := if e.kind = .copym then at! e.params 0 e.cluster else e.cluster
        match s.ctrAddNow e.names.part e.asid seed e.site c lv a n (some (.piece e.id 0)) with
        | .busy t => .next t
        | .ok t => .next (t.endAdd e)
        | .fault k u t =>
          let unit := if lv.cached then t.homeFor e.names.part e.asid (a / 64) seed else e.names.unit e.cluster
          let t := t.addFault e e.site unit a k u
          if faultWaits k u then .next t else .next (t.endAdd e)

/-! ### The splice (R47 to R49) -/

/-- A stream port of the ASID reads a page: its section, channel and context, and its launch (R47). -/
def State.portReading (s : State) (p asid base n : Nat) : List Nat :=
  match s.work.engs.find? fun e => e.kind = .sread && e.names.part == p && e.asid == asid
      && e.pieces.any fun x => !x.write && x.span.level.cached && overlaps x.span.addr x.span.len base n with
  | none => []
  | some e =>
    match s.ctx? p e.ctx with
    | some c => [e.names.lsec, e.names.block, e.ctx, c.queue, c.lseq]
    | none => []

/-- The splice of a page of `2 ^ n` bytes: the reads by IA, the writes of the new frame by PA, and the writer's add of the byte count
to its counter (R47). -/
def Part.spliceEng (x : Part) (p asid id base pa n ctr : Nat) (port : List Nat) : EngOp :=
  let reads := piecesOf false .l2 0 base (2 ^ n) 0 1
  { id := id, starter := id, chained := false, kind := .splice, names := { Names.zero with part := p }, ctx := noCtx, asid := asid,
    wave := 0, cluster := clusterOfQ x.first 0, scope := 1,
    pieces := reads ++ piecesOf true .l2 0 pa (2 ^ n) 0 (reads.length + 1),
    bad := false, ctr := some (.l2, ctr, 2 ^ n), gather := none, word := 0, lit := 0, args := [], params := port, info := 0,
    flush := none }

/-- The page is being spliced. -/
def State.splicing (s : State) (p asid base : Nat) : Bool := s.work.engs.any fun e =>
  e.kind = .splice && e.names.part == p && e.asid == asid && e.pieces.any fun x => !x.write && x.span.addr == base

/-- SPLICE (R47 to R49): a port of the partition monitor starts to read the page of an IA, in its coherent view, and to write it to a
new frame; it adds the bytes to the counter that stands as the row's subject: an IA (log 5, DESIGN CHOICE). Where a stream port of
the tenant reads the page already, the fork is attached to it until its launch ends. The page must be marked as migrating, so that
no write reaches it meanwhile; a pinned one is refused. The bytes that will be added, or 0, are answered to the monitor (log 5,
DESIGN CHOICE). -/
def execSplice (p asid page frame : Nat) (s : State) : Result :=
  let refuse : State := { s with run := { s.run with busRead := 0 } }
  let ia := page * 2 ^ 16
  match s.findLeaf p asid ia with
  | .error _ => .next refuse
  | .ok (e, _, n) =>
    let base := alignDown ia (2 ^ n)
    let pa := alignDown (frame * 2 ^ 16) (2 ^ n)
    if leafPin e || s.paReserved p pa || (paHost pa && !bit (s.part p).hostwin 0) then .next refuse
    else if !leafMig e || !s.rangeFree asid base (2 ^ n) || s.splicing p asid base then .next s
    else
      let (id, s) := s.newId
      let g := (s.part p).spliceEng p asid id base pa n s.run.subj.a (s.portReading p asid base (2 ^ n))
      .next { s with work := { s.work with engs := s.work.engs ++ [g] }, run := { s.run with busRead := w64 (2 ^ n) } }

end Sys2Proof.Machine
end

