-- ==== Sys2Proof/Machine/Records.lean ====
section
/-! DEFINITION. Records that leave the machine's units: trap records for their rings (R399), Thyme events (R452),
statistics records (R307 to R309), and the two periodic arbiters (R73, R451). -/

namespace Sys2Proof.Machine

/-! ### Trap rings (R399) -/

/-- LOG2N of a ring that is enabled and has a valid size. -/
def Part.trapLog (x : Part) (ring : Nat) : Option Nat :=
  let c := at! x.trapcfg ring 0
  if bit c 5 && 4 ≤ bits c 4 0 && bits c 4 0 ≤ 16 then some (bits c 4 0) else none

/-- TAIL - HEAD of a ring; both count modulo 2³². -/
def Part.trapUsed (x : Part) (ring : Nat) : Nat :=
  let t := at! x.trapptr ring 0
  (bits t 63 32 + 2 ^ 32 - bits t 31 0) % 2 ^ 32

/-- The external interrupt of a ring is pending on the control core of the partition's lowest strip. -/
def Part.trapPending (x : Part) (ring : Nat) : Bool := x.trapUsed ring ≠ 0

/-- Where the next record of a ring goes: none while the ring is off or full. -/
def Part.trapSlot (x : Part) (ring : Nat) : Option Nat :=
  match x.trapLog ring with
  | none => none
  | some n =>
    if x.trapUsed ring < 2 ^ n then
      some (bits (at! x.trapcfg ring 0) 47 12 * 4096 + 32 * (bits (at! x.trapptr ring 0) 63 32 % 2 ^ n))
    else none

/-- The bytes of a record (R398). -/
def TrapRec.bytes (r : TrapRec) : List Byte :=
  leBytes 8 r.w0.toNat ++ leBytes 8 r.w1.toNat ++ leBytes 8 r.w2.toNat ++ leBytes 8 r.w3.toNat

/-- A record is performed as a write at its ring's PA, and TAIL advances. -/
def State.writeTrap (s : State) (r : TrapRec) (pa : Nat) : State :=
  let s := if s.paReserved r.part pa then s else s.writePa pa r.bytes
  let s := s.modPart r.part fun x =>
    { x with trapptr := modAt x.trapptr r.ring fun t => setBits t 63 32 (bits t 63 32 + 1) }
  { s with dev := { s.dev with traps := dropFirst (fun y => y = r) s.dev.traps } }

/-- TRAP_RECORD_WRITE (R398, R399; subject: p): the first record of the partition whose ring has room. -/
def execTrapRecordWrite (s : State) : Result :=
  let x := s.part s.run.subj.a
  match s.dev.traps.find? fun r => r.part == s.run.subj.a && (x.trapSlot r.ring).isSome with
  | none => .next s
  | some r =>
    match x.trapSlot r.ring with
    | none => .next s
    | some pa => .next (s.writeTrap r pa)

/-! ### Thyme (R452, R453) -/

/-- An event reaches the write port of a strip; behind 8 others it is lost. -/
def State.pushThyme (s : State) (strip : Nat) (e : ThymeEvt) : State :=
  { s with dev := { s.dev with thyme := modAt s.dev.thyme strip fun t =>
      if 8 ≤ t.queue.length then { t with lost := min (t.lost + 1) 0xFFFF } else { t with queue := t.queue ++ [e] } } }

/-- An event of a kind; its TIME is filled in as it is written. -/
def thymeEvt (code kind ctx asid wave : Nat) (data : W64) : ThymeEvt :=
  ⟨0, w64 (code % 2 ^ 16 * 2 ^ 48 + kind % 256 * 2 ^ 40 + ctx % 4096 * 2 ^ 28 + asid % 4096 * 2 ^ 16), w64 wave, data⟩

/-- THYME_EVENT_WRITE (R452; subject: strip): the first event of the port's queue is written. -/
def execThymeEventWrite (s : State) : Result :=
  .next { s with dev := { s.dev with thyme := modAt s.dev.thyme s.run.subj.a fun t =>
    match t.queue with
    | [] => t
    | e :: r =>
      { t with events := t.events.set (t.count % 4096) { e with w0 := w64 s.dev.clock }, count := t.count + 1, queue := r } } }

/-! ### Statistics (R307 to R309) -/

/-- Two records are of one tree, ASID and address. -/
def StatRec.joins (a b : StatRec) : Bool :=
  a.part == b.part && a.lsec == b.lsec && a.tree == b.tree && a.asid == b.asid && a.va == b.va

/-- Records of one tree of one section. -/
def StatRec.sameTree (a b : StatRec) : Bool := a.part == b.part && a.lsec == b.lsec && a.tree == b.tree

/-- The sum of two records, `b` the later; none where a count would pass 40 bits (R307; log 32, DEDUCED). -/
def StatRec.merge (a b : StatRec) : Option StatRec :=
  let r : StatRec :=
    { b with nan := a.nan + b.nan, inf := a.inf + b.inf, sat := a.sat + b.sat, ufz := a.ufz + b.ufz,
             tiles := a.tiles + b.tiles, taps := a.taps + b.taps, maxexp := max a.maxexp b.maxexp }
  if [r.nan, r.inf, r.sat, r.ufz, r.tiles, r.taps].all fun x => x < 2 ^ 40 then some r else none

/-- STAT_RECORD_MERGE (R307; subject: first, second): two records that follow each other in their tree. -/
def execStatRecordMerge (s : State) : Result :=
  let i := s.run.subj.a
  let j := s.run.subj.b
  match s.ldr.stats[i]?, s.ldr.stats[j]? with
  | some a, some b =>
    if j ≤ i || (s.part a.part).stopped || !a.joins b || (slice s.ldr.stats (i + 1) (j - i - 1)).any (fun x => a.sameTree x) then .next s
    else
      match a.merge b with
      | none => .next s
      | some r =>
        .next { s with ldr := { s.ldr with
          stats := s.ldr.stats.take i ++ [r] ++ slice s.ldr.stats (i + 1) (j - i - 1) ++ s.ldr.stats.drop (j + 1) } }
  | _, _ => .next s

/-- The site of a record's faults: its context, at the home of its block. -/
def StatRec.site (r : StatRec) (sl : Nat) : Site :=
  ⟨{ Names.zero with part := r.part, lsec := r.lsec }, 0, r.asid, r.ctx, 0, sl, sliceStrip sl⟩

/-- The adds of a record, in order: offset in the block and amount; MAXEXP raises word 4 to itself (R308). -/
def StatRec.adds (r : StatRec) (old : Nat) : List (Nat × Nat) :=
  [(0, r.nan), (8, r.inf), (16, r.sat), (24, r.ufz), (40, r.tiles), (48, r.taps), (32, r.maxexp - old)].filter
    fun x => x.2 ≠ 0

/-- The adds are made one after the other; a faulted one is lost under its record. None while a home cannot serve
one of them (log 32, DEDUCED). -/
def State.statAdds (s : State) (r : StatRec) (ia sl : Nat) (seed : Option Nat) : List (Nat × Nat) → Option State
  | [] => some s
  | (o, n) :: rest =>
    match s.ctrAddNow r.part r.asid seed (r.site sl) 0 .l1 (ia + o) n with
    | .busy _ => none
    | .ok t => t.statAdds r ia sl seed rest
    | .fault c u t => (t.raise (r.site sl) { cause := c, sub := u, addr := ia + o }).statAdds r ia sl seed rest

/-- STAT_RECORD_APPLY (R308; subject: rec): the first record of its tree reaches the end port. -/
def execStatRecordApply (s : State) : Result :=
  let k := s.run.subj.a
  match s.ldr.stats[k]? with
  | none => .next s
  | some r =>
    if (s.part r.part).stopped || (s.ldr.stats.take k).any fun x => r.sameTree x then .next s
    else
      let gone (t : State) : State := { t with ldr := { t.ldr with
        stats := t.ldr.stats.take k ++ t.ldr.stats.drop (k + 1) } }
      let seed := (s.ctx? r.part r.ctx).map fun x => x.seed
      if r.va % 64 ≠ 0 then .next (gone (s.raise (r.site (16 * (s.part r.part).first)) { cause := 5, sub := 7, addr := r.va }))
      else
        match r.ia with
        | none => .next (gone ((r.adds 0).foldl (fun (t : State) (x : Nat × Nat) =>
            t.raise (r.site (16 * (t.part r.part).first)) { cause := 5, sub := 3, addr := r.va + x.1 }) s))
        | some ia =>
          let sl := s.homeFor r.part r.asid (ia / 64) seed
          match s.statAdds r ia sl seed (r.adds (leNat (s.peek r.part r.asid (ia + 32) 8))) with
          | none => .next s
          | some t => .next (gone t)

/-! ### Best effort and the current budget (R73, R451) -/

/-- The tenant entry `k` governs a critical tenant (R71, R73). -/
def Part.isCritical (x : Part) (k : Nat) : Bool :=
  let t := at! x.tenants k 0
  bit t 0 && bit t 1 && x.tenant (bits t 63 52) == k

/-- The 99th-percentile latency of the tenant's reads is above its target: fewer than 99 in 100 met it. With fewer
than 100 reads the target counts as met. 10 ns are 16 fabric cycles (R73; log 52, DEDUCED). -/
def Part.missed (x : Part) (k : Nat) : Bool :=
  let reads := x.lat.getD k []
  let target := 16 * max 1 (bits (at! x.tenants k 0) 51 40)
  100 ≤ reads.length && 100 * (reads.filter fun t => t ≤ target).length < 99 * reads.length

/-- F after a window (R73). -/
def Part.nextFrac (x : Part) : Nat :=
  let cs := (upto 64).filter fun k => x.isCritical k
  if cs.isEmpty then 64
  else if cs.any fun k => x.missed k then max 1 (x.frac / 2)
  else min 64 (x.frac + 4)

/-- QOS_WINDOW_END (R73; subject: p). -/
def execQosWindowEnd (s : State) : Result :=
  .next (s.modPart s.run.subj.a fun x => if x.live then { x with frac := x.nextFrac, lat := [] } else x)

/-- POWER_PERIOD (R26, R451): the arbiter grants each strip that is present 8 to 64 in 64ths. -/
def execPowerPeriod (grants : List Nat) (s : State) : Result :=
  if grants.length = 16 && (upto 16).all (fun st => !stripPresent s.dev.devid st || (8 ≤ at! grants st 0 && at! grants st 0 ≤ 64)) then
    .next { s with dev := { s.dev with
      grants := (upto 16).map fun st => if stripPresent s.dev.devid st then at! grants st 0 else 0 } }
  else .next s

end Sys2Proof.Machine
end

