-- ==== Sys2Proof/Machine/Monitor.lean ====
section
/-! DEFINITION. Register writes and reads of the partition monitor, Thedom and the host that act (R8, R37, R42, R51, R58,
R69, R143, R268, R406, R408), but for those of launches, moves, pre-emption and the layout. -/

namespace Sys2Proof.Machine

/-! ### XLATINV (R42) -/

/-- What an XLATINV names: every ASID of a partition, or a range of one. -/
structure XRange where
  part : Nat
  all  : Bool
  asid : Nat
  base : Nat
  size : Nat
deriving DecidableEq, Repr

/-- The range of a written value; a SIZE outside 16 to 52 names the whole IA space. -/
def xrangeOf (p : Nat) (v : W64) : XRange :=
  let n := bits v 15 10
  let (b, z) := if 16 ≤ n && n ≤ 52 then (alignDown (bits v 51 16 * 2 ^ 16) (2 ^ n), 2 ^ n) else (0, 2 ^ 52)
  ⟨p, bit v 0, bits v 63 52, b, z⟩

/-- The range touches `n` bytes of an ASID. -/
def XRange.hits (r : XRange) (asid ia n : Nat) : Bool := r.all || (asid == r.asid && overlaps ia n r.base r.size)

/-- A translation of the range is in use: a transaction, a lease, or an access that awaits an answer from outside the
device. -/
def State.xlatBusy (s : State) (r : XRange) : Bool :=
  (s.mem.txns.any fun t => t.req.part == r.part && r.hits t.req.asid (64 * t.req.line) 64)
    || (s.mem.leases.any fun e => e.part == r.part && r.hits e.asid (64 * e.line) 64)
    || (s.work.ops.any fun o => o.names.part == r.part && o.away
        && r.hits (s.asidOf o.names.part o.ctx) o.ia (2 ^ o.width))
    || (s.work.outs.any fun q => q.part == r.part && q.sent && q.got.isNone && r.hits q.asid q.acc.addr (2 ^ q.acc.width))
    || s.work.engs.any fun e => e.names.part == r.part && e.pieces.any fun x =>
        x.out && x.span.level.cached && r.hits e.asid x.span.addr x.span.len

/-- Lines of a partition's range that some L1 holds in E or M. -/
def State.ownedLines (s : State) (r : XRange) : List (Nat × Nat) :=
  ((s.mem.l1.filter fun x => (s.part r.part).hasCluster x.cluster && (x.st = .m || x.st = .e)
    && r.hits x.asid (64 * x.line) 64).map fun x => (x.asid, x.line)).eraseDups

/-- The replicas of the range are purged, with the L1 copies that they served (R42, R68). -/
def State.purgeReplicas (s : State) (r : XRange) : State :=
  let gone := s.mem.l2.filter fun x => x.replica && (s.part r.part).hasStrip (sliceStrip x.slice)
    && r.hits x.asid (64 * x.line) 64
  let served (x : L1Line) : Bool := gone.any fun y => y.slice == x.home && y.asid == x.asid && y.line == x.line
  { s with mem := { s.mem with
      l2 := s.mem.l2.filter fun x => !gone.contains x
      l1 := s.mem.l1.filter fun x => !served x } }

/-- The entries of the range leave every translation cache of the partition. -/
def State.dropEntries (s : State) (r : XRange) : State :=
  { s with mem := { s.mem with xlat := s.mem.xlat.filter fun x =>
      !((s.part r.part).hasStrip (sliceStrip x.slice) && r.hits x.asid (x.page * 2 ^ x.size) (2 ^ x.size)) } }

/-- The marks of scrubbed ranges are gone, and the requests that waited for a splice are tried again (R47, R51). -/
def State.admitRange (s : State) (r : XRange) : State :=
  let s := s.modPart r.part fun x => { x with scrubbed := x.scrubbed.filter fun y => !r.hits y.asid y.base y.size }
  { s with mem := { s.mem with reqs := s.mem.reqs.map fun q =>
      if q.part == r.part && r.hits q.asid (64 * q.line) 64 then { q with waiting := false } else q } }

/-- XLATINV is complete: none while a use of its translations is open (R42). -/
def State.xlatInv (s : State) (p : Nat) (v : W64) : Option State :=
  let r := xrangeOf p v
  if s.xlatBusy r then none
  else
    let s := (s.ownedLines r).foldl (fun s l => s.demoteL1 p l.1 l.2) (s.dropEntries r)
    some ((s.purgeReplicas r).admitRange r)

/-- XLATINV (R42). -/
def execXlatinv (p : Nat) (v : W64) (s : State) : Result :=
  match if (s.part p).live then s.xlatInv p v else none with
  | some t => .next t
  | none => .next s

/-! ### FRAMESCRUB (R51) -/

/-- Zeroes at a PA of local HBM, or at the slice scratch that stands for it (R446). -/
def State.zeroPa (s : State) (pa n : Nat) : State :=
  if !paLocal pa then s
  else
    match s.dev.reduced with
    | none => ({ s with mem := { s.mem with hbm := s.mem.hbm.zero pa n } } : State).cover .mem pa n
    | some b =>
      if State.paReduced b pa then
        let o := pa - stripWindow * b
        let a := o + 16 * b * 2 ^ 19
        let k := min n (0x600000 - o)
        ({ s with mem := { s.mem with ss := s.mem.ss.zero a k } } : State).cover .ss a k
      else s

/-- FAIL of a writer. -/
def Part.setFail (x : Part) (w : Agent) (b : Bool) : Part :=
  let others := x.frFail.filter fun y => y ≠ (writerOf w)
  { x with frFail := if b then (writerOf w) :: others else others }

/-- The writes to a range that wait at its homes: of operations, of agents outside the fabric, and of engine pieces. -/
def State.waitingWrites (s : State) (p asid base n : Nat) : List HReq :=
  s.mem.reqs.filter fun r => r.part == p && r.asid == asid && overlaps (64 * r.line) 64 base n &&
    match r.from_ with
    | .op id => (s.op? id).any fun o => o.writes && o.kind ≠ .lease
    | .outside id => (s.out? id).any fun q => q.acc.kind ≠ .read
    | .piece e k => k = 0 || (s.eng? e).any fun g => g.pieces.any fun x => x.id == k && x.write
    | .evict => false

/-- The waiting writes are performed into their lines in the order of the homes; none while one cannot be. An engine piece and an
add are performed by their rows first. -/
def State.performWrites (s : State) (p asid : Nat) : List HReq → Option State
  | [] => some s
  | r :: rest =>
    match r.from_ with
    | .op id =>
      match s.op? id with
      | none => s.performWrites p asid rest
      | some o =>
        match s.homeNow p asid o.ia (some r.seed) o.need .plain with
        | .busy => none
        | .fault c u t => (t.opFault o r.slice c u).performWrites p asid rest
        | .ready pl t => ((t.dropReq r.id).performAt pl o).performWrites p asid rest
    | .outside id =>
      match s.out? id with
      | none => s.performWrites p asid rest
      | some q =>
        match s.homeNow p asid q.acc.addr none (extNeed q.acc.kind) q.who.ident with
        | .busy => none
        | .fault _ _ t => (((t.dropReq r.id).dropOut id).complete q.who .abort).performWrites p asid rest
        | .ready pl t => (((t.dropReq r.id).dropOut id).outsideAt p asid q.acc.addr q.who q.acc pl).performWrites p asid rest
    | .piece _ _ => none
    | .evict => s.performWrites p asid rest

/-- What comes of a FRAMESCRUB: refused, waiting, or done. -/
inductive Scrub where
  | refused | busy | done (s : State)
deriving DecidableEq, Repr

/-- FRAMESCRUB of a page: its waiting writes are completed, its lines discarded, its frame zeroed, and the range held as
scrubbed (log 57, DEDUCED). An uncorrectable ECC error that its own walk meets refuses the write with FAIL and raises no
record (log 82, DESIGN CHOICE). -/
def State.scrub (s : State) (p : Nat) (v : W64) : Scrub :=
  let asid := bits v 63 52
  let n := bits v 15 10
  let base := alignDown (bits v 51 16 * 2 ^ 16) (2 ^ n)
  if n ≠ 16 && n ≠ 21 && n ≠ 30 then .refused
  else
    match s.findLeaf p asid base with
    | .error _ => .refused
    | .ok (e, _, m) =>
      if m ≠ n || s.paReserved p (leafPa e n base) then .refused
      else if leafMig e || !s.rangeFree asid base (2 ^ n) then .busy
      else
        match s.performWrites p asid (s.waitingWrites p asid base (2 ^ n)) with
        | none => .busy
        | some t =>
          let t := (t.cachedLines asid base (2 ^ n)).foldl (fun t l => t.discardLine asid l) t
          let t := t.zeroPa (leafPa e n base) (2 ^ n)
          .done (t.modPart p fun x => { x with scrubbed := x.scrubbed ++ [⟨asid, base, 2 ^ n⟩] })

/-- FRAMESCRUB (R51): only the partition monitor has the right. -/
def execFramescrub (p : Nat) (w : Agent) (v : W64) (s : State) : Result :=
  if !((s.part p).hasAgent w && Right.m.agentHas w) then .next s
  else
    match s.scrub p v with
    | .refused => .next (s.modPart p fun x => x.setFail w true)
    | .busy => .next s
    | .done t => .next (t.modPart p fun x => x.setFail w false)

/-! ### ASIDBASE, CLWAYS and SLICECFG.MODE (R37, R58, R69) -/

/-- ASIDBASE_WRITE (R37): walks are whole steps, so that none is under way. -/
def execAsidbaseWrite (p : Nat) (v : W64) (s : State) : Result :=
  .next (s.modPart p fun x => if x.live then { x with asidbase := w64 (bits v 47 15 * 2 ^ 15) } else x)

/-- CLWAYS_WRITE (R58, R409): through the cluster window; refused, nothing changes. -/
def execClwaysWrite (p cluster : Nat) (v : W64) (s : State) : Result :=
  if !(s.part p).hasCluster cluster then .next s
  else
    match s.writeMask p cluster v none with
    | .busy => .next s
    | .refused => .next s
    | .done t => .next t
    | .begun t => .next t

/-- Every cached line of a partition. -/
def State.partLines (s : State) (p : Nat) : List (Nat × Nat) :=
  let x := s.part p
  (((s.mem.l1.filter fun y => x.hasCluster y.cluster).map fun y => (y.asid, y.line))
    ++ (s.mem.l2.filter fun y => x.hasStrip (sliceStrip y.slice)).map fun y => (y.asid, y.line)).eraseDups

/-- No transaction of the partition is open and no line of it is leased. -/
def State.partFree (s : State) (p : Nat) : Bool :=
  (s.mem.txns.all fun t => t.req.part ≠ p) && s.mem.leases.all fun e => e.part ≠ p

/-- A change of MODE: every line of the partition is written back and invalidated, every replica purged (R69). -/
def State.changeMode (s : State) (p : Nat) (m : Bool) : State :=
  let s := (s.partLines p).foldl (fun s l => s.flushLine p l.1 l.2) s
  s.modPart p fun x => { x with mode := m, cfgBusy := false, modeWait := none }

/-- SLICECFG_MODE_WRITE (R69): a write that changes MODE waits for a layout change and for the lines in use, with BUSY
set meanwhile. -/
def execSlicecfgModeWrite (p : Nat) (v : W64) (s : State) : Result :=
  let x := s.part p
  let m := bit v 0
  if !x.live then .next s
  else if x.modeWait.isNone && x.mode = m then .next s
  else if x.modeWait = some (!m) then .next s
  else if s.dev.layout.isSome || !s.partFree p then
    .next (s.modPart p fun y => { y with modeWait := some m, cfgBusy := true })
  else .next (s.changeMode p m)

/-! ### SCVAL and SCDONE (R406, R414) -/

/-- SCVAL_WRITE (R406): each writer has its own. -/
def execScvalWrite (p : Nat) (w : Agent) (v : W64) (s : State) : Result :=
  if (s.part p).hasAgent w && Right.c.agentHas w then .next (s.modPart p fun x => { x with scval := x.scval.set (writerOf w) v })
  else .next s

/-- The reply reaches the SYSCALL that a context waits in, and the chain moves on (R406). -/
def State.answerSyscall (s : State) (p c : Nat) (v : W64) (bad : Bool) : State :=
  match s.work.ops.find? fun o => o.kind = .syscall && o.phase = .parked && o.names.part == p && o.ctx == c with
  | some o => s.finish o ⟨if bad then 0 else v, .i64, bad⟩
  | none => s

/-- A SYSCALL waits in the context, in the machine or among what a SAVE took (R406, R414). -/
def State.syscallWaits (s : State) (p c : Nat) : Bool :=
  let mine (o : Op) : Bool := o.kind = .syscall && o.phase = .parked && o.names.part == p && o.ctx == c
  let x := s.part p
  s.work.ops.any mine || x.bank0.any (fun v => v.ops.any mine) || x.bank1.any fun v => v.ops.any mine

/-- SCDONE_WRITE (R406): delivers the writer's SCVAL; while the partition is gated or saved the reply is held until the
RESTORE (R414). One for a context with no waiting SYSCALL is ignored. -/
def execScdoneWrite (p : Nat) (w : Agent) (v : W64) (s : State) : Result :=
  let x := s.part p
  if !(x.hasAgent w && Right.c.agentHas w) then .next s
  else
    let r := x.scval.getD (writerOf w) 0
    if !s.syscallWaits p (bits v 11 0) then .next s
    else if x.gated then
      .next (s.modPart p fun y => { y with scheld := y.scheld ++ [(bits v 11 0, r, bit v 12)] })
    else .next (s.answerSyscall p (bits v 11 0) r (bit v 12))

/-! ### Plain registers (R8, R143, R268, R408, R409, R449) -/

/-- SYS_FLAGSRC_READ (R268): what is returned is cleared in the same step. -/
def execSysFlagsrcRead (p c : Nat) (s : State) : Result :=
  match s.ctx? p c with
  | none => .next { s with run := { s.run with busRead := 0 } }
  | some x =>
    let s : State := { s with run := { s.run with busRead := w64 x.flags.toNat } }
    .next (s.modCtx p c fun y => { y with flags := 0 })

/-- HOST_LSDCFG_WRITE (R143, R449): ignored once the scale-up link is up. -/
def execHostLsdcfgWrite (v : W64) (s : State) : Result :=
  if s.dev.lsdUp then .next s
  else .next { s with dev := { s.dev with lsdcfg := lsdcfgFields v } }

/-- The write of a selector starts a move, a SAVE or a RESTORE, each with a row of its own (R360, R412). -/
def startsMore (n : Nat) (v : W64) : Bool := bit v 63 && (n = 0x84 || (n = 0x89 && (bits v 62 61 = 1 || bits v 62 61 = 2)))

/-- A LAYOUTREQ whose OP names no request ends at once (R418, R419): the first check that fails is reported. -/
def State.badLayoutReq (s : State) (v : W64) : State :=
  let d := s.dev
  let p := bits v 59 52
  let x := s.part p
  let busy := d.layout.isSome || (p < 16 && (bit x.pctl 63 || x.bank0.isSome || x.bank1.isSome || x.cfgBusy))
  let code := if busy then 1 else if bits v 31 0 ≠ bits d.layoutstat 31 0 then 2 else 3
  { s with dev := { d with
      layoutreq := w64 (bits v 62 44 * 2 ^ 44 + bits v 31 0)
      layoutstat := setBits (setBits d.layoutstat 63 52 (code * 16)) 51 44 p } }

/-- The mailbox is written by the partition monitor (R449). A layout request that it starts is Sage's from then on (R418, R421). -/
def State.writeMailbox (s : State) (o : Nat) (v : W64) : State :=
  if o = 0x200 && bit v 63 then
    let op := bits v 62 60
    if bit s.dev.layoutreq 63 then s
    else if op = 0 || 6 ≤ op then s.badLayoutReq v
    else { s with dev := { s.dev with layoutreq := w64 (bits v 63 44 * 2 ^ 44 + bits v 31 0) } }
  else { s with dev := s.dev.setMailbox o v }

end Sys2Proof.Machine
end

