-- ==== Sys2Proof/Machine/System.lean ====
section
/-! DEFINITION. The system instructions of group 0xE (R404 to R411). -/

namespace Sys2Proof.Machine

/-! ### Results -/

/-- Operand A as a result (R404). -/
def Firing.echo (fr : Firing) (f : Fields) (a : Token) : Res :=
  { wave := fr.wave, stop := fr.stopOf f, fmt := a.fmt, poison := a.poison,
    data := if a.poison then List.replicate fr.run 0 else a.data.take fr.run }

/-- The bits that a record or an event holds of element `j`: 0 of a poisoned one (R405, R411). -/
def infoOf (a : Token) (j : Nat) : W64 := if a.poison then 0 else at! a.data j 0

/-- What a word does for each element in wave order. -/
def State.forEach (s : State) (fr : Firing) (g : State → Nat → State) : State := (upto fr.run).foldl g s

/-- A word that passes operand A on after what it does. -/
def State.passWord (s : State) (f : Fields) (g : State → Firing → Token → State) : State :=
  let fr := s.run.cur
  match fr.port f.sa.toNat with
  | none => s
  | some a => (g s fr a).sendTo fr 0 f.da.toNat (fr.echo f a)

/-- A word whose operand is a trigger: an I64 value for each element, or a poisoned result (R190). -/
def State.triggerValues (s : State) (f : Fields) (g : State → Firing → List W64 × State) : State :=
  let fr := s.run.cur
  if fr.poisonOf f false then s.sendTo fr 0 f.da.toNat (fr.poisonRes f .i64)
  else
    let (vs, s) := g s fr
    s.sendTo fr 0 f.da.toNat (fr.res f .i64 (vs.map BitVec.toNat))

/-! ### Words that report or stop (R405) -/

/-- One record for each element, with the element in INFO and CODE from the literal. -/
def State.raiseEach (s : State) (fr : Firing) (a : Token) (cause : Nat) : State :=
  s.forEach fr fun s j =>
    s.raise (fr.siteAt s j) { cause := cause, sub := 0, info := (infoOf a j).toNat, code := bits fr.slot.lit 15 0 }

/-- TRAP (R405). -/
def execTrap (f : Fields) (s : State) : Result := .next (s.passWord f fun s fr a => s.raiseEach fr a 0x0D)

/-- The context's SYS.DBG.BRK. -/
def State.brkOf (s : State) (p c : Nat) : Bool := match s.ctx? p c with
  | some x => x.brk
  | none => false

/-- The results that BREAK keeps until its context resumes: one token of run 1 for each element (log 56, DEDUCED). -/
def Firing.heldOuts (fr : Firing) (f : Fields) (a : Token) : List HeldOut :=
  let r := fr.echo f a
  (upto fr.run).map fun j =>
    ⟨fr, f.da.toNat, { r.token fr.ctx with wave := fr.wave + j, data := [at! r.data j 0] }⟩

/-- BREAK (R405): with BRK set the context halts, and its results leave as it resumes. -/
def execBreak (f : Fields) (s : State) : Result :=
  let fr := s.run.cur
  let p := fr.names.part
  match fr.port f.sa.toNat with
  | none => .next s
  | some a =>
    if s.brkOf p fr.ctx then
      let s := (s.raiseEach fr a 0x0E).halt p fr.ctx
      .next (s.modCtx p fr.ctx fun x => { x with resume := x.resume ++ fr.heldOuts f a })
    else .next ((s.raiseEach fr a 0x0E).sendTo fr 0 f.da.toNat (fr.echo f a))

/-- The record of an ASSERT: POISON, or FALSE with the number of false elements at the first of them (R405). -/
def State.assertRecord (s : State) (fr : Firing) (a : Token) : State :=
  let code := bits fr.slot.lit 15 0
  let bad := (upto fr.run).filter fun j => (at! a.data j 0).toNat % 2 == 0
  if a.poison then s.raise (fr.site s) { cause := 0x0F, sub := 2, code := code }
  else
    match bad with
    | [] => s
    | j :: _ => s.raise (fr.siteAt s j) { cause := 0x0F, sub := 1, info := bad.length, code := code }

/-- ASSERT (R405). -/
def execAssert (f : Fields) (s : State) : Result :=
  let fr := s.run.cur
  match fr.port f.sa.toNat with
  | none => .next s
  | some a =>
    if a.fmt ≠ .p && !a.poison then .next (s.mismatch fr f .p)
    else .next (s.passWord f fun s fr a => s.assertRecord fr a)

/-- HALT: once a firing (R405). -/
def execHalt (f : Fields) (s : State) : Result :=
  let fr := s.run.cur
  match fr.port f.sa.toNat with
  | none => .next s
  | some a =>
    let s := s.raise (fr.site s)
      { cause := 0x10, sub := 0, info := (infoOf a 0).toNat, code := bits fr.slot.lit 15 0 }
    .next (s.halt fr.names.part fr.ctx)

/-- ELOG: one Thyme event for each element, in the strip of the element (R411, R452). -/
def execElog (f : Fields) (s : State) : Result :=
  .next (s.passWord f fun s fr a => s.forEach fr fun s j =>
    s.pushThyme (clusterStrip fr.cluster)
      (thymeEvt (bits fr.slot.lit 15 0) 1 fr.ctx (s.asidOf fr.names.part fr.ctx) (fr.wave + j) (infoOf a j)))

/-- YIELD: the context leaves the element's issue window at its next issue slot (R396, R411). -/
def execYield (f : Fields) (s : State) : Result :=
  .next (s.passWord f fun s fr _ => s.modElem fr.cluster fr.elem fun e => { e with yield_ := some fr.ctx })

/-! ### TASKDONE, SYSCALL and TASKSPAWN (R401, R406, R410) -/

/-- TASKDONE (R401, R410): a context made by CTXNEW marks nothing. -/
def execTaskdone (f : Fields) (s : State) : Result :=
  let fr := s.run.cur
  let p := fr.names.part
  let s := if fr.poisonOf f false then s.raise (fr.site s) { cause := 0x0C, sub := 2 } else s
  match s.ctx? p fr.ctx with
  | none => .next s
  | some x =>
    if x.root ≠ x.id then .next (s.raise (fr.site s) { cause := 0x01, sub := 7 })
    else .next (s.modCtx p fr.ctx fun y => { y with done := true })

/-- The operations of a chained system word: dead where an operand is poisoned or of a format that it does not take. -/
def State.chainedWord (s : State) (f : Fields) (op : Nat) (fmtOk : Bool) (shape : Nat → Ask) : State :=
  let fr := s.run.cur
  let bad := fr.poisonOf f false
  let s := if !bad && !fmtOk then s.formatRecord fr f else s
  (s.present fr f op ((upto fr.run).map fun j => { shape j with dead := bad || !fmtOk })).2

/-- I64 or A. -/
def wordFmt (f : Fmt) : Bool := f = .i64 || f = .a

/-- SYSCALL: data holds argument 0, data2 argument 1 (R406). -/
def execSyscall (f : Fields) (s : State) : Result :=
  let fr := s.run.cur
  .next (s.chainedWord f 0xE1 (fr.portIs f.sa.toNat wordFmt && (f.sb = 0x7F || fr.portIs f.sb.toNat wordFmt))
    fun j => { kind := .syscall, data := fr.elemA f j, data2 := fr.elemB f j, fmt := .i64 })

/-- TASKSPAWN: va holds the address of the record, with which a poisoned element reaches memory (R401, R410). -/
def execTaskspawn (f : Fields) (s : State) : Result :=
  let fr := s.run.cur
  let s := if fr.poisonOf f false then s.poisonRecords fr (upto fr.run) else s
  .next (s.chainedWord f 0xE7 (fr.portIs f.sa.toNat (· = .a))
    fun j => { kind := .spawn, va := (fr.elemA f j).toNat, fmt := .i64 })

/-! ### Reads (R407, R411) -/

/-- The context is privileged (R206). -/
def State.privOf (s : State) (p c : Nat) : Bool := match s.ctx? p c with
  | some x => x.priv
  | none => false

/-- A privilege trap: nothing is done, and the result is poisoned (R209, R407). -/
def State.privTrap (s : State) (fr : Firing) (f : Fields) (sub sel : Nat) : State :=
  (s.raise (fr.site s) { cause := 2, sub := sub, info := sel }).sendTo fr 0 f.da.toNat (fr.poisonRes f .i64)

/-- The reads of a selector, one for each element in order; a read of SYS.FLAGSRC clears what it returns (R268). -/
def State.readSels (s : State) (fr : Firing) (sel : Nat) : Nat → List W64 → List W64 × State
  | 0, vs => (vs, s)
  | n + 1, vs =>
    let v := s.sysRead fr sel
    let s := if sel = 3 then s.modCtx fr.names.part fr.ctx fun x => { x with flags := 0 } else s
    s.readSels fr sel n (vs ++ [v])

/-- RDSYS (R407): a selector that nobody reads gives 0 (log 55, DEDUCED). -/
def execRdsys (f : Fields) (s : State) : Result :=
  let fr := s.run.cur
  let sel := bits fr.slot.lit 11 0
  if fr.poisonOf f false then .next (s.sendTo fr 0 f.da.toNat (fr.poisonRes f .i64))
  else if readRight sel ≠ .none_ && !(readRight sel).ctxHas (s.privOf fr.names.part fr.ctx) then
    .next (s.privTrap fr f 2 sel)
  else .next (s.triggerValues f fun s fr => s.readSels fr sel fr.run [])

/-- WORKID (R411). -/
def execWorkid (f : Fields) (s : State) : Result :=
  .next (s.triggerValues f fun s fr =>
    (List.replicate fr.run (match s.ctx? fr.names.part fr.ctx with
      | some x => x.workid
      | none => 0), s))

/-- CLOCK (R411): cycles since cold reset; the model's strips do not differ. -/
def execClock (f : Fields) (s : State) : Result :=
  .next (s.triggerValues f fun s fr => (List.replicate fr.run (w64 s.dev.clock), s))

/-- A counter of PERFRD (R411; log 52, DEDUCED). -/
def State.perf (s : State) (fr : Firing) (ev : Nat) : Nat :=
  let e := s.elem fr.cluster fr.elem
  let k := s.ctr (match s.ctx? fr.names.part fr.ctx with
    | some x => x.chain.home
    | none => fr.cluster)
  match ev with
  | 0 => e.tap
  | 1 => e.firings
  | 2 => e.slots.getD fr.ctx 0
  | 3 => e.full
  | 4 => k.ejected
  | 5 => k.misses
  | 6 => k.expired
  | 7 => k.copies
  | _ => 0

/-- PERFRD (R411). -/
def execPerfrd (f : Fields) (s : State) : Result :=
  .next (s.triggerValues f fun s fr =>
    (List.replicate fr.run (w64 (s.perf fr (bits fr.slot.lit 3 0))), s))

/-! ### WRSYS (R407) -/

/-- A privileged write of one value: none while it cannot complete (R36, R42, R46). -/
def State.writeSel (s : State) (fr : Firing) (sel : Nat) (v : W64) : Option State :=
  let p := fr.names.part
  if sel = 0x81 then s.xlatInv p v
  else if sel = 0x82 then
    some (s.writeFresume p v)
  else if 0x20 ≤ sel && sel < 0x28 then
    some (s.modCtx p fr.ctx fun x => x.setKeep fr.cluster fr.elem (sel - 0x20) v)
  else some (s.modCtx p fr.ctx fun x => x.setReg (s.part p).leasecap sel v)

/-- The writes of a firing in wave order, each with the value that the selector then reads. -/
def State.writeSels (s : State) (fr : Firing) (sel : Nat) : List W64 → List W64 → Option (List W64 × State)
  | [], out => some (out, s)
  | v :: vs, out =>
    match s.writeSel fr sel v with
    | none => none
    | some t => t.writeSels fr sel vs (out ++ [t.sysRead fr sel])

/-- A WRSYS to CLWAYS: unchained operations that write the home cluster's mask as WAYMASK does (R407). -/
def State.writeWays (s : State) (fr : Firing) (f : Fields) (vs : List W64) : State :=
  (s.present fr f 0xE3 (vs.map fun v => { kind := .waymask, data := v, fmt := .i64, params := [9] })).2

/-- WRSYS (R206, R209, R407): a selector without a write class keeps its value, which is returned (log 35, DEDUCED). -/
def execWrsys (f : Fields) (s : State) : Result :=
  let fr := s.run.cur
  let p := fr.names.part
  let sel := bits fr.slot.lit 11 0
  match fr.port f.sa.toNat with
  | none => .next s
  | some a =>
    if a.poison then .next (s.sendTo fr 0 f.da.toNat (fr.poisonRes f .i64))
    else if !s.privOf p fr.ctx then
      .next (if writeRight sel = .none_ then s.privTrap fr f 1 0 else s.privTrap fr f 2 sel)
    else if writeRight sel = .c || writeRight sel = .m then .next (s.privTrap fr f 2 sel)
    else if !wordFmt a.fmt then .next (s.mismatch fr f .i64)
    else if sel = 0x40 then .next (s.writeWays fr f (a.data.take fr.run))
    else if writeRight sel = .none_ then
      .next (s.sendTo fr 0 f.da.toNat (fr.res f .i64 (List.replicate fr.run (s.sysRead fr sel).toNat)))
    else
      match s.writeSels fr sel (a.data.take fr.run) [] with
      | none => .next (s.waitFiring fr)
      | some (vs, t) => .next (t.sendTo fr 0 f.da.toNat (fr.res f .i64 (vs.map BitVec.toNat)))

end Sys2Proof.Machine
end

