-- ==== Sys2Proof/Machine/Load.lean ====
section
/-! DEFINITION. The section loader (R357, R392 to R395, R433, R434, R437): the accesses of the sequencer, the parts of a
code object, load indices, islands and ports, the placement of blocks, eviction and reload. -/

namespace Sys2Proof.Machine

/-! ### Accesses of the sequencer (R437, R462) -/

/-- A launch on whose behalf the sequencer asks. -/
structure SeqKey where
  p      : Nat
  q      : Nat
  l      : Nat
  asid   : Nat
  ranges : List (W64 × W64)
deriving DecidableEq, Repr

/-- The key of a launch of a queue. -/
def Part.seqKey (x : Part) (p q l : Nat) (r : LaunchRec) : SeqKey := ⟨p, q, l, x.queueAsid q, r.ranges⟩

/-- The key of a launch that runs: the ASID is the one its queue has now (R462). -/
def State.keyOf (s : State) (p : Nat) (r : Running) : SeqKey := (s.part p).seqKey p r.queue r.lseq r.launch

/-- What comes of an access: it waits, it is skipped, or it has a value. -/
inductive Seq (α : Type) where
  | wait (s : State)
  | skip (s : State)
  | ok (v : α) (s : State)

/-- INFO of the records of a launch: queue number and LSEQ (R400). -/
def SeqKey.info (k : SeqKey) : Nat := k.q * 2 ^ 32 + k.l % 2 ^ 32

/-- The site of the sequencer's records: context 0, on the strip of the partition's control core. -/
def SeqKey.site (k : SeqKey) (s : State) (unit : Nat) : Site :=
  ⟨{ Names.zero with part := k.p }, 0, k.asid, 0, 0, unit, (s.part k.p).first⟩

/-- An access of the launch waits in place on a fault. -/
def State.seqBlocked (s : State) (k : SeqKey) : Bool := s.work.waits.any fun w => match w.who with
  | .seqr p q l _ => p == k.p && q == k.q && l == k.l
  | _ => false

/-- A fault that waits in place, with its record (R46, R462). -/
def State.seqWait (s : State) (k : SeqKey) (what unit c u ia : Nat) : State :=
  let s := s.raise (k.site s unit) { cause := c, sub := u, addr := ia, info := k.info, wait := true }
  { s with work := { s.work with waits := s.work.waits ++ [⟨k.p, k.asid, granuleOf ia, .seqr k.p k.q k.l what, false⟩] } }

/-- A fault handled as Poison: its record is on ring 0, and the access is skipped (R462). -/
def State.seqPoison (s : State) (k : SeqKey) (unit c u a : Nat) : State :=
  s.pushTrap (trapRecord (k.site s unit) { cause := c, sub := u, addr := a, info := k.info } 0)

/-- The record of an access that meets poison, which is skipped (R403, R462). -/
def State.seqSpoiled (s : State) (k : SeqKey) (pl : Place_) (ia : Nat) : State :=
  s.raise (k.site s pl.slice) { cause := 0x0B, sub := 1, addr := ia }

/-- Who awaits what an access of a launch reads through a window (R144, R151). -/
def SeqKey.asks (k : SeqKey) (what : Nat) : OutsideWho := .asks (k.p + 1) k.q k.l what

/-- Bytes that an access of a launch reads at its place; those behind a window are asked for, and a refusal is recorded on ring 0 and
skipped (R144, R151, R462). -/
def State.seqBytes (s : State) (k : SeqKey) (what ia n : Nat) (pl : Place_) : Seq (List Byte) :=
  match pl.far with
  | none => if s.spoiledAt pl k.asid ia n then .skip (s.seqSpoiled k pl ia) else .ok (s.bytesAt pl k.asid ia n) s
  | some (sl, pa) =>
    match s.farRead k.p k.asid sl ia (k.asks what) pa n with
    | .wait t => .wait t
    | .refused sub => .skip ((s.dropAsks (k.asks what)).seqPoison k sl 5 sub ia)
    | .ok bs => .ok bs (s.dropAsks (k.asks what))

/-- Bytes that an access of a launch writes at its place; words behind a window leave, and are acknowledged or refused later, with
a record (R144, R151, R462). -/
def State.seqPut (s : State) (k : SeqKey) (ia : Nat) (pl : Place_) (v : Nat) : State :=
  match pl.far with
  | none => s.writeNow pl k.asid ia (leBytes 8 v)
  | some (sl, pa) => s.sendOutside k.p k.asid sl (.unit (k.site s sl)) ⟨.write, 3, ia, w64 v, 0, .i64⟩ pa

/-- An access of `n` bytes at a VA (R462): where it is performed. -/
def State.seqPlace (s : State) (k : SeqKey) (what va n : Nat) (need : Need) : Seq (Place_ × Nat) :=
  let x := s.part k.p
  let unit := 16 * x.first
  if x.skips.contains (k.q, k.l, what) then
    .skip (s.modPart k.p fun y => { y with skips := y.skips.filter fun z => z ≠ (k.q, k.l, what) })
  else if s.seqBlocked k then .wait s
  else if va % n ≠ 0 then .skip (s.seqPoison k unit 5 7 va)
  else
    match rangeCheck k.ranges va n need with
    | none => .skip (s.seqPoison k unit 5 3 va)
    | some ia =>
      match s.homeNow k.p k.asid ia none need .plain with
      | .busy => .wait s
      | .ready pl t => .ok (pl, ia) t
      | .fault c u t =>
        let sl := t.homeFor k.p k.asid (ia / 64) none
        if faultWaits c u then .wait (t.seqWait k what sl c u ia) else .skip (t.seqPoison k sl c u ia)

/-- A read of `n` bytes. -/
def State.seqRead (s : State) (k : SeqKey) (what va n : Nat) : Seq Nat :=
  match s.seqPlace k what va n { rd := true } with
  | .wait t => .wait t
  | .skip t => .skip t
  | .ok (pl, ia) t =>
    match t.seqBytes k what ia n pl with
    | .wait u => .wait u
    | .skip u => .skip u
    | .ok bs u => .ok (leNat bs) u

/-- A write of eight bytes, computed from what they hold. -/
def State.seqModify (s : State) (k : SeqKey) (what va : Nat) (need : Need) (f : Nat → Nat) : Seq Nat :=
  match s.seqPlace k what va 8 need with
  | .wait t => .wait t
  | .skip t => .skip t
  | .ok (pl, ia) t =>
    match t.seqBytes k what ia 8 pl with
    | .wait u => .wait u
    | .skip u => .skip u
    | .ok bs u => .ok (leNat bs) (u.seqPut k ia pl (f (leNat bs)))

/-- A counter add of `n` at a VA, as a CTRADD (R133, R182, R462): one that a peer or the host keeps is carried to it, or emulated
(R147, R154, R155). An overflow is recorded. -/
def State.seqAdd (s : State) (k : SeqKey) (what va n : Nat) : Seq Unit :=
  match s.seqPlace k what va 8 { rd := true, w := true } with
  | .wait t => .wait t
  | .skip t => .skip t
  | .ok (_, ia) _ =>
    match s.ctrAddNow k.p k.asid none (k.site s (16 * (s.part k.p).first)) 0 .l2 ia n with
    | .busy t => .wait t
    | .ok t => .ok () t
    | .fault c u t => .skip (t.seqPoison k (t.homeFor k.p k.asid (ia / 64) none) c u ia)

/-! ### Fetches (R392, R437) -/

/-- What comes of a fetch: it waits, it fails the range check, it was given up (R46), or the bytes. -/
inductive Fetch where
  | wait (s : State)
  | failed (s : State)
  | ok (bs : List Byte) (s : State)
deriving DecidableEq, Repr

/-- The lines of a fetch, one after the other; a poisoned one fails it, under its record (R403). -/
def State.fetchLines (s : State) (k : SeqKey) (what : Nat) (need : Need) : List (Nat × Nat) → List Byte → Fetch
  | [], acc => .ok acc s
  | (va, n) :: r, acc =>
    match rangeCheck k.ranges va n need with
    | none => .failed s
    | some ia =>
      match s.homeNow k.p k.asid ia none need .plain with
      | .busy => .wait s
      | .fault c u t => .wait (t.seqWait k what (t.homeFor k.p k.asid (ia / 64) none) c u ia)
      | .ready pl t =>
        match pl.far with
        | some (sl, pa) =>
          match t.farRead k.p k.asid sl ia (k.asks what) pa n with
          | .wait u => .wait u
          | .refused sub => .failed ((t.dropAsks (k.asks what)).seqPoison k sl 5 sub ia)
          | .ok bs => t.fetchLines k what need r (acc ++ bs)
        | none =>
          if t.spoiledAt pl k.asid ia n then .failed (t.seqSpoiled k pl ia)
          else t.fetchLines k what need r (acc ++ t.bytesAt pl k.asid ia n)

/-- A fetch of `n` bytes from a VA. -/
def State.fetch (s : State) (k : SeqKey) (what va n : Nat) (need : Need) : Fetch :=
  if (s.part k.p).skips.contains (k.q, k.l, what) then
    .failed (s.modPart k.p fun y => { y with skips := y.skips.filter fun z => z ≠ (k.q, k.l, what) })
  else if s.seqBlocked k then .wait s
  else s.fetchLines k what need (linePieces va n (n / 64 + 2)) []

/-- Fetches of several ranges: offset and length from a base. -/
def State.fetchAll (s : State) (k : SeqKey) (what base : Nat) : List (Nat × Nat) → List (List Byte) → State ⊕ (Bool × State × List (List Byte))
  | [], acc => .inr (true, s.dropAsks (k.asks what), acc)
  | (o, n) :: r, acc =>
    match s.fetch k what (base + o) n { x := true } with
    | .wait t => .inl t
    | .failed t => .inr (false, t.dropAsks (k.asks what), [])
    | .ok bs t => t.fetchAll k what base r (acc ++ [bs])

/-! ### The image of a section (R433, R434) -/

/-- A number in little-endian bytes at an offset. -/
def numAt (bs : List Byte) (o n : Nat) : Nat := leNat (slice bs o n)

/-- A slot record of 20 bytes (R185). -/
def slotAt (bs : List Byte) (o : Nat) : Slot :=
  ⟨BitVec.ofNat 32 (numAt bs o 4), BitVec.ofNat 32 (numAt bs (o + 4) 4), BitVec.ofNat 32 (numAt bs (o + 8) 4),
    w64 (numAt bs (o + 12) 8)⟩

/-- A block record of 656 bytes. -/
def blockAt (bs : List Byte) (o : Nat) : BlockRec :=
  let h := numAt bs o 8
  { first := nbits h 11 0, group := nbits h 23 12 + 1, q := nbits h 34 24, elem := nbits h 38 35, fixed := h.testBit 39,
    slots := (upto 32).map fun i => slotAt bs (o + 16 + 20 * i) }

/-- A channel record of 176 bytes. -/
def chanAt (bs : List Byte) (o : Nat) : ChanRec :=
  let h := numAt bs o 8
  { streamer := h.testBit 0, nodes := nbits h 4 1, slots := (upto 8).map fun i => slotAt bs (o + 16 + 20 * i) }

/-- A leaf name: bit 15 tells a channel. -/
def leafName (n : Nat) : Bool × Nat := (n.testBit 15, n % 2 ^ 15)

/-- A tree record of 16 bytes; its leaf names stand in `names`. -/
def treeAt (bs : List Byte) (o : Nat) (names : List Byte) : TreeDecl :=
  let h := numAt bs o 8
  let k := nbits h 31 20
  { n := nbits h 3 0, arg := nbits h 5 4, off := nbits h 19 6 * 64,
    leaves := if k = 0 then none else some ((upto k).map fun i => leafName (numAt names (2 * i) 2)) }

/-- Offsets and lengths of the parts of a section, from its descriptor's words. -/
def sectionParts (d : List Byte) : List (Nat × Nat) :=
  let w (i : Nat) : Nat := numAt d (8 * i) 8
  let o (i : Nat) : Nat := nbits (w i) 31 0
  [(o 0, nbits (w 0) 47 32 * 656), (o 1, nbits (w 1) 43 32 * 8), (o 2, nbits (w 2) 47 32 * 8),
   (o 3, nbits (w 3) 43 32 * 32), (o 4, nbits (w 4) 39 32 * 176), (o 5, nbits (w 0) 51 48 * 4),
   (o 6, nbits (w 6) 36 32 * 16)]

/-- Where the leaf names of the trees stand. -/
def treeNames (trees : List Byte) : List (Nat × Nat) :=
  (upto (trees.length / 16)).map fun i => (numAt trees (16 * i + 4) 4, nbits (numAt trees (16 * i) 8) 31 20 * 2)

/-- The image from its parts. -/
def imageOf (ps names : List (List Byte)) : SecImage :=
  let part (i : Nat) : List Byte := at! ps i []
  { blocks := (upto ((part 0).length / 656)).map fun i => blockAt (part 0) (656 * i)
    routes := wordsOf (part 1) ((part 1).length / 8)
    hops := wordsOf (part 2) ((part 2).length / 8)
    fanout := (upto ((part 3).length / 32)).map fun i =>
      (upto 8).map fun j => BitVec.ofNat 32 (numAt (part 3) (32 * i + 4 * j) 4)
    chans := (upto ((part 4).length / 176)).map fun i => chanAt (part 4) (176 * i)
    entries := (upto ((part 5).length / 4)).map fun i => BitVec.ofNat 32 (numAt (part 5) (4 * i) 4)
    trees := (upto ((part 6).length / 16)).map fun i => treeAt (part 6) (16 * i) (at! names i []) }

/-- What comes of the fetch of a section. -/
inductive Fetched where
  | wait (s : State)
  | failed (s : State)
  | ok (i : SecImage) (recs : Nat) (s : State)
deriving DecidableEq, Repr

/-- A section is fetched from its image: its descriptor, its parts, the leaf names of its trees. `recs` is where its block records
stand. -/
def State.fetchSection (s : State) (k : SeqKey) (base sec : Nat) : Fetched :=
  let what := 100 + sec
  match s.fetchAll k what base [(64 + 64 * sec, 64)] [] with
  | .inl t => .wait t
  | .inr (false, t, _) => .failed t
  | .inr (true, t, d) =>
    match t.fetchAll k what base (sectionParts (at! d 0 [])) [] with
    | .inl t => .wait t
    | .inr (false, t, _) => .failed t
    | .inr (true, t, ps) =>
      match t.fetchAll k what base (treeNames (at! ps 6 [])) [] with
      | .inl t => .wait t
      | .inr (false, t, _) => .failed t
      | .inr (true, t, ns) => .ok (imageOf ps ns) ((sectionParts (at! d 0 [])).headD (0, 0)).1 t

/-! ### Where blocks stand (R178, R355, R357, R430) -/

/-- Load may place something at a cluster: it is the partition's and is not fenced (R423). -/
def State.mayPlace (s : State) (p c : Nat) : Bool := (s.part p).hasCluster c && s.stripState (clusterStrip c) ≠ 5

/-- The block numbers of a section. -/
def SecImage.blockNums (i : SecImage) : List Nat := i.blocks.flatMap fun r => (upto r.group).map fun m => r.first + m

/-- The record of a block. -/
def SecImage.record (i : SecImage) (b : Nat) : Option BlockRec :=
  i.blocks.find? fun r => r.first ≤ b && b < r.first + r.group

/-- The logical cluster and the element that nmld gave a block: member i of a group stands i elements on. -/
def BlockRec.spot (r : BlockRec) (b : Nat) : Nat × Nat :=
  let e := r.elem + (b - r.first)
  (r.q + e / 16, e % 16)

/-- The slots of a block. -/
def SecImage.slotsOf (i : SecImage) (b : Nat) : List Slot := match i.record b with
  | some r => r.slots
  | none => []

/-- Some logical cluster index is not below 84 × strips (R357). -/
def SecImage.placeBad (i : SecImage) (count : Nat) : Bool :=
  i.blocks.any fun r => (upto r.group).any fun m => 84 * count ≤ (r.spot (r.first + m)).1

/-- A word that names `.es` (groups 0x4 and 0x5, FESET, FECLR and MRECV; R243, R260, R378) or writes a keep register, which pins
a block to its element store (R355). -/
def Slot.pins (x : Slot) : Bool :=
  let op := x.word.toNat / 2 ^ 24
  (((0x40 ≤ op && op < 0x60) || op = 0xC5 || op = 0xC6 || op = 0xD2) && litLevel x.lit = 4)
     || (op = 0xE3 && 0x20 ≤ bits x.lit 11 0 && bits x.lit 11 0 < 0x28)

/-- The entry of a block before it is placed. -/
def SecImage.newEntry (i : SecImage) (first b : Nat) : PlEntry :=
  match i.record b with
  | none => ⟨false, false, false, ⟨0, 0, 0⟩⟩
  | some r =>
    let (q, e) := r.spot b
    ⟨false, false, r.slots.any Slot.pins, ⟨clusterOfQ first q, e, 0⟩⟩

/-- What occupies a half: load index and block. -/
def State.occupant (s : State) (p cluster elem half : Nat) : Option (Nat × Nat) :=
  (s.ldr.sections.filter fun x => x.part == p).findSome? fun x =>
    (x.places.find? fun e => e.1 < 4096 && (e.2.valid || e.2.moving) && e.2.place = ⟨cluster, elem, half⟩).map fun e => (x.lsec, e.1)

/-- A move that runs will put a block there. -/
def Part.moveTo (x : Part) (cluster elem half : Nat) : Bool := match x.move with
  | some m => m.dst.cluster == cluster && m.dst.elem == elem && (m.pair || m.dst.half == half)
  | none => false

/-- The half is free for a block. -/
def State.halfFree (s : State) (p cluster elem half : Nat) : Bool :=
  s.mayPlace p cluster && (s.occupant p cluster elem half).isNone && !(s.part p).moveTo cluster elem half

/-- The lowest free half of an element. -/
def State.freeHalf (s : State) (p cluster elem : Nat) : Option Nat :=
  (upto 2).find? fun h => s.halfFree p cluster elem h

/-- The records of a block are written into a half (R392). -/
def State.writeSlots (s : State) (pl : Place) (xs : List Slot) : State :=
  (upto 32).foldl (fun s k => s.setSlot pl.cluster pl.elem (32 * pl.half + k) (at! xs k Slot.zero)) s

/-- A half has a new occupant, or none: what fired there before does not count (R393). -/
def State.forgetFired (s : State) (pl : Place) : State := s.modElem pl.cluster pl.elem fun e => { e with last := e.last.del pl.half }

/-- The cached places of one block or channel are dropped. -/
def State.forgetPlace (s : State) (p lsec num : Nat) : State :=
  { s with fab := { s.fab with pcache := s.fab.pcache.filter fun e =>
      !(e.1.part == p && e.1.lsec == lsec && e.1.num == num) } }

/-! ### Reload and eviction (R393, R394) -/

/-- The block is not loaded, and no eviction of it sweeps yet. -/
def PlEntry.out (e : PlEntry) : Bool := !e.valid && !e.moving

/-- Blocks that held tokens need: load index and number. -/
def State.neededBlocks (s : State) (p : Nat) : List (Nat × Nat) :=
  (s.fab.held.filter fun t => t.dest.part == p && !t.dest.node && (s.entry? t.dest).any PlEntry.out).map
    fun t => (t.dest.lsec, t.dest.block)

/-- The element that nmld gave a block, with q mapped onto the run from a strip on (R357). -/
def Section.nmldOn (x : Section) (first : Int) (b : Nat) : Option (Nat × Nat) :=
  (x.image.record b).map fun r =>
    let (q, e) := r.spot b
    (clusterOfBase first q, e)

/-- The same as Load mapped it. -/
def Section.nmld (x : Section) (b : Nat) : Option (Nat × Nat) := x.nmldOn x.base b

/-- Where a block is reloaded: its nmld element, else any free half of its section's region (R394); none without an
eviction. -/
def State.reloadPlace (s : State) (p : Nat) (x : Section) (b : Nat) : Option Place :=
  match x.nmld b with
  | none => none
  | some (c, e) =>
    match s.freeHalf p c e with
    | some h => some ⟨c, e, h⟩
    | none => (s.region p x).findSome? fun c => (upto 16).findSome? fun e => (s.freeHalf p c e).map fun h => ⟨c, e, h⟩

/-- The key under which the keep registers of an evicted block are kept: the block's number in place of an element. -/
def savedKeep (lsec b : Nat) : Nat × Nat := (2048 + lsec, b)

/-- Keep registers of the live contexts of a section pass from one element to another (R359, R393). -/
def State.carryKeeps (s : State) (p lsec : Nat) (src dst : Nat × Nat) : State :=
  let one (x : Ctx) (k : Nat) : Ctx :=
    let y : Ctx := match x.keeps.get (src.1, src.2, k) with
      | some v => x.setKeep dst.1 dst.2 k v
      | none => { x with keeps := x.keeps.del (dst.1, dst.2, k),
                         badKeeps := x.badKeeps.filter fun e => e ≠ (dst.1, dst.2, k) }
    if x.badKeeps.contains (src.1, src.2, k) then { y with badKeeps := (dst.1, dst.2, k) :: y.badKeeps } else y
  { s with ctxs := modAll (fun x => x.part == p && x.lsec == lsec && x.live) (fun x => (upto 8).foldl one x) s.ctxs }

/-- The saved keep registers of a block are written into the element where it is loaded again (R394). -/
def State.restoreKeeps (s : State) (p lsec b : Nat) (dst : Nat × Nat) : State :=
  let src := savedKeep lsec b
  let one (x : Ctx) (k : Nat) : Ctx :=
    let y : Ctx := match x.keeps.get (src.1, src.2, k) with
      | some v => x.setKeep dst.1 dst.2 k v
      | none => x
    if x.badKeeps.contains (src.1, src.2, k) then
      { y with badKeeps := (dst.1, dst.2, k) :: y.badKeeps.filter fun e => e ≠ (dst.1, dst.2, k) }
    else y
  { s with ctxs := modAll (fun x => x.part == p && x.lsec == lsec && x.live) (fun x => (upto 8).foldl one x) s.ctxs }

/-- The saved keep registers of a block are gone. -/
def State.dropSaved (s : State) (p lsec b : Nat) : State :=
  let key := savedKeep lsec b
  let gone (x : Ctx) : Ctx :=
    { x with keeps := x.keeps.filter fun e => !(e.1.1 == key.1 && e.1.2.1 == key.2),
             badKeeps := x.badKeeps.filter fun e => !(e.1 == key.1 && e.2.1 == key.2) }
  { s with ctxs := modAll (fun x => x.part == p && x.lsec == lsec) gone s.ctxs }

/-- The block shares its element with another of its section. -/
def State.paired (s : State) (p lsec : Nat) (pl : Place) : Bool :=
  match s.occupant p pl.cluster pl.elem (1 - pl.half) with
  | some (l, _) => l == lsec
  | none => false

/-- A block stands at a place with its records: its entry is valid, its saved keep registers are restored, and the tokens held for it
are sent (R392, R394). -/
def State.standBlock (s : State) (p lsec b : Nat) (pl : Place) (xs : List Slot) : State :=
  let s := (s.writeSlots pl xs).modEntry p lsec b fun e => { e with valid := true, moving := false, place := pl }
  (((s.forgetFired pl).restoreKeeps p lsec b (pl.cluster, pl.elem)).dropSaved p lsec b).sendHeldFor p lsec b pl

/-- The sequencer and the loader of a partition are at work: it is neither gated, nor saved, nor stopped (R142, R412,
R413). -/
def Part.works (x : Part) : Bool := x.live && !x.gated && !x.saving && !x.stopped

/-- Blocks of sections being loaded that are not placed. -/
def State.unplaced (s : State) (p : Nat) : List (Nat × Nat) :=
  (s.part p).running.flatMap fun r =>
    if r.loaded || r.stopped then []
    else r.lsecs.flatMap fun l => match s.section? p l with
      | some x => (x.places.filter fun e => e.1 < 4096 && !e.2.valid).map fun e => (l, e.1)
      | none => []

/-- An occupant may make room on its element for a block of another section: a reload or a load wants the element and
finds no free half. -/
def State.roomWanted (s : State) (p lsec cluster elem : Nat) : Bool :=
  (s.freeHalf p cluster elem).isNone && (s.unplaced p ++ s.neededBlocks p).any fun n =>
    n.1 ≠ lsec && match s.section? p n.1 with
      | some x => x.nmld n.2 = some (cluster, elem)
          && ((s.unplaced p).contains n || (s.reloadPlace p x n.2).isNone)
      | none => false

/-- A live context runs the section. -/
def State.liveIn (s : State) (p lsec : Nat) : Bool := s.ctxs.any fun x => x.part == p && x.lsec == lsec && x.live

/-- Nothing of the block is under way: no token waits at it and none of its firings is in flight (R393). -/
def State.blockIdle (s : State) (p lsec b : Nat) : Bool :=
  let mine (n : Names) : Bool := n.part == p && n.lsec == lsec && !n.node && n.block == b
  !(s.fab.waiting.any fun t => mine t.dest) && !(s.fab.ready.any fun f => mine f.names)
    && !(s.work.ops.any fun o => mine o.names) && !(s.work.gathers.any fun g => mine g.names)

/-- The occupant is evictable (R393). -/
def State.evictable (s : State) (p lsec b : Nat) (e : PlEntry) : Bool :=
  e.valid && s.blockIdle p lsec b && !(e.espin && s.liveIn p lsec)
    && !(s.moves p lsec b)

/-- When a half last fired. -/
def State.lastFired (s : State) (pl : Place) : Nat := (s.elem pl.cluster pl.elem).last.getD pl.half 0

/-- The other occupant of the element is evictable and has not fired for longer. -/
def State.olderOther (s : State) (p : Nat) (pl : Place) : Bool :=
  match s.occupant p pl.cluster pl.elem (1 - pl.half) with
  | none => false
  | some (l, b) =>
    match s.entry? ⟨p, l, false, b, 0⟩ with
    | none => false
    | some e => !e.moving && s.evictable p l b e && s.roomWanted p l pl.cluster pl.elem
        && s.lastFired e.place < s.lastFired pl

/-- The eviction ends: the records are gone, and the keep registers of a lone block are saved (R361, R393). -/
def State.evictBlock (s : State) (p lsec b : Nat) (pl : Place) : State :=
  let s := if s.paired p lsec pl then s else s.carryKeeps p lsec (pl.cluster, pl.elem) (savedKeep lsec b)
  (((s.writeSlots pl []).forgetFired pl).modEntry p lsec b fun e => { e with valid := false, moving := false }).forgetPlace p lsec b

/-- The placement caches learn of a change one after the other: which have dropped their entry already is a free
choice (R356, R361; log 8, DESIGN CHOICE). -/
def State.tellCaches (s : State) (p lsec b : Nat) : List (PcKey × Place) → State
  | [] => s
  | e :: r =>
    if e.1.part == p && e.1.lsec == lsec && e.1.num == b then
      let (k, s) := s.draw 2
      let s : State := if k = 0 then s
        else { s with fab := { s.fab with pcache := s.fab.pcache.filter fun y => y.1 ≠ e.1 } }
      s.tellCaches p lsec b r
    else s.tellCaches p lsec b r

/-- A token that was resolved to the place of a block is on its way there. -/
def State.boundFor (s : State) (p lsec b : Nat) (pl : Place) : Bool :=
  s.fab.net.any fun t => t.dest.part == p && t.dest.lsec == lsec && !t.dest.node && t.dest.block == b
    && t.at_ = some (pl.cluster, pl.elem)

/-- One step of an eviction (R361, R393): the entry is marked MOVING; V is written 0 and the caches are told to drop it; every cache
has dropped it, and once no token resolved to the place is on its way, the block is gone. A block that is no longer evictable, or
whose half is `wanted` no more, stays. -/
def State.evictOn (s : State) (p lsec b : Nat) (e : PlEntry) (wanted : Bool) : State :=
  if e.moving && !e.valid then
    let s := s.forgetPlace p lsec b
    if s.boundFor p lsec b e.place then s else s.evictBlock p lsec b e.place
  else if !wanted || !s.evictable p lsec b e then s.cancelEvict p lsec b
  else if e.moving then (s.modEntry p lsec b fun x => { x with valid := false }).tellCaches p lsec b s.fab.pcache
  else s.modEntry p lsec b fun x => { x with moving := true }

/-- BLOCK_EVICT (R393; subject: p, lsec, block): the occupant whose last firing is oldest is evicted, a step at a time, unless a token
reaches it in between. -/
def execBlockEvict (s : State) : Result :=
  let p := s.run.subj.a
  let l := s.run.subj.b
  let b := s.run.subj.c
  match s.entry? ⟨p, l, false, b, 0⟩ with
  | none => .next s
  | some e =>
    if !(s.part p).works || (!e.moving && s.olderOther p e.place) then .next s
    else .next (s.evictOn p l b e (s.roomWanted p l e.place.cluster e.place.elem))

/-! ### Load (R392, R395) -/

/-- Units of a kind that the partition has: 4 islands and 32 stream ports a strip (R19, R338), as numbers. -/
def Part.units (x : Part) (streamer : Bool) : List Nat :=
  let n := if streamer then 32 else 4
  (upto (n * x.count)).map fun i => n * x.first + i

/-- Units of a kind that no channel holds (log 16, DESIGN CHOICE). -/
def State.freeUnits (s : State) (p : Nat) (streamer : Bool) : List Nat :=
  (s.part p).units streamer |>.filter fun u =>
    s.stripState (u / if streamer then 32 else 4) ≠ 5 && !(s.ldr.channels.any fun c => c.part == p && c.island ≠ streamer && c.unit == u)

/-- The channels of a kind in a section. -/
def SecImage.chanCount (i : SecImage) (streamer : Bool) : Nat := (i.chans.filter fun c => c.streamer == streamer).length

/-- A channel of a section on its unit, with every accumulator and slot at its state at Load (R315). -/
def newChannel (p lsec chan : Nat) (c : ChanRec) (unit : Nat) : Channel :=
  { part := p, lsec := lsec, chan := chan, island := !c.streamer, unit := unit, slots := c.slots.take c.nodes,
    accs := if c.streamer then [] else List.replicate 8 Acc.zero
    oslots := if c.streamer then [] else List.replicate 64 [], bad := [], sctx := [] }

/-- The channels of a section take units in order. -/
def takeUnits (p lsec : Nat) : List ChanRec → Nat → List Nat → List Nat → List Channel
  | [], _, _, _ => []
  | c :: r, k, isl, ports =>
    let us := if c.streamer then ports else isl
    newChannel p lsec k c (us.headD 0)
      :: takeUnits p lsec r (k + 1) (if c.streamer then isl else isl.drop 1) (if c.streamer then ports.drop 1 else ports)

/-- The placement entry of a channel (R355): its strip and edge, and the low four bits of its index among the strip's units of its kind,
whose fifth is that of the edge (log 104, DEDUCED). -/
def Channel.entry (c : Channel) : PlEntry := ⟨true, false, false, ⟨c.cluster, c.unit % (if c.island then 4 else 16), 0⟩⟩

/-- The channels of a loaded section get their units (R392, step 2): none while too few are free. -/
def State.giveUnits (s : State) (p lsec : Nat) : Option State :=
  match s.section? p lsec with
  | none => none
  | some x =>
    if x.image.chans.isEmpty || (s.ldr.channels.any fun c => c.part == p && c.lsec == lsec) then some s
    else
      let isl := s.freeUnits p false
      let ports := s.freeUnits p true
      if isl.length < x.image.chanCount false || ports.length < x.image.chanCount true then none
      else
        let cs := takeUnits p lsec x.image.chans 0 isl ports
        let s : State := { s with ldr := { s.ldr with channels := s.ldr.channels ++ cs } }
        some (s.modSection p lsec fun y => cs.foldl (fun z c => z.setPlace (4096 + c.chan) c.entry) y)

/-- Every section has its units, or none gets any. -/
def State.giveAll (s : State) (p : Nat) : List Nat → Option State
  | [] => some s
  | l :: r =>
    match s.giveUnits p l with
    | none => none
    | some t => t.giveAll p r

/-- The section is named by a launch that runs. -/
def Part.named (x : Part) (lsec : Nat) : Bool := x.running.any fun r => r.lsecs.contains lsec

/-- No block of the section is loaded. -/
def Section.empty (x : Section) : Bool := x.places.all fun e => 4096 ≤ e.1 || e.2.out

/-- The load index of a section is freed: no block of it remains loaded, no running launch names it, and its contexts have
retired (R392). -/
def State.freed (s : State) (x : Section) : Bool := x.empty && !(s.part x.part).named x.lsec && !s.liveIn x.part x.lsec

/-- The lowest free load index (R392): none of a section, or freed by one that is gone. -/
def State.freeIndex (s : State) (p : Nat) : Option Nat := (upto 64).find? fun l => (s.section? p l).all s.freed

/-- A section takes a load index, with every entry at V = 0. -/
def State.newSection (s : State) (p lsec index gen sec recs : Nat) (i : SecImage) : State :=
  let first := (s.loadRun p).1
  let x : Section :=
    { part := p, lsec := lsec, base := first, index := index, gen := gen, sec := sec, recs := recs, image := i,
      table := i.blockNums.map fun b => (b, (i.newEntry first b).word) }
  { s with
    ldr := { s.ldr with sections := (s.ldr.sections.filter fun y => !(y.part == p && y.lsec == lsec)) ++ [x] }
    fab := { s.fab with pcache := s.fab.pcache.filter fun e => !(e.1.part == p && e.1.lsec == lsec) } }

/-- The section as it is loaded already, its load index not freed (R392, step 1). -/
def State.reused (s : State) (p index gen sec : Nat) : Option Nat :=
  (s.ldr.sections.find? fun x => x.part == p && x.index == index && x.gen == gen && x.sec == sec && !s.freed x).map fun x => x.lsec

/-- The tiles of a section in sequenced mode (R176). -/
def LaunchRec.tiles (l : LaunchRec) : Nat := ((upto l.nf).map fun i => at! l.counts i 0).foldl (· * ·) 1

/-- Sections that the launch runs end before this index. -/
def LaunchRec.secEnd (l : LaunchRec) : Nat := l.secFirst + l.secCount

/-- Tasks of a launch that it has not dispatched (R179, R395). -/
def Running.left (r : Running) : Nat :=
  if r.launch.mode then (r.cursors.map fun c => c.entries.length - (if c.task.isSome then 1 else 0)).foldl (· + ·) 0
  else (r.launch.tiles - r.tile) + r.launch.tiles * (r.launch.secEnd - (r.sec + 1)) + r.requeue.length

/-- The launch fails: its record, and every tile not dispatched counted (R395). -/
def State.failLaunch (s : State) (p : Nat) (r : Running) (sub : Nat) : State :=
  let k := s.keyOf p r
  let s := s.raise (k.site s (16 * (s.part p).first)) { cause := 0x12, sub := sub, info := k.info }
  s.modRun p r.queue r.lseq fun y =>
    { y with stopped := true, failed := y.failed + r.left, requeue := [],
             cursors := y.cursors.map fun c => { c with entries := c.entries.take (if c.task.isSome then 1 else 0) } }

/-- The subcode with which a section cannot be loaded onto a run of strips at all (R395): a place, an island or a port that it does not
have; a route that the loader refuses counts as a place (R370; log 92, DESIGN CHOICE). -/
def SecImage.unfit (i : SecImage) (first count : Nat) : Option Nat :=
  if i.placeBad count || i.routesRefused first count then some 1
  else if 4 * count < i.chanCount false then some 2
  else if 32 * count < i.chanCount true then some 3
  else none

/-- The same for what is yet to be loaded of a section, on the run onto which Load maps it now (R430). -/
def State.unfitNow (s : State) (p lsec : Nat) : Option Nat :=
  match s.section? p lsec with
  | none => none
  | some x =>
    let n := (s.loadRun p).2
    let out := x.places.any fun e => e.1 < 4096 && e.2.out && (x.image.record e.1).any fun r => 84 * n ≤ (r.spot e.1).1
    let units := !(s.ldr.channels.any fun c => c.part == p && c.lsec == lsec)
    if out then some 1
    else if units && 4 * n < x.image.chanCount false then some 2
    else if units && 32 * n < x.image.chanCount true then some 3
    else none

/-- The next section of a launch gets its load index (R392, step 1). During a SHRINK one that only lacks room on the strips that stay
waits (R430). -/
def State.acquire (s : State) (p : Nat) (r : Running) (sec : Nat) : State :=
  let x := s.part p
  let l := r.launch
  let late (i : SecImage) : Bool := s.shrinking p && (i.unfit (s.loadRun p).1 (s.loadRun p).2).isSome
  let take (s : State) (lsec : Nat) : State := s.modRun p r.queue r.lseq fun y => { y with lsecs := y.lsecs ++ [lsec] }
  match s.reused p l.index l.gen sec with
  | some lsec =>
    match (s.section? p lsec).bind fun y => y.image.unfit x.first x.count with
    | some sub => s.failLaunch p r sub
    | none => if (s.section? p lsec).any fun y => late y.image then s else take s lsec
  | none =>
    match x.handle l.index l.gen r.asid with
    | none => s.failLaunch p r 5
    | some h =>
      match s.freeIndex p with
      | none => s
      | some lsec =>
        match s.fetchSection (s.keyOf p r) h.w1.toNat sec with
        | .wait t => t
        | .failed t => t.failLaunch p r 5
        | .ok i recs t =>
          match i.unfit x.first x.count with
          | some sub => t.failLaunch p r sub
          | none => if late i then t else take (t.newSection p lsec l.index l.gen sec recs i) lsec

/-- The sections of a launch fit the partition together (R179). -/
def State.fits (s : State) (p : Nat) (lsecs : List Nat) : Bool :=
  let count := (s.loadRun p).2
  let imgs := lsecs.filterMap fun l => (s.section? p l).map fun y => y.image
  let spots := imgs.flatMap fun i => i.blockNums.filterMap fun b => (i.record b).map fun r => r.spot b
  (imgs.map fun i => i.chanCount false).foldl (· + ·) 0 ≤ 4 * count
    && (imgs.map fun i => i.chanCount true).foldl (· + ·) 0 ≤ 32 * count
    && spots.all fun y => (spots.filter fun z => z = y).length ≤ 2

/-- The launch goes on loading: it has not failed meanwhile. -/
def State.loads (s : State) (p : Nat) (r : Running) : Bool := ((s.part p).run? r.queue r.lseq).any fun y => !y.stopped

/-- The 32 slot records of a block of a section, read on behalf of a launch (R392, step 3); the launch fails where the read does. -/
def State.fetchSlots (s : State) (p : Nat) (r : Running) (x : Section) (b : Nat) : State ⊕ (List Slot × State) :=
  match (s.part p).handle r.launch.index r.launch.gen r.asid, x.image.blocks.findIdx? fun y => y.first ≤ b && b < y.first + y.group with
  | some h, some i =>
    let k := s.keyOf p r
    match s.fetch k (100 + x.sec) (h.w1.toNat + x.recs + 656 * i + 16) 640 { x := true } with
    | .wait t => .inl t
    | .failed t => .inl ((t.dropAsks (k.asks (100 + x.sec))).failLaunch p r 5)
    | .ok bs t => .inr ((upto 32).map fun j => slotAt bs (20 * j), t.dropAsks (k.asks (100 + x.sec)))
  | _, _ => .inl (s.failLaunch p r 5)

/-- A block is loaded at a place on behalf of a launch. -/
def State.loadBlock (s : State) (p : Nat) (r : Running) (x : Section) (b : Nat) (pl : Place) : State :=
  match s.fetchSlots p r x b with
  | .inl t => t
  | .inr (xs, t) => t.standBlock p x.lsec b pl xs

/-- BLOCK_RELOAD (R394; subject: p, lsec, block): the block is loaded again, its records read for a launch that runs its section. -/
def execBlockReload (s : State) : Result :=
  let p := s.run.subj.a
  let l := s.run.subj.b
  let b := s.run.subj.c
  if !(s.part p).works || !(s.neededBlocks p).contains (l, b) then .next s
  else
    match s.section? p l, (s.part p).running.find? fun r => r.lsecs.contains l with
    | some x, some r =>
      match s.reloadPlace p x b with
      | none => .next s
      | some pl => .next (s.loadBlock p r x b pl)
    | _, _ => .next s

/-- The blocks of a section that find a free half on their nmld elements are placed for a launch (R392, R393). -/
def State.placeBlocks (s : State) (p : Nat) (r : Running) (lsec : Nat) : State :=
  match s.section? p lsec with
  | none => s
  | some x =>
    (x.places.filter fun e => e.1 < 4096 && e.2.out).foldl (fun s e =>
      match x.nmldOn (s.loadRun p).1 e.1 with
      | none => s
      | some (c, el) =>
        match s.freeHalf p c el with
        | some h => if s.loads p r then s.loadBlock p r x e.1 ⟨c, el, h⟩ else s
        | none => s) s

/-- A section of which no block stands is mapped onto the run as it is now (R430). -/
def State.rebase (s : State) (p lsec : Nat) : State :=
  let first := (s.loadRun p).1
  s.modSection p lsec fun x => if x.empty then { x with base := first } else x

/-- Every block of the section stands. -/
def State.allPlaced (s : State) (p lsec : Nat) : Bool := match s.section? p lsec with
  | some x => x.places.all fun e => e.2.valid
  | none => false

/-- A held token of another section needs a block, which comes first (R394). -/
def State.reloadFirst (s : State) (p : Nat) (lsecs : List Nat) : Bool :=
  (s.neededBlocks p).any fun n => !lsecs.contains n.1

/-! ### Schedule tables (R178, R179) -/

/-- What comes of reading a table. -/
inductive TableRead where
  | wait (s : State)
  | ok (es : List (W64 × Nat)) (bad : Bool) (s : State)
deriving DecidableEq, Repr

/-- A table from entry `j` on; an entry whose SEC is not below SECCOUNT ends it (R178). One that its range check stops, or whose read
is given up, ends there with no record (log 59, DEDUCED; log 98, DESIGN CHOICE). -/
def State.readTable (s : State) (k : SeqKey) (base secCount : Nat) : Nat → Nat → List (W64 × Nat) → TableRead
  | 0, _, acc => .ok acc false s
  | n + 1, j, acc =>
    match s.fetch k 200 (base + 16 * j) 16 { rd := true } with
    | .wait t => .wait t
    | .failed t => .ok acc false t
    | .ok bs t =>
      let w := w64 (numAt bs 8 8)
      if !bit w 63 then .ok acc false t
      else if secCount ≤ bits w 3 0 then .ok acc true t
      else t.readTable k base secCount n (j + 1) (acc ++ [(w64 (numAt bs 0 8), bits w 3 0)])

/-- The tables of the clusters from index `q` on, and how many of them a bad entry ends. -/
def State.readTables (s : State) (k : SeqKey) (base secCount first : Nat) :
    Nat → Nat → List Cursor → Nat → Option (List Cursor × Nat) × State
  | 0, _, acc, bad => (some (acc, bad), s)
  | n + 1, q, acc, bad =>
    match s.readTable k (base + 4096 * q) secCount 256 0 [] with
    | .wait t => (none, t)
    | .ok es b t =>
      t.readTables k base secCount first n (q + 1) (acc ++ [⟨clusterOfQ first q, es, none⟩]) (if b then bad + 1 else bad)

/-- The tables of a launch are read, each that a bad entry ends with its record (R178, R179), and the launch takes them. -/
def State.takeTables (s : State) (p : Nat) (r : Running) (take : List Cursor → Running → Running) : State :=
  let x := s.part p
  let k := s.keyOf p r
  match s.readTables k r.launch.schedbase r.launch.secCount x.first (84 * x.count) 0 [] 0 with
  | (none, t) => t
  | (some (cs, bad), t) =>
    let t := (upto bad).foldl (fun t _ =>
      t.raise (k.site t (16 * x.first)) { cause := 0x12, sub := 4, info := k.info }) t
    t.modRun p r.queue r.lseq (take cs)

/-- The tables are copied into the clusters (R179, step 2). -/
def State.loadTables (s : State) (p : Nat) (r : Running) : State := s.takeTables p r fun cs y => { y with cursors := cs }

/-- The entries of a launch that failed before its tables were copied are counted in FAILED (R179; log 111, DEDUCED). -/
def State.countTables (s : State) (p : Nat) (r : Running) : State :=
  s.takeTables p r fun cs y =>
    { y with failed := y.failed + (cs.map fun c => c.entries.length).foldl (· + ·) 0,
             cursors := cs.map fun c => { c with entries := [] } }

/-- One step of Load of a launch: load indices, islands and ports, blocks, then the schedule tables (R179, R392). -/
def State.loadOn (s : State) (p : Nat) (r : Running) : State :=
  let need := if r.launch.mode then r.launch.secCount else 1
  let fail (sub : Nat) : State := if s.shrinking p then s else s.failLaunch p r sub
  if r.lsecs.length < need then
    s.acquire p r (if r.launch.mode then r.launch.secFirst + r.lsecs.length else r.sec)
  else if r.launch.mode && !s.fits p r.lsecs then fail 4
  else
    match r.lsecs.findSome? fun l => s.unfitNow p l with
    | some sub => fail sub
    | none =>
      match s.giveAll p r.lsecs with
      | none => s
      | some t =>
        if t.reloadFirst p r.lsecs then t
        else
          let t := r.lsecs.foldl (fun t l => (t.rebase p l).placeBlocks p r l) t
          if !(t.loads p r && r.lsecs.all fun l => t.allPlaced p l) then t
          else if r.launch.mode && r.cursors.isEmpty then t.loadTables p r
          else t.modRun p r.queue r.lseq fun y => { y with loaded := true }

/-- The launch has nothing to load: its work space is empty (R182). -/
def Running.emptySpace (r : Running) : Bool := !r.launch.mode && r.launch.tiles = 0

/-- SECTION_LOAD (R392, R395; subject: p, launch): Load goes on by one step. -/
def execSectionLoad (s : State) : Result :=
  let p := s.run.subj.a
  match (s.part p).running[s.run.subj.b]? with
  | none => .next s
  | some r =>
    if !(s.part p).works || r.loaded || r.stopped || r.emptySpace || r.launch.secEnd ≤ r.sec then .next s
    else .next (s.loadOn p r)

end Sys2Proof.Machine
end

