-- ==== Sys2Proof/Machine/Sequencer.lean ====
section
/-! DEFINITION. The graph sequencer (R176 to R182, R358, R390, R391, R462): the start of a launch, the dispatch of its
tasks, the release of its nodes, and Complete. -/

namespace Sys2Proof.Machine

/-! ### Starting a launch (R181, R390) -/

/-- The launch at the head of a queue. -/
def Part.head (x : Part) (q : Nat) : Option HeldLaunch := x.held.find? fun h => h.queue == q

/-- The state with a held launch passed through `f`. -/
def State.modHeld (s : State) (p q l : Nat) (f : HeldLaunch → HeldLaunch) : State :=
  s.modPart p fun x => { x with held := modFirst (fun h => h.queue == q && h.lseq == l) f x.held }

/-- STATE of a task control block, bits [17:16] of its word 0, written (R181): the word keeps its other bits (log 28, DEDUCED). -/
def State.writeTcb (s : State) (k : SeqKey) (what tcb v : Nat) : Seq Nat :=
  s.seqModify k what tcb { w := true } fun o => (setBits (w64 o) 17 16 v).toNat

/-- A head launch with a task control block is marked as waiting for its predecessors: STATE := 1 (R181). -/
def State.markHead (s : State) (p : Nat) (h : HeldLaunch) : State :=
  if h.waiting || h.launch.tcb = 0 then s
  else
    let go (t : State) : State := t.modHeld p h.queue h.lseq fun y => { y with waiting := true }
    match s.writeTcb ((s.part p).seqKey p h.queue h.lseq h.launch) 1 h.launch.tcb 1 with
    | .wait t => t
    | .skip t => go t
    | .ok _ t => go t

/-- PREDCOUNT is read with the rest of its word, and the TCB registered at its home; one that a peer or the host keeps is registered
nowhere (R390; log 103, DEDUCED). -/
def State.testTcb (s : State) (k : SeqKey) (tcb : Nat) : Seq (Nat × Option (Nat × Nat)) :=
  match s.seqPlace k 2 tcb 8 { rd := true } with
  | .wait t => .wait t
  | .skip t => .skip t
  | .ok (pl, ia) t =>
    match t.seqBytes k 2 ia 8 pl with
    | .wait u => .wait u
    | .skip u => .skip u
    | .ok bs u => .ok (leNat bs, if pl.far.isNone then some (u.placeHome pl k.asid (ia / 64), ia) else none) u

/-- Head launches that may start: their queue is on, and they have no task control block or their PREDCOUNT reads 0, or was found to
read 0 after a write; a read that is skipped reads as 0 from then on (R390, R462). -/
def State.startable (s : State) (p : Nat) : List Nat → List HeldLaunch → List HeldLaunch × State
  | [], acc => (acc, s)
  | q :: r, acc =>
    match (s.part p).head q with
    | none => s.startable p r acc
    | some h =>
      if !(s.part p).queueOn q then s.startable p r acc
      else if h.launch.tcb = 0 then s.startable p r (acc ++ [h])
      else if h.skipped || h.due then s.startable p r (acc ++ [h])
      else if !h.waiting then s.startable p r acc
      else
        match s.testTcb ((s.part p).seqKey p q h.lseq h.launch) h.launch.tcb with
        | .wait t => t.startable p r acc
        | .skip t => (t.modHeld p q h.lseq fun y => { y with skipped := true }).startable p r (acc ++ [h])
        | .ok (v, g) t =>
          if v / 2 ^ 32 = 0 then t.startable p r (acc ++ [h])
          else (t.modHeld p q h.lseq fun y => { y with reg := g }).startable p r acc

/-- The launch that starts: the highest PRIO, and within it the first queue after the one from which the last launch of
that PRIO started (R390). -/
def Part.nextStart (x : Part) (hs : List HeldLaunch) : Option HeldLaunch :=
  let top := hs.foldl (fun m h => max m (x.queuePrio h.queue)) 0
  let mine := hs.filter fun h => x.queuePrio h.queue == top
  minBy (fun h => (h.queue + 63 - at! x.lastq top 63) % 64) mine

/-- A launch takes a slot (R390). -/
def State.startLaunch (s : State) (p : Nat) (h : HeldLaunch) : State :=
  s.modPart p fun x =>
    let r : Running :=
      { queue := h.queue, lseq := h.lseq, asid := x.queueAsid h.queue, launch := h.launch, sec := h.launch.secFirst,
        loaded := false, lsecs := [], tile := 0, requeue := [], failed := 0, passed := 0, order := x.started + 1,
        stopped := false, step := 0, cursors := [] }
    { x with held := dropFirst (fun y => y.queue == h.queue && y.lseq == h.lseq) x.held, running := x.running ++ [r],
             started := x.started + 1, lastq := setAt x.lastq (x.queuePrio h.queue) h.queue }

/-- LAUNCH_START (R181, R390; subject: p): heads are marked as waiting, and while a launch slot is free the launch that
is next takes it, its STATE := 2. -/
def execLaunchStart (s : State) : Result :=
  let p := s.run.subj.a
  if !(s.part p).works then .next s
  else
    let heads := (upto 64).filterMap fun q => (s.part p).head q
    let s := heads.foldl (fun s h => s.markHead p h) s
    if 16 ≤ (s.part p).running.length then .next s
    else
      let (hs, s) := s.startable p (upto 64) []
      match (s.part p).nextStart hs with
      | none => .next s
      | some h =>
        if h.launch.tcb = 0 then .next (s.startLaunch p h)
        else
          match s.writeTcb ((s.part p).seqKey p h.queue h.lseq h.launch) 3 h.launch.tcb 2 with
          | .wait t => .next t
          | .skip t => .next (t.startLaunch p h)
          | .ok _ t => .next (t.startLaunch p h)

/-! ### Homes (R77, R128, R358) -/

/-- The cluster where the lease bodies of a section stand (R128; log 47, DEDUCED). -/
def State.leaseHome (s : State) (p : Nat) (x : Section) : Option Nat :=
  match x.image.bodyBlocks with
  | b :: _ => (x.places.get b).map fun e => s.standsIn p e
  | [] => none

/-- The home of a task in sequenced mode: the one cluster that holds every block, the one that holds the lease bodies,
else one of the region (R77, R128, R358; log 21, DESIGN CHOICE). -/
def State.taskHome (s : State) (p : Nat) (x : Section) : Option Nat × State :=
  match s.region p x, s.leaseHome p x with
  | [c], _ => (if s.chainSlot p c then some c else none, s)
  | _, some c => (if s.chainSlot p c then some c else none, s)
  | cs, none => s.pickHome p cs

/-! ### Dispatch (R174, R176, R177, R391) -/

/-- The work identifier of tile `n`: field 0 varies fastest (R174, R176). -/
def LaunchRec.identifier (l : LaunchRec) (n : Nat) : W64 :=
  let go (i : Nat) (acc : Nat × Nat) : Nat × Nat :=
    let c := max 1 (at! l.counts i 0)
    (acc.1 + acc.2 % c * 2 ^ l.shift i, acc.2 / c)
  w64 ((upto l.nf).foldl (fun acc i => go i acc) (0, n)).1

/-- A task's context as it is dispatched (R36, R67, R77, R177). -/
def Part.newTask (x : Part) (p id home lsec sec : Nat) (r : Running) (wid : W64) : Ctx :=
  { part := p, id := id, live := true, asid := x.queueAsid r.queue, priv := bit (at! x.qcfg r.queue 0) 3,
    prio := x.queuePrio r.queue, queue := r.queue, lseq := r.lseq, section_ := sec, lsec := lsec, workid := wid,
    nf := r.launch.nf, widths := r.launch.widths, args := r.launch.args, ranges := r.launch.ranges,
    seed := bits (at! x.qcfg r.queue 0) 51 36, flags := 0, xtrap := false, leaseMax := 16, brk := false,
    chain := ⟨0, 0xFD, 0xFD, home, []⟩, depth := 0, lines := [], expired := [], leasers := [], halted := false,
    resume := [], guard := none, guardN := 0, orphans := [], region := false, done := false, root := id, created := [],
    cid := ((x.handles.get r.launch.index).map fun h => bits h.w0 43 36).getD 0, aborted := false,
    kinit := r.launch.args, keeps := [], badKeeps := [] }

/-- The start tokens of a task, one to each entry of its section (R177). -/
def State.startTokens (s : State) (p lsec id : Nat) (wid : W64) : State :=
  match s.section? p lsec with
  | none => s
  | some x =>
    x.image.entries.foldl (fun s l =>
      match linkDest x ⟨p, lsec, false, 0, 0⟩ l with
      | none => s
      | some (n, port) =>
        s.dispatchToken ⟨true, 16 * (s.part p).first⟩ 0 ⟨0, n, port, id, 0, 0, .i64, false, [wid], none, 0⟩) s

/-- A task is dispatched into a section with a home (R177): none while no context is free. -/
def State.dispatchTask (s : State) (p : Nat) (r : Running) (lsec home : Nat) (wid : W64) : Option (Nat × State) :=
  match s.pickCtx p, s.section? p lsec with
  | (some id, t), some x =>
    let c := (t.part p).newTask p id home lsec x.sec r wid
    let t : State := { t with ctxs := t.ctxs ++ [c] }
    some (id, (t.takeStreams p lsec id).startTokens p lsec id wid)
  | _, _ => none

/-- The next work identifier of a sequenced launch: a requeued one, else the next tile (R176). -/
def Running.nextId (r : Running) : Option W64 :=
  match r.requeue with
  | w :: _ => some (w64 w)
  | [] => if r.tile < r.launch.tiles then some (r.launch.identifier r.tile) else none

/-- The launch once its next task is dispatched. -/
def Running.advance (r : Running) : Running :=
  match r.requeue with
  | _ :: ws => { r with requeue := ws }
  | [] => { r with tile := r.tile + 1 }

/-- The section that a sequenced launch dispatches into. -/
def State.runSection (s : State) (p : Nat) (r : Running) : Option Section := r.lsecs.head?.bind fun l => s.section? p l

/-- No other requeued task stands at the head of the launch's queue (R46, R176): `mark` names the cursor that would dispatch, 0 in
sequenced mode. -/
def Part.queueFree (x : Part) (r : Running) (mark : Nat) : Bool :=
  match x.heads.find? fun h => h.1 == r.queue && x.running.any fun y => y.queue == h.1 && y.lseq == h.2.1 && !y.stopped with
  | some h => h.2 = (r.lseq, mark)
  | none => true

/-- The requeued task at the head of the launch's queue has been dispatched. -/
def Part.dropHead (x : Part) (r : Running) (mark : Nat) : Part :=
  { x with heads := dropFirst (fun h => h = (r.queue, r.lseq, mark)) x.heads }

/-- The launch can dispatch now (R391): it has a task, a context, a home and a stream slot, and no requeued task of its queue
goes before. -/
def State.canDispatch (s : State) (p : Nat) (r : Running) : Bool :=
  (s.part p).queueFree r 0 && r.loaded && !r.stopped && !r.launch.mode && r.nextId.isSome && match s.runSection p r with
    | none => false
    | some x => s.streamRoom p x.lsec && (s.pickCtx p).1.isSome && (s.taskHome p x).1.isSome

/-- The launch that an opportunity goes to (R391): one passed over at 64 opportunities, else the highest PRIO, and within
it the launch that started next after the one that last had its turn. -/
def State.dispatchPick (s : State) (p : Nat) : Option Running :=
  let x := s.part p
  let cs := x.running.filter fun r => s.canDispatch p r
  match minBy (fun r => r.order) (cs.filter fun r => 64 ≤ r.passed) with
  | some r => some r
  | none =>
    let top := cs.foldl (fun m r => max m (x.queuePrio r.queue)) 0
    let mine := cs.filter fun r => x.queuePrio r.queue == top
    let last := at! x.turn top 0
    match minBy (fun r => r.order) (mine.filter fun r => last < r.order) with
    | some r => some r
    | none => minBy (fun r => r.order) mine

/-- The launches that could dispatch at an opportunity, by their order of starting (R391). -/
def State.couldDispatch (s : State) (p : Nat) : List Nat := ((s.part p).running.filter fun y => s.canDispatch p y).map fun y => y.order

/-- The opportunity passes: the launch taken starts its count again, as does one that could not dispatch, and the others of those that
could are passed over once more (R391; log 41, DEDUCED). -/
def State.passOver (s : State) (p : Nat) (r : Running) (could : List Nat) : State :=
  s.modPart p fun x =>
    let x := if r.requeue.isEmpty then x else x.dropHead r 0
    { x with
      turn := setAt x.turn (x.queuePrio r.queue) r.order
      running := x.running.map fun y =>
        if y.order = r.order then { y.advance with passed := 0 }
        else { y with passed := if could.contains y.order then y.passed + 1 else 0 } }

/-- DISPATCH (R176, R177, R391; subject: p, launch). -/
def execDispatch (s : State) : Result :=
  let p := s.run.subj.a
  match (s.part p).running[s.run.subj.b]?, s.dispatchPick p with
  | some r, some y =>
    if !(s.part p).works || r.order ≠ y.order then .next s
    else
      match s.runSection p r, r.nextId with
      | some x, some wid =>
        match s.taskHome p x with
        | (some home, t) =>
          match t.dispatchTask p r x.lsec home wid with
          | some (_, u) => .next (u.passOver p r (s.couldDispatch p))
          | none => .next s
        | (none, _) => .next s
      | _, _ => .next s
  | _, _ => .next s

/-- SCHED_TABLE_DISPATCH (R179; subject: p, launch, cluster): a cursor whose last task has ended dispatches its next
entry, homed in its own cluster, or in that which stands for it once its strip is fenced or gone; a requeued task of the queue goes
first (R176). -/
def execSchedTableDispatch (s : State) : Result :=
  let p := s.run.subj.a
  match (s.part p).running[s.run.subj.b]? with
  | none => .next s
  | some r =>
    match r.cursors.find? fun c => c.cluster == s.run.subj.c with
    | none => .next s
    | some c =>
      match c.entries, c.task with
      | (wid, sec) :: _, none =>
        match r.lsecs[sec]? with
        | none => .next s
        | some l =>
          let home := inRun (s.loadRun p) c.cluster
          if !(s.part p).works || !r.loaded || r.stopped || !(s.part p).queueFree r (heldMark c.cluster) || !s.streamRoom p l
              || !s.chainSlot p home then .next s
          else
            match s.dispatchTask p r l home wid with
            | none => .next s
            | some (id, t) =>
              .next ((t.modPart p fun x => x.dropHead r (heldMark c.cluster)).modRun p r.queue r.lseq fun y =>
                { y with cursors := modFirst (fun k => k.cluster == c.cluster) (fun k => { k with task := some id })
                           y.cursors })
      | _, _ => .next s

/-! ### The end of a section (R176) -/

/-- A task of the launch is under way or held. -/
def State.launchBusy (s : State) (p : Nat) (r : Running) : Bool :=
  (s.ctxs.any fun x => x.part == p && x.queue == r.queue && x.lseq == r.lseq && x.live)
    || (s.part p).tasks.any fun t => t.queue == r.queue && t.lseq == r.lseq

/-- Every task of the section, or of a table launch, has been dispatched and has ended; or the launch dispatches nothing
more. -/
def State.sectionOver (s : State) (p : Nat) (r : Running) : Bool :=
  !s.launchBusy p r &&
    (r.stopped || (r.loaded && (if r.launch.mode then r.cursors.all fun c => c.entries.isEmpty
      else r.requeue.isEmpty && r.launch.tiles ≤ r.tile)))

/-- The nodes of a section are released and their state discarded, unless another launch runs it (R176). -/
def State.releaseNodes (s : State) (p lsec : Nat) (order : Nat) : State :=
  if (s.part p).running.any fun r => r.order ≠ order && r.lsecs.contains lsec then s
  else
    let mine (c : Channel) : Bool := c.part == p && c.lsec == lsec
    let gone := s.ldr.channels.filter mine
    let s : State := { s with ldr := { s.ldr with channels := s.ldr.channels.filter fun c => !mine c } }
    let s := gone.foldl (fun s c => s.forgetPlace p lsec (4096 + c.chan)) s
    s.modSection p lsec fun x => { x with table := x.table.filter fun e => e.1 < 4096 }

/-- RELEASE_ISLANDS (R176; subject: p, launch): the launch goes on to its next section, or to Complete. -/
def execReleaseIslands (s : State) : Result :=
  let p := s.run.subj.a
  match (s.part p).running[s.run.subj.b]? with
  | none => .next s
  | some r =>
    if !(s.part p).works || r.launch.secEnd ≤ r.sec || !s.sectionOver p r then .next s
    else
      let s := r.lsecs.foldl (fun s l => s.releaseNodes p l r.order) s
      .next (s.modRun p r.queue r.lseq fun y =>
        { y with loaded := false, lsecs := [], tile := 0,
                 sec := if y.launch.mode || y.stopped then y.launch.secEnd else y.sec + 1 })

/-! ### Complete (R182, R462) -/

/-- One access of Complete, then the next step. -/
def seqThen (r : Seq Nat) (next : State → State) : State :=
  match r with
  | .wait t => t
  | .skip t => next t
  | .ok _ t => next t

/-- The next step of Complete is set. -/
def State.toStep (s : State) (p : Nat) (r : Running) (n : Nat) : State :=
  s.modRun p r.queue r.lseq fun y => { y with step := n }

/-- PREDCOUNT of a successor is decremented; one that is 0 already stays 0 and is noted in Thyme (R182), in the record of the
partition's lowest strip with its unit 16 x strip (log 99, DESIGN CHOICE). -/
def State.releaseSucc (s : State) (p : Nat) (r : Running) (i n : Nat) : State :=
  let k := s.keyOf p r
  let done (t : State) : State := t.toStep p r (100 + 10 * n + i + 1)
  match s.seqRead k (20 + i) (r.launch.tcb + 16 + 8 * i) 8 with
  | .wait t => t
  | .skip t => done t
  | .ok a t =>
    match t.seqModify k (30 + i) a { rd := true, w := true } fun v => if v / 2 ^ 32 = 0 then v else v - 2 ^ 32 with
    | .wait u => u
    | .skip u => done u
    | .ok old u =>
      let strip := (u.part p).first
      done (if old / 2 ^ 32 = 0 then u.pushThyme strip (thymeEvt 0 5 0 r.asid (16 * strip) 0) else u)

/-- The add of DONECTR, a CTRADD, whose overflow is found at the home (R133, R182, R398). -/
def State.addDone (s : State) (p : Nat) (r : Running) : State :=
  match s.seqAdd (s.keyOf p r) 7 r.launch.donectr 1 with
  | .wait t => t
  | .skip t => t.toStep p r 4
  | .ok _ t => t.toStep p r 4

/-- The steps of Complete: 0 FAILED, 1 STATE := 3, 2 NSUCC, 100 + 10 n + i successor i of n, 3 DONECTR, 4 the slot is
freed. -/
def State.completeStep (s : State) (p : Nat) (r : Running) : State :=
  let k := s.keyOf p r
  let tcb := r.launch.tcb
  match r.step with
  | 0 => if r.launch.mode && r.stopped && r.cursors.isEmpty then s.countTables p r
    else if tcb = 0 then s.toStep p r 3
    else seqThen (s.seqModify k 4 (tcb + 8) { w := true } fun o => o / 2 ^ 32 * 2 ^ 32 + r.failed % 2 ^ 32) fun t => t.toStep p r 1
  | 1 => seqThen (s.writeTcb k 5 tcb 3) fun t => t.toStep p r 2
  | 2 => match s.seqRead k 6 tcb 8 with
    | .wait t => t
    | .skip t => t.toStep p r 3
    | .ok v t => t.toStep p r (100 + 10 * min (v % 256) 6)
  | 3 => if r.launch.donectr = 0 then s.toStep p r 4 else s.addDone p r
  | 4 => s.modPart p fun x => { x with running := x.running.filter fun y => y.order ≠ r.order }
  | n => if (n - 100) % 10 < (n - 100) / 10 then s.releaseSucc p r ((n - 100) % 10) ((n - 100) / 10) else s.toStep p r 3

/-- LAUNCH_COMPLETE (R182; subject: p, launch): one step of Complete of a launch whose tasks have all ended. -/
def execLaunchComplete (s : State) : Result :=
  let p := s.run.subj.a
  match (s.part p).running[s.run.subj.b]? with
  | none => .next s
  | some r =>
    if !(s.part p).works || s.launchBusy p r || !(r.launch.secEnd ≤ r.sec || (r.emptySpace && r.lsecs.isEmpty)) then
      .next s
    else .next (s.completeStep p r)

end Sys2Proof.Machine
end

