-- ==== Sys2Proof/Machine/Moves.lean ====
section
/-! DEFINITION. Moves of blocks (R359 to R364): the rows BLKMOVE, MOVE_INSTALL, MOVE_SWEEP and MOVE_FREE. -/

namespace Sys2Proof.Machine

/-! ### The checks (R359, R360) -/

/-- The block moves only with its whole element: it is pinned, or its other half holds a block of its section (R359). -/
def State.needsPair (s : State) (p lsec : Nat) (e : PlEntry) : Bool := e.espin || s.paired p lsec e.place

/-- The target is a cluster of a strip that the partition keeps (R18, R360, R416). -/
def State.targetOk (s : State) (p cluster : Nat) : Bool :=
  (s.part p).hasCluster cluster && s.stripState (clusterStrip cluster) = 3

/-- The target of a move is free. -/
def State.targetFree (s : State) (p : Nat) (pair : Bool) (dst : Place) : Bool :=
  s.halfFree p dst.cluster dst.elem dst.half && (!pair || s.halfFree p dst.cluster dst.elem (1 - dst.half))

/-- The target's other half holds a block of the section (R359). -/
def State.besideOwn (s : State) (p lsec : Nat) (pair : Bool) (dst : Place) : Bool := !pair && s.paired p lsec dst

/-- STATUS of a requested move (R360): the lowest code that applies, 0 where the move may begin. -/
def State.moveStatus (s : State) (p lsec block : Nat) (pair : Bool) (dst : Place) : Nat :=
  let entry := (s.section? p lsec).bind fun x => x.places.get block
  let refused := s.besideOwn p lsec pair dst || match entry with
    | some e => e.valid && s.needsPair p lsec e ≠ pair
    | none => false
  if !s.targetOk p dst.cluster || !s.targetFree p pair dst then 1
  else if refused then 2
  else if (s.section? p lsec).isNone then 4
  else
    match entry with
    | some e => if e.valid then 0 else 3
    | none => 3

/-! ### The steps (R361) -/

/-- The blocks that a move takes: the one named, or both of its element. -/
def State.movedBlocks (s : State) (p : Nat) (m : Move) : List (Nat × Nat) :=
  if m.pair then (upto 2).filterMap fun h => s.occupant p m.src.cluster m.src.elem h else [(m.lsec, m.block)]

/-- Step 1: the entries are marked MOVING (R361). -/
def State.beginMove (s : State) (p lsec block : Nat) (pair : Bool) (dst : Place) (asked : Bool) : State :=
  match (s.section? p lsec).bind fun x => x.places.get block with
  | none => s
  | some e =>
    let m : Move := ⟨lsec, block, pair, e.place, if pair then { dst with half := e.place.half } else dst, 1, asked⟩
    let s := (s.movedBlocks p m).foldl (fun s b => s.modEntry p b.1 b.2 fun y => { y with moving := true }) s
    s.modPart p fun x => { x with move := some m }

/-- The target that BLKMOVE names. -/
def moveTarget (v : W64) : Place := ⟨bits v 40 30, bits v 29 26, bits v 25 25⟩

/-- The engine takes the request that stands in BLKMOVE (R360): the move begins, or its status is reported. -/
def State.askMove (s : State) (p : Nat) : State :=
  let v := (s.part p).blkmove
  let st := s.moveStatus p (bits v 58 53) (bits v 52 41) (bit v 59) (moveTarget v)
  if st ≠ 0 then s.modPart p fun y => { y with blkmove := setBits (setBits y.blkmove 63 63 0) 62 60 st }
  else (s.modPart p fun y => { y with blkmove := setBits y.blkmove 63 63 1 }).beginMove p (bits v 58 53) (bits v 52 41) (bit v 59)
    (moveTarget v) true

/-- The engine is free for a request: it runs no move, and its partition is not gated (R360, R413). -/
def State.engineFree (s : State) (p : Nat) : Bool := (s.part p).move.isNone && !(s.part p).gated

/-- A request that waits is taken once the engine is free (R360). -/
def State.pumpMove (s : State) (p : Nat) : State :=
  if s.engineFree p && bit (s.part p).blkmove 63 then s.askMove p else s

/-- BLKMOVE (R360): a write with GO = 1 starts a move or reports its status; a write while GO reads 1 is ignored. GO reads 1
while the request waits for an engine that moves a block for a resize, or for the end of a gate (log 61, DEDUCED). -/
def execBlkmove (p : Nat) (v : W64) (s : State) : Result :=
  let x := s.part p
  if !x.live || !bit v 63 || bit x.blkmove 63 then .next s
  else
    let t := s.modPart p fun y => { y with blkmove := setBits y.blkmove 59 25 (bits v 59 25) }
    if s.engineFree p then .next (t.askMove p)
    else .next (t.modPart p fun y => { y with blkmove := setBits y.blkmove 63 63 1 })

/-- Bytes and full-empty bits of one element store pass to another (R359). -/
def State.carryStore (s : State) (src dst : Nat × Nat) : State :=
  let a := (src.1 * 16 + src.2) * 4096
  let b := (dst.1 * 16 + dst.2) * 4096
  let cells := s.mem.es.filter fun c => a ≤ c.1 && c.1 < a + 4096
  let es := cells.foldl (fun m c => Memory.put m (c.1 - a + b) c.2) (s.mem.es.zero b 4096)
  let inside (base : Nat) (g : Level × Nat) : Bool := g.1 = .es && base / 16 ≤ g.2 && g.2 < base / 16 + 256
  let full := (s.mem.full.filter fun g => !inside b g)
    ++ (s.mem.full.filter fun g => inside a g).map fun g => (g.1, g.2 - a / 16 + b / 16)
  let at_ (o : Op) : Op :=
    if o.level = .es && o.cluster == src.1 && o.elem == src.2 then { o with cluster := dst.1, elem := dst.2 } else o
  let piece (x : Piece) : Piece :=
    if x.span.level = .es && x.span.cluster == src.1 && x.span.elem == src.2 then
      { x with span := { x.span with cluster := dst.1, elem := dst.2 } }
    else x
  { s with
    mem := { s.mem with es := es, full := full, marks := carryMarks s.mem.marks .es a b 4096 }
    work := { s.work with ops := s.work.ops.map at_, engs := s.work.engs.map fun e => { e with pieces := e.pieces.map piece } } }

/-- The tokens and ready sets of a block pass to its target in their order of arrival (R359, R361). -/
def State.carryTokens (s : State) (p lsec b : Nat) (dst : Place) : State :=
  let mine (n : Names) : Bool := n.part == p && n.lsec == lsec && !n.node && n.block == b
  let tok (t : Token) : Token := if mine t.dest then { t with at_ := some (dst.cluster, dst.elem) } else t
  let fire (f : Firing) : Firing :=
    if mine f.names then { f with cluster := dst.cluster, elem := dst.elem, half := dst.half } else f
  { s with fab := { s.fab with waiting := s.fab.waiting.map tok, ready := s.fab.ready.map fire } }

/-- One block stands at its target: records, tokens, entry, and the forwarding entry at the source (R361, step 3). -/
def State.installBlock (s : State) (p : Nat) (m : Move) (b : Nat × Nat) : State :=
  match (s.section? p b.1).bind fun x => x.places.get b.2 with
  | none => s
  | some e =>
    let dst : Place := if m.pair then { m.dst with half := e.place.half } else m.dst
    let slots := (upto 32).map fun k => s.slot e.place.cluster e.place.elem (32 * e.place.half + k)
    let s := (s.writeSlots e.place []).writeSlots dst slots
    let s := s.carryTokens p b.1 b.2 dst
    let fired := s.lastFired e.place
    let s := (s.forgetFired e.place).modElem dst.cluster dst.elem fun y => { y with last := y.last.set dst.half fired }
    let s := s.modEntry p b.1 b.2 fun y => { y with moving := false, place := dst }
    s.modPart p fun y => { y with forwards := y.forwards ++ [⟨b.1, b.2, e.place.cluster, e.place.elem⟩] }

/-- Steps 2 and 3: everything of the move arrives at the target (R359, R361). -/
def State.installMove (s : State) (p : Nat) (m : Move) : State :=
  let bs := s.movedBlocks p m
  let src := (m.src.cluster, m.src.elem)
  let dst := (m.dst.cluster, m.dst.elem)
  let s := bs.foldl (fun s b => s.carryKeeps p b.1 src dst) s
  let s := if m.pair then s.carryStore src dst else s
  let s := bs.foldl (fun s b => s.installBlock p m b) s
  let s := bs.foldl (fun s b => s.tellCaches p b.1 b.2 s.fab.pcache) s
  s.modPart p fun x => { x with move := some { m with step := 3 } }

/-- MOVE_INSTALL (R361; subject: p). -/
def execMoveInstall (s : State) : Result :=
  let p := s.run.subj.a
  match (s.part p).move with
  | some m => if m.step = 1 && !(s.part p).stopped then .next (s.installMove p m) else .next s
  | none => .next s

/-- The blocks that a move has taken from its source, by their forwarding entries. -/
def Part.forwarded (x : Part) (m : Move) : List (Nat × Nat) :=
  (x.forwards.filter fun f => f.cluster == m.src.cluster && f.elem == m.src.elem).map fun f => (f.lsec, f.block)

/-- MOVE_SWEEP (R361; subject: p): every cache has dropped its entries, and the sweep flits leave. -/
def execMoveSweep (s : State) : Result :=
  let p := s.run.subj.a
  match (s.part p).move with
  | some m =>
    if m.step ≠ 3 || (s.part p).stopped then .next s
    else
      let s := ((s.part p).forwarded m).foldl (fun s b => s.forgetPlace p b.1 b.2) s
      .next (s.modPart p fun x => { x with move := some { m with step := 4 } })
  | none => .next s

/-- A token resolved under an old entry is on its way to the source of a move. -/
def State.onOldRoute (s : State) (p : Nat) (m : Move) : Bool :=
  s.fab.net.any fun t => t.dest.part == p && !t.dest.node && t.at_ = some (m.src.cluster, m.src.elem)
    && ((s.part p).forwarded m).contains (t.dest.lsec, t.dest.block)

/-- The engine is done with a move: its forwarding entries are freed, and GO of a move that BLKMOVE asked for reads 0. -/
def Part.freeMove (x : Part) (m : Move) : Part :=
  { x with move := none,
           forwards := x.forwards.filter fun f => !(f.cluster == m.src.cluster && f.elem == m.src.elem),
           blkmove := if m.asked then setBits (setBits x.blkmove 63 63 0) 62 60 0 else x.blkmove }

/-- MOVE_FREE (R361; subject: p): the last sweep has arrived behind every such token; the engine takes the request that waits
(R360). -/
def execMoveFree (s : State) : Result :=
  let p := s.run.subj.a
  match (s.part p).move with
  | some m => if m.step ≠ 4 || (s.part p).stopped || s.onOldRoute p m then .next s else .next ((s.modPart p fun x => x.freeMove m).pumpMove p)
  | none => .next s

end Sys2Proof.Machine
end

