-- ==== Sys2Proof/Machine/Preempt.lean ====
section
/-! DEFINITION. Pre-emption (R131, R364, R386, R412 to R414): the gate, the rounds in which the fabric settles, what a
SAVE takes, and a RESTORE. A layout change gates and settles a partition with the same operations (R424, R431). -/

namespace Sys2Proof.Machine

/-! ### Settling (R413, step 2) -/

/-- A packet and its flits leave the fabric. -/
def State.dropPacket (s : State) (id : Nat) : State :=
  let keep (f : Flit) : Bool := f.packet ≠ id
  let clear (h : Hop) : Hop :=
    { h with shared := h.shared.filter keep, ev0 := h.ev0.filter keep, ev1 := h.ev1.filter keep }
  { s with fab := { s.fab with
      packets := s.fab.packets.filter fun x => x.id ≠ id
      inject := s.fab.inject.filter keep
      hops := s.fab.hops.map clear } }

/-- A token on its way is taken from its hop buffers and delivered; one that finds a full store stays for the save. -/
def State.land (s : State) (t : Token) : State :=
  ((s.dropPacket t.id).ejectToken t).arrive { t with flits := 0 }

/-- Tokens of a partition on their way. -/
def State.flying (s : State) (p : Nat) : List Token := s.fab.net.filter fun t => t.dest.part == p

/-- The flits of a message that is not to wait for its ring are ejected (R366, R381). -/
def State.landMsg (s : State) (m : Msg) : State :=
  let s := s.dropPacket m.id
  let c := (s.part m.op.names.part).alias_ (bits m.ring 26 16)
  { s.countEjected c m.flits with work := { s.work with
      msgs := modFirst (fun x => x.id == m.id) (fun x => { x with flits := 0 }) s.work.msgs } }

/-- A round: every token on its way is delivered, and every flit of a message that holds an entry or is over. -/
def State.settleRound (s : State) (p : Nat) : State :=
  let s := (s.flying p).foldl (fun s t => s.land t) s
  (s.work.msgs.filter fun m => m.op.names.part == p && m.state ≠ .flying && m.flits ≠ 0).foldl (fun s m => s.landMsg m) s

/-- An operation will go on without anything that the gate holds back: it is on its way, or it waits for a peer, the host
or an emulation, or its home can perform it now; a LEASE held back, an operation of a halted context, a parked wait and
a fault in place stay (R131, R413). A faulted one whose task must be aborted is not at rest. -/
def State.opMoves (s : State) (o : Op) : Bool :=
  match o.phase with
  | .sent => true
  | .parked => o.away || o.kind = .publish || (match o.params with
    | 8 :: _ => true
    | _ => false)
  | .turned => false
  | .faulted => !s.pastRegion o.names.part o.ctx
  | .buffered =>
    match s.ctx? o.names.part o.ctx with
    | none => false
    | some x =>
      if o.kind = .lease || (o.chained && x.halted) || !x.takes o then false
      else if o.chained && x.chain.stale o then true
      else decide (s.turn o ≠ s)

/-- A piece of an engine operation can still be performed, or its completion add be made once a flush has ended; one that waits on a
fault stays, as does an add behind what is stalled (R153, R171, R414). -/
def State.engMoves (s : State) (e : EngOp) : Bool :=
  (e.pieces.any fun x => !x.got && !s.pieceWaits e x.id && (x.out || !x.write || s.mayWrite e x))
    || (e.ctr.isSome && s.mayAdd { e with scope := if e.scope = 3 then 2 else e.scope })
    || e.flush.isSome || (e.kind = .swrite && e.phase = 8)

/-- A flit of a packet can still cross its next hop, at the latest once every credit is back (R366, R372). -/
def State.flitMoves (s : State) (id : Nat) : Bool :=
  s.leaders.any fun f => f.packet == id && match s.nextHop f with
    | some h => match s.fab.hops[h]? with
      | some hop => (s.crossing { hop with owed := 0, owed0 := false, owed1 := false } f).isSome
      | none => false
    | none => false

/-- A message will go on: one that waits for space in its ring stays, as does one that is stuck on its way behind such (R386). -/
def State.msgMoves (s : State) (m : Msg) : Bool :=
  match m.state with
  | .queued => false
  | .reserved => false
  | .flying => if s.headArrived m then !s.msgWaits m.id else s.flitMoves m.id
  | .acked => true
  | .nacked _ => true

/-- Something of the partition moves yet, beside the tokens that a round delivers. -/
def State.unsettled (s : State) (p : Nat) : Bool :=
  (s.part p).move.isSome
    || (s.mem.leases.any fun e => e.part == p)
    || (s.work.ops.any fun o => o.names.part == p && s.opMoves o)
    || (s.work.engs.any fun e => e.names.part == p && s.engMoves e)
    || s.work.msgs.any fun m => m.op.names.part == p && s.msgMoves m

/-- Waiting LDFEs and CTRWAIT registrations are withdrawn, unperformed (R62, R136, R413). -/
def Op.withdrawn (p : Nat) (o : Op) : Op :=
  let wait : Bool := o.phase = .turned || (o.phase = .parked && match o.kind with
    | .ldfe _ => true
    | .ctrWait => !o.away
    | _ => false)
  if o.names.part == p && wait then { o with phase := .buffered, params := [] } else o

/-- Messages that wait for ring space return to their send slots (R386). -/
def State.recallMsgs (s : State) (p : Nat) : State :=
  (s.work.msgs.filter fun m => m.op.names.part == p && m.state = .flying).foldl (fun s m =>
    (s.dropPacket m.id).setMsg m.id fun x => { x with state := .queued, flits := 0 }) s

/-- Settling ends: what is parked is withdrawn (R413). -/
def State.withdraw (s : State) (p : Nat) : State :=
  let s : State := { s with work := { s.work with ops := s.work.ops.map (Op.withdrawn p) } }
  s.recallMsgs p

/-! ### The gate -/

/-- The partition is gated (R413, step 1). -/
def State.gate (s : State) (p : Nat) : State := s.modPart p fun x => { x with gated := true, saving := true }

/-- The gate ends: the SCDONEs and FRESUMEs that were held take effect, stream ports take input again, and held
messages are injected; a BLKMOVE that waited is taken (R360, R386, R413, R414). -/
def State.ungate (s : State) (p : Nat) : State :=
  let x := s.part p
  let s := s.modPart p fun y => { y with gated := false, saving := false, scheld := [] }
  let s := x.scheld.foldl (fun s r => s.answerSyscall p r.1 r.2.1 r.2.2) s
  (((s.pumpFresumes p).pumpAll p).injectMsgs).pumpMove p

/-! ### Save and restore (R413, step 3) -/

/-- Cells of the element stores of a partition's clusters. -/
def Part.esCell (x : Part) (c : Host.Cell) : Bool := x.hasCluster (c.1 / 65536)

/-- A full-empty bit of one of them. -/
def Part.esFull (x : Part) (g : Level × Nat) : Bool := g.1 = .es && x.hasCluster (g.2 / 4096)

/-- What a SAVE takes of a partition (R413, R414). -/
def State.saved (s : State) (p : Nat) : Saved :=
  let x := s.part p
  { ctxs := s.ctxs.filter fun c => c.part == p
    waiting := s.fab.waiting.filter fun t => t.dest.part == p
    net := s.flying p
    held := s.fab.held.filter fun t => t.dest.part == p
    ready := s.fab.ready.filter fun f => f.names.part == p
    ops := s.work.ops.filter fun o => o.names.part == p
    gathers := s.work.gathers.filter fun g => g.names.part == p
    sections := s.ldr.sections.filter fun y => y.part == p
    channels := s.ldr.channels.filter fun y => y.part == p
    rings := s.work.rings.filter fun r => r.part == p
    msgs := s.work.msgs.filter fun m => m.op.names.part == p
    slots := s.fab.slots.filter fun y => x.hasCluster y.1.1
    es := s.mem.es.filter x.esCell
    full := s.mem.full.filter x.esFull
    engs := s.work.engs.filter fun e => e.names.part == p
    waits := s.work.waits.filter fun w => w.part == p
    running := x.running
    tasks := x.tasks
    marks := s.mem.marks.filter fun m => x.esFull m.1
    bad := false }

/-- The machine without what a SAVE took. -/
def State.unload (s : State) (p : Nat) : State :=
  let x := s.part p
  let s : State :=
    { s with
      ctxs := s.ctxs.filter fun c => c.part ≠ p
      fab := { s.fab with
        waiting := s.fab.waiting.filter fun t => t.dest.part ≠ p
        net := s.fab.net.filter fun t => t.dest.part ≠ p
        held := s.fab.held.filter fun t => t.dest.part ≠ p
        ready := s.fab.ready.filter fun f => f.names.part ≠ p
        slots := s.fab.slots.filter fun y => !x.hasCluster y.1.1 }
      work := { s.work with
        ops := s.work.ops.filter fun o => o.names.part ≠ p
        gathers := s.work.gathers.filter fun g => g.names.part ≠ p
        rings := s.work.rings.filter fun r => r.part ≠ p
        msgs := s.work.msgs.filter fun m => m.op.names.part ≠ p
        engs := s.work.engs.filter fun e => e.names.part ≠ p
        waits := s.work.waits.filter fun w => w.part ≠ p }
      ldr := { s.ldr with
        sections := s.ldr.sections.filter fun y => y.part ≠ p
        channels := s.ldr.channels.filter fun y => y.part ≠ p }
      mem := { s.mem with
        es := s.mem.es.filter fun c => !x.esCell c
        full := s.mem.full.filter fun g => !x.esFull g
        marks := s.mem.marks.filter fun m => !x.esFull m.1 } }
  s.modPart p fun y => { y with running := [], tasks := [] }

/-- An error has struck the shadow storage (R403): the tables are written again from the code objects, and the record names
the partition's lowest strip. -/
def State.restoreSpoiled (s : State) (p : Nat) : State :=
  let st := (s.part p).first
  let s := s.raise ⟨{ Names.zero with part := p }, 0, 0, 0, 0, 128 * st, st⟩ { cause := 0x0B, sub := 4 }
  (s.ldr.sections.filter fun x => x.part == p).foldl (fun s x =>
    (x.places.filter fun e => e.1 < 4096 && e.2.valid).foldl (fun s e => s.writeSlots e.2.place (x.image.slotsOf e.1)) s) s

/-- Saved state is written back; the withdrawn operations stand in the buffers, where they are presented again (R413). -/
def State.reload (s : State) (p : Nat) (v : Saved) : State :=
  let s : State :=
    { s with
      ctxs := s.ctxs ++ v.ctxs
      fab := { s.fab with
        waiting := s.fab.waiting ++ v.waiting
        net := s.fab.net ++ v.net
        held := s.fab.held ++ v.held
        ready := s.fab.ready ++ v.ready
        slots := s.fab.slots ++ v.slots }
      work := { s.work with
        ops := s.work.ops ++ v.ops
        gathers := s.work.gathers ++ v.gathers
        rings := s.work.rings ++ v.rings
        msgs := s.work.msgs ++ v.msgs
        engs := s.work.engs ++ v.engs
        waits := s.work.waits ++ v.waits }
      ldr := { s.ldr with
        sections := s.ldr.sections ++ v.sections
        channels := s.ldr.channels ++ v.channels }
      mem := { s.mem with
        es := v.es.foldl (fun m c => Memory.put m c.1 c.2) s.mem.es
        full := s.mem.full ++ v.full
        marks := s.mem.marks ++ v.marks } }
  let s := s.modPart p fun y => { y with running := y.running ++ v.running, tasks := y.tasks ++ v.tasks }
  if v.bad then s.restoreSpoiled p else s

/-! ### PCTL (R412) -/

/-- The operation of PCTL ends with a status. -/
def State.endPctl (s : State) (p st : Nat) : State :=
  s.modPart p fun x => { x with saving := false, pctl := setBits (setBits x.pctl 63 63 0) 60 58 st }

/-- The bank that PCTL names. -/
def Part.bank (x : Part) : Option Saved := if bit x.pctl 57 then x.bank1 else x.bank0

/-- The partition with that bank written. -/
def Part.setBank (x : Part) (v : Option Saved) : Part :=
  if bit x.pctl 57 then { x with bank1 := v } else { x with bank0 := v }

/-- A layout change of the partition holds a PCTL back (R430). -/
def State.layoutHolds (s : State) (p : Nat) : Bool := match s.dev.layout with
  | some l => l.part == p
  | none => false

/-- A write of PCTL with GO = 1 sets the writable fields, and GO reads 1. -/
def State.takePctl (s : State) (p : Nat) (v : W64) : State :=
  s.modPart p fun x =>
    let w := setBits (setBits (setBits x.pctl 62 61 (bits v 62 61)) 57 57 (bits v 57 57)) 47 12 (bits v 47 12)
    { x with pctl := setBits w 63 63 1 }

/-- The operation that stands in PCTL starts (R412, R413): a SAVE gates the partition, refused where it is saved already; a RESTORE
writes the bank back, refused where that holds nothing or the partition runs. -/
def State.startPctl (s : State) (p : Nat) : State :=
  let x := s.part p
  match bits x.pctl 62 61, x.bank with
  | 1, none => if x.gated then s.endPctl p 1 else s.gate p
  | 2, some b =>
    if !x.gated then s.endPctl p 1
    else (((s.modPart p fun y => y.setBank none).reload p b).endPctl p 0).ungate p
  | _, _ => s.endPctl p 1

/-- PCTL_SAVE (R412, R413): refused where the partition is saved already; else it is gated, at once or when the change of
its layout ends (log 64, DEDUCED). -/
def execPctlSave (p : Nat) (v : W64) (s : State) : Result :=
  let x := s.part p
  if !x.live || !bit v 63 || bits v 62 61 ≠ 1 || bit x.pctl 63 then .next s
  else
    let s := s.takePctl p v
    .next (if s.layoutHolds p then s else s.startPctl p)

/-- Lines of a save that go to SAVEPA, with what they hold there: neither is laid down, and both are free (R413). -/
def State.spill (s : State) (pa : Nat) : Nat → State
  | 0 => s
  | n + 1 => (s.writePa (pa + 64 * n) (s.readPa (hostBase + 64 * n) 64)).spill pa n

/-- The strip in which a waiting token stands: that of its block, or of its node's unit. -/
def State.tokenStrip (s : State) (t : Token) : Option Nat :=
  if t.dest.node then (s.channel? t.dest).map fun c => clusterStrip c.cluster
  else (s.entry? t.dest).map fun e => clusterStrip e.place.cluster

/-- Bytes of a strip's islands that a SAVE takes (R315, R335): eight accumulators of 16 KiB each, and the packets of the operand
slots. -/
def State.islandBytes (s : State) (p st : Nat) : Nat :=
  ((s.ldr.channels.filter fun c => c.part == p && c.island && clusterStrip c.cluster == st).map fun c =>
    8 * 16384 + (c.oslots.map List.length).foldl (· + ·) 0).foldl (· + ·) 0

/-- Bytes of a strip's waiting tokens (R367): ten, and the payload of each. -/
def State.tokenBytes (s : State) (p st : Nat) : Nat :=
  ((s.fab.waiting.filter fun t => t.dest.part == p && s.tokenStrip t = some st).map fun t =>
    10 + (t.fmt.width * t.data.length + 7) / 8).foldl (· + ·) 0

/-- Bytes of a strip that a SAVE takes, as far as the rules give their sizes (R315, R359, R361, R367, R413): 20 flits for the
records of a block, 2 for the keep registers of a live context on each element of its section, the element store of an ESPIN
block, its islands, its waiting tokens. -/
def State.savedBytes (s : State) (p st : Nat) : Nat :=
  s.islandBytes p st + s.tokenBytes p st + ((s.ldr.sections.filter fun x => x.part == p).map fun x =>
    let here := (x.places.filter fun e => e.1 < 4096 && e.2.valid && clusterStrip e.2.place.cluster == st).map fun e => e.2
    let live := (s.ctxs.filter fun c => c.part == p && c.lsec == x.lsec && c.live).length
    let elems := (here.map fun e => (e.place.cluster, e.place.elem)).eraseDups
    let pinned := ((here.filter fun e => e.espin).map fun e => (e.place.cluster, e.place.elem)).eraseDups
    640 * here.length + 64 * live * elems.length + 4096 * pinned.length).foldl (· + ·) 0

/-- Lines that certainly do not fit in the 5 MiB of a strip's bank (R412, R413). -/
def State.spillLeast (s : State) (p : Nat) : Nat :=
  ((upto (s.part p).count).map fun k => (s.savedBytes p ((s.part p).first + k) - 5 * 2 ^ 20 + 63) / 64).foldl (· + ·) 0

/-- The save is complete: its bank holds the partition, whose state beyond 5 MiB in a strip has gone to SAVEPA: what
the rules give a size at least, and as much more as the parts take that they give none (log 88, DESIGN CHOICE). -/
def State.endSave (s : State) (p : Nat) : State :=
  let v := s.saved p
  let least := s.spillLeast p
  let s := (s.unload p).modPart p fun x => x.setBank (some v)
  let (k, s) := s.draw (2 ^ 20)
  let n := least + k
  let s := s.spill (bits (s.part p).pctl 47 12 * 4096) n
  s.endPctl p (if n = 0 then 0 else 2)

/-- SAVE_SETTLE_ROUND for a layout change: settling ends in a handover (R424), or a save for a DEFRAG (R431). -/
def Layout.owns (l : Layout) (p : Nat) : Bool := l.part == p && (l.state = 4 || l.state = 8)

/-- PCTL_RESTORE (R412, R413): refused where its bank holds nothing, or where the partition runs; held while the layout of the
partition changes (R430). -/
def execPctlRestore (p : Nat) (v : W64) (s : State) : Result :=
  let x := s.part p
  if !x.live || !bit v 63 || bits v 62 61 ≠ 2 || bit x.pctl 63 then .next s
  else
    let s := s.takePctl p v
    .next (if s.layoutHolds p then s else s.startPctl p)

end Sys2Proof.Machine
end

