-- ==== Sys2Proof/Machine/Layout.lean ====
section
/-! DEFINITION. Changes of the layout (R415 to R432): requests and their checks, the journal, growing and shrinking with
their rehash window, defragmentation, and the rows of Sage's steps. -/

namespace Sys2Proof.Machine

/-! ### Strips and the journal (R416 to R421) -/

/-- A strip's state word is written. -/
def State.setStrip (s : State) (st state part : Nat) : State :=
  { s with dev := { s.dev with strips := setAt s.dev.strips st (stripWord state part) } }

/-- Several strips take a state. -/
def State.setStrips (s : State) (sts : List Nat) (state part : Nat) : State :=
  sts.foldl (fun s st => s.setStrip st state part) s

/-- Strips enter DIRTY, their counts of frames zero (R417, R428). -/
def State.dirty (s : State) (sts : List Nat) : State :=
  sts.foldl (fun s st => { s with dev := { s.dev with
    strips := setAt s.dev.strips st (stripWord 1 0), frames := setAt s.dev.frames st 0 } }) s

/-- The strips of a run. -/
def runStrips (f n : Nat) : List Nat := (upto n).map fun i => f + i

/-- Strips of the new run that the old one lacks, and of the old one that the new one lacks. -/
def Layout.joining (l : Layout) : List Nat := (runStrips l.newF l.newN).filter fun x => !(runStrips l.oldF l.oldN).contains x
def Layout.leaving (l : Layout) : List Nat := (runStrips l.oldF l.oldN).filter fun x => !(runStrips l.newF l.newN).contains x

/-- PHASE of a journal record (R420). -/
def phPrepared : Nat := 0
def phCommitted : Nat := 1
def phDone : Nat := 2

/-- A journal record is written, the last 64 kept, with its Thyme event at the partition's control core (R420, R452). -/
def State.journal (s : State) (l : Layout) (phase state : Nat) : State :=
  let r : JRec := ⟨l.gen, l.op, l.part, l.oldF, l.oldN, l.newF, l.newN, phase, state⟩
  let all := s.dev.journal ++ [r]
  let s : State := { s with dev := { s.dev with journal := all.drop (all.length - 64) } }
  let strip := (s.part l.part).first
  s.pushThyme strip (thymeEvt 0 3 0 0 (16 * strip) (w64 l.gen))

/-- STATE of LAYOUTSTAT. -/
def State.setLayState (s : State) (n : Nat) : State :=
  { s with dev := { s.dev with layoutstat := setBits s.dev.layoutstat 55 52 n } }

/-- The change enters a state, with its PREPARED record (R421, R422). -/
def State.enterState (s : State) (l : Layout) (n : Nat) : State × Layout :=
  let l : Layout := { l with state := n }
  let s := (s.journal l phPrepared n).setLayState n
  ({ s with dev := { s.dev with layout := some l } }, l)

/-! ### Requests (R418, R419) -/

/-- A cluster's scratch keeps a SHRINK from taking its strip (SCRATCH of R419). -/
def State.clusterHeld (s : State) (p st : Nat) : Bool :=
  let here (c : Nat) : Bool := clusterStrip c == st
  (s.mem.regions.any fun r => match r.bank with
    | .cs c => here c
    | .ss _ => false)
    || (s.work.rings.any fun r => here r.cluster)
    || s.work.ops.any fun o => o.names.part == p && o.kind = .ctrWait && o.phase = .parked && !o.level.cached
        && match o.spot s with
          | .cs c _ => here c
          | .es e _ => here (e / 16)
          | .ss _ _ => false

/-- A logical slice's scratch keeps a SHRINK from dropping it. -/
def State.sliceHeld (s : State) (p sl : Nat) : Bool :=
  (s.mem.regions.any fun r => r.bank = .ss sl)
    || s.work.ops.any fun o => o.names.part == p && o.phase = .parked && o.level = .ss && match o.spot s with
      | .ss x _ => x == sl
      | _ => false

/-- STATUS of a request (R419): the first check that fails, 0 where all pass. A run across the die bridge while it is down ends with
STRIPS (R142; log 6, DESIGN CHOICE). -/
def State.layoutStatus (s : State) (v : W64) : Nat :=
  let op := bits v 62 60
  let p := bits v 59 52
  let f := bits v 51 48
  let l := bits v 47 44
  let x := s.part p
  let new := runStrips f (l + 1 - f)
  let old := runStrips x.first x.count
  let leave := old.filter fun y => !new.contains y
  let join := new.filter fun y => !old.contains y
  let n := l + 1 - f
  let map := x.slicemap
  let L' := map.length - 12 * leave.length
  let frame (st : Nat) : W64 := at! s.dev.frames st 0
  let busy := s.dev.layout.isSome || (p < 16 && (bit x.pctl 63 || x.gated || x.bank0.isSome || x.bank1.isSome || x.cfgBusy))
  let shape := op = 0 || 6 ≤ op || 16 ≤ p || !x.live || l < f
    || (op = 1 && !(leave.isEmpty && !join.isEmpty))
    || (op = 2 && !(join.isEmpty && !leave.isEmpty))
    || (op = 3 && (n ≠ x.count || new.any fun y => old.contains y))
  let strips := (new.any fun y => s.stripState y = 6) || (op ≤ 3 && !s.dev.bridge && new.contains 7 && new.contains 8)
    || (op = 1 && join.any fun y => s.stripState y ≠ 0)
    || (op = 4 && new.any fun y => s.stripState y ≠ 0)
    || ((op = 3 || op = 5) && new.any fun y => s.stripState y ≠ 2 || s.stripPart y ≠ p)
  let pinned := (op = 2 || op = 3) && leave.any fun y => bits (frame y) 31 0 ≠ 0
  let scratch := op = 2 && ((leave.any fun y => s.clusterHeld p y) || (map.drop L').any fun y => s.sliceHeld p y)
  let chans (isl : Bool) : Nat := (s.ldr.channels.filter fun c => c.part == p && c.island == isl).length
  let units := op = 2 && (4 * n < chans true || 32 * n < chans false)
  let mapped := (op = 3 && old.any fun y => bits (frame y) 63 32 ≠ 0) || (op = 5 && new.any fun y => bits (frame y) 63 32 ≠ 0)
  if busy then 1
  else if bits v 31 0 ≠ bits s.dev.layoutstat 31 0 then 2
  else if shape then 3
  else if strips then 4
  else if pinned then 5
  else if scratch then 6
  else if units then 7
  else if mapped then 8
  else 0

/-- LAYOUTREQ and LAYOUTSTAT as a request ends (R418, R419). -/
def State.report (s : State) (v : W64) (st : Nat) : State :=
  { s with dev := { s.dev with
      layoutreq := w64 (bits v 62 44 * 2 ^ 44 + bits v 31 0)
      layoutstat := setBits (setBits s.dev.layoutstat 63 52 (st * 16)) 51 44 (bits v 59 52) } }

/-- A partition starts a PCTL or a change of MODE that the layout change has held back (R69, R430). -/
def State.afterLayout (s : State) (p : Nat) : State :=
  let x := s.part p
  let s := match x.modeWait with
    | some m => if s.partFree p then s.changeMode p m else s
    | none => s
  if bit x.pctl 63 && !x.saving then s.startPctl p else s

/-- The change has ended: DONE, STATUS 0, GO reads 0 (R418, R419, R422). -/
def State.endLayout (s : State) (l : Layout) : State :=
  let s := s.journal l phDone 0
  let s : State := { s with dev := { s.dev with
    layout := none
    layoutreq := setBits s.dev.layoutreq 63 63 0
    layoutstat := setBits s.dev.layoutstat 63 52 0 } }
  (upto 16).foldl (fun s p => s.afterLayout p) s

/-- A request passes its checks: GEN rises and PREPARED is written (R419, R421; log 65, DEDUCED). -/
def State.accept (s : State) (v : W64) : State × Layout :=
  let p := bits v 59 52
  let x := s.part p
  let g := (bits s.dev.layoutstat 31 0 + 1) % 2 ^ 32
  let l : Layout := ⟨bits v 62 60, p, x.first, x.count, bits v 51 48, bits v 47 44 + 1 - bits v 51 48, g, 1, [], none⟩
  let s : State := { s with dev := { s.dev with
    layoutreq := w64 (bits v 63 44 * 2 ^ 44 + bits v 31 0)
    layoutstat := setBits (setBits s.dev.layoutstat 51 44 p) 31 0 g } }
  s.enterState l 1

/-- The request has been written already, and Sage has no record of it yet (R418, R421). -/
def State.requested (s : State) (v : W64) : Bool :=
  s.dev.layout.isNone && s.dev.layoutreq = w64 (bits v 63 44 * 2 ^ 44 + bits v 31 0)

/-- Partitions that a warm reset has kept wait for the end of reduced service, and no change of the layout goes on before (log 108,
DESIGN CHOICE). -/
def State.layoutWaits (s : State) : Bool := !s.dev.kept.isEmpty

/-- A request of an OP: refused under its status, ignored while another runs (R418), else accepted. Sage takes it up as it is
written, or later where REGISTER_WRITE has written it (R421; log 65, DEDUCED); not before boot has ended reduced service (log 108, DESIGN
CHOICE). -/
def State.request_ (s : State) (op : Nat) (v : W64) (go : State × Layout → State) : State :=
  if !bit v 63 || bits v 62 60 ≠ op || (bit s.dev.layoutreq 63 && !s.requested v) || s.layoutWaits then s
  else
    let st := s.layoutStatus v
    if st ≠ 0 then s.report v st else go (s.accept v)

/-- The name that a DEFRAG gave the old run ends with the next change (R432). -/
def State.forgetAka (s : State) (p : Nat) : State := s.modPart p fun x => { x with aka := none }

/-- RESERVE (R431). -/
def execReserve (v : W64) (s : State) : Result :=
  .next (s.request_ 4 v fun x => (x.1.setStrips (runStrips x.2.newF x.2.newN) 2 x.2.part).endLayout x.2)

/-- RELEASE (R431). -/
def execRelease (v : W64) (s : State) : Result :=
  .next (s.request_ 5 v fun x => (x.1.setStrips (runStrips x.2.newF x.2.newN) 0 0).endLayout x.2)

/-- GROW (R422): the joining strips enter JOINING, and their SCRUB begins. -/
def execGrow (v : W64) (s : State) : Result :=
  .next (s.request_ 1 v fun x =>
    let s := (x.1.forgetAka x.2.part).setStrips x.2.joining 4 x.2.part
    (s.enterState { x.2 with left := x.2.joining } 2).1)

/-- SHRINK (R422, R424): the leaving strips enter FENCED, and MIGRATE begins under the gate. -/
def execShrink (v : W64) (s : State) : Result :=
  .next (s.request_ 2 v fun x =>
    let s := (x.1.forgetAka x.2.part).setStrips x.2.leaving 5 x.2.part
    (s.enterState x.2 4).1.gate x.2.part)

/-- DEFRAG (R431): the SAVE begins under the gate. -/
def execDefrag (v : W64) (s : State) : Result :=
  .next (s.request_ 3 v fun x => ((x.1.forgetAka x.2.part).enterState x.2 8).1.gate x.2.part)

/-! ### The rehash window (R425, R426) -/

/-- A line's homes under the new map and the old one; the new one alone outside a window. -/
def Part.newHome (x : Part) (line seed : Nat) : Nat := mapHome x.mode x.slicemap (64 * line) seed
def Part.oldHome (x : Part) (line seed : Nat) : Nat := mapHome x.mode (x.oldmap.getD x.slicemap) (64 * line) seed

/-- Requests and fills that wait at an old home without the line go to the home that now serves it (R425). -/
def State.reroute (s : State) (p : Nat) : State :=
  let x := s.part p
  let go (r : HReq) : HReq :=
    if r.part == p && r.kind ≠ .putS && r.kind ≠ .putO && r.slice == x.oldHome r.line r.seed then
      { r with slice := s.homeOf p r.asid r.line r.seed }
    else r
  { s with mem := { s.mem with
      reqs := s.mem.reqs.map go
      txns := s.mem.txns.map fun t => if t.wait = .host then { t with req := go t.req } else t } }

/-- Data, full-empty and guard bits and regions of one slice's scratch pass to another (R426, R431). -/
def State.moveSs (s : State) (src dst : Nat) : State :=
  let a := src * 2 ^ 19
  let b := dst * 2 ^ 19
  let cells := s.mem.ss.filter fun c => a ≤ c.1 && c.1 < a + 2 ^ 19
  let ss := cells.foldl (fun m c => Memory.put m (c.1 - a + b) c.2) (s.mem.ss.zero b (2 ^ 19))
  let inside (k : Nat) (g : Level × Nat) : Bool := g.1 = .ss && k / 16 ≤ g.2 && g.2 < k / 16 + 2 ^ 15
  let carry (l : List (Level × Nat)) : List (Level × Nat) :=
    (l.filter fun g => !inside b g) ++ (l.filter fun g => inside a g).map fun g => (g.1, g.2 - a / 16 + b / 16)
  { s with mem := { s.mem with
      ss := ss
      full := carry s.mem.full
      guards := carry s.mem.guards
      marks := carryMarks s.mem.marks .ss a b (2 ^ 19)
      regions := s.mem.regions.map fun r => if r.bank = .ss src then { r with bank := .ss dst } else r } }

/-- The slice map after a SHRINK, and the slices whose scratch is copied: source and target (R426). -/
def Layout.shrunkMap (l : Layout) (m : List Nat) : List Nat × List (Nat × Nat) :=
  let gone (sl : Nat) : Bool := l.leaving.contains (sliceStrip sl)
  let n := m.length - 12 * l.leaving.length
  let srcs := (m.take n).filter gone
  let dsts := (m.drop n).filter fun x => !gone x
  let ps := List.zip srcs dsts
  ((m.take n).map fun x => ((ps.find? fun q => q.1 == x).map fun q => q.2).getD x, ps)

/-- Every ASID of a partition (R42). -/
def allOf (p : Nat) : XRange := ⟨p, true, 0, 0, 2 ^ 52⟩

/-- REHASH begins under a new map (R425, R426). -/
def State.startRehash (s : State) (l : Layout) (m : List Nat) (ss : List (Nat × Nat)) : State :=
  let p := l.part
  let s := ss.foldl (fun s q => s.moveSs q.1 q.2) s
  let s := (s.dropEntries (allOf p)).purgeReplicas (allOf p)
  let s := s.modPart p fun x => { x with oldmap := some x.slicemap, slicemap := m }
  ((s.reroute p).enterState l 5).1

/-- The line's home has room for it, its victim gone; none where the victim cannot leave yet. -/
def State.roomAt (s : State) (p sl asid line : Nat) : Option State :=
  match s.victim p sl asid line with
  | none => some s
  | some v =>
    if v.dir ≠ .di && !s.lineFree v.asid v.line then none
    else
      let s := if v.dir ≠ .di then s.recallL1 p v.asid v.line else s
      let d := match s.l2? sl v.asid v.line with
        | some y => y
        | none => v
      let s := s.dropL2 sl v.asid v.line
      some (if d.dirty then s.writeBack p sl v.asid v.line d.data d.bad else s)

/-- A line moves from its old home to its new one, as one transaction (R425). -/
def State.moveLine (s : State) (p o : Nat) (x : L2Line) : State :=
  let n := (s.part p).newHome x.line x.seed
  if n = o || (s.mem.txns.any fun t => t.req.asid == x.asid && t.req.line == x.line) then s
  else
    match s.roomAt p n x.asid x.line with
    | none => s
    | some t =>
      match t.l2? o x.asid x.line with
      | none => t
      | some y =>
        let same (a l : Nat) : Bool := a == x.asid && l == x.line
        { t with
          mem := { t.mem with
            l2 := t.mem.l2.map fun z => if z = y then { y with slice := n } else z
            l1 := t.mem.l1.map fun z => if same z.asid z.line && z.home == o then { z with home := n } else z
            reqs := t.mem.reqs.map fun r => if same r.asid r.line && r.slice == o then { r with slice := n } else r } }

/-- Registrations on counters whose line the old home does not hold go to the new home (R425). -/
def State.moveRegs (s : State) (p o : Nat) : State :=
  let x := s.part p
  let go (q : Op) : Op :=
    if q.names.part == p && q.kind = .ctrWait && q.phase = .parked && q.params = [3, o] then
      match s.ctx? p q.ctx with
      | some c =>
        let n := x.newHome (q.ia / 64) c.seed
        if n ≠ o && !s.holds o c.asid (q.ia / 64) then { q with params := [3, n] } else q
      | none => q
    else q
  { s with work := { s.work with ops := s.work.ops.map go } }

/-- REHASH_WALK (R425; subject: slice): the walker of an old home moves every line that it may. -/
def execRehashWalk (s : State) : Result :=
  let o := s.run.subj.a
  match s.dev.layout with
  | none => .next s
  | some l =>
    if l.state ≠ 5 || s.layoutWaits || !(s.part l.part).hasStrip (sliceStrip o) then .next s
    else
      let lines := s.mem.l2.filter fun x => x.slice == o && !x.replica
      .next ((lines.foldl (fun s x => s.moveLine l.part o x) s).moveRegs l.part o)

/-- Every walker has finished. -/
def State.walked (s : State) (p : Nat) : Bool :=
  let x := s.part p
  let olds := x.oldmap.getD []
  (s.mem.l2.all fun y => y.replica || !olds.contains y.slice || x.newHome y.line y.seed == y.slice)
    && s.work.ops.all fun q => !(q.names.part == p && q.kind = .ctrWait && q.phase = .parked && match q.params with
      | [3, o] => olds.contains o && match s.ctx? p q.ctx with
        | some c => x.newHome (q.ia / 64) c.seed ≠ o
        | none => false
      | _ => false)

/-! ### Joining (R422, R429) -/

/-- SCRUB of a strip: its SRAMs, tables, caches and units as new (R429). -/
def State.scrubStrip (s : State) (st : Nat) : State :=
  let inC (c : Nat) : Bool := clusterStrip c == st
  let z := 128 * st
  let full (g : Level × Nat) : Bool := match g.1 with
    | .es => inC (g.2 / 4096)
    | .cs => inC (g.2 / 2 ^ 15)
    | .ss => sliceStrip (g.2 / 2 ^ 15) == st
    | _ => false
  { s with
    fab := { s.fab with slots := s.fab.slots.filter fun y => !inC y.1.1 }
    mem := { s.mem with
      es := s.mem.es.zero (z * 65536) (128 * 65536)
      cs := s.mem.cs.zero (z * 2 ^ 19) (128 * 2 ^ 19)
      ss := s.mem.ss.zero (16 * st * 2 ^ 19) (16 * 2 ^ 19)
      full := s.mem.full.filter fun g => !full g
      guards := s.mem.guards.filter fun g => !full g
      marks := s.mem.marks.filter fun m => !full m.1
      regions := s.mem.regions.filter fun r => match r.bank with
        | .cs c => !inC c
        | .ss sl => sliceStrip sl ≠ st
      clways := s.mem.clways.filter fun y => !inC y.1
      l1 := s.mem.l1.filter fun y => !inC y.cluster
      l2 := s.mem.l2.filter fun y => sliceStrip y.slice ≠ st
      xlat := s.mem.xlat.filter fun y => sliceStrip y.slice ≠ st }
    work := { s.work with rings := s.work.rings.filter fun r => !inC r.cluster }
    ldr := { s.ldr with channels := s.ldr.channels.filter fun c => !inC c.cluster } }

/-- JOIN, and the entry of REHASH (R422, R425). -/
def State.join (s : State) (l : Layout) : State :=
  let p := l.part
  let (s, l) : State × Layout := s.enterState l 3
  let s := (s.setStrips l.joining 3 p).modPart p fun x => { x with first := l.newF, count := l.newN }
  s.startRehash l ((s.part p).slicemap ++ l.joining.flatMap fun st => stripSlices st 1) []

/-- STRIP_SCRUB_DONE (R422, R429; subject: strip): when every joining strip is scrubbed, they join and REHASH begins. -/
def execStripScrubDone (s : State) : Result :=
  let st := s.run.subj.a
  match s.dev.layout with
  | none => .next s
  | some l =>
    if l.state ≠ 2 || s.layoutWaits || !l.left.contains st then .next s
    else
      let s := s.scrubStrip st
      let l : Layout := { l with left := l.left.filter fun x => x ≠ st }
      if l.left.isEmpty then .next (s.join l)
      else .next { s with dev := { s.dev with layout := some l } }

/-- STRIP_ZERO_DONE (R428; subject: strip): a DIRTY strip, zeroed, enters FREE. -/
def execStripZeroDone (s : State) : Result :=
  let st := s.run.subj.a
  if s.stripState st ≠ 1 || s.layoutWaits then .next s
  else
    let s := s.scrubStrip st
    let s := ({ s with mem := { s.mem with hbm := s.mem.hbm.zero (stripWindow * st) stripWindow } } : State).cover .mem
      (stripWindow * st) stripWindow
    .next (s.setStrip st 0 0)

/-! ### Leaving (R422, R424) -/

/-- A cluster stands in a fenced strip. -/
def State.fenced (s : State) (c : Nat) : Bool := s.stripState (clusterStrip c) = 5

/-- A context homed in a fenced cluster is handed to its partner (R424). -/
def State.handOne (s : State) (p : Nat) (x : Ctx) : State :=
  let h := (s.partner p x.chain.home).getD (inRun (s.loadRun p) x.chain.home)
  s.modCtx p x.id fun y => { y with chain := { y.chain with home := h } }

/-- The handover of R424: homes, and messages in the send slots of fenced clusters. -/
def State.handover (s : State) (p : Nat) : State :=
  let s := (s.ctxs.filter fun x => x.part == p && s.fenced x.chain.home).foldl (fun s x => s.handOne p x) s
  let run := s.loadRun p
  { s with work := { s.work with msgs := s.work.msgs.map fun m =>
      if m.op.names.part == p then { m with from_ := inRun run m.from_ } else m } }

/-- A free place for a block, or for the blocks of an element, outside the fenced strips (R361, R423). -/
def State.migrateTo (s : State) (p lsec : Nat) (pair : Bool) : Option Place :=
  let run := s.loadRun p
  ((upto (84 * run.2)).map (clusterOfQ run.1)).findSome? fun c => (upto 16).findSome? fun e =>
    (upto 2).findSome? fun h =>
      let d : Place := ⟨c, e, h⟩
      if s.targetFree p pair d && !s.besideOwn p lsec pair d then some d else none

/-- A channel and its state pass to another unit of its kind (R335, R339). -/
def State.moveChannel (s : State) (c : Channel) (unit : Nat) : State :=
  let d : Channel := { c with unit := unit }
  let mine (n : Names) : Bool := n.part == c.part && n.lsec == c.lsec && n.node && n.block == c.chan
  let s : State :=
    { s with
      ldr := { s.ldr with channels := modFirst (fun x => x = c) (fun _ => d) s.ldr.channels }
      fab := { s.fab with ready := s.fab.ready.map fun f => if mine f.names then { f with cluster := d.cluster } else f }
      work := { s.work with
        engs := s.work.engs.map fun e => if mine e.names then { e with cluster := d.cluster } else e
        ops := s.work.ops.map fun o => if mine o.names then { o with cluster := d.cluster } else o
        gathers := s.work.gathers.map fun g => if mine g.names then { g with cluster := d.cluster } else g } }
  (s.modEntry c.part c.lsec (4096 + c.chan) fun _ => d.entry).forgetPlace c.part c.lsec (4096 + c.chan)

/-- Something of the partition is still in a fenced cluster. -/
def State.remains (s : State) (p : Nat) : Bool :=
  (s.mem.l1.any fun x => s.fenced x.cluster)
    || (s.ctxs.any fun x => x.part == p && s.fenced x.chain.home)
    || (s.work.engs.any fun e => e.names.part == p && s.fenced e.cluster)
    || (s.work.ops.any fun o => o.names.part == p && s.fenced o.cluster && !o.level.cached && o.kind ≠ .mrecv)
    || (s.work.rings.any fun r => s.fenced r.cluster)
    || s.fab.net.any fun t => t.dest.part == p && match t.at_ with
      | some a => s.fenced a.1
      | none => false

/-- Results that come from operations of a fenced cluster leave from the cluster that stands for it. -/
def State.resite (s : State) (p : Nat) : State :=
  let run := s.loadRun p
  { s with work := { s.work with
      ops := s.work.ops.map fun o => if o.names.part == p then { o with cluster := inRun run o.cluster } else o
      gathers := s.work.gathers.map fun g => if g.names.part == p then { g with cluster := inRun run g.cluster } else g } }

/-- MIGRATE goes on by one step (R422): a block, a channel, the L1 lines; then REHASH begins. -/
def State.migrate (s : State) (l : Layout) : State :=
  let p := l.part
  if (s.part p).saving || (s.part p).move.isSome then s
  else
    let block := (s.ldr.sections.filter fun x => x.part == p).findSome? fun x =>
      (x.places.find? fun e => e.1 < 4096 && !e.2.out && s.fenced e.2.place.cluster).map fun e => (x.lsec, e.1, e.2)
    match block with
    | some (lsec, b, e) =>
      let pair := s.needsPair p lsec e
      match if e.moving then none else s.migrateTo p lsec pair with
      | some d => s.beginMove p lsec b pair d false
      | none => s.evictOn p lsec b e true
    | none =>
      match s.ldr.channels.find? fun c => c.part == p && s.fenced c.cluster with
      | some c =>
        match s.freeUnits p (!c.island) with
        | u :: _ => s.moveChannel c u
        | [] => s
      | none =>
        let lines := s.mem.l1.filter fun x => s.fenced x.cluster && !x.putting && x.st ≠ .i
        if !lines.isEmpty then lines.foldl (fun s x => s.evictL1 p x) s
        else if s.remains p then s
        else
          let (m, ss) := l.shrunkMap (s.part p).slicemap
          (s.resite p).startRehash l m ss

/-- COMMIT of a GROW or a SHRINK (R422, R423). -/
def State.commit (s : State) (l : Layout) : State :=
  let p := l.part
  let l : Layout := { l with state := 7 }
  let s := ((s.journal l phCommitted 7).setLayState 7).modPart p fun x =>
    { x with oldmap := none, first := l.newF, count := l.newN }
  (s.dirty l.leaving).endLayout l

/-! ### Defragmentation (R431, R432) -/

/-- The counterpart of a cluster (R432). -/
def Layout.clusterTo (l : Layout) (c : Nat) : Nat :=
  if l.oldF ≤ clusterStrip c && clusterStrip c < l.oldF + l.oldN then c - 128 * l.oldF + 128 * l.newF else c

/-- A token, a firing and a place at their counterparts. -/
def Layout.token (l : Layout) (t : Token) : Token := { t with at_ := t.at_.map fun a => (l.clusterTo a.1, a.2) }
def Layout.firing (l : Layout) (f : Firing) : Firing :=
  { f with cluster := l.clusterTo f.cluster, a := f.a.map l.token, b := f.b.map l.token, c := f.c.map l.token }
def Layout.place (l : Layout) (p : Place) : Place := { p with cluster := l.clusterTo p.cluster }

/-- A context at its counterpart: its home and its keep registers. -/
def Layout.ctx (l : Layout) (x : Ctx) : Ctx :=
  { x with chain := { x.chain with home := l.clusterTo x.chain.home },
           resume := x.resume.map fun h => { h with fr := l.firing h.fr },
           keeps := x.keeps.map fun k => ((l.clusterTo k.1.1, k.1.2), k.2),
           badKeeps := x.badKeeps.map fun k => (l.clusterTo k.1, k.2) }

/-- An operation and an engine operation at their counterparts. -/
def Layout.opTo (l : Layout) (o : Op) : Op := { o with cluster := l.clusterTo o.cluster }
def Layout.eng (l : Layout) (e : EngOp) : EngOp :=
  { e with cluster := l.clusterTo e.cluster,
           params := if e.kind = .copym then modAt e.params 0 l.clusterTo else e.params,
           pieces := e.pieces.map fun x => { x with span := { x.span with cluster := l.clusterTo x.span.cluster } } }

/-- A channel's unit at its counterpart. -/
def Layout.unitTo (l : Layout) (c : Channel) : Channel :=
  let n := if c.island then 4 else 32
  { c with unit := c.unit - n * l.oldF + n * l.newF }

/-- A section's placement entries at their counterparts. -/
def Layout.sectionTo (l : Layout) (x : Section) : Section :=
  { x with base := x.base + l.newF - l.oldF,
           table := x.places.map fun e => (e.1, ({ e.2 with place := l.place e.2.place } : PlEntry).word) }

/-- What the SAVE took, at the counterparts (R432). -/
def Layout.saveTo (l : Layout) (v : Saved) : Saved :=
  { v with
    ctxs := v.ctxs.map l.ctx
    waiting := v.waiting.map l.token
    net := v.net.map l.token
    ready := v.ready.map l.firing
    ops := v.ops.map l.opTo
    gathers := v.gathers.map fun g => { g with cluster := l.clusterTo g.cluster }
    sections := v.sections.map l.sectionTo
    channels := v.channels.map l.unitTo
    rings := v.rings.map fun r => { r with cluster := l.clusterTo r.cluster }
    msgs := v.msgs.map fun m => { m with from_ := l.clusterTo m.from_, op := l.opTo m.op }
    slots := v.slots.map fun y => ((l.clusterTo y.1.1, y.1.2), y.2)
    es := v.es.map fun c => (l.clusterTo (c.1 / 65536) * 65536 + c.1 % 65536, c.2)
    full := v.full.map fun g => (g.1, l.clusterTo (g.2 / 4096) * 4096 + g.2 % 4096)
    marks := v.marks.map fun m => ((m.1.1, l.clusterTo (m.1.2 / 4096) * 4096 + m.1.2 % 4096), m.2)
    engs := v.engs.map l.eng
    running := v.running.map fun r => { r with cursors := r.cursors.map fun c => { c with cluster := l.clusterTo c.cluster } } }

/-- Scratch of one cluster of the old run passes to its counterpart, with its bits, regions and ways. -/
def State.moveCs (s : State) (src dst : Nat) : State :=
  let a := src * 2 ^ 19
  let b := dst * 2 ^ 19
  let cells := s.mem.cs.filter fun c => a ≤ c.1 && c.1 < a + 2 ^ 19
  let cs := cells.foldl (fun m c => Memory.put m (c.1 - a + b) c.2) (s.mem.cs.zero b (2 ^ 19))
  let inside (k : Nat) (g : Level × Nat) : Bool := g.1 = .cs && k / 16 ≤ g.2 && g.2 < k / 16 + 2 ^ 15
  let carry (l : List (Level × Nat)) : List (Level × Nat) :=
    (l.filter fun g => !inside b g) ++ (l.filter fun g => inside a g).map fun g => (g.1, g.2 - a / 16 + b / 16)
  { s with mem := { s.mem with
      cs := cs
      full := carry s.mem.full
      guards := carry s.mem.guards
      marks := carryMarks s.mem.marks .cs a b (2 ^ 19)
      clways := s.mem.clways.set dst (s.mask src)
      regions := s.mem.regions.map fun r => if r.bank = .cs src then { r with bank := .cs dst } else r } }

/-- COPY (R431): cluster scratch goes to the counterparts, the scratch of logical slice `i` to the slice that entry `i` of the new
SLICEMAP names, and every cached line of the partition is written back. -/
def State.defragCopy (s : State) (l : Layout) : State :=
  let x := s.part l.part
  let s := x.clusters.foldl (fun s c => s.moveCs c (l.clusterTo c)) s
  let s := (List.zip x.slicemap (stripSlices l.newF l.newN)).foldl (fun s q => s.moveSs q.1 q.2) s
  let s := (s.partLines l.part).foldl (fun s y => s.flushLine l.part y.1 y.2) s
  { s with mem := { s.mem with
      reqs := s.mem.reqs.filter fun r => r.part ≠ l.part
      txns := s.mem.txns.filter fun t => t.req.part ≠ l.part
      cmsgs := s.mem.cmsgs.filter fun m => !x.hasStrip (sliceStrip m.slice) } }

/-- COMMITTED (R431, R432): the new strips become MEMBER, the old ones FENCED. -/
def State.defragCommit (s : State) (l : Layout) : State :=
  let p := l.part
  let l : Layout := { l with state := 10 }
  let s := ((s.journal l phCommitted 10).setLayState 10).dropEntries (allOf p)
  let s := (s.setStrips (runStrips l.newF l.newN) 3 p).setStrips (runStrips l.oldF l.oldN) 5 p
  let s := s.modPart p fun x =>
    { x with first := l.newF, slicemap := stripSlices l.newF l.newN, aka := some (l.oldF, l.newF, l.oldN), forwards := [] }
  { s with
    dev := { s.dev with layout := some l }
    fab := { s.fab with
      pcache := s.fab.pcache.filter fun e => e.1.part ≠ p } }

/-- RESTORE of a DEFRAG (R431). -/
def State.defragRestore (s : State) (l : Layout) : State :=
  let (s, l) : State × Layout := s.enterState l 11
  match l.saved with
  | none => s
  | some v =>
    let s := (s.reload l.part (l.saveTo v)).ungate l.part
    { s with dev := { s.dev with layout := some { l with saved := none } } }

/-! ### Sage's steps -/

/-- LAYOUT_COMMIT (R422, R431): the layout change goes on by a step, where the state that it is in allows it: a block or
channel leaves in MIGRATE; REHASH ends once the walkers are done; SPLICE ends once MAPPED is 0; a DEFRAG is copied,
committed, restored and done. -/
def execLayoutCommit (s : State) : Result :=
  match s.dev.layout with
  | none => .next s
  | some l =>
    if s.layoutWaits then .next s else
    match l.state with
    | 4 => .next (s.migrate l)
    | 5 =>
      if !s.walked l.part then .next s
      else if l.op = 1 then .next (s.commit l)
      else .next (s.enterState l 6).1
    | 6 => if l.leaving.all fun st => bits (at! s.dev.frames st 0) 63 32 = 0 then .next (s.commit l) else .next s
    | 9 => .next ((s.defragCopy l).defragCommit l)
    | 10 => .next (s.defragRestore l)
    | 11 => .next ((s.dirty (runStrips l.oldF l.oldN)).endLayout { l with state := 7 })
    | _ => .next s

/-- Settling ends (R413, R424, R431): a handover, the save of a DEFRAG, or that of a PCTL. -/
def State.settled (s : State) (p : Nat) : State :=
  let s := s.withdraw p
  match s.dev.layout with
  | some l =>
    if !l.owns p then s.endSave p
    else if l.state = 4 then (s.handover p).ungate p
    else
      let l : Layout := { l with saved := some (s.saved p) }
      let s := (s.unload p).modPart p fun x => { x with saving := false }
      (s.enterState l 9).1
  | none => s.endSave p

/-- SAVE_SETTLE_ROUND (R413; subject: p): everything in flight is delivered; the first round in which nothing moves ends
settling. The rounds begin once a move in progress has reached its step 5 (R364). -/
def execSaveSettleRound (s : State) : Result :=
  let p := s.run.subj.a
  if !(s.part p).saving || (s.part p).move.isSome then .next s
  else
    let t := s.settleRound p
    if decide (t ≠ s) || t.unsettled p then .next t else .next (t.settled p)

/-- SAGE_WATCHDOG_RECOVERY (R421): a request without a record ends as ABORTED; a change rolls forward from the start of
its state, whose work is repeated. -/
def execSageWatchdogRecovery (s : State) : Result :=
  match s.dev.layout with
  | some l =>
    if l.state = 2 then .next { s with dev := { s.dev with layout := some { l with left := l.joining } } } else .next s
  | none =>
    if bit s.dev.layoutreq 63 then
      .next { s with dev := { s.dev with
        layoutreq := setBits s.dev.layoutreq 63 63 0
        layoutstat := setBits s.dev.layoutstat 63 56 9 } }
    else .next s

end Sys2Proof.Machine
end

