-- ==== Sys2Proof/Machine/Boot.lean ====
section
/-! DEFINITION. Resets, boot and reduced service (R444 to R447), the loss of the die bridge (R142), and the writes of registers
(R409, R449, R450). -/

namespace Sys2Proof.Machine

/-! ### Resets (R444) -/

/-- Boot stops at step 1: neither image passes its check (R445). -/
def State.noImage (s : State) : State :=
  { s with
    dev := { s.dev with mbstat := 0x0F, reduced := none }
    parts := s.parts.map fun x => { x with live := false } }

/-- The strips' Reset values (R416): FUSED where DEVID says that a strip is absent, else FREE. -/
def resetStrips (d : W64) : List W64 := (upto 16).map fun st => stripWord (if stripPresent d st then 0 else 6) 0

/-- COLD_RESET (R444, R445): every field takes its Reset value, DEVID that of its fuses and LSDCFG what the board record of the
flash holds (R143), memory reads as nothing has written it, and boot reaches the end of step 3; without a valid image it stops at
step 1. What the model counts and is to do goes on (log 3, DESIGN CHOICE). -/
def execColdReset (imageA imageB : Bool) (s : State) : Result :=
  let r := State.cold s.dev.devid s.dev.board
  let t : State := { r with run := { r.run with agenda := s.run.agenda, steps := s.run.steps, fresh := s.run.fresh } }
  if imageA || imageB then .next { t with dev := { t.dev with lsdcfg := lsdcfgFields s.dev.board } }
  else
    let u := t.noImage
    .next { u with dev := { u.dev with strips := resetStrips s.dev.devid } }

/-- A partition as a warm reset leaves it: its run, its map and the registers that are kept. -/
def Part.warm (x : Part) : Part :=
  { Part.free with
    live := x.live
    first := x.first
    count := x.count
    slicemap := x.slicemap
    asidbase := x.asidbase
    trapcfg := x.trapcfg
    trapptr := x.trapptr
    qcfg := x.qcfg.map fun w => setBits w 8 4 0 }

/-- The device as a warm reset leaves it (R444): what is kept, and the rest as after a cold reset. GO of LAYOUTREQ reads 1 while a
change has not ended (R418). -/
def Dev.warm (d : Dev) (b : Nat) : Dev :=
  { Dev.cold d.devid d.board with
    clock := d.clock
    strips := d.strips
    frames := d.frames
    layoutstat := d.layoutstat
    layoutreq := if d.layout.isSome then w64 (2 ^ 63) else 0
    layout := d.layout
    journal := d.journal
    lsdcfg := d.lsdcfg
    pwrcap := d.pwrcap
    thyme := d.thyme
    reduced := some b }

/-- A journalled change rolls forward from the start of the state recorded (R421, R444): a SCRUB is repeated; the fabric
that a DEFRAG saves or has saved is empty. -/
def State.rollForward (s : State) : State :=
  match s.dev.layout with
  | none => s
  | some l =>
    let l : Layout := { l with left := if l.state = 2 then l.joining else [], saved := (some (s.saved l.part)).filter fun _ => 8 ≤ l.state }
    let s : State := { s with dev := { s.dev with layout := some l } }
    if l.state = 8 then s.gate l.part
    else if 9 ≤ l.state then s.modPart l.part fun x => { x with gated := true }
    else s

/-- The partition with the run and the slice map of another record. -/
def Part.runOf (x y : Part) : Part :=
  { x with live := y.live, first := y.first, count := y.count, slicemap := y.slicemap }

/-- What a warm reset keeps of the partitions: of what runs, or of what a reset before it has kept, with the registers of
partition 0 as they are now. -/
def State.keptParts (s : State) : List Part :=
  if s.dev.kept.isEmpty then s.parts.map Part.warm
  else (upto 16).map fun p => let k := at! s.dev.kept p Part.free; if p = 0 then (s.part 0).warm.runOf k else k

/-- The machine as a warm reset leaves it, before boot: HBM, scratch and its full-empty bits under the kept CLWAYS (R57,
R60; log 26, DEDUCED), the tables of the elements and their counters stay. The partitions wait for the end of reduced service. -/
def State.warm (s : State) : State :=
  let r := State.cold s.dev.devid s.dev.board
  { r with
    dev := { s.dev.warm (bootStripOf s.dev.devid) with kept := s.keptParts }
    parts := s.keptParts.map fun x => { x with live := false }
    fab := { r.fab with slots := s.fab.slots, ctrs := s.fab.ctrs,
                        elems := s.fab.elems.map fun e => (e.1, { e.2 with window := [], yield_ := none, last := [] }) }
    mem := { r.mem with hbm := s.mem.hbm, es := s.mem.es, cs := s.mem.cs, ss := s.mem.ss, full := s.mem.full,
                        clways := s.mem.clways, marks := s.mem.marks }
    run := { r.run with agenda := s.run.agenda, steps := s.run.steps, fresh := s.run.fresh } }

/-- Strip b forms partition 0 alone (R446); the strip itself becomes a MEMBER where it was FREE (log 109, DEDUCED). -/
def State.bootOn (s : State) (b : Nat) : State :=
  let s := if s.stripState b = 0 then s.setStrips [b] 3 0 else s
  s.modPart 0 fun x => x.formed b 1

/-- A warm reset and its boot up to the end of step 3 (R444, R445, R452): its Thyme event is written at the strip that boots. -/
def State.warmBoot (s : State) (image : Bool) : State :=
  let b := bootStripOf s.dev.devid
  let t := s.warm
  if image then (t.bootOn b).pushThyme b (thymeEvt 0 6 0 0 (16 * b) 0) else t.noImage

/-- WARM_RESET (R444, R445, R452). -/
def execWarmReset (imageA imageB : Bool) (s : State) : Result := .next (s.warmBoot (imageA || imageB))

/-! ### The end of reduced service (R447) -/

/-- A run can be formed: present strips, all FREE, for a number that is free; across the die bridge only while it is up (R26,
R142, R415). -/
def State.canForm (s : State) (p f n : Nat) : Bool :=
  p < 16 && !(s.part p).live && n ≠ 0 && f + n ≤ 16 && (s.dev.bridge || !(f ≤ 7 && 8 < f + n)) &&
    (runStrips f n).all fun st => s.stripState st = 0

/-- The partition monitor forms a partition (R70, R445; log 63, DESIGN CHOICE). -/
def State.form (s : State) (x : Nat × Nat × Nat) : State :=
  if s.canForm x.1 x.2.1 x.2.2 then
    (s.setStrips (runStrips x.2.1 x.2.2) 3 x.1).modPart x.1 fun y => y.formed x.2.1 x.2.2
  else s

/-- The 6 MiB of reduced service are copied to HBM at the same PAs. -/
def State.copyWindow (s : State) (b : Nat) : State :=
  let base := stripWindow * b
  let t : State := { s with mem := { s.mem with
      hbm := (s.windowBytes b).foldl (fun m c => Memory.put m c.1 c.2) (s.mem.hbm.zero base 0x600000) } }
  (t.cover .mem base 0x600000).spoil .mem base (s.awaiting .ss (16 * b * 2 ^ 19) 0x600000)

/-- Partition 0 after reduced service: on the run that it had before the reset, or dissolved (R444, R446; log 109, DEDUCED). -/
def State.resumeZero (s : State) (b : Nat) (k : Part) : State :=
  let own := s.stripState b = 3 && bits (at! s.dev.strips b 0) 3 0 = 0
  if k.live && k.first ≤ b && b < k.first + k.count then s.modPart 0 fun x => x.runOf k
  else if !k.live && own then s
  else (s.unload 0).modPart 0 fun x => x.warm.runOf k

/-- The partitions that a warm reset has kept run again on their strips, and a journalled change goes on (R421, R444). -/
def State.resumeParts (s : State) (b : Nat) : State :=
  if s.dev.kept.isEmpty then s
  else
    let s := s.resumeZero b (at! s.dev.kept 0 Part.free)
    let s : State := { s with parts := (upto 16).map fun p => if p = 0 then s.part 0 else at! s.dev.kept p Part.free }
    ({ s with dev := { s.dev with kept := [] } } : State).rollForward

/-- The scale-up link may be trained: the device is in a domain, and its number is in it (R143; log 66, DESIGN CHOICE). -/
def Dev.mayTrain (d : Dev) : Bool := bits d.lsdcfg 13 8 ≠ 0 && bits d.lsdcfg 5 0 ≤ bits d.lsdcfg 13 8

/-- REDUCED_SERVICE_END (R445, R447): the window goes to HBM, the clock rises, the links are trained, and the partition
monitor forms the partitions of its plan. -/
def execReducedServiceEnd (plan : List (Nat × Nat × Nat)) (linkTrained : Bool) (s : State) : Result :=
  match s.dev.reduced with
  | none => .next s
  | some b =>
    let s := s.copyWindow b
    let s : State := { s with dev := { s.dev with
      reduced := none
      fast := true
      mbstat := 1
      lsoUp := true
      lsdUp := linkTrained && s.dev.mayTrain } }
    let s := s.resumeParts b
    .next (plan.foldl (fun s x => s.form x) s)

/-! ### The die bridge (R142) -/

/-- The partition lies on both dies. -/
def Part.spans (x : Part) : Bool := x.hasStrip 7 && x.hasStrip 8

/-- DIE_BRIDGE_DOWN (R142, R452): every partition across the bridge stops, and Thyme records the event at strip 7 (log 6, DESIGN CHOICE). -/
def execDieBridgeDown (s : State) : Result :=
  if !s.dev.bridge then .next s
  else
    let s : State :=
      { s with
        dev := { s.dev with bridge := false }
        parts := s.parts.map fun x => if x.spans then { x with stopped := true } else x }
    .next (s.pushThyme 7 (thymeEvt 0 4 0 0 (16 * 7) 0))

/-! ### Writes of registers (R8, R185, R408, R409, R436, R449) -/

/-- A write of RESETCTL (R449): its one value raises a warm reset. -/
def State.writeReset (s : State) (v : W64) : State :=
  if v = 0x5741524D then s.warmBoot (Config.imageValid s.run.steps) else s

/-- A write of a register that has no row of its own takes effect as its fields say, where its writer has the right. A field of a
slot changes between firings. -/
def State.writeNamed (s : State) (p : Nat) (w : Agent) (r : RegRef) (v : W64) : State :=
  let x := s.part p
  match r with
  | .sel n =>
    if x.hasAgent w && (writeRight n).agentHas w && !startsMore n v then s.modPart p fun y => y.setReg n v else s
  | .ctxSel c n =>
    if x.hasAgent w && (writeRight n).agentHas w && (n < 8 || (0x10 ≤ n && n < 0x20)) then
      s.modCtx p c fun y => y.setReg x.leasecap n v
    else s
  | .cluster _ => s
  | .table c el i k => if x.tableRight w c el i k then s.setSlot c el i ((s.slot c el i).setField k v) else s
  | .mailbox o => match w with
    | .monitor _ => if !s.coreThere w then s else if o = 8 then s.writeReset v else s.writeMailbox o v
    | .hostPf => if o = 8 then s.writeReset v else s
    | _ => s
  | .handle i k => match w with
    | .monitor _ =>
      if x.hasAgent w && i < 65536 && k < 4 then
        s.modPart p fun y => { y with handles := y.handles.set i ((y.handles.getD i ⟨0, 0, 0, 0⟩).setWord k v) }
      else s
    | _ => s
  | .address _ => s

/-- REGISTER_WRITE (R8, R185, R187, R408, R409, R436, R449, R450): by name or by address; where no register lies, it is ignored. -/
def execRegisterWrite (p : Nat) (w : Agent) (r : RegRef) (v : W64) (s : State) : Result := match namedRegister r w with
  | some n => .next (s.writeNamed p w n v)
  | none => .next s

end Sys2Proof.Machine
end

