-- ==== Sys2Proof/Machine/Dataflow.lean ====
section
/-! DEFINITION. The dataflow instructions that move and tag tokens (R215 to R224). -/

namespace Sys2Proof.Machine

/-- MOV: operand A unchanged (R215). The payload of a trigger on SB is not read, but where both name ports their formats must
agree (R190; log 35, DEDUCED). -/
def execMov (f : Fields) (s : State) : Result :=
  .next (s.compute f false (keepIf anyFmt) fun fr fm =>
    match fr.port f.sb.toNat with
    | some t => if t.fmt = fm then (s.source fr f.sa.toNat fm).map fun a => (a, fNone) else none
    | none => (s.source fr f.sa.toNat fm).map fun a => (a, fNone))

/-- STEER: the elements of A in pieces, each on the path that its predicate chooses (R216). -/
def execSteer (f : Fields) (s : State) : Result :=
  .next (s.each1 f (keepIf anyFmt) fun _ a => exactly a)

/-- The one decision of GATE: some element of the predicate is true (R217). -/
def gateLink (da : Nat) (any : Bool) : Nat :=
  match da with
  | 4 => if any then 1 else 2
  | 5 => if any then 1 else 0
  | _ => if any then 0 else 1

/-- GATE: the whole token on one path (R217). -/
def execGate (f : Fields) (s : State) : Result :=
  let fr := s.run.cur
  let fm := fr.fmtOf f
  if poisonedTok fr.c then .next (s.sendTo fr f.ta.toNat f.da.toNat (fr.poisonRes f fm))
  else
    match fr.pred with
    | none =>
      if fr.poisonOf f true then .next (s.sendFailed fr f fm) else .next (s.mismatch fr f fm)
    | some ps =>
      let link := gateLink f.da.toNat (ps.any id)
      if fr.poisonOf f true then .next (s.sendTo fr f.ta.toNat link (fr.poisonRes f fm))
      else
        match s.source fr f.sa.toNat fm with
        | some a => .next (s.sendTo fr f.ta.toNat link (fr.res f fm a))
        | none => .next (s.mismatch fr f fm)

/-- The token on which a MERGE fires, on either port (R218). -/
def mergeTok (fr : Firing) : Option Token := match fr.a with
  | some t => some t
  | none => fr.b

/-- MERGE: the token of either port, unchanged (R218). -/
def execMerge (f : Fields) (s : State) : Result :=
  let fr := s.run.cur
  match mergeTok fr with
  | some t => .next (s.sendTo fr f.ta.toNat f.da.toNat ⟨t.wave, t.stop, t.fmt, t.poison, t.data⟩)
  | none => .next s

/-- SELECT: element by element A or B, by the predicate on port C (R219). -/
def execSelect (f : Fields) (s : State) : Result :=
  .next (s.compute f true (keepIf anyFmt) fun fr fm =>
    match s.source fr f.sa.toNat fm, s.source fr f.sb.toNat fm, fr.pred with
    | some a, some b, some p =>
      some ((upto fr.run).map fun j => if at! p j false then at! a j 0 else at! b j 0, fNone)
    | _, _, _ => none)

/-- An amount, wave or level that SB gives when it is no port: a constant's integer value, or the
literal or keep register (R221, R222, R224). -/
def State.amount (s : State) (fr : Firing) (sel : Nat) : Nat :=
  if sel < 0x40 then (constInt sel).toNat
  else if sel = 0x43 then fr.slot.lit.toNat
  else (s.keepOf fr (sel - 0x48)).toNat

/-- Operand A leaves at wave `w`, or poisoned with its wave unchanged and the WAVE trap where `bad` or
where its last wave would exceed 2^32 - 1 (R221, R222). A result that A or the predicate poisons leaves at its own wave `w`
(R195); one whose amount is poisoned, at the firing's. -/
def State.moveWave (s : State) (fr : Firing) (f : Fields) (fm : Fmt) (w : Nat) (bad : Bool) : State :=
  let past := bad || 2 ^ 32 - 1 < w + fr.run - 1
  if fr.poisonOf f false then
    s.sendPoison fr f { fr.poisonRes f fm with wave := if past || poisonedTok (fr.port f.sb.toNat) then fr.wave else w }
  else if !fr.predOk f then s.mismatch fr f fm
  else
    match s.source fr f.sa.toNat fm with
    | none => s.mismatch fr f fm
    | some a =>
      let r := fr.res f fm a
      if past then s.badTag fr f 4 r else s.sendTo fr f.ta.toNat f.da.toNat { r with wave := w }

/-- WADV: the wave rises by an amount (R221). -/
def execWadv (f : Fields) (s : State) : Result :=
  let fr := s.run.cur
  .next (s.moveWave fr f (fr.fmtOf f) (fr.wave + s.amount fr f.sb.toNat % 2 ^ 32) false)

/-- The wave that WSET sets: element 0 of a port of I32 or I64, read as unsigned, or a number; none for
a port of another format (R222). -/
def State.wsetWave (s : State) (fr : Firing) (sel : Nat) : Option Nat :=
  match fr.port sel with
  | some t => if t.fmt = .i32 || t.fmt = .i64 then some (at! t.data 0 0).toNat else none
  | none => some (s.amount fr sel)

/-- WSET: the wave becomes an absolute value, never a lower one (R222). -/
def execWset (f : Fields) (s : State) : Result :=
  let fr := s.run.cur
  let fm := fr.fmtOf f
  match s.wsetWave fr f.sb.toNat with
  | some v => .next (s.moveWave fr f fm v (v < fr.wave))
  | none =>
    if fr.poisonOf f false then .next (s.sendPoison fr f (fr.poisonRes f fm))
    else .next (s.mismatch fr f fm)

/-- The word that ITAG sends for element `j` (R223). -/
def itagWord (stop code run ctx wave j : Nat) : Nat :=
  stop * 2 ^ 56 + code * 2 ^ 52 + (run - 1) * 2 ^ 47 + ctx * 2 ^ 32 + (wave + j)

/-- ITAG: a description of each element's tag (R223). -/
def execItag (f : Fields) (s : State) : Result :=
  .next (s.compute f false (fun _ => some .i64) fun fr fm =>
    let stop := match fr.port f.sa.toNat with
      | some t => t.stop
      | none => 0
    some ((upto fr.run).map (itagWord stop fm.code fr.run fr.ctx fr.wave), fNone))

/-- SINK: the token is consumed and nothing is sent; no trap for a poisoned one (R220). -/
def execSink (_ : Fields) (s : State) : Result := .next s

/-- STOP: the stop level becomes L; above 7 the token leaves poisoned with the STOPLVL trap (R224). -/
def execStop (f : Fields) (s : State) : Result :=
  let fr := s.run.cur
  let fm := fr.fmtOf f
  let l := s.amount fr f.sb.toNat
  if fr.poisonOf f false then
    .next (s.sendPoison fr f { fr.poisonRes f fm with stop := if l ≤ 7 then l else fr.stopOf f })
  else if !fr.predOk f then .next (s.mismatch fr f fm)
  else
    match s.source fr f.sa.toNat fm with
    | none => .next (s.mismatch fr f fm)
    | some a =>
      let r := fr.res f fm a
      if l ≤ 7 then .next (s.sendTo fr f.ta.toNat f.da.toNat { r with stop := l })
      else .next (s.badTag fr f 5 r)

end Sys2Proof.Machine
end

