-- ==== Sys2Proof/Machine/Compare.lean ====
section
/-! DEFINITION. Compares, minima, addresses, work identifiers and widths, group 0x3 (R237 to R240). -/

namespace Sys2Proof.Machine

/-- A predicate as an element of format P. -/
def predBit (b : Bool) : Nat × FpFlags := exactly (if b then 1 else 0)

/-- The result of a compare is P (R213). -/
def toP (ok : Fmt → Bool) (f : Fmt) : Option Fmt := if ok f then some .p else none

/-- CEQ (R237). -/
def execCeq (f : Fields) (s : State) : Result := .next (s.each2 f (toP intAOrP) fun _ a b => predBit (a == b))
/-- CNE (R237). -/
def execCne (f : Fields) (s : State) : Result := .next (s.each2 f (toP intAOrP) fun _ a b => predBit (a != b))
/-- CLT: signed less-than (R237). -/
def execClt (f : Fields) (s : State) : Result :=
  .next (s.each2 f (toP Fmt.isInt) fun fm a b => predBit (toS fm.width a < toS fm.width b))
/-- CLE: signed less-or-equal (R237). -/
def execCle (f : Fields) (s : State) : Result :=
  .next (s.each2 f (toP Fmt.isInt) fun fm a b => predBit (toS fm.width a ≤ toS fm.width b))
/-- CLTN: unsigned less-than (R237). -/
def execCltn (f : Fields) (s : State) : Result := .next (s.each2 f (toP intOrA) fun _ a b => predBit (a < b))
/-- CLEN: unsigned less-or-equal (R237). -/
def execClen (f : Fields) (s : State) : Result := .next (s.each2 f (toP intOrA) fun _ a b => predBit (a ≤ b))
/-- MIN: signed minimum (R237). -/
def execMin (f : Fields) (s : State) : Result :=
  .next (s.each2 f (keepIf Fmt.isInt) fun fm a b => exactly (if toS fm.width a ≤ toS fm.width b then a else b))
/-- MAX: signed maximum (R237). -/
def execMax (f : Fields) (s : State) : Result :=
  .next (s.each2 f (keepIf Fmt.isInt) fun fm a b => exactly (if toS fm.width a ≤ toS fm.width b then b else a))
/-- MINN: unsigned minimum (R237). -/
def execMinn (f : Fields) (s : State) : Result := .next (s.each2 f (keepIf intOrA) fun _ a b => exactly (min a b))
/-- MAXN: unsigned maximum (R237). -/
def execMaxn (f : Fields) (s : State) : Result := .next (s.each2 f (keepIf intOrA) fun _ a b => exactly (max a b))
/-- LEA: an address plus a sign-extended index, modulo 2^64 (R238). -/
def execLea (f : Fields) (s : State) : Result :=
  .next (s.eachOwn f (keepIf fun fm => fm = .a) fun _ w a b => addr64 a (toS w b))

/-- Sum of the first `n` field widths (R174). -/
def widthSum (ws : List Nat) (n : Nat) : Nat := ((upto n).map fun i => at! ws i 0).foldl (· + ·) 0

/-- What IDX takes from a work identifier, for a launch with `nf` fields of widths `ws` (R239). -/
def idxField (nf : Nat) (ws : List Nat) (a b : Nat) : Nat :=
  if b < 6 && b < nf then (a >>> widthSum ws b) % 2 ^ at! ws b 0
  else if 8 ≤ b && b ≤ 13 && b - 8 < nf then a >>> widthSum ws (b - 8)
  else 0

/-- IDX: a field of a work identifier, or a group identifier (R239). -/
def execIdx (f : Fields) (s : State) : Result :=
  .next (s.compute f false (keepIf fun fm => fm = .i64) fun fr fm =>
    match s.source fr f.sa.toNat fm, s.ctx? fr.names.part fr.ctx with
    | some a, some x => some (a.map fun v => idxField x.nf x.widths v (s.amount fr f.sb.toNat), fNone)
    | some a, none => some (a.map fun _ => 0, fNone)
    | none, _ => none)

/-- The target format that SB names (R240). -/
def widthTarget (f : Fields) : Fmt :=
  match Fmt.ofCode f.sb.toNat with
  | some tgt => tgt
  | none => .i64

/-- A target that SEXT and ZEXT allow when they fire (R240). -/
def widens (tgt f : Fmt) : Option Fmt := if intOrA f && intOrA tgt && f.width ≤ tgt.width then some tgt else none
/-- A target that NARROW and NARROWS allow when they fire (R240). -/
def narrows (tgt f : Fmt) : Option Fmt := if intOrA f && tgt.isInt && tgt.width ≤ f.width then some tgt else none

/-- A width change: the result takes the target's format; poison takes precedence and keeps the target's
format (R240). -/
def State.changeWidth (s : State) (f : Fields) (ok : Fmt → Fmt → Option Fmt) (g : Fmt → Fmt → Nat → Nat) :
    State :=
  let tgt := widthTarget f
  let fr := s.run.cur
  if fr.poisonOf f false then s.sendPoison fr f (fr.poisonRes f tgt)
  else s.each1 f (ok tgt) fun fm a => exactly (g fm tgt a)

/-- SEXT (R240): A reads as 64 unsigned bits. -/
def execSext (f : Fields) (s : State) : Result :=
  .next (s.changeWidth f widens fun fm tgt a => if fm = .a then a else wrap tgt.width (toS fm.width a))
/-- ZEXT (R240). -/
def execZext (f : Fields) (s : State) : Result := .next (s.changeWidth f widens fun _ _ a => a)
/-- NARROW: the low bits (R240). -/
def execNarrow (f : Fields) (s : State) : Result :=
  .next (s.changeWidth f narrows fun _ tgt a => a % 2 ^ tgt.width)
/-- NARROWS: saturated into the signed target width; A reads as unsigned, and is saturated into I64 too (R240; log 105,
DESIGN CHOICE). -/
def execNarrows (f : Fields) (s : State) : Result :=
  .next (s.changeWidth f narrows fun fm tgt a => satS tgt.width (if fm = .a then (a : Int) else toS fm.width a))

end Sys2Proof.Machine
end

