-- ==== Sys2Proof/Machine/Directory.lean ====
section
/-! DEFINITION. The rows of the directory (R113 to R116): requests that reach a home, evictions, the walk of a
sharer list, and probes at an owner. A row whose subject cannot move yet leaves the state as it is. -/

namespace Sys2Proof.Machine

/-- The request `id` of a kind. -/
def State.req? (s : State) (id : Nat) (k : ReqKind) : Option HReq :=
  s.mem.reqs.find? fun r => r.id == id && r.kind = k

/-- A request of a kind that has its turn at its home is served (R112, R113, R117); a fill of an L1 whose scratch
ways change waits (R58), and so does every request of a partition that Sage has stopped (R142). A piece of an engine operation is
performed by its own row when its turn has come. -/
def State.serveReq (s : State) (k : ReqKind) : State :=
  match s.req? s.run.subj.a k with
  | none => s
  | some r =>
    if !s.homeTurn r || s.fillHeld r || (s.part r.part).stopped then s
    else
      match r.from_ with
      | .outside id => s.serveOutside r id
      | .piece _ _ => s
      | _ => s.serve r

/-- GETS (R113; subject: req). -/
def execGetS (s : State) : Result := .next (s.serveReq .getS)
/-- GETM (R113; subject: req). -/
def execGetM (s : State) : Result := .next (s.serveReq .getM)
/-- UPGRADE (R113; subject: req): a requester that is not listed is served as for GetM. -/
def execUpgrade (s : State) : Result := .next (s.serveReq .upgrade)
/-- L2_ACCESS (R74, R113; subject: req). -/
def execL2Access (s : State) : Result := .next (s.serveReq .l2)
/-- MEM_ACCESS (R74, R113; subject: req). -/
def execMemAccess (s : State) : Result := .next (s.serveReq .mem)

/-- The copy of a cluster that a PutS or PutO announces. -/
def State.putting? (s : State) (r : HReq) : Option L1Line :=
  s.mem.l1.find? fun x => x.cluster == r.cluster && x.asid == r.asid && x.line == r.line && x.putting

/-- The eviction is acknowledged: the copy and the request are gone. -/
def State.endPut (s : State) (r : HReq) (x : L1Line) : State :=
  let s := s.dropReq r.id
  { s with mem := { s.mem with l1 := dropFirst (fun y => y = x) s.mem.l1 } }

/-- The slice that keeps the directory item of an eviction: the one that its copy names, or where the rehash
has moved it (R425). -/
def State.putHome (s : State) (r : HReq) : Nat :=
  match s.l2? r.slice r.asid r.line with
  | some _ => r.slice
  | none => (s.homesOf r.asid r.line).headD r.slice

/-- An eviction that has its turn at the home: a listed copy is unlinked, an owner's dirty data taken in; a
stale one is acknowledged with no action (R113, R115). -/
def State.servePut (s : State) (k : ReqKind) : State :=
  match s.req? s.run.subj.a k with
  | none => s
  | some r =>
    if !s.homeTurn r || (s.part r.part).stopped then s
    else
      match s.putting? r with
      | none => s.dropReq r.id
      | some x =>
        let sl := s.putHome r
        if x.st = .i || !s.listed sl x then s.endPut r x
        else if k = .putS then
          if x.st = .s then (s.unlink sl x).endPut r x else s.endPut r x
        else
          let s := if x.st = .m then s.intoL2 r.part sl x.asid x.line x.data x.bad else s
          (s.setDI sl x.asid x.line).endPut r x

/-- PUTS (R113, R115; subject: req). -/
def execPutS (s : State) : Result := .next (s.servePut .putS)
/-- PUTO (R113, R115; subject: req). -/
def execPutO (s : State) : Result := .next (s.servePut .putO)

/-- A message of the directory. -/
def State.cmsg? (s : State) (id : Nat) : Option CMsg := s.mem.cmsgs.find? fun m => m.id == id

/-- A message with a change. -/
def State.modMsg (s : State) (id : Nat) (f : CMsg → CMsg) : State :=
  { s with mem := { s.mem with cmsgs := modFirst (fun m => m.id == id) f s.mem.cmsgs } }

/-- A sharer gives up its copy at an Inv (R114): a requester that upgrades keeps its data, a copy in the
write-back buffer keeps its links until the home acknowledges it (R115). -/
def State.invalidate (s : State) (r : HReq) (c : Nat) : State :=
  if r.kind = .upgrade && r.cluster = c then s
  else
    { s with mem := { s.mem with
        l1 := (s.mem.l1.filter fun x => !(x.cluster == c && x.asid == r.asid && x.line == r.line && !x.putting)).map
          fun x => if x.cluster == c && x.asid == r.asid && x.line == r.line then { x with st := .i } else x } }

/-- INV (R114, R115; subject: msg): the sharer's copy becomes I, and the walk goes on to its NEXT or back to the
home. -/
def execInv (s : State) : Result :=
  match s.cmsg? s.run.subj.a with
  | none => .next s
  | some m =>
    match m.kind, s.txn? m.req with
    | .inv, some t =>
      if (s.part t.req.part).stopped then .next s else
      let nxt := match s.l1Any? m.cluster m.asid m.line with
        | some x => x.next
        | none => 0x7FF
      let s := s.invalidate t.req m.cluster
      .next (s.modMsg m.id fun y => if nxt = 0x7FF then { y with kind := .invAck } else { y with cluster := nxt })
    | _, _ => .next s

/-- INVACK (R114; subject: msg): the home has the acknowledgement of its walk. One that would fill an L1 whose scratch ways change
waits (R58). -/
def execInvAck (s : State) : Result :=
  match s.cmsg? s.run.subj.a with
  | none => .next s
  | some m =>
    match m.kind, s.txn? m.req with
    | .invAck, some t =>
      if s.fillHeld t.req || (s.part t.req.part).stopped then .next s else
      let s : State := { s with mem := { s.mem with cmsgs := s.mem.cmsgs.filter fun x => x.id ≠ m.id } }
      .next (s.endWalk t.req)
    | _, _ => .next s

/-- FORWARDED_PROBE (R58, R113, R123; subject: msg): the owner serves the probe, or queues it in its lease entry. -/
def execForwardedProbe (s : State) : Result :=
  match s.cmsg? s.run.subj.a with
  | none => .next s
  | some m =>
    if m.kind = .inv || m.kind = .invAck then .next s
    else
      if (s.txn? m.req).any fun (t : Txn) => s.fillHeld t.req || (s.part t.req.part).stopped then .next s else
      match s.leaseOn m.cluster m.asid m.line with
      | some _ => .next (s.modMsg m.id fun y => { y with queued := true })
      | none => .next (s.serveProbe m)

end Sys2Proof.Machine
end

