-- ==== Sys2Proof/Machine/FloatOps.lean ====
section
/-! DEFINITION. The floating-point instructions of groups 0x6 and 0x7 (R270 to R282). -/

namespace Sys2Proof.Machine

/-- FADD: a + b (R271). -/
def execFadd (f : Fields) (s : State) : Result := .next (s.each2 f (keepIf Fmt.isFloat) fun fm => fpAdd (fpOf fm))
/-- FSUB: a - b (R271). -/
def execFsub (f : Fields) (s : State) : Result := .next (s.each2 f (keepIf Fmt.isFloat) fun fm => fpSub (fpOf fm))
/-- FMUL: a × b (R271). -/
def execFmul (f : Fields) (s : State) : Result := .next (s.each2 f (keepIf Fmt.isFloat) fun fm => fpMul (fpOf fm))
/-- FFMA: a × b + c, one rounding (R271). -/
def execFfma (f : Fields) (s : State) : Result := .next (s.each3 f (keepIf Fmt.isFloat) fun fm => fpFma (fpOf fm))
/-- FFMS: a × b - c, one rounding (R271). -/
def execFfms (f : Fields) (s : State) : Result := .next (s.each3 f (keepIf Fmt.isFloat) fun fm => fpFms (fpOf fm))
/-- FNFMA: c - a × b, one rounding (R271). -/
def execFnfma (f : Fields) (s : State) : Result := .next (s.each3 f (keepIf Fmt.isFloat) fun fm => fpFnma (fpOf fm))
/-- FDIV: a / b (R271). -/
def execFdiv (f : Fields) (s : State) : Result := .next (s.each2 f (keepIf Fmt.isFloat) fun fm => fpDiv (fpOf fm))
/-- FSQRT (R271). -/
def execFsqrt (f : Fields) (s : State) : Result := .next (s.each1 f (keepIf Fmt.isFloat) fun fm => fpSqrt (fpOf fm))
/-- FMIN: minimumNumber (R272). -/
def execFmin (f : Fields) (s : State) : Result := .next (s.each2 f (keepIf Fmt.isFloat) fun fm => fpMinMax (fpOf fm) false)
/-- FMAX: maximumNumber (R272). -/
def execFmax (f : Fields) (s : State) : Result := .next (s.each2 f (keepIf Fmt.isFloat) fun fm => fpMinMax (fpOf fm) true)
/-- FMINM: minimum (R272). -/
def execFminm (f : Fields) (s : State) : Result := .next (s.each2 f (keepIf Fmt.isFloat) fun fm => fpMinMaxM (fpOf fm) false)
/-- FMAXM: maximum (R272). -/
def execFmaxm (f : Fields) (s : State) : Result := .next (s.each2 f (keepIf Fmt.isFloat) fun fm => fpMinMaxM (fpOf fm) true)
/-- FABS: the sign bit cleared (R271). -/
def execFabs (f : Fields) (s : State) : Result := .next (s.each1 f (keepIf Fmt.isFloat) fun fm a => exactly (fpAbs (fpOf fm) a))
/-- FNEG: the sign bit inverted (R271). -/
def execFneg (f : Fields) (s : State) : Result := .next (s.each1 f (keepIf Fmt.isFloat) fun fm a => exactly (fpNeg (fpOf fm) a))
/-- FCPYS: a with the sign bit of b (R271). -/
def execFcpys (f : Fields) (s : State) : Result := .next (s.each2 f (keepIf Fmt.isFloat) fun fm a b => exactly (fpCpys (fpOf fm) a b))

/-- The integer format as wide as a floating one (R273). -/
def intOfWidth (f : Fmt) : Fmt :=
  match f with
  | .f16 | .bf16 => .i16
  | .f32 => .i32
  | _ => .i64

/-- FCLASS: the class mask, in the integer format of the same width (R273). -/
def execFclass (f : Fields) (s : State) : Result :=
  .next (s.each1 f (fun fm => if fm.isFloat then some (intOfWidth fm) else none) fun fm a =>
    exactly (fpClass (fpOf fm) a))

/-- A floating compare: P, with its flags (R274). -/
def State.fcompare (s : State) (f : Fields) (op : Nat) : State :=
  s.each2 f (fun fm => if fm.isFloat then some .p else none) fun fm a b =>
    let r := fpCmp (fpOf fm) op a b
    (if r.1 then 1 else 0, r.2)

/-- FCEQ (R274). -/
def execFceq (f : Fields) (s : State) : Result := .next (s.fcompare f 0)
/-- FCLT (R274). -/
def execFclt (f : Fields) (s : State) : Result := .next (s.fcompare f 1)
/-- FCLE (R274). -/
def execFcle (f : Fields) (s : State) : Result := .next (s.fcompare f 2)
/-- FCUN (R274). -/
def execFcun (f : Fields) (s : State) : Result := .next (s.fcompare f 3)

/-- TFMT, EXACT, UNS and RM of a conversion's literal (R275). -/
def litFmt (l : W64) : Option Fmt := Fmt.ofCode (bits l 11 8)
def litExact (l : W64) : Bool := bit l 4
def litUns (l : W64) : Bool := bit l 3
def litRm (l : W64) : Rm := Rm.ofCode (bits l 2 0)

/-- The target of a conversion, where operand and target are of the kinds that it takes (R275). -/
def convTo (src dst : Fmt → Bool) (l : W64) (f : Fmt) : Option Fmt :=
  match litFmt l with
  | some d => if src f && dst d then some d else none
  | none => none

/-- A conversion of each element to the literal's target (R275). -/
def State.convert (s : State) (f : Fields) (src dst : Fmt → Bool)
    (g : Fmt → Fmt → Rm → Nat → Nat × FpFlags) : State :=
  let l := s.run.cur.slot.lit
  match litFmt l with
  | some d =>
    let fr := s.run.cur
    if fr.poisonOf f false then s.sendPoison fr f (fr.poisonRes f d)
    else s.each1 f (convTo src dst l) fun fm a => g fm d (litRm l) a
  | none => s.each1 f (convTo src dst l) fun _ a => exactly a

/-- FCVT: between floating formats (R276). -/
def execFcvt (f : Fields) (s : State) : Result :=
  .next (s.convert f Fmt.isFloat Fmt.isFloat fun fm d rm a => fpCvt (fpOf fm) (fpOf d) rm a)
/-- FCVTI: floating to integer, saturating (R277). -/
def execFcvti (f : Fields) (s : State) : Result :=
  .next (s.convert f Fmt.isFloat Fmt.isInt fun fm d rm a =>
    fpToInt (fpOf fm) rm (litUns s.run.cur.slot.lit) d.width a)
/-- ICVTF: signed integer to floating (R278). -/
def execIcvtf (f : Fields) (s : State) : Result :=
  .next (s.convert f Fmt.isInt Fmt.isFloat fun fm d rm a => fpOfInt (fpOf d) rm (toS fm.width a))
/-- ICVTFN: unsigned integer to floating (R278). -/
def execIcvtfn (f : Fields) (s : State) : Result :=
  .next (s.convert f Fmt.isInt Fmt.isFloat fun _ d rm a => fpOfInt (fpOf d) rm a)
/-- FRINT: to an integral value in f (R279). -/
def execFrint (f : Fields) (s : State) : Result :=
  .next (s.each1 f (keepIf Fmt.isFloat) fun fm a =>
    fpRint (fpOf fm) (litRm s.run.cur.slot.lit) (litExact s.run.cur.slot.lit) a)
/-- FSCALE: a × 2^n (R280). -/
def execFscale (f : Fields) (s : State) : Result := .next (s.each2 f (keepIf Fmt.isFloat) fun fm => fpScale (fpOf fm))
/-- FEXPO: the exponent as a value (R281). -/
def execFexpo (f : Fields) (s : State) : Result := .next (s.each1 f (keepIf Fmt.isFloat) fun fm => fpExpo (fpOf fm))
/-- FMANT: the significand in [1, 2) (R281). -/
def execFmant (f : Fields) (s : State) : Result := .next (s.each1 f (keepIf Fmt.isFloat) fun fm => fpMant (fpOf fm))

/-- FSPLIT: integral part as the primary result, fraction as the secondary one (R282). -/
def execFsplit (f : Fields) (s : State) : Result :=
  let fr := s.run.cur
  let fm := fr.fmtOf f
  if fr.poisonOf f false then
    .next ((s.sendPoison fr f (fr.poisonRes f fm)).sendTo fr f.ta.toNat f.db.toNat (fr.poisonRes f fm))
  else if !fr.predOk f || !fm.isFloat then .next (s.mismatch fr f fm)
  else
    match s.source fr f.sa.toNat fm with
    | none => .next (s.mismatch fr f fm)
    | some a =>
      let r := a.map (fpSplit (fpOf fm))
      let s := s.orFlags fr.names.part fr.ctx (orFlags (r.map Prod.snd))
      let s := s.sendTo fr f.ta.toNat f.da.toNat (fr.res f fm (r.map fun x => x.1.1))
      .next (s.sendTo fr f.ta.toNat f.db.toNat (fr.res f fm (r.map fun x => x.1.2)))

end Sys2Proof.Machine
end

