-- ==== Sys2Proof/Machine/Integer.lean ====
section
/-! DEFINITION. Integer arithmetic, group 0x1 (R232, R233). Elements are unsigned numbers below 2^W; the
signed opcodes read them in two's complement. -/

namespace Sys2Proof.Machine

/-- Sign-read pair, computed exactly and passed through `fin` (R232). -/
def signed2 (fin : Nat → Int → Nat) (op : Int → Int → Int) (f : Fmt) (a b : Nat) : Nat × FpFlags :=
  exactly (fin f.width (op (toS f.width a) (toS f.width b)))

/-- Unsigned pair, computed exactly and passed through `fin` (R232). -/
def unsigned2 (fin : Nat → Int → Nat) (op : Int → Int → Int) (f : Fmt) (a b : Nat) : Nat × FpFlags :=
  exactly (fin f.width (op a b))

/-- Quotient of R233. -/
def divBits (w : Nat) (signed : Bool) (a b : Nat) : Nat :=
  if b = 0 then 2 ^ w - 1
  else if signed then wrap w ((toS w a).tdiv (toS w b))
  else a / b

/-- Remainder of R233. -/
def remBits (w : Nat) (signed : Bool) (a b : Nat) : Nat :=
  if b = 0 then a
  else if signed then wrap w ((toS w a).tmod (toS w b))
  else a % b

/-- ADD: Wrap(a + b) (R232). -/
def execAdd (f : Fields) (s : State) : Result := .next (s.each2 f (keepIf intOrA) (signed2 wrap (· + ·)))
/-- SUB: Wrap(a - b) (R232). -/
def execSub (f : Fields) (s : State) : Result := .next (s.each2 f (keepIf intOrA) (signed2 wrap (· - ·)))
/-- ADDS: SatS(a + b) (R232). -/
def execAdds (f : Fields) (s : State) : Result := .next (s.each2 f (keepIf Fmt.isInt) (signed2 satS (· + ·)))
/-- ADDSN: SatU(a + b) (R232). -/
def execAddsn (f : Fields) (s : State) : Result := .next (s.each2 f (keepIf Fmt.isInt) (unsigned2 satU (· + ·)))
/-- SUBS: SatS(a - b) (R232). -/
def execSubs (f : Fields) (s : State) : Result := .next (s.each2 f (keepIf Fmt.isInt) (signed2 satS (· - ·)))
/-- SUBSN: SatU(a - b) (R232). -/
def execSubsn (f : Fields) (s : State) : Result := .next (s.each2 f (keepIf Fmt.isInt) (unsigned2 satU (· - ·)))
/-- MUL: Wrap(a × b) (R232). -/
def execMul (f : Fields) (s : State) : Result := .next (s.each2 f (keepIf Fmt.isInt) (signed2 wrap (· * ·)))
/-- ⌊i / 2^W⌋, as bits: the high half of a product (R232). -/
def highHalf (w : Nat) (i : Int) : Nat := wrap w (i.fdiv (2 ^ w : Nat))
/-- MULH: ⌊a × b / 2^W⌋, signed (R232). -/
def execMulh (f : Fields) (s : State) : Result := .next (s.each2 f (keepIf Fmt.isInt) (signed2 highHalf (· * ·)))
/-- MULHN: ⌊a × b / 2^W⌋, unsigned (R232). -/
def execMulhn (f : Fields) (s : State) : Result := .next (s.each2 f (keepIf Fmt.isInt) (unsigned2 highHalf (· * ·)))
/-- DIV: signed quotient toward zero (R233). -/
def execDiv (f : Fields) (s : State) : Result :=
  .next (s.each2 f (keepIf Fmt.isInt) fun fm a b => exactly (divBits fm.width true a b))
/-- DIVN: unsigned quotient (R233). -/
def execDivn (f : Fields) (s : State) : Result :=
  .next (s.each2 f (keepIf Fmt.isInt) fun fm a b => exactly (divBits fm.width false a b))
/-- REM: signed remainder (R233). -/
def execRem (f : Fields) (s : State) : Result :=
  .next (s.each2 f (keepIf Fmt.isInt) fun fm a b => exactly (remBits fm.width true a b))
/-- REMN: unsigned remainder (R233). -/
def execRemn (f : Fields) (s : State) : Result :=
  .next (s.each2 f (keepIf Fmt.isInt) fun fm a b => exactly (remBits fm.width false a b))
/-- MADD: Wrap(a × b + c), one wrap (R232). -/
def execMadd (f : Fields) (s : State) : Result :=
  .next (s.each3 f (keepIf Fmt.isInt) fun fm a b c =>
    exactly (wrap fm.width (toS fm.width a * toS fm.width b + toS fm.width c)))
/-- NEG: Wrap(-a) (R232). -/
def execNeg (f : Fields) (s : State) : Result :=
  .next (s.each1 f (keepIf Fmt.isInt) fun fm a => exactly (wrap fm.width (- toS fm.width a)))
/-- ABS: Wrap(|a|) (R232). -/
def execAbs (f : Fields) (s : State) : Result :=
  .next (s.each1 f (keepIf Fmt.isInt) fun fm a => exactly (wrap fm.width ((toS fm.width a).natAbs : Int)))

end Sys2Proof.Machine
end

