-- ==== Sys2Proof/Machine/Logic.lean ====
section
/-! DEFINITION. Logic, shifts and bit fields, group 0x2 (R234 to R236). -/

namespace Sys2Proof.Machine

/-- ¬a on `w` bits. -/
def notBits (w a : Nat) : Nat := (2 ^ w - 1) ^^^ (a % 2 ^ w)
/-- Count of one bits among the low `w`. -/
def popBits (a : Nat) : Nat → Nat
  | 0 => 0
  | w + 1 => (if a.testBit w then 1 else 0) + popBits a w
/-- Count of zero bits above the highest one of `w` bits. -/
def clzBits (w a : Nat) : Nat := if a % 2 ^ w = 0 then w else w - 1 - (a % 2 ^ w).log2
/-- Count of zero bits below the lowest one: bits `i` on, `n` of them left. -/
def ctzFrom (a : Nat) : Nat → Nat → Nat
  | 0, i => i
  | n + 1, i => if a.testBit i then i else ctzFrom a n (i + 1)
/-- Bit `i` moved to bit `w - 1 - i`, for `n` bits from 0 on. -/
def revBits (w a : Nat) : Nat → Nat
  | 0 => 0
  | n + 1 => (if a.testBit n then 2 ^ (w - 1 - n) else 0) + revBits w a n
/-- Arithmetic shift right of a `w`-bit number (R234). -/
def sraBits (w a s : Nat) : Nat := wrap w ((toS w a).fdiv (2 ^ s : Nat))
/-- Rotation left of a `w`-bit number (R234). -/
def rolBits (w a s : Nat) : Nat := (a <<< s ||| a >>> (w - s)) % 2 ^ w
/-- BFX (R236). -/
def bfxBits (w a b : Nat) : Nat := (a >>> (b % 256)) % 2 ^ min (b / 256 % 256) w
/-- The mask of BFI (R236). -/
def bfiMask (w b : Nat) : Nat := ((2 ^ min (b / 256 % 256) w - 1) * 2 ^ (b % 256)) % 2 ^ w
/-- BFI (R236). -/
def bfiBits (w a b c : Nat) : Nat :=
  (a &&& notBits w (bfiMask w b)) ||| ((c * 2 ^ (b % 256)) &&& bfiMask w b)
/-- BYTEPERM: byte `i` of the result for the `n` lowest bytes (R236). -/
def bytePerm (w a b : Nat) : Nat → Nat
  | 0 => 0
  | i + 1 =>
    let k := (b >>> (4 * i)) % 16
    (if k < w / 8 then (a >>> (8 * k)) % 256 * 2 ^ (8 * i) else 0) + bytePerm w a b i

/-- AND (R234). -/
def execAnd (f : Fields) (s : State) : Result :=
  .next (s.each2 f (keepIf intAOrP) fun _ a b => exactly (a &&& b))
/-- OR (R234). -/
def execOr (f : Fields) (s : State) : Result :=
  .next (s.each2 f (keepIf intAOrP) fun _ a b => exactly (a ||| b))
/-- XOR (R234). -/
def execXor (f : Fields) (s : State) : Result :=
  .next (s.each2 f (keepIf intAOrP) fun _ a b => exactly (a ^^^ b))
/-- ANDN: a and not b (R234). -/
def execAndn (f : Fields) (s : State) : Result :=
  .next (s.each2 f (keepIf intAOrP) fun fm a b => exactly (a &&& notBits fm.width b))
/-- NOT (R234). -/
def execNot (f : Fields) (s : State) : Result :=
  .next (s.each1 f (keepIf intAOrP) fun fm a => exactly (notBits fm.width a))
/-- SHL: the amount modulo W (R234, R235). -/
def execShl (f : Fields) (s : State) : Result :=
  .next (s.eachOwn f (keepIf Fmt.isInt) fun fm _ a b => (a <<< (b % fm.width)) % 2 ^ fm.width)
/-- SHRL (R234, R235). -/
def execShrl (f : Fields) (s : State) : Result :=
  .next (s.eachOwn f (keepIf Fmt.isInt) fun fm _ a b => a >>> (b % fm.width))
/-- SHRA (R234, R235). -/
def execShra (f : Fields) (s : State) : Result :=
  .next (s.eachOwn f (keepIf Fmt.isInt) fun fm _ a b => sraBits fm.width a (b % fm.width))
/-- ROTL (R234, R235). -/
def execRotl (f : Fields) (s : State) : Result :=
  .next (s.eachOwn f (keepIf Fmt.isInt) fun fm _ a b => rolBits fm.width a (b % fm.width))
/-- CLZ (R234). -/
def execClz (f : Fields) (s : State) : Result :=
  .next (s.each1 f (keepIf Fmt.isInt) fun fm a => exactly (clzBits fm.width a))
/-- CTZ (R234). -/
def execCtz (f : Fields) (s : State) : Result :=
  .next (s.each1 f (keepIf Fmt.isInt) fun fm a => exactly (ctzFrom a fm.width 0))
/-- POPC (R234). -/
def execPopc (f : Fields) (s : State) : Result :=
  .next (s.each1 f (keepIf Fmt.isInt) fun fm a => exactly (popBits a fm.width))
/-- BREV (R234). -/
def execBrev (f : Fields) (s : State) : Result :=
  .next (s.each1 f (keepIf Fmt.isInt) fun fm a => exactly (revBits fm.width a fm.width))
/-- BFX: a bit field, zero-extended (R236). -/
def execBfx (f : Fields) (s : State) : Result :=
  .next (s.eachOwn f (keepIf Fmt.isInt) fun fm _ a b => bfxBits fm.width a b)
/-- BFI: port C inserted into a bit field of A (R236). -/
def execBfi (f : Fields) (s : State) : Result :=
  .next (s.compute f true (keepIf Fmt.isInt) fun fr fm =>
    match s.source fr f.sa.toNat fm, s.ownSource fr f.sb.toNat, s.source fr 0x42 fm with
    | some a, some (b, _), some c =>
      some (List.zipWith (fun x (h : Nat × Nat) => bfiBits fm.width x h.1 h.2) a (List.zip b c), fNone)
    | _, _, _ => none)
/-- BYTEPERM: bytes by nibble selectors (R236). -/
def execByteperm (f : Fields) (s : State) : Result :=
  .next (s.eachOwn f (keepIf Fmt.isInt) fun fm _ a b => bytePerm fm.width a b (fm.width / 8))

end Sys2Proof.Machine
end

