-- ==== Sys2Proof/Machine/Outside.lean ====
section
/-! DEFINITION. Agents outside the fabric (R117, R144 to R155, R450): accesses of control cores, of the host's aperture and
of peers; the answers of the host and of peers to the device's own accesses; and emulated atomics. -/

namespace Sys2Proof.Machine

/-! ### Accesses that arrive -/

/-- CORE_MEMORY_ACCESS (R43, R117): by a control core of the partition, at an IA of an ASID. -/
def execCoreMemoryAccess (p asid : Nat) (x : ExtAccess) (s : State) : Result :=
  if (s.part p).live && extAligned x && x.addr < 2 ^ 52 then .next (s.outsideAccess p asid x.addr .core x) else .next s

/-- HOST_APERTURE_ACCESS (R450): at an offset of BAR2 of the partition's function. Under ASID 0 it completes with Unsupported
Request, at a fault with Completer Abort. -/
def execHostApertureAccess (p : Nat) (x : ExtAccess) (s : State) : Result :=
  let h := (s.part p).hostaper
  let asid := bits h 63 52
  if !((s.part p).live && extAligned x && x.addr < 2 ^ 36) then .next s
  else if asid = 0 then .next (s.complete .host .unsupported)
  else
    .next (s.outsideAccess p asid ((bits h 51 16 * 2 ^ 16 + x.addr) % 2 ^ 52) .host x)

/-- An access at the channel controller that owns a PA, as one step (R144, R146, R147; log 67, DEDUCED). -/
def State.controllerAccess (s : State) (x : ExtAccess) : State :=
  if x.kind ≠ .write && s.paSpoiled x.addr (2 ^ x.width) then s.answerPoison x.addr
  else
    let old := leNat (s.readPa x.addr (2 ^ x.width))
    let s := if x.kind = .read then s else s.writePa x.addr (leBytes (2 ^ x.width) (extValue x old))
    { s with run := { s.run with busRead := w64 old } }

/-- A peer's access is admitted: it lies at a backed offset of a present strip (R32), in a valid export range, which it may
write (R145). -/
def State.admits (s : State) (x : ExtAccess) : Bool :=
  s.dev.lsdUp && extAligned x && paLocal x.addr && x.addr % stripWindow < stripBacked
    && s.stripState (x.addr / stripWindow) ≠ 6 && match s.exported x.addr with
    | some e => x.kind = .read || bit e 1
    | none => false

/-- PEER_ACCESS (R144 to R147): one that is refused is not performed. -/
def execPeerAccess (x : ExtAccess) (s : State) : Result :=
  if s.admits x then .next (s.controllerAccess x) else .next s

/-- The PA lies in a reduction window (R148). -/
def State.reduces (s : State) (pa : Nat) : Bool := match s.exported pa with
  | some e => bits e 9 8 = 1
  | none => false

/-- REDUCTION_MERGE (R148): a merged contribution is performed as one atomic at its controller (log 54, DESIGN CHOICE). -/
def execReductionMerge (x : ExtAccess) (s : State) : Result :=
  match x.kind with
  | .amo o => if s.admits x && s.reduces x.addr && AmoOp.merges o then .next (s.controllerAccess x) else .next s
  | _ => .next s

/-! ### Answers to the device's own accesses -/

/-- The lock of a host line is taken, or released (R155). -/
def State.lock (s : State) (pa : Nat) : State := { s with dev := { s.dev with locks := lockIndex pa :: s.dev.locks } }
def State.unlock (s : State) (pa : Nat) : State :=
  { s with dev := { s.dev with locks := s.dev.locks.filter fun k => k ≠ lockIndex pa } }


/-- The operation with the parameters that it had before it waited for an answer. -/
def Op.answered (o : Op) : Op := { o with params := o.params.drop 2 }

/-- An operation that was performed outside the device ends: a load or an atomic with what it read, the flags and the
overflow of an atomic with it; a store with its operand (R133, R139, R144, R154, R155). -/
def State.endOutside (s : State) (o : Op) (v : W64) : State :=
  let n := 2 ^ (8 * 2 ^ o.width)
  let old := v.toNat % n
  let o := o.answered
  match o.kind with
  | .amo a =>
    let fl := (amoNew a o.fmt old (o.data.toNat % n) (o.data2.toNat % n)).2
    ((s.orFlags o.names.part o.ctx fl).noteOvf o (ctrOverflows a old o.data.toNat)).finish o (o.good old)
  | .store => s.finish o o.operand
  | _ => s.finish o (o.good old)

/-- The posted writes of a function that a zero-length read followed have reached the host, of whichever context they are (R153; log
69, DEDUCED). One to a line whose lock is held waits at the link port (R155): its lock index is that of its bus address, which has
the same low bits (log 69, DEDUCED). -/
def State.flushed (s : State) (p : Nat) (flush : Option Nat) : State :=
  { s with dev := { s.dev with posted := s.dev.posted.filter fun x =>
      !(x.part == p && !s.dev.locks.contains (lockIndex x.addr) && (match flush with
    | none => true
    | some n => x.id < n)) } }

/-- The transaction in which a home awaits the host's data for an operation (R151). -/
def State.hostFill? (s : State) (id : Nat) : Option Txn :=
  s.mem.txns.find? fun t => t.wait = .host && t.req.from_ = .op id

/-- The host's line fills the home: the addressed eight bytes are the answer's, the others free (log 22, DESIGN CHOICE); the request is
then served. A victim with copies is recalled first, and the line asked for again. -/
def State.fillFromHost (s : State) (t : Txn) (o : Op) (v : W64) : State :=
  let r := t.req
  let s := s.closeTxn r.id
  let s : State := { s with mem := { s.mem with reqs := r :: s.mem.reqs } }
  let d := patch (s.readPa (hostBase + 64 * r.line) 64) (alignDown (o.ia % 64) 8) (leBytes 8 v.toNat)
  let s : State := { s with run := { s.run with fresh := s.run.fresh + 1 } }
  let home := s.homeOf r.part r.asid r.line r.seed
  match s.fillL2 r.part r.slice r.asid r.line r.seed d [] o.strm (r.slice ≠ home) with
  | .done u => u.serve r
  | .recall x => s.recallVictim r.part x

/-- An engine operation awaits the end of a flush of its posted writes: an SCLOSE, a GEMVB, or a completion add at SY (R153). -/
def EngOp.flushes (e : EngOp) : Bool := (e.kind = .swrite && e.phase = 8) || e.flush.isSome

/-- The link fails for the zero-length read of an engine operation (R151; log 80, DESIGN CHOICE): LINK is raised, and the
operation goes on as if the writes had been flushed. -/
def State.flushLost (s : State) (e : EngOp) : State := s.raise e.site { cause := 5, sub := 10 }

/-- An answer reaches an engine operation. -/
def State.answerEng (s : State) (e : EngOp) (v : W64) (refused : Option (Nat × Nat)) : State :=
  if e.pieces.any fun x => x.out then (s.answerPiece e v refused).engOn e.id
  else if e.flushes then
    let s := if refused.isSome then s.flushLost e else s
    let s := s.flushed e.names.part e.flush
    if e.kind = .swrite && e.phase = 8 then
      ((s.modEng e.id fun y => { y with params := setAt y.params 0 10 }).pumpPort e.names e.ctx).dropEng e.id
    else if e.kind = .gemvb then s.engOn e.id
    else s
  else s

/-- HOST_COMPLETION (R151, R153, R154): of a read or a native atomic; of a zero-length read, after which the release that
waits goes on; of a fill; of a piece. -/
def execHostCompletion (op : Nat) (v : W64) (s : State) : Result :=
  let s := s.answered op
  match s.op? op with
  | some o =>
    match s.hostFill? op with
    | some t => .next (s.fillFromHost t o v)
    | none =>
      if o.phase ≠ .parked then .next s
      else
        match o.params with
        | 6 :: _ => .next (s.endOutside o v)
        | 8 :: r =>
          .next ((s.flushed o.names.part o.flush).modOp o.id fun x => { x with phase := .buffered, params := r })
        | _ => .next s
  | none =>
    match s.eng? op, s.out? op with
    | some e, _ => .next (s.answerEng e v none)
    | none, some q => if q.sent && paHost q.pa then .next (s.answerOut q v) else .next s
    | none, none => .next s

/-- HOST_COMPLETION_TIMEOUT (R151): the token of a host request is poisoned, with subcode LINK; so is that of an atomic whose
emulation the link fails, which gives its lock up. -/
def execHostCompletionTimeout (op : Nat) (s : State) : Result :=
  let s := s.answered op
  let link (o : Op) : Trap := { cause := 5, sub := 10, addr := o.ia }
  match s.op? op with
  | some o =>
    match s.hostFill? op with
    | some t => .next ((s.closeTxn t.req.id).refuse o (link o))
    | none =>
      if o.phase ≠ .parked then .next s
      else
        match o.params with
        | 6 :: _ => .next (s.refuse o.answered (link o))
        | 7 :: _ => .next (s.refuse o.answered (link o))
        | 9 :: pa :: _ => .next ((s.unlock pa).refuse o.answered (link o))
        | 8 :: r => .next (s.refuse { o with params := r } (link o))
        | _ => .next s
  | none =>
    match s.eng? op, s.out? op with
    | some e, _ => .next (s.answerEng e 0 (some (5, 10)))
    | none, some q => if q.sent && paHost q.pa then .next (s.refuseOut q 10) else .next s
    | none, none => .next s

/-- A switch has merged an operation into a reduction window: its result is +0 in its data format, and it reads nothing (R149). -/
def State.endMerged (s : State) (o : Op) : State := s.finish o.answered (o.answered.good 0)

/-- A switch has merged the operation `id` (R149), which only the peer and the switch know (log 54, DESIGN CHOICE). -/
def mergedAway (id : Nat) (a : AmoOp) : Bool := Config.peerMerged id && AmoOp.merges a

/-- PEER_ACKNOWLEDGEMENT (R144, R145, R147, R149): the value that a peer returns, the acknowledgement of a switch that has merged
the operation, or a refusal with subcode PEER. -/
def execPeerAcknowledgement (op : Nat) (v : W64) (refused : Bool) (s : State) : Result :=
  match s.op? op with
  | some o =>
    match o.phase, o.params with
    | .parked, 5 :: _ =>
      if refused then .next (s.refuse o.answered { cause := 5, sub := 8, addr := o.ia })
      else
        match o.kind with
        | .amo a => .next (if mergedAway op a then s.endMerged o else s.endOutside o v)
        | _ => .next (s.endOutside o v)
    | _, _ => .next s
  | none =>
    match s.eng? op, s.out? op with
    | some e, _ => .next (s.answerEng e v (if refused then some (5, 8) else none))
    | none, some q =>
      if !q.sent || !paPeer q.pa then .next s
      else if refused then .next (s.refuseOut q 8)
      else
        match q.acc.kind with
        | .amo a => .next (s.answerOut q (if mergedAway op a then 0 else v))
        | _ => .next (s.answerOut q v)
    | none, none => .next s

/-! ### Emulated atomics (R155) -/

/-- What the supervisor routine writes to the host for an atomic whose line held `old` (R138, R155). -/
def Op.newValue (o : Op) (old : W64) : Nat :=
  let n := 2 ^ (8 * 2 ^ o.width)
  match o.kind with
  | .amo a => (amoNew a o.fmt (old.toNat % n) (o.data.toNat % n) (o.data2.toNat % n)).1
  | _ => 0

/-- The routine acquires the lock of a line and reads the line; `old` is what the host answers (R155). -/
def State.beginEmulation (s : State) (o : Op) (pa : Nat) (old : W64) (r : List Nat) : State :=
  if s.dev.locks.contains (lockIndex pa) then s
  else s.lock pa |>.park o (9 :: pa :: old.toNat :: r)

/-- The routine writes the new value, flushes it, releases the lock, and delivers the old one (R155); what it writes to the host is
answered as the value read (log 5, DESIGN CHOICE). -/
def State.endEmulation (s : State) (o : Op) (pa old : Nat) (r : List Nat) : State :=
  let o : Op := { o with params := 0 :: 0 :: r }
  ((s.unlock pa).endOutside o (w64 old)).answer (w64 (o.newValue (w64 old)))

/-- The routine performs the atomic of an agent that has no store buffer under the lock, as one step (R137, R155; log 67, DEDUCED). -/
def State.emulateOut (s : State) (q : OutsideReq) (old : W64) : State :=
  if !q.sent || !paHost q.pa || s.dev.locks.contains (lockIndex q.pa) then s
  else (s.answerOut q old).answer (w64 (extValue q.acc (old.toNat % 2 ^ (8 * 2 ^ q.acc.width))))

/-- EMULATE (R155): the supervisor routine takes the lock of an emulated atomic's line and reads the line; named again, it writes,
flushes and releases the lock, and the atomic has its result. -/
def execEmulate (op : Nat) (old : W64) (s : State) : Result :=
  match s.op? op, s.out? op with
  | some o, _ =>
    match o.phase, o.params with
    | .parked, 7 :: pa :: r => .next (s.beginEmulation o pa old r)
    | .parked, 9 :: pa :: v :: r => .next (s.endEmulation o pa v r)
    | _, _ => .next s
  | none, some q => .next (s.emulateOut q old)
  | none, none => .next s

end Sys2Proof.Machine
end

