-- ==== Sys2Proof/Machine/Special.lean ====
section
/-! DEFINITION. The special functions, group 0x8 (R292 to R296). The exact result y is computed to far more
bits than any format holds; where the spec fixes the value it is returned, and where R293 allows
several values the device's choice is a free value (log 7, DESIGN CHOICE). -/

namespace Sys2Proof.Machine

/-! ### Fixed point: a number `x` stands for `x / 2 ^ n` -/

/-- Σ z^(2i+1) / (2i+1) by powers of `z2 = z²`: `t` is the current power, `i` its index. -/
def atanhFrom (n z2 : Nat) : Nat → Nat → Nat → Nat → Nat
  | 0, _, _, acc => acc
  | k + 1, t, i, acc => atanhFrom n z2 k (t * z2 / 2 ^ n) (i + 1) (acc + t / (2 * i + 1))

/-- ln 2. -/
def ln2Fix (n : Nat) : Nat :=
  let z := 2 ^ n / 3
  2 * atanhFrom n (z * z / 2 ^ n) (n / 3 + 4) z 0 0

/-- Σ (-1)^i q^(2i+1) / (2i+1) for q = 1/d: `t` is the current power. -/
def atanInvFrom (d : Nat) : Nat → Nat → Nat → Int → Int
  | 0, _, _, acc => acc
  | k + 1, t, i, acc =>
    let v : Int := (t / (2 * i + 1) : Nat)
    atanInvFrom d k (t / (d * d)) (i + 1) (if i % 2 = 0 then acc + v else acc - v)

/-- π (Machin: 16 atan(1/5) - 4 atan(1/239)). -/
def piFix (n : Nat) : Nat :=
  (16 * atanInvFrom 5 (n / 4 + 4) (2 ^ n / 5) 0 0 - 4 * atanInvFrom 239 (n / 14 + 4) (2 ^ n / 239) 0 0).toNat

/-- Σ r^i / i!: `t` is the current term. -/
def expFrom (n r : Nat) : Nat → Nat → Nat → Nat → Nat
  | 0, _, _, acc => acc
  | k + 1, t, i, acc => expFrom n r k (t * r / 2 ^ n / (i + 1)) (i + 1) (acc + t)

/-- e^x for x of either sign. -/
def expFix (n : Nat) (x : Int) : Nat :=
  let l := ln2Fix n
  let k : Int := x.fdiv l
  let r := (x - k * l).toNat
  let e := expFrom n r (n / 4 + 20) (2 ^ n) 0 0
  if k ≥ 0 then e * 2 ^ k.toNat else e / 2 ^ (-k).toNat

/-- Σ (-1)^i x^(2i+o) / (2i+o)!, the sine (o = 1) or cosine (o = 0): `t` is the current term. -/
def trigFrom (n x2 : Nat) : Nat → Nat → Nat → Bool → Int → Int
  | 0, _, _, _, acc => acc
  | k + 1, t, j, minus, acc =>
    trigFrom n x2 k (t * x2 / 2 ^ n / ((j + 1) * (j + 2))) (j + 2) (!minus)
      (if minus then acc - t else acc + t)

/-- sin x for x in [0, π/2]. -/
def sinFix (n x : Nat) : Nat := (trigFrom n (x * x / 2 ^ n) (n / 4 + 4) x 1 false 0).toNat

/-- Σ (-1)^i x^(2i+1) / (i! (2i+1)): `t` is x^(2i+1) / i!. -/
def erfFrom (n x2 : Nat) : Nat → Nat → Nat → Int → Int
  | 0, _, _, acc => acc
  | k + 1, t, i, acc =>
    let v : Int := (t / (2 * i + 1) : Nat)
    erfFrom n x2 k (t * x2 / 2 ^ n / (i + 1)) (i + 1) (if i % 2 = 0 then acc + v else acc - v)

/-- 2 / √π times x. -/
def twoOverRootPi (n x : Nat) : Nat := 2 * x * 2 ^ n / isqrt (piFix n * 2 ^ n)

/-! ### Exact results -/

/-- An exact result: `m × 2 ^ e`, no operand of which is representable in a format (R294). -/
abbrev Exact := Nat × Int

/-- Bits after the point of the working precision. -/
def workBits : Nat := 512

/-- `m × 2 ^ e` in fixed point of `n` bits. -/
def toFix (n m : Nat) (e : Int) : Nat :=
  if e + n ≥ 0 then m * 2 ^ (e + n).toNat else m / 2 ^ (-(e + n)).toNat

/-- The operand is so small that terms of its second power lie below every place that counts. -/
def tiny (m : Nat) (e : Int) : Bool := e + m.log2 < -80

/-- The operand is `2 ^ b` or more. -/
def atLeast (m : Nat) (e : Int) (b : Int) : Bool := e + m.log2 ≥ b

/-- 1 minus less than any place that counts. -/
def belowOne : Exact := (2 ^ 150 - 1, -150)

/-- 2^a for 0 < |a| < 1. -/
def exp2Exact (neg : Bool) (m : Nat) (e : Int) : Exact :=
  if tiny m e then (if neg then belowOne else (2 ^ 150 + 1, -150))
  else
    let x := toFix workBits m e * ln2Fix workBits / 2 ^ workBits
    (expFix workBits (if neg then - (x : Int) else x), -512)

/-- log₂ of the significand `m / 2 ^ ⌊log₂ m⌋`, where it is not 1. -/
def log2Exact (m : Nat) : Exact :=
  let one := 2 ^ m.log2
  let z := (m - one) * 2 ^ workBits / (m + one)
  let l := 2 * atanhFrom workBits (z * z / 2 ^ workBits) (workBits / 3 + 4) z 0 0
  (l * 2 ^ workBits / ln2Fix workBits, -512)

/-- 1/√a. -/
def rsqExact (m : Nat) (e : Int) : Exact :=
  let (m, e) := if e % 2 = 0 then (m, e) else (2 * m, e - 1)
  (2 ^ 600 / isqrt (m * 2 ^ 600), -300 - e / 2)

/-- |sin πa| and whether it is negative, for |a| = `m × 2 ^ e` with `e < 0`. -/
def sinExact (m : Nat) (e : Int) : Bool × Exact :=
  if tiny m e then (false, (piFix workBits * m, e - 512))
  else
    let one := 2 ^ (-e).toNat
    let r := m % (2 * one)
    let neg := r ≥ one
    let q := r % one
    let q := if 2 * q > one then one - q else q
    (neg, (sinFix workBits (q * piFix workBits / one), -512))

/-- |cos πa| and whether it is negative, for |a| = `m × 2 ^ e` with `e < 0`. -/
def cosExact (m : Nat) (e : Int) : Bool × Exact :=
  if tiny m e then (false, belowOne)
  else
    -- cos πa = sin π(a + 1/2)
    let one := 2 ^ (-e).toNat
    sinExact (2 * m + one) (e - 1)

/-- tanh a for a > 0. -/
def tanhExact (m : Nat) (e : Int) : Exact :=
  if tiny m e then (m * (2 ^ 150 - 1), e - 150)
  else if atLeast m e 6 then belowOne
  else
    let x := expFix workBits (2 * toFix workBits m e : Nat)
    let one := 2 ^ workBits
    ((x - one) * one / (x + one), -512)

/-- 1 / (1 + e^(-a)) for a ≠ 0. -/
def sigmExact (neg : Bool) (m : Nat) (e : Int) : Exact :=
  if tiny m e then (if neg then (2 ^ 150 - 1, -151) else (2 ^ 150 + 1, -151))
  else if !neg && atLeast m e 7 then belowOne
  else if neg && atLeast m e 10 then (1, -1400)
  else
    let n := 2048
    let x := expFix n (if neg then - (toFix n m e : Int) else toFix n m e)
    (x * 2 ^ n / (x + 2 ^ n), -2048)

/-- erf a for a > 0. -/
def erfExact (m : Nat) (e : Int) : Exact :=
  if tiny m e then (twoOverRootPi workBits (m * 2 ^ 200), e - 200)
  else if atLeast m e 3 then belowOne
  else
    let x := toFix workBits m e
    (twoOverRootPi workBits (erfFrom workBits (x * x / 2 ^ workBits) 420 x 0 0).toNat, -512)

/-! ### The value returned -/

/-- The values of a format within `k2 / 2` ulp of y (R293), nearest first below, in rising order. -/
def withinUlps (k : FpFmt) (neg : Bool) (y : Exact) (k2 : Nat) : List Nat :=
  let lead := max (y.2 + y.1.log2) k.emin
  let half := lead - k.mb - 1
  let sh := half - y.2
  let t := if sh ≥ 0 then y.1 / 2 ^ sh.toNat else y.1 * 2 ^ (-sh).toNat
  (upto (2 * k2)).filterMap fun (i : Nat) =>
    let m : Int := (t : Int) - k2 + 1 + i
    let r := roundFp k .rne (if m = 0 then neg else neg != (m < 0)) m.natAbs half
    if r.2 = fNone then some r.1 else none

/-- The magnitude of a pattern is zero or subnormal. -/
def isTinyPattern (k : FpFmt) (v : Nat) : Bool := v % k.sign < 2 ^ k.mb

/-- The value that an opcode returns for an exact result that is not representable: correctly rounded
where `k2` is 1, or where it rounds to a value at which the function has reached its end (R296), else one of those within the
bound, the device's choice (R293, R295, log 7, DESIGN CHOICE). -/
def pickValue (k : FpFmt) (neg : Bool) (y : Exact) (k2 : Nat) (ends : Nat → Bool) (op fmt key : Nat) : Nat :=
  let r := (roundFp k .rne neg (2 * y.1 + 1) (y.2 - 1)).1
  if k2 ≤ 1 || ends r then r
  else
    let c := withinUlps k neg y k2
    at! c (Config.specialPick op fmt key % c.length) r

/-- No value is an end. -/
def noEnd (_ : FpFmt) (_ : Nat) : Bool := false

/-- A result that is not representable, in its format, with NX and UF (R293, R294). BF16 is evaluated in
F32 and rounded once more; whether the function has reached its end is asked of the result format's value. -/
def inexactResult (f : Fmt) (neg : Bool) (y : Exact) (k2 k2wide op key : Nat) (ends : FpFmt → Nat → Bool := noEnd) : Nat × FpFlags :=
  let k := fpOf f
  let narrow (v : Nat) : Nat := (fpCvt (fpOf .f32) k .rne v).1
  let v := match f with
    | .bf16 => narrow (pickValue (fpOf .f32) neg y k2 (fun r => ends k (narrow r)) op f.code key)
    | .f64 => pickValue k neg y k2wide (ends k) op f.code key
    | _ => pickValue k neg y k2 (ends k) op f.code key
  (v, fNX ||| flagIf (isTinyPattern k v) fUF)

/-- 1.0 in a format. -/
def oneOf (k : FpFmt) : Nat := (roundFp k .rne false 1 0).1

/-- FTANH and FERF reach ±1.0 once their exact result rounds there (R296). -/
def endOne (k : FpFmt) (v : Nat) : Bool := v % k.sign == oneOf k

/-- FSIGM falls to +0 once its exact result rounds there (R296). -/
def endZero (_ : FpFmt) (v : Nat) : Bool := v == 0

/-- FEXP2F (R293, R296). -/
def spExp2 (f : Fmt) (a : Nat) : Nat × FpFlags :=
  let k := fpOf f
  match unpack k a with
  | .nan x => (k.nan, flagIf x fNV)
  | .inf _ => (k.nan, fNV)
  | .fin s m e =>
    if m = 0 then (oneOf k, fNone)
    else if atLeast m e 0 then
      if m = 2 ^ m.log2 && e + m.log2 = 0 then ((roundFp k .rne false 1 (if s then -1 else 1)).1, fNone)
      else (k.nan, fNV)
    else inexactResult f false (exp2Exact s m e) 1 2 0x80 a

/-- FLOG2M (R293, R296). -/
def spLog2 (f : Fmt) (a : Nat) : Nat × FpFlags :=
  let k := fpOf f
  match unpack k a with
  | .nan x => (k.nan, flagIf x fNV)
  | .inf s => if s then (k.nan, fNV) else (0, fNone)
  | .fin s m _ =>
    if m = 0 then (k.signed true k.inf, fDZ)
    else if s then (k.nan, fNV)
    else if m = 2 ^ m.log2 then (0, fNone)
    else inexactResult f false (log2Exact m) 2 4 0x81 a

/-- FRCP (R293, R294, R296). -/
def spRcp (f : Fmt) (a : Nat) : Nat × FpFlags :=
  let k := fpOf f
  match unpack k a with
  | .nan x => (k.nan, flagIf x fNV)
  | .inf s => (k.signed s 0, fNone)
  | .fin s m e =>
    if m = 0 then (k.signed s k.inf, fDZ)
    else
      let r := roundRatio k .rne s 1 m (-e)
      if r.2 &&& 4 ≠ 0 then (k.signed s k.inf, fOF)
      else if m = 2 ^ m.log2 then (r.1, fNone)
      else inexactResult f s (2 ^ (300 + m.log2) / m, -(300 + m.log2 : Nat) - e) 2 2 0x82 a

/-- FRSQ (R293, R296). -/
def spRsq (f : Fmt) (a : Nat) : Nat × FpFlags :=
  let k := fpOf f
  match unpack k a with
  | .nan x => (k.nan, flagIf x fNV)
  | .inf s => if s then (k.nan, fNV) else (0, fNone)
  | .fin s m e =>
    if m = 0 then (k.signed s k.inf, fDZ)
    else if s then (k.nan, fNV)
    else if m = 2 ^ m.log2 && (e + m.log2) % 2 = 0 then
      ((roundFp k .rne false 1 (-(e + m.log2) / 2)).1, fNone)
    else inexactResult f false (rsqExact m e) 2 2 0x83 a

/-- The exact values of sine and cosine at integers and halves: the operand times two is `n` (R296). -/
def halves (m : Nat) (e : Int) : Option Nat :=
  if e ≥ -1 then some (m * 2 ^ (e + 1).toNat)
  else if m % 2 ^ (-(e + 1)).toNat = 0 then some (m / 2 ^ (-(e + 1)).toNat)
  else none

/-- FSIN1: sin πa (R293, R295, R296). -/
def spSin (f : Fmt) (a : Nat) : Nat × FpFlags :=
  let k := fpOf f
  match unpack k a with
  | .nan x => (k.nan, flagIf x fNV)
  | .inf _ => (k.nan, fNV)
  | .fin s m e =>
    match halves m e with
    | some n =>
      if n % 2 = 0 then (k.signed s 0, fNone)
      else (k.signed (s != (n % 4 = 3)) (oneOf k), fNone)
    | none =>
      let (neg, y) := sinExact m e
      inexactResult f (s != neg) y 2 4 0x84 (a % k.sign)

/-- FCOS1: cos πa (R293, R295, R296). -/
def spCos (f : Fmt) (a : Nat) : Nat × FpFlags :=
  let k := fpOf f
  match unpack k a with
  | .nan x => (k.nan, flagIf x fNV)
  | .inf _ => (k.nan, fNV)
  | .fin _ m e =>
    match halves m e with
    | some n =>
      if n % 2 = 1 then (0, fNone) else (k.signed (n % 4 = 2) (oneOf k), fNone)
    | none =>
      let (neg, y) := cosExact m e
      inexactResult f neg y 2 4 0x85 (a % k.sign)

/-- FTANH (R293, R295, R296). -/
def spTanh (f : Fmt) (a : Nat) : Nat × FpFlags :=
  let k := fpOf f
  match unpack k a with
  | .nan x => (k.nan, flagIf x fNV)
  | .inf s => (k.signed s (oneOf k), fNone)
  | .fin s m e =>
    if m = 0 then (a, fNone) else inexactResult f s (tanhExact m e) 4 4 0x86 (a % k.sign) endOne

/-- FSIGM: 1 / (1 + e^(-a)) (R293, R296). -/
def spSigm (f : Fmt) (a : Nat) : Nat × FpFlags :=
  let k := fpOf f
  match unpack k a with
  | .nan x => (k.nan, flagIf x fNV)
  | .inf s => (if s then 0 else oneOf k, fNone)
  | .fin s m e =>
    if m = 0 then ((roundFp k .rne false 1 (-1)).1, fNone)
    else inexactResult f false (sigmExact s m e) 4 4 0x87 a endZero

/-- FERF (R293, R295, R296). -/
def spErf (f : Fmt) (a : Nat) : Nat × FpFlags :=
  let k := fpOf f
  match unpack k a with
  | .nan x => (k.nan, flagIf x fNV)
  | .inf s => (k.signed s (oneOf k), fNone)
  | .fin s m e =>
    if m = 0 then (a, fNone) else inexactResult f s (erfExact m e) 4 4 0x88 (a % k.sign) endOne

/-- FEXP2F: 2^a for |a| ≤ 1. -/
def execFexp2f (f : Fields) (s : State) : Result := .next (s.each1 f (keepIf Fmt.isFloat) spExp2)
/-- FLOG2M: log₂ of the significand. -/
def execFlog2m (f : Fields) (s : State) : Result := .next (s.each1 f (keepIf Fmt.isFloat) spLog2)
/-- FRCP: 1/a. -/
def execFrcp (f : Fields) (s : State) : Result := .next (s.each1 f (keepIf Fmt.isFloat) spRcp)
/-- FRSQ: 1/√a. -/
def execFrsq (f : Fields) (s : State) : Result := .next (s.each1 f (keepIf Fmt.isFloat) spRsq)
/-- FSIN1: sin πa. -/
def execFsin1 (f : Fields) (s : State) : Result := .next (s.each1 f (keepIf Fmt.isFloat) spSin)
/-- FCOS1: cos πa. -/
def execFcos1 (f : Fields) (s : State) : Result := .next (s.each1 f (keepIf Fmt.isFloat) spCos)
/-- FTANH: tanh a. -/
def execFtanh (f : Fields) (s : State) : Result := .next (s.each1 f (keepIf Fmt.isFloat) spTanh)
/-- FSIGM: 1 / (1 + e^(-a)). -/
def execFsigm (f : Fields) (s : State) : Result := .next (s.each1 f (keepIf Fmt.isFloat) spSigm)
/-- FERF: erf a. -/
def execFerf (f : Fields) (s : State) : Result := .next (s.each1 f (keepIf Fmt.isFloat) spErf)

end Sys2Proof.Machine
end

