-- ==== Sys2Proof/Machine/Vector.lean ====
section
/-! DEFINITION. Vector runs, group 0x9 (R283 to R291). -/

namespace Sys2Proof.Machine

/-- The zero of a format (R283); for T, the null reference (R305). -/
def zeroOf (f : Fmt) : Nat := match f with
  | .t => 0x2000000000000000
  | _ => 0

/-- Element 0 of an operand with a format of its own, and its width (R283). -/
def State.scalarOf (s : State) (fr : Firing) (sel : Nat) : Option (Nat × Nat) :=
  match s.ownSource fr sel with
  | some (v, w) => some (at! v 0 0, w)
  | none => none

/-- A result of a run of its own, at wave `w`. -/
def Firing.resAt (fr : Firing) (f : Fields) (fmt : Fmt) (w : Nat) (poison : Bool) (vs : List Nat) : Res :=
  { wave := w, stop := fr.stopOf f, fmt := fmt, poison := poison, data := vs.map w64 }

/-- A result that is sent only where it has elements. -/
def State.sendSome (s : State) (fr : Firing) (ta d : Nat) (r : Res) : State :=
  if r.data.isEmpty then s else s.sendTo fr ta d r

/-- VSPLIT: elements below k as the primary result, the others as the secondary one (R285). -/
def execVsplit (f : Fields) (s : State) : Result :=
  let fr := s.run.cur
  let fm := fr.fmtOf f
  let link (poison : Bool) (d : Nat) : Nat := if poison && !fr.predOk f && !poisonedTok fr.c then unsteered d else d
  let two (s : State) (k : Nat) (poison : Bool) (a : List Nat) : State :=
    (s.sendSome fr f.ta.toNat (link poison f.da.toNat) (fr.resAt f fm fr.wave poison (a.take k))).sendSome fr
      f.ta.toNat f.db.toNat (fr.resAt f fm (fr.wave + k) poison (a.drop k))
  if poisonedTok (fr.port f.sb.toNat) then .next (s.sendPoison fr f (fr.poisonRes f fm))
  else
    match s.scalarOf fr f.sb.toNat with
    | none =>
      if fr.poisonOf f false then .next (s.sendPoison fr f (fr.poisonRes f fm))
      else .next (s.mismatch fr f fm)
    | some (k, _) =>
      if fr.poisonOf f false then
        .next (two s k true (List.replicate fr.run 0))
      else if !fr.predOk f then .next (s.mismatch fr f fm)
      else
        match s.source fr f.sa.toNat fm with
        | some a => .next (two s k false a)
        | none => .next (s.mismatch fr f fm)

/-- One token, or two of which the first holds 32 elements; the tap counts the elements of both operands (R198, R286). -/
def State.sendJoined (s : State) (fr : Firing) (f : Fields) (r : Res) : State :=
  if f.da.toNat = 7 then s.tapCount fr r.data.length
  else
    (s.sendSome fr f.ta.toNat f.da.toNat { r with data := r.data.take 32 }).sendSome fr f.ta.toNat
      f.da.toNat { r with wave := r.wave + 32, data := r.data.drop 32 }

/-- VJOIN: A's elements, then B's, at A's wave (R286). -/
def execVjoin (f : Fields) (s : State) : Result :=
  let fr := s.run.cur
  match fr.a, fr.b with
  | some a, some b =>
    let r : Res := ⟨a.wave, a.stop, a.fmt, a.poison || b.poison, a.data ++ b.data⟩
    if a.poison || b.poison then .next (s.sendJoined fr f r)
    else if a.fmt ≠ b.fmt || a.stop ≠ b.stop then
      let s := s.raise (fr.site s) { cause := 0x03, sub := 1, info := a.fmt.code + 16 * b.fmt.code }
      if f.da.toNat = 7 then .next s else .next (s.sendJoined fr f { r with poison := true })
    else .next (s.sendJoined fr f r)
  | _, _ => .next s

/-- An instruction that places elements under an operand of a format of its own (R287). -/
def State.placing (s : State) (f : Fields) (g : Fmt → Nat → List Nat → List Nat → Nat → List Nat) : State :=
  s.compute f false (keepIf anyFmt) fun fr fm =>
    match s.source fr f.sa.toNat fm, s.ownSource fr f.sb.toNat with
    | some a, some (b, w) => some (g fm fr.run a b w, fNone)
    | _, _ => none

/-- VBCAST: A[Min(k, n - 1)] in every element (R287). -/
def execVbcast (f : Fields) (s : State) : Result :=
  .next (s.placing f fun _ n a b _ => List.replicate n (at! a (min (at! b 0 0) (n - 1)) 0))

/-- VPERM: A[B[j]], or the zero of f past the run (R287). -/
def execVperm (f : Fields) (s : State) : Result :=
  .next (s.placing f fun fm n a b _ =>
    (upto n).map fun j => if at! b j 0 < n then at! a (at! b j 0) 0 else zeroOf fm)

/-- VSLIDE: A[j + s], or the zero of f outside the run (R287). -/
def execVslide (f : Fields) (s : State) : Result :=
  .next (s.placing f fun fm n a b w =>
    (upto n).map fun (j : Nat) =>
      let i : Int := j + toS w (at! b 0 0)
      if 0 ≤ i && i < n then at! a i.toNat 0 else zeroOf fm)

/-- The elements whose predicate is true, in order (R288). -/
def compact (ps : List Bool) (a : List Nat) : List Nat :=
  match ps, a with
  | p :: ps, x :: a => if p then x :: compact ps a else compact ps a
  | _, _ => []

/-- Elements placed where the predicate is true, zero elsewhere (R288). -/
def expand (z : Nat) : List Bool → List Nat → List Nat
  | [], _ => []
  | true :: ps, a => at! a 0 0 :: expand z ps (a.drop 1)
  | false :: ps, a => z :: expand z ps a

/-- The predicate on the port that SB names, when it has format P. -/
def Firing.predOn (fr : Firing) (sel : Nat) : Option (List Bool) :=
  match fr.port sel with
  | some t => if t.fmt = .p then some (t.data.map fun b => b.toNat % 2 == 1) else none
  | none => none

/-- VCOMPACT: the chosen elements as one token of their count; a poisoned predicate poisons the whole
run (R288). -/
def execVcompact (f : Fields) (s : State) : Result :=
  let fr := s.run.cur
  let fm := fr.fmtOf f
  if poisonedTok (fr.port f.sb.toNat) then .next (s.sendTo fr f.ta.toNat f.da.toNat (fr.poisonRes f fm))
  else
    match fr.predOn f.sb.toNat with
    | none =>
      if fr.poisonOf f false then .next (s.sendTo fr f.ta.toNat f.da.toNat (fr.poisonRes f fm))
      else .next (s.mismatch fr f fm)
    | some p =>
      if fr.poisonOf f false then
        .next (s.sendSome fr f.ta.toNat f.da.toNat
          (fr.resAt f fm fr.wave true (compact p (List.replicate fr.run 0))))
      else
        match s.source fr f.sa.toNat fm with
        | some a => .next (s.sendSome fr f.ta.toNat f.da.toNat (fr.resAt f fm fr.wave false (compact p a)))
        | none => .next (s.mismatch fr f fm)

/-- VEXPAND: elements of A at the true places, zeros elsewhere (R288). -/
def execVexpand (f : Fields) (s : State) : Result :=
  .next (s.compute f false (keepIf anyFmt) fun fr fm =>
    match s.source fr f.sa.toNat fm, fr.predOn f.sb.toNat with
    | some a, some p => some (padTo fr.run (expand (zeroOf fm) p a), fNone)
    | _, _ => none)

/-- How many of the first `j` predicate elements are true. -/
def countTrue (p : List Nat) (j : Nat) : Nat := ((p.take j).filter fun x => x % 2 == 1).length

/-- VIOTA: the number of true elements before each (R288). -/
def execViota (f : Fields) (s : State) : Result :=
  .next (s.compute f false (fun fm => if fm = .p then some .i32 else none) fun fr fm =>
    match s.source fr f.sa.toNat fm with
    | some a => some ((upto fr.run).map (countTrue a), fNone)
    | none => none)

/-- A reduction: one token of run 1 at the last wave of the firing (R284). -/
def State.reduce (s : State) (f : Fields) (out : Fmt → Option Fmt)
    (g : Firing → Fmt → Option (Nat × FpFlags)) : State :=
  let fr := s.run.cur
  let fm := fr.fmtOf f
  let w := fr.wave + fr.run - 1
  let ofmt := (out fm).getD fm
  if fr.poisonOf f false then s.sendPoison fr f (fr.resAt f ofmt w true [0])
  else if !fr.predOk f then s.mismatch fr f ofmt
  else
    match out fm with
    | none => s.mismatch fr f ofmt
    | some o =>
      match g fr fm with
      | none => s.mismatch fr f ofmt
      | some (v, fl) =>
        (s.orFlags fr.names.part fr.ctx fl).sendTo fr f.ta.toNat f.da.toNat (fr.resAt f o w false [v])

/-- A fold over the elements of operand A. -/
def State.reduceA (s : State) (f : Fields) (ok : Fmt → Bool) (g : Fmt → List Nat → Nat × FpFlags) : State :=
  s.reduce f (keepIf ok) fun fr fm => (s.source fr f.sa.toNat fm).map (g fm)

/-- Integer or floating formats (R289). -/
def intOrFloat (f : Fmt) : Bool := f.isInt || f.isFloat

/-- The signed or floating maximum or minimum of a list, folded (R289). -/
def extreme (wantMax : Bool) (fm : Fmt) (a : List Nat) : Nat × FpFlags :=
  match a with
  | [] => (0, fNone)
  | x :: xs =>
    if fm.isFloat then
      xs.foldl (fun r y => let m := fpMinMax (fpOf fm) wantMax r.1 y; (m.1, r.2 ||| m.2)) (canonNaN (fpOf fm) x)
    else
      (xs.foldl (fun r y =>
        if (toS fm.width r ≤ toS fm.width y) = wantMax then y else r) x, fNone)

/-- VREDADD: the wrapped sum (R289). -/
def execVredadd (f : Fields) (s : State) : Result :=
  .next (s.reduceA f Fmt.isInt fun fm a => exactly (a.foldl (· + ·) 0 % 2 ^ fm.width))
/-- VREDMAX (R289). -/
def execVredmax (f : Fields) (s : State) : Result := .next (s.reduceA f intOrFloat (extreme true))
/-- VREDMIN (R289). -/
def execVredmin (f : Fields) (s : State) : Result := .next (s.reduceA f intOrFloat (extreme false))

/-- Inclusive prefix sums from a running sum (R289). -/
def scanFrom (fm : Fmt) (acc : Nat) : List Nat → List Nat × FpFlags
  | [] => ([], fNone)
  | x :: xs =>
    let (y, fl) := if fm.isFloat then fpAdd (fpOf fm) acc x else ((acc + x) % 2 ^ fm.width, fNone)
    let (r, fl') := scanFrom fm y xs
    (y :: r, fl ||| fl')

/-- VSCAN: inclusive prefix sums in order of j (R289). -/
def execVscan (f : Fields) (s : State) : Result :=
  .next (s.compute f false (keepIf intOrFloat) fun fr fm =>
    match s.source fr f.sa.toNat fm with
    | some (x :: xs) =>
      let (y, fl) := if fm.isFloat then canonNaN (fpOf fm) x else (x, fNone)
      let (r, fl') := scanFrom fm y xs
      some (y :: r, fl ||| fl')
    | some [] => some ([], fNone)
    | none => none)

/-- The tree sum of a list (R290). -/
def treeSumOf (fm : Fmt) (v : List Nat) : Nat × FpFlags :=
  let (x, fl) := treeSum (fpOf fm) v.length v fNone
  let (y, fl') := canonNaN (fpOf fm) x
  (y, fl ||| fl')

/-- VFREDADD: the pairwise tree sum (R290). -/
def execVfredadd (f : Fields) (s : State) : Result := .next (s.reduceA f Fmt.isFloat treeSumOf)

/-- VLEN: the run length, in I32 (R291). -/
def execVlen (f : Fields) (s : State) : Result :=
  .next (s.reduce f (fun _ => some .i32) fun fr _ => some (fr.run, fNone))

/-- The dot product of two lists (R290). -/
def dot (fm : Fmt) (a b : List Nat) : Nat × FpFlags :=
  if fm.isFloat then
    let p := List.zipWith (fpMul (fpOf fm)) a b
    let (y, fl) := treeSumOf fm (p.map Prod.fst)
    (y, fl ||| orFlags (p.map Prod.snd))
  else
    ((List.zipWith (· * ·) a b).foldl (· + ·) 0 % 2 ^ fm.width, fNone)

/-- VDOT (R290). -/
def execVdot (f : Fields) (s : State) : Result :=
  .next (s.reduce f (keepIf intOrFloat) fun fr fm =>
    match s.source fr f.sa.toNat fm, s.source fr f.sb.toNat fm with
    | some a, some b => some (dot fm a b)
    | _, _ => none)

end Sys2Proof.Machine
end

