-- ==== Sys2Proof/Machine/Dispatch.lean ====
section
/-! DEFINITION. The dispatch of every row of the opcode table to its meaning. -/

namespace Sys2Proof.Machine

/-- One step of the machine, performed whole: a word acts on the firing that the latch holds, an event
on its parameters and the subject. -/
def exec (i : Instr) (s : State) : Host.Outcome State Fault Refusal :=
  match i with
  | .mov f => Sys2Proof.Machine.execMov f s
  | .steer f => Sys2Proof.Machine.execSteer f s
  | .merge f => Sys2Proof.Machine.execMerge f s
  | .select f => Sys2Proof.Machine.execSelect f s
  | .gate f => Sys2Proof.Machine.execGate f s
  | .wadv f => Sys2Proof.Machine.execWadv f s
  | .wset f => Sys2Proof.Machine.execWset f s
  | .itag f => Sys2Proof.Machine.execItag f s
  | .ctxnew f => Sys2Proof.Machine.execCtxnew f s
  | .ctxsend f => Sys2Proof.Machine.execCtxsend f s
  | .ctxret f => Sys2Proof.Machine.execCtxret f s
  | .ctxfree f => Sys2Proof.Machine.execCtxfree f s
  | .sink f => Sys2Proof.Machine.execSink f s
  | .stop f => Sys2Proof.Machine.execStop f s
  | .add f => Sys2Proof.Machine.execAdd f s
  | .sub f => Sys2Proof.Machine.execSub f s
  | .adds f => Sys2Proof.Machine.execAdds f s
  | .addsn f => Sys2Proof.Machine.execAddsn f s
  | .subs f => Sys2Proof.Machine.execSubs f s
  | .subsn f => Sys2Proof.Machine.execSubsn f s
  | .mul f => Sys2Proof.Machine.execMul f s
  | .mulh f => Sys2Proof.Machine.execMulh f s
  | .mulhn f => Sys2Proof.Machine.execMulhn f s
  | .div f => Sys2Proof.Machine.execDiv f s
  | .divn f => Sys2Proof.Machine.execDivn f s
  | .rem f => Sys2Proof.Machine.execRem f s
  | .remn f => Sys2Proof.Machine.execRemn f s
  | .madd f => Sys2Proof.Machine.execMadd f s
  | .neg f => Sys2Proof.Machine.execNeg f s
  | .abs f => Sys2Proof.Machine.execAbs f s
  | .and_ f => Sys2Proof.Machine.execAnd f s
  | .or_ f => Sys2Proof.Machine.execOr f s
  | .xor_ f => Sys2Proof.Machine.execXor f s
  | .andn f => Sys2Proof.Machine.execAndn f s
  | .not_ f => Sys2Proof.Machine.execNot f s
  | .shl f => Sys2Proof.Machine.execShl f s
  | .shrl f => Sys2Proof.Machine.execShrl f s
  | .shra f => Sys2Proof.Machine.execShra f s
  | .rotl f => Sys2Proof.Machine.execRotl f s
  | .clz f => Sys2Proof.Machine.execClz f s
  | .ctz f => Sys2Proof.Machine.execCtz f s
  | .popc f => Sys2Proof.Machine.execPopc f s
  | .brev f => Sys2Proof.Machine.execBrev f s
  | .bfx f => Sys2Proof.Machine.execBfx f s
  | .bfi f => Sys2Proof.Machine.execBfi f s
  | .byteperm f => Sys2Proof.Machine.execByteperm f s
  | .ceq f => Sys2Proof.Machine.execCeq f s
  | .cne f => Sys2Proof.Machine.execCne f s
  | .clt f => Sys2Proof.Machine.execClt f s
  | .cle f => Sys2Proof.Machine.execCle f s
  | .cltn f => Sys2Proof.Machine.execCltn f s
  | .clen f => Sys2Proof.Machine.execClen f s
  | .min_ f => Sys2Proof.Machine.execMin f s
  | .max_ f => Sys2Proof.Machine.execMax f s
  | .minn f => Sys2Proof.Machine.execMinn f s
  | .maxn f => Sys2Proof.Machine.execMaxn f s
  | .lea f => Sys2Proof.Machine.execLea f s
  | .idx f => Sys2Proof.Machine.execIdx f s
  | .sext f => Sys2Proof.Machine.execSext f s
  | .zext f => Sys2Proof.Machine.execZext f s
  | .narrow f => Sys2Proof.Machine.execNarrow f s
  | .narrows f => Sys2Proof.Machine.execNarrows f s
  | .ld f => Sys2Proof.Machine.execLd f s
  | .st f => Sys2Proof.Machine.execSt f s
  | .ldv f => Sys2Proof.Machine.execLdv f s
  | .stv f => Sys2Proof.Machine.execStv f s
  | .ldg f => Sys2Proof.Machine.execLdg f s
  | .sts f => Sys2Proof.Machine.execSts f s
  | .mnop f => Sys2Proof.Machine.execMnop f s
  | .ldfe f => Sys2Proof.Machine.execLdfe f s
  | .stfe f => Sys2Proof.Machine.execStfe f s
  | .region f => Sys2Proof.Machine.execRegion f s
  | .pref f => Sys2Proof.Machine.execPref f s
  | .flushr f => Sys2Proof.Machine.execFlushr f s
  | .invr f => Sys2Proof.Machine.execInvr f s
  | .amofmin f => Sys2Proof.Machine.execAmofmin f s
  | .amofmax f => Sys2Proof.Machine.execAmofmax f s
  | .ctrread f => Sys2Proof.Machine.execCtrread f s
  | .amoadd f => Sys2Proof.Machine.execAmoadd f s
  | .amoand f => Sys2Proof.Machine.execAmoand f s
  | .amoor f => Sys2Proof.Machine.execAmoor f s
  | .amoxor f => Sys2Proof.Machine.execAmoxor f s
  | .amomin f => Sys2Proof.Machine.execAmomin f s
  | .amomax f => Sys2Proof.Machine.execAmomax f s
  | .amominn f => Sys2Proof.Machine.execAmominn f s
  | .amomaxn f => Sys2Proof.Machine.execAmomaxn f s
  | .amoswap f => Sys2Proof.Machine.execAmoswap f s
  | .amocas f => Sys2Proof.Machine.execAmocas f s
  | .amofadd f => Sys2Proof.Machine.execAmofadd f s
  | .ctradd f => Sys2Proof.Machine.execCtradd f s
  | .ctrwait f => Sys2Proof.Machine.execCtrwait f s
  | .lease f => Sys2Proof.Machine.execLease f s
  | .unlease f => Sys2Proof.Machine.execUnlease f s
  | .fence f => Sys2Proof.Machine.execFence f s
  | .fadd f => Sys2Proof.Machine.execFadd f s
  | .fsub f => Sys2Proof.Machine.execFsub f s
  | .fmul f => Sys2Proof.Machine.execFmul f s
  | .ffma f => Sys2Proof.Machine.execFfma f s
  | .ffms f => Sys2Proof.Machine.execFfms f s
  | .fnfma f => Sys2Proof.Machine.execFnfma f s
  | .fdiv f => Sys2Proof.Machine.execFdiv f s
  | .fsqrt f => Sys2Proof.Machine.execFsqrt f s
  | .fmin f => Sys2Proof.Machine.execFmin f s
  | .fmax f => Sys2Proof.Machine.execFmax f s
  | .fminm f => Sys2Proof.Machine.execFminm f s
  | .fmaxm f => Sys2Proof.Machine.execFmaxm f s
  | .fabs f => Sys2Proof.Machine.execFabs f s
  | .fneg f => Sys2Proof.Machine.execFneg f s
  | .fcpys f => Sys2Proof.Machine.execFcpys f s
  | .fclass f => Sys2Proof.Machine.execFclass f s
  | .fceq f => Sys2Proof.Machine.execFceq f s
  | .fclt f => Sys2Proof.Machine.execFclt f s
  | .fcle f => Sys2Proof.Machine.execFcle f s
  | .fcun f => Sys2Proof.Machine.execFcun f s
  | .fcvt f => Sys2Proof.Machine.execFcvt f s
  | .fcvti f => Sys2Proof.Machine.execFcvti f s
  | .icvtf f => Sys2Proof.Machine.execIcvtf f s
  | .icvtfn f => Sys2Proof.Machine.execIcvtfn f s
  | .frint f => Sys2Proof.Machine.execFrint f s
  | .fscale f => Sys2Proof.Machine.execFscale f s
  | .fexpo f => Sys2Proof.Machine.execFexpo f s
  | .fmant f => Sys2Proof.Machine.execFmant f s
  | .fsplit f => Sys2Proof.Machine.execFsplit f s
  | .fexp2f f => Sys2Proof.Machine.execFexp2f f s
  | .flog2m f => Sys2Proof.Machine.execFlog2m f s
  | .frcp f => Sys2Proof.Machine.execFrcp f s
  | .frsq f => Sys2Proof.Machine.execFrsq f s
  | .fsin1 f => Sys2Proof.Machine.execFsin1 f s
  | .fcos1 f => Sys2Proof.Machine.execFcos1 f s
  | .ftanh f => Sys2Proof.Machine.execFtanh f s
  | .fsigm f => Sys2Proof.Machine.execFsigm f s
  | .ferf f => Sys2Proof.Machine.execFerf f s
  | .vsplit f => Sys2Proof.Machine.execVsplit f s
  | .vjoin f => Sys2Proof.Machine.execVjoin f s
  | .vbcast f => Sys2Proof.Machine.execVbcast f s
  | .vredadd f => Sys2Proof.Machine.execVredadd f s
  | .vredmax f => Sys2Proof.Machine.execVredmax f s
  | .vredmin f => Sys2Proof.Machine.execVredmin f s
  | .vscan f => Sys2Proof.Machine.execVscan f s
  | .vperm f => Sys2Proof.Machine.execVperm f s
  | .vslide f => Sys2Proof.Machine.execVslide f s
  | .vcompact f => Sys2Proof.Machine.execVcompact f s
  | .vexpand f => Sys2Proof.Machine.execVexpand f s
  | .viota f => Sys2Proof.Machine.execViota f s
  | .vfredadd f => Sys2Proof.Machine.execVfredadd f s
  | .vlen f => Sys2Proof.Machine.execVlen f s
  | .vdot f => Sys2Proof.Machine.execVdot f s
  | .tld f => Sys2Proof.Machine.execTld f s
  | .tst f => Sys2Proof.Machine.execTst f s
  | .mma f => Sys2Proof.Machine.execMma f s
  | .mmaz f => Sys2Proof.Machine.execMmaz f s
  | .tcvt f => Sys2Proof.Machine.execTcvt f s
  | .ttrans f => Sys2Proof.Machine.execTtrans f s
  | .tadd f => Sys2Proof.Machine.execTadd f s
  | .tscale f => Sys2Proof.Machine.execTscale f s
  | .gemvb f => Sys2Proof.Machine.execGemvb f s
  | .cbload f => Sys2Proof.Machine.execCbload f s
  | .tstat f => Sys2Proof.Machine.execTstat f s
  | .tfill f => Sys2Proof.Machine.execTfill f s
  | .tslice f => Sys2Proof.Machine.execTslice f s
  | .tbuild f => Sys2Proof.Machine.execTbuild f s
  | .sopen f => Sys2Proof.Machine.execSopen f s
  | .sread f => Sys2Proof.Machine.execSread f s
  | .swrite f => Sys2Proof.Machine.execSwrite f s
  | .sclose f => Sys2Proof.Machine.execSclose f s
  | .isect f => Sys2Proof.Machine.execIsect f s
  | .union f => Sys2Proof.Machine.execUnion f s
  | .spaacc f => Sys2Proof.Machine.execSpaacc f s
  | .spaflush f => Sys2Proof.Machine.execSpaflush f s
  | .stoplvl f => Sys2Proof.Machine.execStoplvl f s
  | .scount f => Sys2Proof.Machine.execScount f s
  | .copy f => Sys2Proof.Machine.execCopy f s
  | .copym f => Sys2Proof.Machine.execCopym f s
  | .copy2d f => Sys2Proof.Machine.execCopy2d f s
  | .shadow f => Sys2Proof.Machine.execShadow f s
  | .publish f => Sys2Proof.Machine.execPublish f s
  | .feset f => Sys2Proof.Machine.execFeset f s
  | .feclr f => Sys2Proof.Machine.execFeclr f s
  | .copystat f => Sys2Proof.Machine.execCopystat f s
  | .waymask f => Sys2Proof.Machine.execWaymask f s
  | .alloc f => Sys2Proof.Machine.execAlloc f s
  | .free f => Sys2Proof.Machine.execFree f s
  | .ringreg f => Sys2Proof.Machine.execRingreg f s
  | .msend f => Sys2Proof.Machine.execMsend f s
  | .mrecv f => Sys2Proof.Machine.execMrecv f s
  | .mpeek f => Sys2Proof.Machine.execMpeek f s
  | .mack f => Sys2Proof.Machine.execMack f s
  | .ringdereg f => Sys2Proof.Machine.execRingdereg f s
  | .trap f => Sys2Proof.Machine.execTrap f s
  | .syscall f => Sys2Proof.Machine.execSyscall f s
  | .rdsys f => Sys2Proof.Machine.execRdsys f s
  | .wrsys f => Sys2Proof.Machine.execWrsys f s
  | .yield f => Sys2Proof.Machine.execYield f s
  | .halt f => Sys2Proof.Machine.execHalt f s
  | .taskdone f => Sys2Proof.Machine.execTaskdone f s
  | .taskspawn f => Sys2Proof.Machine.execTaskspawn f s
  | .workid f => Sys2Proof.Machine.execWorkid f s
  | .perfrd f => Sys2Proof.Machine.execPerfrd f s
  | .break f => Sys2Proof.Machine.execBreak f s
  | .assert f => Sys2Proof.Machine.execAssert f s
  | .elog f => Sys2Proof.Machine.execElog f s
  | .clock f => Sys2Proof.Machine.execClock f s
  | .coldReset imageA imageB => Sys2Proof.Machine.execColdReset imageA imageB s
  | .warmReset imageA imageB => Sys2Proof.Machine.execWarmReset imageA imageB s
  | .reducedServiceEnd plan linkTrained => Sys2Proof.Machine.execReducedServiceEnd plan linkTrained s
  | .sageWatchdogRecovery => Sys2Proof.Machine.execSageWatchdogRecovery s
  | .dieBridgeDown => Sys2Proof.Machine.execDieBridgeDown s
  | .hostLsdcfgWrite v => Sys2Proof.Machine.execHostLsdcfgWrite v s
  | .registerWrite p w r v => Sys2Proof.Machine.execRegisterWrite p w r v s
  | .sysFlagsrcRead p c => Sys2Proof.Machine.execSysFlagsrcRead p c s
  | .xlatinv p v => Sys2Proof.Machine.execXlatinv p v s
  | .fresumeRetry p v => Sys2Proof.Machine.execFresumeRetry p v s
  | .fresumeKill p v => Sys2Proof.Machine.execFresumeKill p v s
  | .framescrub p w v => Sys2Proof.Machine.execFramescrub p w v s
  | .asidbaseWrite p v => Sys2Proof.Machine.execAsidbaseWrite p v s
  | .clwaysWrite p cluster v => Sys2Proof.Machine.execClwaysWrite p cluster v s
  | .slicecfgModeWrite p v => Sys2Proof.Machine.execSlicecfgModeWrite p v s
  | .blkmove p v => Sys2Proof.Machine.execBlkmove p v s
  | .moveInstall => Sys2Proof.Machine.execMoveInstall s
  | .moveSweep => Sys2Proof.Machine.execMoveSweep s
  | .moveFree => Sys2Proof.Machine.execMoveFree s
  | .pctlSave p v => Sys2Proof.Machine.execPctlSave p v s
  | .saveSettleRound => Sys2Proof.Machine.execSaveSettleRound s
  | .pctlRestore p v => Sys2Proof.Machine.execPctlRestore p v s
  | .ctxctlResume p v => Sys2Proof.Machine.execCtxctlResume p v s
  | .ctxctlKill p v => Sys2Proof.Machine.execCtxctlKill p v s
  | .scvalWrite p w v => Sys2Proof.Machine.execScvalWrite p w v s
  | .scdoneWrite p w v => Sys2Proof.Machine.execScdoneWrite p w v s
  | .launchSubmit p q v => Sys2Proof.Machine.execLaunchSubmit p q v s
  | .grow v => Sys2Proof.Machine.execGrow v s
  | .shrink v => Sys2Proof.Machine.execShrink v s
  | .defrag v => Sys2Proof.Machine.execDefrag v s
  | .reserve v => Sys2Proof.Machine.execReserve v s
  | .release v => Sys2Proof.Machine.execRelease v s
  | .stripScrubDone => Sys2Proof.Machine.execStripScrubDone s
  | .rehashWalk => Sys2Proof.Machine.execRehashWalk s
  | .layoutCommit => Sys2Proof.Machine.execLayoutCommit s
  | .stripZeroDone => Sys2Proof.Machine.execStripZeroDone s
  | .hostApertureAccess p x => Sys2Proof.Machine.execHostApertureAccess p x s
  | .peerAccess x => Sys2Proof.Machine.execPeerAccess x s
  | .reductionMerge x => Sys2Proof.Machine.execReductionMerge x s
  | .hostCompletionTimeout op => Sys2Proof.Machine.execHostCompletionTimeout op s
  | .emulate op old => Sys2Proof.Machine.execEmulate op old s
  | .coreMemoryAccess p asid x => Sys2Proof.Machine.execCoreMemoryAccess p asid x s
  | .getS => Sys2Proof.Machine.execGetS s
  | .getM => Sys2Proof.Machine.execGetM s
  | .upgrade => Sys2Proof.Machine.execUpgrade s
  | .putS => Sys2Proof.Machine.execPutS s
  | .putO => Sys2Proof.Machine.execPutO s
  | .inv => Sys2Proof.Machine.execInv s
  | .invAck => Sys2Proof.Machine.execInvAck s
  | .forwardedProbe => Sys2Proof.Machine.execForwardedProbe s
  | .l2Access => Sys2Proof.Machine.execL2Access s
  | .memAccess => Sys2Proof.Machine.execMemAccess s
  | .chainPerform => Sys2Proof.Machine.execChainPerform s
  | .leaseGrant => Sys2Proof.Machine.execLeaseGrant s
  | .leaseExpiry => Sys2Proof.Machine.execLeaseExpiry s
  | .ctrwaitRepresent => Sys2Proof.Machine.execCtrwaitRepresent s
  | .enginePiece => Sys2Proof.Machine.execEnginePiece s
  | .engineCompletionAdd => Sys2Proof.Machine.execEngineCompletionAdd s
  | .publishPoint => Sys2Proof.Machine.execPublishPoint s
  | .splice p asid page frame => Sys2Proof.Machine.execSplice p asid page frame s
  | .islandStep => Sys2Proof.Machine.execIslandStep s
  | .tokenArrival => Sys2Proof.Machine.execTokenArrival s
  | .flitCross => Sys2Proof.Machine.execFlitCross s
  | .creditReturn => Sys2Proof.Machine.execCreditReturn s
  | .messageReceive => Sys2Proof.Machine.execMessageReceive s
  | .ringEntryComplete => Sys2Proof.Machine.execRingEntryComplete s
  | .messageAck => Sys2Proof.Machine.execMessageAck s
  | .trapRecordWrite => Sys2Proof.Machine.execTrapRecordWrite s
  | .thymeEventWrite => Sys2Proof.Machine.execThymeEventWrite s
  | .qosWindowEnd => Sys2Proof.Machine.execQosWindowEnd s
  | .powerPeriod grants => Sys2Proof.Machine.execPowerPeriod grants s
  | .launchStart => Sys2Proof.Machine.execLaunchStart s
  | .sectionLoad => Sys2Proof.Machine.execSectionLoad s
  | .blockEvict => Sys2Proof.Machine.execBlockEvict s
  | .blockReload => Sys2Proof.Machine.execBlockReload s
  | .dispatch => Sys2Proof.Machine.execDispatch s
  | .schedTableDispatch => Sys2Proof.Machine.execSchedTableDispatch s
  | .releaseIslands => Sys2Proof.Machine.execReleaseIslands s
  | .taskRetire => Sys2Proof.Machine.execTaskRetire s
  | .launchComplete => Sys2Proof.Machine.execLaunchComplete s
  | .taskAbort => Sys2Proof.Machine.execTaskAbort s
  | .taskRequeue => Sys2Proof.Machine.execTaskRequeue s
  | .statRecordMerge => Sys2Proof.Machine.execStatRecordMerge s
  | .statRecordApply => Sys2Proof.Machine.execStatRecordApply s
  | .hostCompletion op v => Sys2Proof.Machine.execHostCompletion op v s
  | .peerAcknowledgement op v refused => Sys2Proof.Machine.execPeerAcknowledgement op v refused s

end Sys2Proof.Machine
end

