-- ==== Sys2Proof/Machine/Errors.lean ====
section
/-! DEFINITION. Errors of the storage (R403; log 24, DESIGN CHOICE): what an error does where it strikes. What finds it does so as it reads,
in the operation that reads. -/

namespace Sys2Proof.Machine

/-- A block's tables are bad: it is evicted and reloaded from its code object into the half it stood on, under a record, and
no token is lost (R394, R403). -/
def State.tableError (s : State) (p cluster elem half : Nat) : State :=
  match s.occupant p cluster elem half with
  | none => s
  | some (l, b) =>
    match s.section? p l with
    | none => s
    | some x =>
      if !s.trapRoom (clusterStrip cluster) then s
      else
        let w : Site := ⟨⟨p, l, false, b, 0⟩, 0, 0, 0, 0, cluster, clusterStrip cluster⟩
        ((s.raise w { cause := 0x0B, sub := 3 }).writeSlots ⟨cluster, elem, half⟩ (x.image.slotsOf b)).forgetPlace p l b

/-- A token of a number, poisoned. -/
def poisonToken (id : Nat) (t : Token) : Token := if t.id == id then { t with poison := true } else t

/-- A firing with that token poisoned. -/
def poisonFiring (id : Nat) (f : Firing) : Firing :=
  { f with a := f.a.map (poisonToken id), b := f.b.map (poisonToken id), c := f.c.map (poisonToken id) }

/-- A node's tables are bad: they are reloaded from the code object under a record (R403). -/
def State.nodeTableError (s : State) (n : Names) : State :=
  match s.channel? n, s.section? n.part n.lsec with
  | some c, some x =>
    if !s.trapRoom (clusterStrip c.cluster) then s
    else
      let w : Site := ⟨n, 0, 0, 0, 0, nearSlice c.cluster, clusterStrip c.cluster⟩
      (s.raise w { cause := 0x0B, sub := 3 }).modChannel n fun y =>
        { y with slots := (at! x.image.chans n.block ⟨true, 0, []⟩).slots.take y.slots.length }
  | _, _ => s

/-- Element `j` of a queue, poisoned. -/
def spoilElem (q : List SElem) (j : Nat) : List SElem := modAt q j fun x => { x with poison := true }

/-- Saved state with a token of that number poisoned. -/
def Saved.strike (v : Saved) (id : Nat) : Saved :=
  { v with waiting := v.waiting.map (poisonToken id), net := v.net.map (poisonToken id), held := v.held.map (poisonToken id),
           ready := v.ready.map (poisonFiring id), bad := true }

/-- The level of an SRAM that an error names. -/
def errorLevel : Nat → Level
  | 0 => .es
  | 1 => .cs
  | _ => .ss

/-- An error strikes (R403). -/
def State.strike (s : State) (e : Config.StoreError) : State :=
  match e with
  | .corrected strip unit loc => s.pushThyme strip (thymeEvt 0 2 0 0 unit loc)
  | .block pa => if paLocal pa then s.spoil .mem (alignDown pa 64) (upto 64) else s
  | .granule space a => s.spoil (errorLevel space) (alignDown a 16) (upto 16)
  | .l1 c asid line => s.modL1 c asid line fun x => { x with bad := upto 64 }
  | .l2 sl asid line => s.modL2 sl asid line fun x => { x with bad := upto 64 }
  | .operand id =>
    { s with fab := { s.fab with waiting := s.fab.waiting.map (poisonToken id), net := s.fab.net.map (poisonToken id),
                                 held := s.fab.held.map (poisonToken id), ready := s.fab.ready.map (poisonFiring id) } }
  | .keep p c cl el k => s.modCtx p c fun x => { x with badKeeps := (cl, el, k) :: x.badKeeps.filter fun e => e ≠ (cl, el, k) }
  | .entry id => s.modOp id fun o => if o.phase = .buffered then { o with poison := true } else o
  | .xlat sl asid page size =>
    let hit (x : Xlat) : Bool := x.slice == sl && x.asid == asid && x.page == page && x.size == size
    { s with mem := { s.mem with xlat := modFirst hit (fun x => { x with bad := true }) s.mem.xlat } }
  | .island p l c k => s.modChannel ⟨p, l, true, c, 0⟩ fun y => if y.island then { y with bad := k :: (y.mended k).bad } else y
  | .queue p l c x i j second => s.modStream ⟨p, l, true, c, i⟩ x fun st =>
    if second then { st with headB := st.headB.set i (spoilElem (st.headB.getD i []) j) }
    else { st with headA := st.headA.set i (spoilElem (st.headA.getD i []) j) }
  | .tile p l c x i j => s.modStream ⟨p, l, true, c, i⟩ x fun st =>
    { st with tiles := match st.tiles.get i with
      | some t => st.tiles.set i { t with bad := setAt t.bad j true }
      | none => st.tiles }
  | .table p cl el h => s.tableError p cl el h
  | .node p l c i => s.nodeTableError ⟨p, l, true, c, i⟩
  | .saved p bank id => s.modPart p fun x =>
    if bank = 0 then { x with bank0 := x.bank0.map fun v => v.strike id }
    else { x with bank1 := x.bank1.map fun v => v.strike id }

/-- The error of a step, if one strikes. -/
def State.suffer (s : State) : State :=
  match Config.error s.run.steps with
  | some e => s.strike e
  | none => s

end Sys2Proof.Machine
end

