-- ==== Sys2Proof/Machine/Sched.lean ====
section
/-! DEFINITION. Which move the machine makes next (R12, R97, R184; log 4, DESIGN CHOICE): the first row of the agenda,
else one of the moves that its units can make. -/

namespace Sys2Proof.Machine

/-- What a step does: a firing issues from the latch, an event is performed, time passes, or the machine
has stopped. -/
inductive NextMove where
  | issue (s : State)
  | event (i : Instr) (s : State)
  | idle (s : State)
  | stopped
deriving DecidableEq, Repr

/-- A reset, the one row that goes on when no image is valid (R444, R445). -/
def isReset (a : Action) : Bool :=
  match a with
  | .event (.coldReset _ _) _ => true
  | .event (.warmReset _ _) _ => true
  | _ => false

/-! ### The issue window of an element (R396, R397) -/

/-- A matched set may issue: its context lives and is not halted (R182, R405), its partition is not stopped (R142),
its block is not frozen by a move (R361), and where the partition is gated its context holds an active lease
(R413). -/
def State.mayIssue (s : State) (f : Firing) : Bool :=
  let p := f.names.part
  let x := s.part p
  let fits := match s.ctx? p f.ctx with
    | some c => !c.aborted && !c.halted
    | none => false
  let frozen := !f.names.node && match s.entry? f.names with
    | some e => e.moving || !e.valid
    | none => true
  let leased := !f.names.node && s.mem.leases.any fun l => l.part == p && l.ctx == f.ctx
  fits && x.live && !x.stopped && !frozen && (!x.gated || leased)

/-- The contexts of matched sets, in the arrival order of their oldest. -/
def setCtxs (l : List Firing) : List Nat :=
  l.foldl (fun acc f => if acc.contains f.ctx then acc else acc ++ [f.ctx]) []

/-- The window at an issue slot (R396): residents without a ready set leave, contexts enter free places in the
arrival order of their oldest ready set, and while some still wait outside, residents that have issued 16 times or
yielded give their places up, and enter behind them (log 42, DEDUCED). -/
def rollWindow (w : List (Nat × Nat × Nat)) (ready : List Nat) (yielded : Option Nat) : List (Nat × Nat × Nat) :=
  let stay := w.filter fun x => ready.contains x.1
  let out := ready.filter fun c => !(stay.any fun x => x.1 == c)
  let fresh (l : List Nat) : List (Nat × Nat × Nat) := l.map fun c => (c, 0, 0)
  let w1 := stay ++ fresh (out.take (16 - stay.length))
  let rest := out.drop (16 - stay.length)
  if rest.isEmpty then w1
  else
    let goes (x : Nat × Nat × Nat) : Bool := 16 ≤ x.2.2 || yielded == some x.1
    let keep := w1.filter fun x => !goes x
    keep ++ fresh ((rest ++ (w1.filter goes).map (·.1)).take (16 - keep.length))

/-- The context that issues (Choose of R397). -/
def chooseCtx (w : List (Nat × Nat × Nat)) (ready : List Nat) (prio : Nat → Nat) : Option Nat :=
  let d (x : Nat × Nat × Nat) : Nat := 15 - x.2.1
  let tight := (upto 16).any fun k => k + 1 ≤ (w.filter fun x => d x < k + 1).length
  if tight then (minBy d w).map (·.1)
  else minBy (fun c => 3 - prio c) (ready.filter fun c => w.any fun x => x.1 == c)

/-- An issue slot of an element: the window, the context, and its oldest ready set (R396, R397). -/
def State.issueSlot (s : State) (p cluster elem : Nat) : Option (Firing × State) :=
  let sets := s.fab.ready.filter fun f => !f.names.node && f.cluster == cluster && f.elem == elem && s.mayIssue f
  let ready := setCtxs sets
  let w := rollWindow (s.elem cluster elem).window ready (s.elem cluster elem).yield_
  let prio (c : Nat) : Nat := match s.ctx? p c with
    | some x => x.prio
    | none => 0
  match chooseCtx w ready prio with
  | none => none
  | some c =>
    match sets.find? fun f => f.ctx == c with
    | none => none
    | some f =>
      let w := w.map fun x => if x.1 == c then (c, 0, x.2.2 + 1) else (x.1, x.2.1 + 1, x.2.2)
      let s := s.modElem cluster elem fun e => { e with window := w, yield_ := none }
      some (f, { s with fab := { s.fab with ready := dropFirst (fun g => g = f) s.fab.ready } })

/-- The oldest matched set of a node issues (R318, R341). -/
def State.issueNode (s : State) (f : Firing) : Option (Firing × State) :=
  match s.fab.ready.find? fun g => g.names = f.names && s.mayIssue g with
  | none => none
  | some g => some (g, { s with fab := { s.fab with ready := dropFirst (fun x => x = g) s.fab.ready } })

/-- A firing that the units make, if one may issue. -/
def State.nextFiring (s : State) : Option (Firing × State) :=
  let l := s.fab.ready.filter s.mayIssue
  match at! (l.map some) (if l.isEmpty then 0 else Config.choose s.run.steps % l.length) none with
  | none => none
  | some f => if f.names.node then s.issueNode f else s.issueSlot f.names.part f.cluster f.elem

/-! ### Steps -/

/-- The step is counted and time passes (log 4, DESIGN CHOICE); an element whose matching store is full counts it (R411, event 3; log 70, DESIGN CHOICE). -/
def State.tick (s : State) : State :=
  let n := Config.cycles s.run.steps
  let at_ := s.fab.waiting.foldl (fun acc t => match t.at_ with
    | some x => if acc.contains x then acc else x :: acc
    | none => acc) []
  let s := at_.foldl (fun (s : State) x =>
    if s.storeFull x then s.modElem x.1 x.2 fun e => { e with full := satCount e.full n } else s) s
  let s := ((s.work.ops.map fun o => o.cluster) ++ s.work.engs.map fun e => e.cluster).eraseDups.foldl (fun (s : State) c => s.countEjected c (Config.memFlits s.run.steps c)) s
  { s with dev := { s.dev with clock := s.dev.clock + n }, run := { s.run with steps := s.run.steps + 1 } }

/-- An action begins. -/
def begin_ (a : Action) (s : State) : NextMove :=
  match a with
  | .issue f => .issue (s.latch f)
  | .event i x => .event i { s with run := { s.run with subj := x } }

/-- What happens when the agenda names nothing: a row of the environment or of a unit, else a firing (log 4, DESIGN CHOICE). -/
def freeMove (s : State) : Option (Action × State) :=
  match Config.event s.run.steps with
  | some (i, a, b, c) => if i.wellFormed && (encodeWord i).isNone then some (.event i ⟨a, b, c⟩, s) else none
  | none => s.nextFiring.map fun x => (.issue x.1, x.2)

/-- The next move. Where the agenda names nothing, an error may strike the storage first (R403; log 24, DESIGN CHOICE). -/
def nextMove (s : State) : NextMove :=
  let (m, s) : Option (Action × State) × State := match s.run.agenda with
    | a :: r => (some (a, { s with run := { s.run with agenda := r } }), s)
    | [] => (freeMove s.suffer, s.suffer)
  match m with
  | none => if s.dev.mbstat = 0x0F then .stopped else .idle s.tick
  | some (a, s) => if s.dev.mbstat = 0x0F && !isReset a then .stopped else begin_ a s.tick

end Sys2Proof.Machine
end

