-- ==== Sys2Proof/Machine/Step.lean ====
section
/-! DEFINITION. One step of the machine: what moves next is chosen, a firing is latched and its word
decoded, and the row is performed. And the state in which a given word issues next. -/

namespace Sys2Proof.Machine

/-- A strip's buffer of trap records that wait (R399). -/
def State.trapsOf (s : State) (strip : Nat) : Nat := (s.dev.traps.filter fun r => r.strip == strip).length

/-- A row would add a record to a strip's full buffer of 64: what raises it waits, and nothing of it happens (R399; log 43, DEDUCED). -/
def trapWait (s t : State) : Bool :=
  (upto 16).any fun k => 0 < s.trapsOf k && s.trapsOf k < t.trapsOf k && 64 < t.trapsOf k

/-- A row's outcome, or time alone where it must wait for room in a trap buffer. -/
def orWait (s : State) (r : Result) : Result :=
  match r with
  | .next t => if trapWait s t then .next s.tick else .next t
  | r => r

/-- One step. The row named first in the agenda is performed, else one of the moves that the units and the
outside can make (log 4, DESIGN CHOICE). A word that the loader would reject raises its trap instead (R187, R208). With no valid
image the machine has stopped, and only a reset goes on (R445). -/
def step (s : State) : Host.Outcome State Fault Refusal :=
  match nextMove s with
  | .stopped => .fault .noValidImage
  | .idle t => .next t
  | .event i t => orWait s (exec i t)
  | .issue t =>
    match issuedWord t with
    | some i => orWait s (exec i t)
    | none => orWait s (.next (illegalWord t))

/-- The state with an instruction word placed where the next step fetches it: in slot 0 of an element of
partition 0, whose block, section and context stand ready, and with its matched set first in the
agenda (log 11, DESIGN CHOICE). -/
def State.withFetchWord (s : State) (nbits w : Nat) : State :=
  if nbits = 0 then s else placeWord s (BitVec.ofNat 32 w)

end Sys2Proof.Machine
end

