-- ==== Sys2Proof/Machine/Sealing.lean ====
section
/-! DEFINITION. Sealing (R435): the checks of a code object's image (R433, R434), and then every check of the loader on its
sections; the first failure refuses the object, and its report names section, block, slot and rule. -/

namespace Sys2Proof.Machine

/-- A failed check, as its report names it (R435). -/
structure SealFault where
  sec   : Nat
  node  : Bool
  block : Nat
  slot  : Nat
  rule  : Nat
deriving DecidableEq, Repr

/-- The first failed check of a list: what must hold, and its report. -/
def firstFault (xs : List (Bool × SealFault)) : Option SealFault := (xs.find? fun x => !x.1).map fun x => x.2

/-- A report that names no slot. -/
def SealFault.of (sec rule : Nat) : SealFault := ⟨sec, false, 0, 0, rule⟩

/-- A report that names an instruction. -/
def SealFault.at_ (sec rule : Nat) (v : Inst) : SealFault := ⟨sec, v.node, v.num, v.idx, rule⟩

/-! ### The image (R433, R434) -/

/-- CRC-32 with the IEEE 802.3 polynomial (R433). -/
def crcBit (c : Nat) : Nat := if c % 2 = 1 then c / 2 ^^^ 0xEDB88320 else c / 2
def crcBits : Nat → Nat → Nat
  | 0, c => c
  | k + 1, c => crcBits k (crcBit c)
def crcFrom (bs : List Byte) (c : Nat) : Nat := bs.foldl (fun c b => crcBits 8 (c ^^^ b.toNat)) c
def crc32 (bs : List Byte) : Nat := crcFrom bs 0xFFFFFFFF ^^^ 0xFFFFFFFF

/-- The header keeps every "must" of R433. -/
def headerOk (bs : List Byte) : Bool :=
  let w (k : Nat) : Nat := numAt bs (8 * k) 8
  numAt bs 0 4 = 0x36394E4B && numAt bs 4 2 = 1 && numAt bs 6 2 = 0 && nbits (w 1) 63 12 = 0
    && w 2 = bs.length && 128 ≤ bs.length && bs.length ≤ 2 ^ 31
    && numAt bs 24 4 = crc32 (bs.drop 64) && numAt bs 28 4 = 0 && ((upto 4).all fun k => w (4 + k) = 0)
    && 64 + 64 * (nbits (w 1) 11 8 + 1) ≤ bs.length

/-- Sections of an image. -/
def sectionCount (bs : List Byte) : Nat := nbits (numAt bs 8 8) 11 8 + 1

/-- A table of an image stands at an offset: 0 exactly when its count is 0, else aligned to 8 bytes and within the image, behind
the section table (R433). -/
def tableOk (bs : List Byte) (off count size : Nat) : Bool :=
  if count = 0 then off = 0
  else off % 8 = 0 && 64 + 64 * sectionCount bs ≤ off && off + count * size ≤ bs.length

/-- The descriptor of section `k`. -/
def descriptor (bs : List Byte) (k : Nat) : List Byte := slice bs (64 + 64 * k) 64

/-- A descriptor keeps the limits of R433. -/
def descriptorOk (bs : List Byte) (k : Nat) : Bool :=
  let w (j : Nat) : Nat := numAt (descriptor bs k) (8 * j) 8
  let o (j : Nat) : Nat := nbits (w j) 31 0
  let nrec := nbits (w 0) 47 32
  let nent := nbits (w 0) 51 48
  1 ≤ nrec && nrec ≤ 4096 && 1 ≤ nent && nent ≤ 8 && nbits (w 0) 63 52 = 0 && tableOk bs (o 0) nrec 656
    && nbits (w 1) 63 44 = 0 && nbits (w 1) 43 32 ≤ 2047 && tableOk bs (o 1) (nbits (w 1) 43 32) 8
    && nbits (w 2) 63 48 = 0 && tableOk bs (o 2) (nbits (w 2) 47 32) 8
    && nbits (w 3) 63 44 = 0 && nbits (w 3) 43 32 ≤ 2048 && tableOk bs (o 3) (nbits (w 3) 43 32) 32
    && nbits (w 4) 63 40 = 0 && nbits (w 4) 39 32 ≤ 64 && tableOk bs (o 4) (nbits (w 4) 39 32) 176
    && nbits (w 5) 63 32 = 0 && tableOk bs (o 5) nent 4
    && nbits (w 6) 63 37 = 0 && nbits (w 6) 36 32 ≤ 16 && tableOk bs (o 6) (nbits (w 6) 36 32) 16
    && w 7 = 0

/-- The bytes of a part of a section. -/
def partBytes (bs : List Byte) (k j : Nat) : List Byte :=
  let x := at! (sectionParts (descriptor bs k)) j (0, 0)
  slice bs x.1 x.2

/-- A section as its image holds it. -/
def sealedSection (bs : List Byte) (k : Nat) : SecImage :=
  imageOf ((upto 7).map (partBytes bs k)) ((treeNames (partBytes bs k 6)).map fun x => slice bs x.1 x.2)

/-- Unused slots of a block or a channel are zero: those whose word is, and those above its node count (R434). -/
def unusedZero (slots : List Slot) (used : Nat) : Bool :=
  (upto slots.length).all fun j =>
    let x := at! slots j Slot.zero
    !(x.word = 0 || used ≤ j) || x = Slot.zero

/-- A head of 16 bytes has nothing above its fields. -/
def headOk (bs : List Byte) (o top : Nat) : Bool := nbits (numAt bs o 8) 63 top = 0 && numAt bs (o + 8) 8 = 0

/-- The block records cover the numbers from 0 to the highest used with no overlap (R434). -/
def SecImage.covers (i : SecImage) : Bool :=
  let n := (i.blocks.map fun r => r.group).foldl (· + ·) 0
  n ≤ 4096 && (upto n).all i.hasBlock && i.blocks.all fun r => r.first + r.group ≤ n

/-- The records of a section keep R434: what each says, and its report. -/
def recordChecks (bs : List Byte) (k : Nat) : List (Bool × SealFault) :=
  let i := sealedSection bs k
  let blocks := partBytes bs k 0
  let chans := partBytes bs k 4
  let trees := partBytes bs k 6
  let at_ (node : Bool) (b : Nat) : SealFault := ⟨k, node, b, 0, 434⟩
  ((upto i.blocks.length).flatMap fun j => match i.blocks[j]? with
      | some r => [(headOk blocks (656 * j) 40, at_ false r.first), (unusedZero r.slots 32, at_ false r.first)]
      | none => [])
    ++ [(i.covers, SealFault.of k 434)]
    ++ ((upto i.chans.length).flatMap fun j => match i.chans[j]? with
      | some c => [(headOk chans (176 * j) 5 && 1 ≤ c.nodes && c.nodes ≤ 8, at_ true j), (unusedZero c.slots c.nodes, at_ true j)]
      | none => [])
    ++ (upto i.trees.length).map fun j =>
      (tableOk bs (numAt trees (16 * j + 4) 4) (nbits (numAt trees (16 * j) 8) 31 20) 2, SealFault.of k 434)

/-! ### Words, entries, fan-out lists, routes and trees -/

/-- The words of a section as the image alone gives them. -/
def SecImage.look (i : SecImage) (n : Names) : W32 := i.wordAt n

/-- The word decodes to an instruction that keeps the rules of its fields (R207). -/
def wordSealed (x : Slot) : Bool := match decodeWord x.word with
  | .ok y => y.wellFormed
  | .error _ => false

/-- The checks of one instruction (R80 a and b, R119, R197, R201 to R207, R309, R319, R343). -/
def SecImage.slotChecks (i : SecImage) (sec : Nat) (v : Inst) (x : Slot) : List (Bool × SealFault) :=
  let op := opOf x.word
  let on (rule : Nat) : SealFault := SealFault.at_ sec rule v
  [(wordSealed x, on (if op = 0x5D || op = 0x5E then 119 else if 0xB0 ≤ op && op ≤ 0xB9 then 343 else 207)),
   (!chainOp op || tripleOk x.lit, on 80),
   (slotOk x, on (if op = 0x5D || op = 0x5E then 119 else 205)),
   (homeOf op == i.homeAt v.names, on (if i.homeAt v.names == .streamer || homeOf op == .streamer then 338 else 319)),
   (i.treeOk x, on 309), (nodeOk i.look v.names x, on 346),
   (x.links.all fun l => (i.linkFaults i.look v.names op l).isEmpty, on 207)]

/-- An entry is a link of kind 00 to an instruction that reads its port (R175, R201, R207). -/
def SecImage.entryOk (i : SecImage) (l : W32) : Bool :=
  linkKind l = 0 && (i.plainFault i.look Names.zero l).isNone

/-- A fan-out list holds from 1 to 8 links of kinds 00, 01 or 10 (R203), none of kind 00 or 01 with PORT 3 (R201); what each breaks
besides is judged where a word uses it. -/
def fanoutOk (ls : List W32) : Bool :=
  let xs := ls.takeWhile fun l => l ≠ 0
  !xs.isEmpty && xs.all fun l => linkKind l ≠ 3 && (linkKind l = 2 || linkPort l ≠ 3)

/-- A route table entry that the loader takes: bits [63:59] are zero, and it has a hop (R369). Ones in its other reserved fields are
ignored (R3). -/
def routeWordOk (w : W64) : Bool := bits w 63 59 = 0 && bits w 15 8 ≠ 0

/-- The names of a tree are declared blocks and channels, and its number is its own (R309). -/
def SecImage.treesOk (i : SecImage) : Bool :=
  (i.trees.map fun t => t.n).eraseDups.length = i.trees.length
    && i.trees.all fun t => (t.leaves.getD []).all fun l => if l.1 then l.2 < i.chans.length else i.hasBlock l.2

/-- The checks of a section's tables. -/
def SecImage.tableChecks (i : SecImage) (sec : Nat) : List (Bool × SealFault) :=
  [(1 ≤ i.entries.length && i.entries.length ≤ 8 && i.entries.all i.entryOk, SealFault.of sec 175),
   (i.fanout.all fanoutOk, SealFault.of sec 203), (i.routes.all routeWordOk, SealFault.of sec 369),
   (i.routes.all fun w => !i.routeBad w, SealFault.of sec 370), (i.treesOk, SealFault.of sec 309)]

/-! ### Chains (R80, R461) -/

/-- The links of an unstructured section go by number (R80 g). -/
def SecImage.numbered (i : SecImage) (v : Inst) : Bool :=
  let named (n : Nat) (f : Inst → Nat) : Bool :=
    0xFC < n || i.chain.any fun y => i.this y = n && f y = i.this v
  i.pred v ≠ 0xFF && i.succ v ≠ 0xFF && named (i.succ v) i.pred && named (i.pred v) i.succ

/-- The loader judges the chain of a path (R461; log 89, DEDUCED): not of one that lies on the nodes of streamers alone (R342), nor
of one that tokens from another context begin, where no chain begins on it. -/
def SecImage.judged (i : SecImage) (x : Path) : Bool :=
  !x.seen.all i.streamNode
    && (!(x.start.tokens.any fun t => t.1.across) || (i.pathChain x).any fun v => i.pred v = 0xFD)

/-- The checks of the chains (R80 c to g). -/
def SecImage.chainChecks (i : SecImage) (sec : Nat) : List (Bool × SealFault) :=
  let c := i.chain
  (c.map fun v => (decide ((c.filter fun y => i.this y = i.this v).length = 1), SealFault.at_ sec 80 v))
    ++ if i.structured then
        (i.allPaths.filter i.judged).flatMap fun x =>
          [(!(i.pathChain x).isEmpty, SealFault.of sec 80),
           ((i.pathOrder x).isSome, match i.pathChain x with
             | v :: _ => SealFault.at_ sec 80 v
             | [] => SealFault.of sec 80)]
      else c.map fun v => (i.numbered v, SealFault.at_ sec 80 v)

/-! ### What must follow a REGION (R180) -/

/-- Operations that must follow a REGION (R180). -/
def needsRegion (op : Nat) : Bool :=
  op = 0x4D || op = 0x4E || (0x50 ≤ op && op ≤ 0x5B) || op = 0x5D || op = 0x5E
    || op = 0xD0 || op = 0xD1 || op = 0xD4 || op = 0xD5 || op = 0xC3 || op = 0xC4 || op = 0xC8 || op = 0xC9 || op = 0xCA
    || op = 0xA9 || op = 0xE1 || op = 0xE3 || op = 0xE7

/-- On a path, the operation is chained after a REGION, in its wave or after an earlier one, or depends on a REGION's result. -/
def SecImage.dominatedOn (i : SecImage) (x : Path) (v : Inst) : Bool :=
  (i.dependent x).contains v || (i.chained v && (x.start.after || match i.pathOrder x with
    | some o => (i.regions x).any fun g => (afterIn o g).contains v
    | none => false))

/-- The operation is dominated by a REGION: on every path that it lies on; where none is traced, it depends on one through some
firings (R180, R342; log 89, DEDUCED). -/
def SecImage.dominated (i : SecImage) (paths : List Path) (v : Inst) : Bool :=
  let mine := paths.filter fun x => x.seen.contains v
  if mine.isEmpty then
    let rs := (i.insts.map fun x => x.1).filter fun g => i.opV g = 0x49 && !g.node
    (reach (fun y => (i.edges y).map fun e => e.dst) i.fuel [] (rs.flatMap fun g => (i.edges g).map fun e => e.dst)).contains v
  else mine.all fun x => i.dominatedOn x v

/-! ### Leases (R128) -/

/-- Opcodes that no body may hold (R128 f). -/
def bodyBars (op : Nat) : Bool :=
  op = 0x5C || op = 0x47 || op = 0xD2 || op = 0xE1 || op = 0xE4 || op = 0xE5 || op = 0xE6 || op = 0xE7 || (0xA0 ≤ op && op < 0xC0)

/-- The logical clusters on which a block record's members stand. -/
def SecImage.clustersOf (i : SecImage) (first : Nat) : List Nat :=
  match i.blocks.find? fun r => r.first = first with
  | some r => ((upto r.group).map fun m => (r.spot (r.first + m)).1).eraseDups
  | none => []

/-- How deep a LEASE nests on the path on which it nests deepest: itself, and those of the path whose bodies hold it there. -/
def SecImage.depth (i : SecImage) (paths : List Path) (l : Inst) : Nat :=
  1 + (paths.map fun x => ((i.leasesOn x).filter fun y => y ≠ l && (i.bodyOn x y).contains l).length).foldl max 0

/-- The checks of the leases (R128). -/
def SecImage.leaseChecks (i : SecImage) (sec : Nat) (paths : List Path) : List (Bool × SealFault) :=
  let on (l : Inst) : SealFault := SealFault.at_ sec 128 l
  (i.leases.flatMap fun l =>
    let b := i.body paths l
    let mine := paths.filter fun x => (i.leasesOn x).contains l
    [(i.dominated paths l, on l), (mine.all fun x => (i.unleases x l).length = 1, on l), (decide (b.length ≤ 32), on l),
     (b.all fun v => (fieldsOf (i.slotV v).word).ta.toNat = 0, on l),
     (mine.all fun x => b.all fun v => !(x.below i.fuel v).contains v, on l),
     (b.all fun v => !bodyBars (i.opV v), on l), (decide (i.depth mine l ≤ 2), on l)])
    ++ [(decide ((i.bodyBlocks.flatMap i.clustersOf).eraseDups.length ≤ 1), SealFault.of sec 128)]

/-! ### Sealing -/

/-- Every check of the loader on a section, in their order (log 93, DESIGN CHOICE). -/
def SecImage.loaderChecks (i : SecImage) (sec : Nat) : List (Bool × SealFault) :=
  i.tableChecks sec ++ (i.insts.flatMap fun x => i.slotChecks sec x.1 x.2) ++ i.chainChecks sec
    ++ (let ps := i.allPaths
        i.leaseChecks sec ps ++ (i.insts.filter fun x => needsRegion (opOf x.2.word) && !x.1.node).map fun x =>
          (i.dominated ps x.1, SealFault.at_ sec 180 x.1))

/-- The first check of R433 and R434 that an image fails. -/
def imageFault (bs : List Byte) : Option SealFault :=
  if !headerOk bs then some (SealFault.of 0 433)
  else
    let ks := upto (sectionCount bs)
    match firstFault (ks.map fun k => (descriptorOk bs k, SealFault.of k 433)) with
    | some e => some e
    | none => firstFault (ks.flatMap (recordChecks bs))

/-- Sealing (R435): the sections of an accepted object, or the report of the first check that fails. -/
def sealObject (bs : List Byte) : Except SealFault (List SecImage) :=
  match imageFault bs with
  | some e => .error e
  | none =>
    let is := (upto (sectionCount bs)).map fun k => (k, sealedSection bs k)
    match firstFault (is.flatMap fun x => x.2.loaderChecks x.1) with
    | some e => .error e
    | none => .ok (is.map fun x => x.2)

end Sys2Proof.Machine
end

