-- ==== Sys2Proof/Safety.lean ====
section
/-! DEFINITION. The terms that claims use: a safe run is one that no step ends with a refusal; what a row answers; what
the sending of tokens leaves alone. -/

namespace Sys2Proof.Machine

/-- The step ends in a next state or in a fault that the spec gives, not in a refusal. -/
def SafeStep (s : State) : Prop := ∀ r, step s ≠ .refused r

/-- The first `n` steps from a state are safe. -/
def SafeFor : Nat → State → Prop
  | 0, _ => True
  | n + 1, s => SafeStep s ∧ ∀ t, step s = .next t → SafeFor n t

/-- The outcome is a next state, of which `P` holds. -/
def Answers (r : Result) (P : State → Prop) : Prop := ∃ t, r = .next t ∧ P t

/-- What changes when tokens leave a unit and records are raised, and nothing else: tokens on their way, flits, hops and
placement caches, the counters of elements, records in the buffers and statistics on their way, identifiers. Every
register of the device, of a partition and of a context, all memory and every cache, every operation, engine and ring,
every slot, section and channel, every token that waits and every set that is ready is as before. -/
structure Quiet (s t : State) : Prop where
  parts    : t.parts = s.parts
  ctxs     : t.ctxs = s.ctxs
  mem      : t.mem = s.mem
  work     : t.work = s.work
  dev      : { t.dev with traps := s.dev.traps } = s.dev
  slots    : t.fab.slots = s.fab.slots
  ctrs     : t.fab.ctrs = s.fab.ctrs
  waiting  : t.fab.waiting = s.fab.waiting
  ready    : t.fab.ready = s.fab.ready
  sections : t.ldr.sections = s.ldr.sections
  channels : t.ldr.channels = s.ldr.channels
  run      : { t.run with nextId := s.run.nextId } = s.run

/-- Every byte of memory, of the element, cluster and slice scratch, every guard and full-empty bit, every cache line,
request and lease is as before. -/
def MemKept (s t : State) : Prop := t.mem = s.mem

/-- The four memories keep their canonical form. -/
def MemForm (s : State) : Prop :=
  s.mem.hbm.wf = true ∧ s.mem.es.wf = true ∧ s.mem.cs.wf = true ∧ s.mem.ss.wf = true

/-! ### The operands and the result of a firing -/

/-- Element `j` of an operand. -/
abbrev el (xs : List Nat) (j : Nat) : Nat := at! xs j 0

/-- No port operand of the latched firing is poisoned, and a steering predicate has format P (R190, R195). -/
structure Clean (s : State) (f : Fields) (readsC : Bool) : Prop where
  good : s.run.cur.poisonOf f readsC = false
  pred : s.run.cur.predOk f = true

/-- The latched firing has operand format `fm`, and SA delivers the elements `a` in it (R189, R190, R192). -/
structure Reads1 (s : State) (f : Fields) (fm : Fmt) (a : List Nat) : Prop extends Clean s f false where
  fmt  : s.run.cur.fmtOf f = fm
  srcA : s.source s.run.cur f.sa.toNat fm = some a

/-- SB delivers the elements `b` in the operand format too. -/
structure Reads2 (s : State) (f : Fields) (fm : Fmt) (a b : List Nat) : Prop extends Reads1 s f fm a where
  srcB : s.source s.run.cur f.sb.toNat fm = some b

/-- SB delivers `b` in an integer format of its own, `w` bits wide (R213). -/
structure ReadsOwn (s : State) (f : Fields) (fm : Fmt) (a b : List Nat) (w : Nat) : Prop extends Reads1 s f fm a where
  own : s.ownSource s.run.cur f.sb.toNat = some (b, w)

/-- Port C, which the opcode reads, delivers `c` in the operand format (R206). -/
structure Reads3 (s : State) (f : Fields) (fm : Fmt) (a b c : List Nat) : Prop extends Clean s f true where
  fmt  : s.run.cur.fmtOf f = fm
  srcA : s.source s.run.cur f.sa.toNat fm = some a
  srcB : s.source s.run.cur f.sb.toNat fm = some b
  srcC : s.source s.run.cur 0x42 fm = some c

/-- The result of the latched firing with its wave and stop level: one element for each wave. -/
def elemRes (s : State) (f : Fields) (fmt : Fmt) (g : Nat → Nat) : Res :=
  ⟨s.run.cur.wave, s.run.cur.stopOf f, fmt, false, (upto s.run.cur.run).map fun j => w64 (g j)⟩

/-- The row answers the state in which the latched firing's result of format `fmt`, element `j` of which is `g j`, has
been sent with the word's tag action on the links that DA names, and nothing else has changed. -/
def Gives (s : State) (i : Instr) (f : Fields) (fmt : Fmt) (g : Nat → Nat) : Prop :=
  exec i s = .next (s.sendTo s.run.cur f.ta.toNat f.da.toNat (elemRes s f fmt g))

/-- The same, with the OR of the flags of all elements in SYS.FLAGS of the context first (R268, R269). -/
def GivesF (s : State) (i : Instr) (f : Fields) (fmt : Fmt) (g : Nat → Nat × FpFlags) : Prop :=
  exec i s = .next ((s.orFlags s.run.cur.names.part s.run.cur.ctx
      (orFlags ((upto s.run.cur.run).map fun j => (g j).2))).sendTo s.run.cur f.ta.toNat f.da.toNat
    (elemRes s f fmt fun j => (g j).1))

/-! ### Words that present operations (R82, R244, R255) -/

/-- Operand A of the latched firing is the token `t` of addresses on a port, and no port operand is poisoned (R190,
R244). -/
structure Addressed (s : State) (f : Fields) (readsC : Bool) (t : Token) : Prop where
  port : s.run.cur.port f.sa.toNat = some t
  fmt  : t.fmt = .a
  good : s.run.cur.poisonOf f readsC = false

/-- The address of element `j`: A[j] + Offset, modulo 2^64 (R245). -/
def vaOf (s : State) (t : Token) (j : Nat) : Nat := addr64 (at! t.data j 0).toNat (litOff s.run.cur.slot.lit)

/-- Element `j` of the token. -/
abbrev tokEl (t : Token) (j : Nat) : W64 := at! t.data j 0

/-- The issuer's check (R35, R54, R55, R247) passes the accesses of `2 ^ w` bytes of the elements `js` and gives
element `j` the IA or offset `ia j`. -/
def Checked (s : State) (t : Token) (w : Nat) (need : Need) (js : List Nat) (ia : Nat → Nat) : Prop :=
  ∀ j ∈ js, s.issueCheck s.run.cur ((levelOf (litLevel s.run.cur.slot.lit)).getD .l1) (vaOf s t j) (2 ^ w) need = .ok (ia j)

/-- The row answers the state in which, after `s0`, the latched firing has presented the operations that `as` asks for,
and the unchained of them have left their element, or wait for the operations before them (R82, R87, R103). -/
def PresentsFrom (s0 s : State) (i : Instr) (f : Fields) (op : Nat) (piece : List Op → List Op) (as : List Ask) : Prop :=
  exec i s = .next ((s0.present s.run.cur f op as piece).2.launchOps (s0.present s.run.cur f op as piece).1)

/-- The same with nothing done before. -/
abbrev Presents (s : State) (i : Instr) (f : Fields) (op : Nat) (piece : List Op → List Op) (as : List Ask) : Prop :=
  PresentsFrom s s i f op piece as

/-- The row answers the state in which, after `s0`, the operations wait in the buffer for CHAIN_PERFORM (R81, R93). -/
def QueuesFrom (s0 s : State) (i : Instr) (f : Fields) (op : Nat) (as : List Ask) : Prop :=
  exec i s = .next (s0.present s.run.cur f op as).2

/-- The same with nothing done before. -/
abbrev Queues (s : State) (i : Instr) (f : Fields) (op : Nat) (as : List Ask) : Prop := QueuesFrom s s i f op as

/-- The row answers the state in which, after `s0`, the latched firing has presented one operation for each element, none of
which makes an access (R89, R192), and the unchained of them have left their element. -/
def DeadLeaves (piece : List Op → List Op) (s0 s : State) (i : Instr) (f : Fields) (op : Nat) : Prop :=
  ∃ as : List Ask, as.length = s.run.cur.run ∧ (∀ a ∈ as, a.dead = true) ∧ PresentsFrom s0 s i f op piece as

/-- The same, where the operations wait in the buffer for CHAIN_PERFORM. -/
def DeadQueues (s0 s : State) (i : Instr) (f : Fields) (op : Nat) : Prop :=
  ∃ as : List Ask, as.length = s.run.cur.run ∧ (∀ a ∈ as, a.dead = true) ∧ QueuesFrom s0 s i f op as

/-- An atomic word with b from `bs` presents one operation for each wave. -/
def AmoPresents (s : State) (f : Fields) (t : Token) (ia : Nat → Nat) (i : Instr) (op : Nat) (o : AmoOp) : Prop :=
  ∀ fm bs, s.amoB s.run.cur f o (litWidth s.run.cur.slot.lit) = some (fm, bs) →
    Presents s i f op asIs ((upto s.run.cur.run).map fun j =>
      { kind := .amo o, width := litWidth s.run.cur.slot.lit, va := vaOf s t j, ia := ia j, data := w64 (at! bs j 0), fmt := fm })

/-- The row answers the state in which, after `s0`, the tile operations of a firing have been presented, and the
unchained of them have begun (R87, R157). -/
def TilesFrom (s0 s : State) (i : Instr) (f : Fields) (op : Nat) (as : List Ask) : Prop :=
  exec i s = .next ((s0.present s.run.cur f op as).2.launchTiles (s0.present s.run.cur f op as).1)

/-- The row answers the state in which the tile operations of a firing, one for each element and none with an access, have
been presented after `s0`, and the unchained of them have begun. -/
def DeadTiles (s0 s : State) (i : Instr) (f : Fields) (op : Nat) : Prop :=
  ∃ as : List Ask, as.length = s.run.cur.run ∧ (∀ a ∈ as, a.dead = true) ∧ TilesFrom s0 s i f op as

/-- The row adds one operation of an island node for each wave of the firing (R318), which holds the word and literal,
`args j` as its operands and `pieces j` as the reads that it has asked for, and changes nothing else. -/
def NodeStarts (s : State) (i : Instr) (args : Nat → List W64) (pieces : Nat → List Piece) : Prop :=
  ∃ t es, exec i s = .next t ∧ t.work = { s.work with engs := s.work.engs ++ es } ∧ es.length = s.run.cur.run ∧
    t.mem = s.mem ∧ t.dev = s.dev ∧ t.parts = s.parts ∧ t.ctxs = s.ctxs ∧ t.fab = s.fab ∧ t.ldr = s.ldr ∧
    ∀ (j : Nat) (e : EngOp), es[j]? = some e →
      e.kind = .tile ∧ e.names = s.run.cur.names ∧ e.cluster = s.run.cur.cluster ∧ e.ctx = s.run.cur.ctx ∧
      e.wave = s.run.cur.wave + j ∧ e.word = s.run.cur.slot.word ∧ e.lit = s.run.cur.slot.lit ∧ e.bad = false ∧
      e.args = args j ∧ e.pieces = pieces j

/-- The token is there, is not poisoned and carries references of format T. -/
def TileTok (s : State) (sel : Nat) (t : Token) : Prop :=
  s.run.cur.port sel = some t ∧ t.poison = false ∧ t.fmt = .t

/-- A node whose queues hold `a` and `b` once the firing's elements have joined them takes them as `tk` says, then
waits; its outputs leave (R339, R341). `after` is what the row does behind that. -/
def Consumes (s : State) (i : Instr) (f : Fields) (one : State → Node → List SElem → List SElem → Option Taken)
    (after : State → State) : Prop :=
  ∀ (u v : State) (n m : Node) (tk : Taken), u = s.enqueue s.run.cur f →
    u.node? s.run.cur.names s.run.cur.ctx = some n → u.portStuck s.run.cur.names s.run.cur.ctx = false →
    0 < n.queueA.length + n.queueB.length →
    one u n n.queueA n.queueB = some tk →
    v = (tk.s.modStream s.run.cur.names s.run.cur.ctx fun st =>
      { st with headA := st.headA.set s.run.cur.names.idx tk.a, headB := st.headB.set s.run.cur.names.idx tk.b }) →
    v.node? s.run.cur.names s.run.cur.ctx = some m → one v m m.queueA m.queueB = none →
    exec i s = .next (after ((v.emit m false tk.o1).emit m true tk.o2))

/-- The reads that a packet operand of an island node begins with (R316, R321): none for an operand slot, the header
for a packet in memory; pieces are numbered from `k`. -/
def PacketReads (s : State) (t : Token) (j : Nat) (b : Bool) (k : Nat) (ps : List Piece) : Prop :=
  ((∃ i, tileRef .t (tokEl t j) true = .ok (.slot i)) ∧ ps = []) ∨
  ∃ lv a ia, tileRef .t (tokEl t j) true = .ok (.mem lv a) ∧
    s.bytesCheck s.run.cur.names.part s.run.cur.ctx s.run.cur.cluster lv a 32 { rd := true } = .ok ia ∧
    ps = piecesOf false lv s.run.cur.cluster ia 32 (if b then nodeB else 0) k

/-- The opcode of an instruction word; 0x100 for an event. -/
def opcodeOf (i : Instr) : Nat := (i.parts.map fun x => x.1).getD 0x100

/-- The opcodes whose result is computed at their element from operands alone: groups 0x0 (but for the words of
contexts), 0x1 to 0x3 and 0x6 to 0x9. -/
def valueOpcode (op : Nat) : Bool :=
  op ≤ 0x08 || op = 0x0D || op = 0x0E || (0x10 ≤ op && op < 0x40) || (0x60 ≤ op && op < 0xA0)

/-- The opcodes whose firing only queues its operations for the store buffer: the words of the chain, range operations,
CBLOAD, engine commands but COPYSTAT, ring words, SYSCALL and TASKSPAWN. -/
def queueOpcode (op : Nat) : Bool :=
  op = 0x46 || op = 0x49 || op = 0x4B || op = 0x4C || op = 0x5F || op = 0xA9 || (0xC0 ≤ op && op ≤ 0xCA && op ≠ 0xC7)
    || (0xD0 ≤ op && op ≤ 0xD5) || op = 0xE1 || op = 0xE7

/-- Records raised for the elements of a firing, one for each, at its wave, with the element in INFO (R405). -/
def recordEach (s : State) (fr : Firing) (t : Token) (cause code : Nat) : State :=
  (upto fr.run).foldl (fun s j =>
    s.raise (fr.siteAt s j) { cause := cause, sub := 0, info := (tokEl t j).toNat, code := code }) s

/-- Operand A as the result of a firing (R404). -/
def passRes (s : State) (f : Fields) (t : Token) : Res := ⟨s.run.cur.wave, s.run.cur.stopOf f, t.fmt, t.poison, t.data⟩

/-- The operation of the subject waits in the buffer of its home, where it has its entry in `s`, and its context may perform it
now (R81, R84, R93, R104, R142). -/
structure MayPerform (i s : State) (o : Op) (y : Ctx) : Prop where
  enters : ∃ q, i.op? i.run.subj.a = some q ∧ s = i.enter q (i.entryFor q true) ∧ o = { q with entry := i.entryFor q true }
  ctx : i.ctx? o.names.part o.ctx = some y
  goes : (i.part o.names.part).stopped = false
  waits : o.phase = .buffered
  runs : o.chained = true → y.halted = false ∧ y.chain.stale o = false
  next : y.takes o = true
  leads : o.follows = false
  before : o.waitsBefore = true → s.released o = true
  flushed : s.unflushed o = false

end Sys2Proof.Machine
end

