-- ==== Sys2Proof/Certificates/Slice0/Obligations.lean ====
section
/-! DEFINITION. The statements about this machine that are put to the provers. Each docstring names the rules of the
spec that its statement formalises; the number in brackets behind "log" is the row of notes/assumptions on which a clause
rests that is the model's own choice. -/

open Sys2Proof Sys2Proof.Machine

/-! ### Encoding, issue and reset -/

/-- Decoding and encoding agree (R188, R204, R205): the bytes of every well-formed instruction word, with any bytes behind
them, decode to that instruction and leave those bytes, every field at every value that the encoding admits. -/
def Obligations.DecodeEncode : Prop :=
  ∀ (i : Instr) (rest : List Byte), i.wellFormed = true → (encodeWord i).isSome = true →
    decode (encode i ++ rest) = .ok (i, rest)

/-- No word has two meanings (R204): a word that decodes is the word of the instruction that it decodes to. -/
def Obligations.DecodeUnambiguous : Prop :=
  ∀ (w : W32) (i : Instr), decodeWord w = .ok i → encodeWord i = some w

/-- Words written out from R188 and R204 decode to the instructions that they stand for: OP [31:24], TA [23:20],
SA [19:13], SB [12:6], DA [5:3], DB [2:0]. -/
def Obligations.WordsDecode : Prop :=
  decodeWord 0b00010000000010000001001000001000#32 = .ok (.add ⟨0, 0x40, 0x48, 1, 0⟩) ∧
  decodeWord 0b01100011001010000001000001010000#32 = .ok (.ffma ⟨2, 0x40, 0x41, 2, 0⟩) ∧
  decodeWord 0b01000000000010000000000011001000#32 = .ok (.ld ⟨0, 0x40, 0x03, 1, 0⟩) ∧
  decodeWord 0b11100010000010000001111111001000#32 = .ok (.rdsys ⟨0, 0x40, 0x7F, 1, 0⟩) ∧
  decodeWord 0b00001111000000000000000000000000#32 = .error .reservedOpcode

/-- A step runs the instruction that the word of the issuing slot decodes to (R187, R396): the latched firing's row is
performed on the state in which it issues, and the step waits where a trap buffer has no room for its records (R399); a step
in which an event moves next performs that event's row; which moves next is the model's choice (log 4, DESIGN CHOICE). -/
def Obligations.StepRunsDecoded : Prop :=
  ∀ (s t : State) (i : Instr),
    (nextMove s = .issue t → decodeWord t.run.cur.slot.word = .ok i → i.wellFormed = true →
      slotOk t.run.cur.slot = true → t.slotInSection t.run.cur.names t.run.cur.slot = true →
      step s = orWait s (exec i t) ∧ ∀ u, exec i t = .next u →
        (trapWait s u = false → step s = .next u) ∧ (trapWait s u = true → step s = .next s.tick)) ∧
    (nextMove s = .event i t → step s = orWait s (exec i t))

/-- Every row of the opcode table answers a next state on every state: no instruction and no event stops the machine. -/
def Obligations.EveryRowAnswers : Prop :=
  ∀ (i : Instr) (s : State), ∃ t, exec i s = .next t

/-- A slot whose word is no instruction (R187, R208): the firing's operands are gone, nothing is sent, and an
illegal-instruction record says EMPTY for the zero word and OPCODE for any other. A sealed object holds no such word (R435,
R207): every word of its sections decodes to an instruction that keeps the rules of its fields, its links and its place. -/
def Obligations.RejectedWordTraps : Prop :=
  (∀ (s t : State) (e : DecodeError), nextMove s = .issue t → decodeWord t.run.cur.slot.word = .error e →
    ∀ u, u = t.raise (t.run.cur.site t) { cause := 0x01, sub := if t.run.cur.slot.word = 0 then 2 else 1 } →
      trapWait s u = false → step s = .next u) ∧
  ∀ (bs : List Byte) (is : List SecImage) (i : SecImage) (v : Inst) (x : Slot), sealObject bs = .ok is → i ∈ is →
    (v, x) ∈ i.insts → (∃ y, decodeWord x.word = .ok y ∧ y.wellFormed = true) ∧ slotOk x = true ∧
      homeOf (opOf x.word) = i.homeAt v.names ∧ ∀ l ∈ x.links, i.linkFaults i.look v.names (opOf x.word) l = []

/-- What reset leaves, as the spec gives it (R57, R71, R124, R299, R399, R416, R446): every strip FREE but strip 0,
the one MEMBER of partition 0, the only partition; no frame in use, no layout request and no change of one; the power ceiling
1900 W; every MASK 0; LEASECAP 16; both trap rings of 2^LOG2N records with LOG2N 4, empty; no context, no operation, no loaded
section and no message. All strips are present on the part that State.reset is (log 2, DESIGN CHOICE). -/
def Obligations.ResetState : Prop :=
  (∀ k, k < 16 → State.reset.stripState k = if k = 0 then 3 else 0) ∧ State.reset.stripPart 0 = 0 ∧
  (∀ c, State.reset.mask c = 0) ∧ State.reset.dev.pwrcap = 1900 ∧ State.reset.dev.layoutreq = 0 ∧
  State.reset.dev.layout = none ∧ State.reset.dev.frames = List.replicate 16 0 ∧
  (∀ p, p < 16 → (State.reset.part p).leasecap = 16 ∧ (State.reset.part p).trapcfg = [4, 4] ∧
    (State.reset.part p).trapptr = [0, 0]) ∧
  ((State.reset.part 0).live = true ∧ ∀ p, 0 < p → p < 16 → (State.reset.part p).live = false) ∧
  State.reset.ctxs = [] ∧ State.reset.work.ops = [] ∧ State.reset.ldr.sections = [] ∧ State.reset.work.msgs = []

/-- The memories keep their canonical form: whatever moves next, from every state. -/
def Obligations.MemoryFormKept : Prop :=
  ∀ s t : State, MemForm s → step s = .next t → MemForm t

/-- Reset memory has the form. -/
def Obligations.ResetMemoryForm : Prop := MemForm State.reset

/-! ### Operands, tags, traps and frames -/

/-- The frame of the words that compute a value (groups 0x0 to 0x3 and 0x6 to 0x9 but for the words of contexts): beside
the flags of SYS.FLAGS of the firing's own context, nothing changes but what the sending of tokens and the raising of
records change. No memory, no register of a partition or of the device, no other context, no operation, ring or section. -/
def Obligations.ValueFrame : Prop :=
  ∀ (i : Instr) (s t : State), valueOpcode (opcodeOf i) = true → exec i s = .next t →
    ∃ fl : FpFlags, Quiet (s.orFlags s.run.cur.names.part s.run.cur.ctx fl) t

/-- The frame of the words that queue their operations: no memory, no cache, no register of a partition, no token, no
section, ring, engine operation or message changes; a context changes only under a REGION, which reports guard faults. -/
def Obligations.QueueFrame : Prop :=
  ∀ (i : Instr) (s t : State), queueOpcode (opcodeOf i) = true → exec i s = .next t →
    t.mem = s.mem ∧ t.fab = s.fab ∧ t.parts = s.parts ∧ t.ldr = s.ldr ∧ t.work.engs = s.work.engs ∧
    t.work.rings = s.work.rings ∧ t.work.msgs = s.work.msgs ∧ t.work.waits = s.work.waits ∧
    { t.dev with traps := s.dev.traps } = s.dev ∧ (opcodeOf i ≠ 0x49 → t.ctxs = s.ctxs) ∧
    ∃ os, t.work.ops = s.work.ops ++ os

/-- The frame of loads, reads of counters and prefetches that are not vectors (R245, R250, R252): no byte of device
memory or scratch changes, and no full-empty bit. -/
def Obligations.LoadFrame : Prop :=
  ∀ (i : Instr) (s t : State), (opcodeOf i = 0x40 ∨ opcodeOf i = 0x44 ∨ opcodeOf i = 0x4F ∨ opcodeOf i = 0x4A) →
    exec i s = .next t →
    t.mem.hbm = s.mem.hbm ∧ t.mem.es = s.mem.es ∧ t.mem.cs = s.mem.cs ∧ t.mem.ss = s.mem.ss ∧ t.mem.full = s.mem.full ∧
    t.parts = s.parts ∧ t.ldr.sections = s.ldr.sections

/-- A poisoned operand (R190, R195): the result of every value word is poisoned and sent where it would have gone, and no other
effect of the word happens: no flag and no trap; it goes whole on every link that DA can name where the predicate of port C is not
P and leaves that open. A memory, engine, ring or tile word makes no access: a POISON record is raised for each element that
reaches a memory port, and its operations take their places (R89, R401). A word that reads a register sends a poisoned
I64. Which format a poisoned result takes, and what of WADV, WSET, STOP, VSPLIT and VJOIN stays under poison, is the model's
reading where R190 leaves it open (logs 35 and 51, DEDUCED). -/
def Obligations.PoisonPasses : Prop :=
  ∀ (s : State) (f : Fields) (fr : Firing) (fm : Fmt) (d w : Nat) (js : List Nat) (i : Instr),
    fr = s.run.cur → fm = fr.fmtOf f → w = fr.wave → js = upto fr.run →
    d = (if fr.predOk f = true ∨ poisonedTok fr.c = true then f.da.toNat else unsteered f.da.toNat) →
    let sends (o : Fmt) (w : Nat) (vs : List W64) : Prop :=
      exec i s = .next (s.sendTo fr f.ta.toNat d ⟨w, fr.stopOf f, o, true, vs⟩)
    let passes (o : Fmt) : Prop := sends o w (List.replicate fr.run 0)
    let posts (j : List Nat) : State := j.foldl (fun s j => s.raise (fr.siteAt s j) { cause := 0x0C, sub := 1 }) s
    (fr.poisonOf f true = true →
      (i = .madd f ∨ i = .bfi f ∨ i = .ffma f ∨ i = .ffms f ∨ i = .fnfma f ∨ i = .select f) → passes fm) ∧
    (fr.poisonOf f false = true →
      (i = .mov f ∨ i = .steer f ∨ i = .add f ∨ i = .sub f ∨ i = .adds f ∨ i = .addsn f ∨ i = .subs f ∨
        i = .subsn f ∨ i = .mul f ∨ i = .mulh f ∨ i = .mulhn f ∨ i = .div f ∨ i = .divn f ∨ i = .rem f ∨
        i = .remn f ∨ i = .neg f ∨ i = .abs f ∨ i = .and_ f ∨ i = .or_ f ∨ i = .xor_ f ∨ i = .andn f ∨
        i = .not_ f ∨ i = .shl f ∨ i = .shrl f ∨ i = .shra f ∨ i = .rotl f ∨ i = .bfx f ∨ i = .byteperm f ∨
        i = .clz f ∨ i = .ctz f ∨ i = .popc f ∨ i = .brev f ∨ i = .min_ f ∨ i = .max_ f ∨ i = .minn f ∨
        i = .maxn f ∨ i = .lea f ∨ i = .idx f ∨ i = .fadd f ∨ i = .fsub f ∨ i = .fmul f ∨ i = .fdiv f ∨
        i = .fsqrt f ∨ i = .fmin f ∨ i = .fmax f ∨ i = .fminm f ∨ i = .fmaxm f ∨ i = .fabs f ∨
        i = .fneg f ∨ i = .fcpys f ∨ i = .frint f ∨ i = .fscale f ∨ i = .fexpo f ∨ i = .fmant f ∨
        i = .fexp2f f ∨ i = .flog2m f ∨ i = .frcp f ∨ i = .frsq f ∨ i = .fsin1 f ∨ i = .fcos1 f ∨
        i = .ftanh f ∨ i = .fsigm f ∨ i = .ferf f ∨ i = .vbcast f ∨ i = .vperm f ∨ i = .vslide f ∨
        i = .vexpand f ∨ i = .vscan f → passes fm) ∧
      (i = .ceq f ∨ i = .cne f → passes (if intAOrP fm then .p else fm)) ∧
      (i = .cltn f ∨ i = .clen f → passes (if intOrA fm then .p else fm)) ∧
      (i = .clt f ∨ i = .cle f → passes (if fm.isInt then .p else fm)) ∧
      (i = .fceq f ∨ i = .fclt f ∨ i = .fcle f ∨ i = .fcun f → passes (if fm.isFloat then .p else fm)) ∧
      (i = .fclass f → passes (if fm.isFloat then intOfWidth fm else fm)) ∧
      (i = .sext f ∨ i = .zext f ∨ i = .narrow f ∨ i = .narrows f → passes (widthTarget f)) ∧
      (∀ o, litFmt fr.slot.lit = some o → i = .fcvt f ∨ i = .fcvti f ∨ i = .icvtf f ∨ i = .icvtfn f → passes o) ∧
      (i = .itag f → passes .i64) ∧ (i = .viota f → passes (if fm = .p then .i32 else fm)) ∧
      (i = .vredadd f ∨ i = .vredmax f ∨ i = .vredmin f ∨ i = .vfredadd f ∨ i = .vdot f → sends fm (w + fr.run - 1) [0]) ∧
      (i = .vlen f → sends .i32 (w + fr.run - 1) [0]) ∧
      (i = .fsplit f → exec i s = .next ((s.sendTo fr f.ta.toNat d (fr.poisonRes f fm)).sendTo fr f.ta.toNat f.db.toNat
        (fr.poisonRes f fm))) ∧
      (∀ v, v = w + s.amount fr f.sb.toNat % 2 ^ 32 → i = .wadv f → poisonedTok (fr.port f.sb.toNat) = false →
        sends fm (if v + fr.run - 1 ≤ 2 ^ 32 - 1 then v else w) (List.replicate fr.run 0)) ∧
      (∀ v, s.wsetWave fr f.sb.toNat = some v → i = .wset f → poisonedTok (fr.port f.sb.toNat) = false →
        sends fm (if w ≤ v ∧ v + fr.run - 1 ≤ 2 ^ 32 - 1 then v else w) (List.replicate fr.run 0)) ∧
      (poisonedTok (fr.port f.sb.toNat) = true → i = .wadv f ∨ i = .wset f ∨ i = .vsplit f → passes fm) ∧
      (∀ k v, i = .vsplit f → poisonedTok (fr.port f.sb.toNat) = false → s.scalarOf fr f.sb.toNat = some (k, v) →
        exec i s = .next ((s.sendSome fr f.ta.toNat d (fr.resAt f fm w true ((List.replicate fr.run 0).take k))).sendSome fr
          f.ta.toNat f.db.toNat (fr.resAt f fm (w + k) true ((List.replicate fr.run 0).drop k)))) ∧
      (i = .vcompact f → poisonedTok (fr.port f.sb.toNat) = true →
        exec i s = .next (s.sendTo fr f.ta.toNat f.da.toNat (fr.poisonRes f fm))) ∧
      (∀ p, i = .vcompact f → poisonedTok (fr.port f.sb.toNat) = false → fr.predOn f.sb.toNat = some p →
        exec i s = .next (s.sendSome fr f.ta.toNat f.da.toNat
          (fr.resAt f fm w true (compact p (List.replicate fr.run 0))))) ∧
      (∀ l, l = s.amount fr f.sb.toNat → i = .stop f → exec i s = .next (s.sendTo fr f.ta.toNat d
        ⟨w, if l ≤ 7 then l else fr.stopOf f, fm, true, List.replicate fr.run 0⟩)) ∧
      (i = .ctxnew f → exec i s = .next (s.sendTo fr f.ta.toNat f.da.toNat (fr.poisonRes f .i64))) ∧
      (i = .rdsys f ∨ i = .workid f ∨ i = .clock f ∨ i = .perfrd f →
        exec i s = .next (s.sendTo fr 0 f.da.toNat (fr.poisonRes f .i64))) ∧
      (∀ op, (i, op) ∈ [(Instr.ld f, 0x40), (.st f, 0x41), (.ldfe f, 0x47), (.stfe f, 0x48), (.ctrread f, 0x4F),
        (.amoadd f, 0x50), (.amoand f, 0x51), (.amoor f, 0x52), (.amoxor f, 0x53), (.amomin f, 0x54),
        (.amomax f, 0x55), (.amominn f, 0x56), (.amomaxn f, 0x57), (.amoswap f, 0x58), (.amofadd f, 0x5A),
        (.amofmin f, 0x4D), (.amofmax f, 0x4E), (.ctradd f, 0x5B), (.ctrwait f, 0x5C), (.lease f, 0x5D),
        (.unlease f, 0x5E)] →
        DeadLeaves asIs (posts js) s i f op) ∧
      (i = .ldv f → DeadLeaves pieces (posts js) s i f 0x42) ∧ (i = .stv f → DeadLeaves pieces (posts js) s i f 0x43) ∧
      (i = .ldg f → DeadLeaves asIs (posts [0]) s i f 0x44) ∧
      (i = .sts f → DeadLeaves asIs (posts [fr.run - 1]) s i f 0x45) ∧
      (∀ op, (i, op) ∈ [(Instr.copy f, 0xC0), (.copym f, 0xC1), (.copy2d f, 0xC2), (.shadow f, 0xC3), (.publish f, 0xC4),
        (.feset f, 0xC5), (.feclr f, 0xC6), (.waymask f, 0xC8), (.alloc f, 0xC9), (.free f, 0xCA),
        (.ringreg f, 0xD0), (.msend f, 0xD1), (.mrecv f, 0xD2), (.mpeek f, 0xD3), (.mack f, 0xD4),
        (.ringdereg f, 0xD5), (.flushr f, 0x4B), (.invr f, 0x4C), (.cbload f, 0xA9), (.taskspawn f, 0xE7)] → DeadQueues (posts js) s i f op) ∧
      (i = .syscall f → DeadQueues s s i f 0xE1) ∧ (i = .pref f → exec i s = .next (posts js)) ∧
      (∀ op, (i, op) ∈ [(Instr.tcvt f, 0xA4), (.tstat f, 0xAA), (.tslice f, 0xAC), (.tbuild f, 0xAD), (.gemvb f, 0xA8)] →
        DeadTiles (posts js) s i f op)) ∧
    (fr.poisonOf f true = true → i = .amocas f → DeadLeaves asIs (posts js) s i f 0x59) ∧
    (∀ t, fr.port f.sa.toNat = some t → t.poison = true →
      (i = .mnop f → DeadQueues (posts js) s i f 0x46) ∧ (i = .fence f → DeadQueues s s i f 0x5F) ∧
      (i = .wrsys f → exec i s = .next (s.sendTo fr 0 f.da.toNat (fr.poisonRes f .i64))) ∧
      (i = .ctxfree f → exec i s = .next (s.sendTo fr 0 f.da.toNat (fr.poisonRes f t.fmt))) ∧
      (∀ u, (i = .trap f ∧ u = js.foldl (fun s j => s.raise (fr.siteAt s j)
              { cause := 0x0D, sub := 0, code := bits fr.slot.lit 15 0 }) s) ∨
          (i = .break f ∧ s.brkOf fr.names.part fr.ctx = false ∧ u = js.foldl (fun s j => s.raise (fr.siteAt s j)
              { cause := 0x0E, sub := 0, code := bits fr.slot.lit 15 0 }) s) ∨
          (i = .assert f ∧ u = s.raise (fr.site s) { cause := 0x0F, sub := 2, code := bits fr.slot.lit 15 0 }) ∨
          (i = .yield f ∧ u = s.modElem fr.cluster fr.elem fun e => { e with yield_ := some fr.ctx }) →
        exec i s = .next (u.sendTo fr 0 f.da.toNat (fr.poisonRes f t.fmt))) ∧
      (∀ x, s.ctx? fr.names.part fr.ctx = some x → x.root = x.id → i = .taskdone f →
        exec i s = .next ((s.raise (fr.site s) { cause := 0x0C, sub := 2 }).modCtx fr.names.part fr.ctx fun y =>
          { y with done := true }))) ∧
    (∀ t, mergeTok fr = some t → t.poison = true → i = .merge f →
      exec i s = .next (s.sendTo fr f.ta.toNat f.da.toNat ⟨t.wave, t.stop, t.fmt, true, t.data⟩)) ∧
    (∀ a b, fr.a = some a → fr.b = some b → a.poison = true ∨ b.poison = true → i = .vjoin f →
      exec i s = .next (s.sendJoined fr f ⟨a.wave, a.stop, a.fmt, true, a.data ++ b.data⟩)) ∧
    (i = .gate f → (poisonedTok fr.c = true →
        exec i s = .next (s.sendTo fr f.ta.toNat f.da.toNat (fr.poisonRes f fm))) ∧
      (∀ ps, poisonedTok fr.c = false → fr.pred = some ps → fr.poisonOf f true = true →
        exec i s = .next (s.sendTo fr f.ta.toNat (gateLink f.da.toNat (ps.any id)) (fr.poisonRes f fm))))

/-- A format that an opcode does not take (R192): nothing is computed, a FORMAT record names the formats of both operands, and
a poisoned token leaves on every link that DA or DB can name. It is raised for an operand format that the opcode's table does
not give, for two ports of different formats where B has no format of its own (R190), for an operand of another format where
it has one, and for a steering predicate that is not P (R195); a memory, engine, ring or tile word takes its places with no
access (R192). That the record holds code 0 of an operand that is no port (a constant, the SB of NEG, CLZ, FSQRT or FRCP)
is the model's choice (log 31, DEDUCED), and so is the format of the poisoned token (log 51, DEDUCED). -/
def Obligations.MismatchTraps : Prop :=
  ∀ (s : State) (f : Fields) (fr : Firing) (fm : Fmt) (l : W64) (js : List Nat) (i : Instr) (mis : State),
    fr = s.run.cur → fm = fr.fmtOf f → l = fr.slot.lit → js = upto fr.run →
    mis = s.raise (fr.site s) { cause := 0x03, sub := 1, info := fr.codeOf f.sa.toNat + 16 * fr.codeOf f.sb.toNat } →
    let traps : Prop := ∃ o : Fmt, exec i s = .next (mis.sendFailed fr f o)
    (fr.poisonOf f false = false → fr.predOk f = true →
      (((i = .adds f ∨ i = .addsn f ∨ i = .subs f ∨ i = .subsn f ∨ i = .mul f ∨ i = .mulh f ∨
         i = .mulhn f ∨ i = .div f ∨ i = .divn f ∨ i = .rem f ∨ i = .remn f ∨ i = .neg f ∨ i = .abs f ∨
         i = .shl f ∨ i = .shrl f ∨ i = .shra f ∨ i = .rotl f ∨ i = .bfx f ∨ i = .byteperm f ∨ i = .clz f ∨
         i = .ctz f ∨ i = .popc f ∨ i = .brev f ∨ i = .min_ f ∨ i = .max_ f ∨ i = .clt f ∨ i = .cle f ∨
         i = .vredadd f) ∧
        fm.isInt = false) ∨
       ((i = .add f ∨ i = .sub f ∨ i = .minn f ∨ i = .maxn f ∨ i = .cltn f ∨ i = .clen f) ∧
        intOrA fm = false) ∨
       ((i = .and_ f ∨ i = .or_ f ∨ i = .xor_ f ∨ i = .andn f ∨ i = .not_ f ∨ i = .ceq f ∨ i = .cne f) ∧
        intAOrP fm = false) ∨
       ((i = .fadd f ∨ i = .fsub f ∨ i = .fmul f ∨ i = .fdiv f ∨ i = .fsqrt f ∨ i = .fmin f ∨ i = .fmax f ∨
         i = .fminm f ∨ i = .fmaxm f ∨ i = .fabs f ∨ i = .fneg f ∨ i = .fcpys f ∨ i = .frint f ∨
         i = .fscale f ∨ i = .fexpo f ∨ i = .fmant f ∨ i = .fexp2f f ∨ i = .flog2m f ∨ i = .frcp f ∨
         i = .frsq f ∨ i = .fsin1 f ∨ i = .fcos1 f ∨ i = .ftanh f ∨ i = .fsigm f ∨ i = .ferf f ∨
         i = .fclass f ∨ i = .fceq f ∨ i = .fclt f ∨ i = .fcle f ∨ i = .fcun f ∨ i = .fsplit f ∨
         i = .vfredadd f) ∧
        fm.isFloat = false) ∨
       ((i = .vscan f ∨ i = .vredmax f ∨ i = .vredmin f ∨ i = .vdot f) ∧
        intOrFloat fm = false) ∨
       ((i = .lea f) ∧
        fm ≠ .a) ∨
       ((i = .idx f) ∧
        fm ≠ .i64) ∨
       ((i = .viota f) ∧
        fm ≠ .p) ∨
       ((i = .sext f ∨ i = .zext f) ∧ widens (widthTarget f) fm = none) ∨
       ((i = .narrow f ∨ i = .narrows f) ∧ narrows (widthTarget f) fm = none) ∨
       (i = .fcvt f ∧ fm.isFloat = false) ∨ (i = .fcvti f ∧ fm.isFloat = false) ∨
       ((i = .icvtf f ∨ i = .icvtfn f) ∧ fm.isInt = false)) → traps) ∧
    (fr.poisonOf f false = false → fr.predOk f = false →
      (i = .mov f ∨ i = .steer f ∨ i = .add f ∨ i = .sub f ∨ i = .adds f ∨ i = .addsn f ∨ i = .subs f ∨
       i = .subsn f ∨ i = .mul f ∨ i = .mulh f ∨ i = .mulhn f ∨ i = .div f ∨ i = .divn f ∨ i = .rem f ∨
       i = .remn f ∨ i = .neg f ∨ i = .abs f ∨ i = .and_ f ∨ i = .or_ f ∨ i = .xor_ f ∨ i = .andn f ∨
       i = .not_ f ∨ i = .shl f ∨ i = .shrl f ∨ i = .shra f ∨ i = .rotl f ∨ i = .bfx f ∨ i = .byteperm f ∨
       i = .clz f ∨ i = .ctz f ∨ i = .popc f ∨ i = .brev f ∨ i = .min_ f ∨ i = .max_ f ∨ i = .minn f ∨
       i = .maxn f ∨ i = .lea f ∨ i = .idx f ∨ i = .fadd f ∨ i = .fsub f ∨ i = .fmul f ∨ i = .fdiv f ∨
       i = .fsqrt f ∨ i = .fmin f ∨ i = .fmax f ∨ i = .fminm f ∨ i = .fmaxm f ∨ i = .fabs f ∨ i = .fneg f ∨
       i = .fcpys f ∨ i = .frint f ∨ i = .fscale f ∨ i = .fexpo f ∨ i = .fmant f ∨ i = .fexp2f f ∨
       i = .flog2m f ∨ i = .frcp f ∨ i = .frsq f ∨ i = .fsin1 f ∨ i = .fcos1 f ∨ i = .ftanh f ∨
       i = .fsigm f ∨ i = .ferf f ∨ i = .vbcast f ∨ i = .vperm f ∨ i = .vslide f ∨ i = .vexpand f ∨
       i = .vscan f ∨ i = .ceq f ∨ i = .cne f ∨ i = .clt f ∨ i = .cle f ∨ i = .cltn f ∨ i = .clen f ∨
       i = .fclass f ∨ i = .fceq f ∨ i = .fclt f ∨ i = .fcle f ∨ i = .fcun f ∨ i = .sext f ∨ i = .zext f ∨
       i = .narrow f ∨ i = .narrows f ∨ i = .fcvt f ∨ i = .fcvti f ∨ i = .icvtf f ∨ i = .icvtfn f ∨
       i = .itag f ∨ i = .viota f ∨ i = .vredadd f ∨ i = .vredmax f ∨ i = .vredmin f ∨ i = .vfredadd f ∨
       i = .vdot f ∨ i = .vlen f ∨ i = .fsplit f) → traps) ∧
    (fr.poisonOf f false = false → fr.formatsDiffer f = true →
      (i = .mov f ∨ i = .add f ∨ i = .sub f ∨ i = .adds f ∨ i = .addsn f ∨ i = .subs f ∨ i = .subsn f ∨
       i = .mul f ∨ i = .mulh f ∨ i = .mulhn f ∨ i = .div f ∨ i = .divn f ∨ i = .rem f ∨ i = .remn f ∨
       i = .and_ f ∨ i = .or_ f ∨ i = .xor_ f ∨ i = .andn f ∨ i = .min_ f ∨ i = .max_ f ∨ i = .minn f ∨
       i = .maxn f ∨ i = .ceq f ∨ i = .cne f ∨ i = .clt f ∨ i = .cle f ∨ i = .cltn f ∨ i = .clen f ∨
       i = .fadd f ∨ i = .fsub f ∨ i = .fmul f ∨ i = .fdiv f ∨ i = .fmin f ∨ i = .fmax f ∨ i = .fminm f ∨
       i = .fmaxm f ∨ i = .fcpys f ∨ i = .fscale f ∨ i = .fceq f ∨ i = .fclt f ∨ i = .fcle f ∨
       i = .fcun f ∨ i = .vdot f) → traps) ∧
    (fr.poisonOf f false = false → s.ownSource fr f.sb.toNat = none →
      (i = .shl f ∨ i = .shrl f ∨ i = .shra f ∨ i = .rotl f ∨ i = .bfx f ∨ i = .byteperm f ∨ i = .lea f ∨
       i = .vbcast f ∨ i = .vperm f ∨ i = .vslide f ∨ i = .vsplit f) → traps) ∧
    (fr.poisonOf f true = false →
      (fr.predOk f = false ∨ fr.formatsDiffer f = true → (i = .madd f ∨ i = .ffma f ∨ i = .ffms f ∨ i = .fnfma f ∨ i = .select f) → traps) ∧
      (fm.isInt = false → i = .madd f ∨ i = .bfi f → traps) ∧
      (fm.isFloat = false → i = .ffma f ∨ i = .ffms f ∨ i = .fnfma f → traps) ∧
      (s.source fr 0x42 fm = none → i = .madd f ∨ i = .bfi f ∨ i = .ffma f ∨ i = .ffms f ∨ i = .fnfma f → traps) ∧
      (s.ownSource fr f.sb.toNat = none → i = .bfi f → traps) ∧
      (fr.pred = none → i = .select f ∨ i = .gate f → traps)) ∧
    (fr.poisonOf f false = false → fr.predOk f = false →
      i = .wadv f ∨ i = .wset f ∨ i = .stop f ∨ i = .vsplit f → traps) ∧
    (fr.poisonOf f false = false → s.wsetWave fr f.sb.toNat = none → i = .wset f → traps) ∧
    (fr.poisonOf f false = false → fr.predOn f.sb.toNat = none → i = .vcompact f ∨ i = .vexpand f → traps) ∧
    (∀ a b, fr.a = some a → fr.b = some b → a.poison = false → b.poison = false → a.fmt ≠ b.fmt → i = .vjoin f →
      f.da.toNat ≠ 7 → exec i s = .next ((s.raise (fr.site s) { cause := 0x03, sub := 1, info := a.fmt.code + 16 * b.fmt.code }).sendJoined
        fr f ⟨a.wave, a.stop, a.fmt, true, a.data ++ b.data⟩)) ∧
    (∀ t, fr.port f.sa.toNat = some t → t.poison = false →
      (t.fmt ≠ .p → i = .assert f → traps) ∧ (t.fmt ≠ .i64 → i = .ctxfree f → traps) ∧
      (t.fmt ≠ .i64 → t.fmt ≠ .a → writeRight (bits l 11 0) = .u ∨ writeRight (bits l 11 0) = .p →
        s.privOf fr.names.part fr.ctx = true → i = .wrsys f → traps) ∧
      (∀ u, fr.port f.sb.toNat = some u → u.poison = false → u.fmt ≠ .i64 → i = .ctxsend f ∨ i = .ctxret f → traps) ∧
      (∀ u, fr.port f.sb.toNat = some u → u.poison = false → t.fmt ≠ u.fmt →
        (i = .fence f → DeadQueues mis s i f 0x5F) ∧ (i = .mnop f → DeadQueues mis s i f 0x46)) ∧
      (wordFmt t.fmt = false → fr.poisonOf f false = false → i = .syscall f → DeadQueues mis s i f 0xE1)) ∧
    (fr.poisonOf f false = false →
      (fm ≠ .a →
        (∀ op, (i, op) ∈ [(Instr.ld f, 0x40), (.st f, 0x41), (.ldfe f, 0x47), (.stfe f, 0x48), (.ctrread f, 0x4F),
          (.amoadd f, 0x50), (.amoand f, 0x51), (.amoor f, 0x52), (.amoxor f, 0x53), (.amomin f, 0x54),
          (.amomax f, 0x55), (.amominn f, 0x56), (.amomaxn f, 0x57), (.amoswap f, 0x58),
          (.amofadd f, 0x5A), (.amofmin f, 0x4D), (.amofmax f, 0x4E), (.ctradd f, 0x5B),
          (.ctrwait f, 0x5C), (.lease f, 0x5D), (.unlease f, 0x5E)] → DeadLeaves asIs mis s i f op) ∧
        (∀ op, (i, op) ∈ [(Instr.ldv f, 0x42), (.stv f, 0x43)] → DeadLeaves pieces mis s i f op) ∧
        (∀ op, (i, op) ∈ [(Instr.ldg f, 0x44), (.sts f, 0x45)] → DeadLeaves asIs mis s i f op) ∧
        (∀ op, (i, op) ∈ [(Instr.flushr f, 0x4B), (.invr f, 0x4C), (.cbload f, 0xA9)] → DeadQueues mis s i f op) ∧
        (i = .gemvb f → DeadTiles mis s i f 0xA8) ∧ (i = .pref f → exec i s = .next mis)) ∧
      (s.storeData fr f (litWidth l) = none →
        (i = .st f → DeadLeaves asIs mis s i f 0x41) ∧ (i = .stfe f → DeadLeaves asIs mis s i f 0x48) ∧
        (i = .stv f → DeadLeaves pieces mis s i f 0x43) ∧ (i = .sts f → DeadLeaves asIs mis s i f 0x45)) ∧
      (∀ op o, (i, op, o) ∈ [(Instr.amoadd f, 0x50, AmoOp.add), (.amoand f, 0x51, .and_), (.amoor f, 0x52, .or_),
          (.amoxor f, 0x53, .xor_), (.amomin f, 0x54, .min_), (.amomax f, 0x55, .max_), (.amominn f, 0x56, .minn),
          (.amomaxn f, 0x57, .maxn), (.amoswap f, 0x58, .swap), (.amofadd f, 0x5A, .fadd), (.amofmin f, 0x4D, .fmin),
          (.amofmax f, 0x4E, .fmax)] → s.amoB fr f o (litWidth l) = none → DeadLeaves asIs mis s i f op) ∧
      (s.i64B fr f = none →
        (∀ op, (i, op) ∈ [(Instr.ctradd f, 0x5B), (.ctrwait f, 0x5C)] → DeadLeaves asIs mis s i f op) ∧
        (∀ op, (i, op) ∈ [(Instr.flushr f, 0x4B), (.invr f, 0x4C), (.feset f, 0xC5), (.feclr f, 0xC6), (.mack f, 0xD4)] →
          DeadQueues mis s i f op)) ∧
      (fr.twoAddr f = false → ∀ op, (i, op) ∈ [(Instr.copy f, 0xC0), (.copym f, 0xC1), (.copy2d f, 0xC2), (.shadow f, 0xC3), (.ringreg f, 0xD0)] →
        DeadQueues mis s i f op) ∧
      (fr.portIs f.sa.toNat (· = .a) = false → ∀ op,
        (i, op) ∈ [(Instr.publish f, 0xC4), (.feset f, 0xC5), (.feclr f, 0xC6), (.free f, 0xCA), (.taskspawn f, 0xE7)] →
        DeadQueues mis s i f op) ∧
      (fr.portIs f.sa.toNat (· = .i64) = false → ∀ op,
        (i, op) ∈ [(Instr.alloc f, 0xC9), (.msend f, 0xD1), (.mrecv f, 0xD2), (.mpeek f, 0xD3), (.mack f, 0xD4),
        (.ringdereg f, 0xD5)] →
        DeadQueues mis s i f op) ∧
      (fr.portIs f.sa.toNat (· = .i64) = false → s.privOf fr.names.part fr.ctx = true → i = .waymask f →
        DeadQueues mis s i f 0xC8) ∧
      (fr.portIs f.sa.toNat refFmt = false → ∀ op, (i, op) ∈ [(Instr.tcvt f, 0xA4), (.tstat f, 0xAA), (.tslice f, 0xAC), (.tbuild f, 0xAD)] →
        DeadTiles mis s i f op))

/-- Tag actions (R199, R200): what each does to the token that leaves on LK0 or LK1; one whose last wave or stop level would
leave its range is sent poisoned with its tag unchanged, under an illegal-instruction record of subcode WAVE (4) or STOPLVL
(5). That there is one record for each token sent, and none for a firing with a poisoned operand, is the model's reading (log
100, DESIGN CHOICE). -/
def Obligations.TagActions : Prop :=
  ∀ (t : Token) (n : Nat), n = t.data.length → 0 < n →
    (∀ lk, tagAction 0 lk t = (t, none)) ∧
    (∀ lk, t.wave + n ≤ 2 ^ 32 - 1 → tagAction 1 lk t = ({ t with wave := t.wave + 1 }, none)) ∧
    (∀ lk, t.wave + 2 * n - 1 ≤ 2 ^ 32 - 1 → tagAction 2 lk t = ({ t with wave := t.wave + n }, none)) ∧
    (tagAction 3 false t = (t, none)) ∧
    (t.wave + n ≤ 2 ^ 32 - 1 → tagAction 3 true t = ({ t with wave := t.wave + 1 }, none)) ∧
    (∀ lk, 2 ^ 32 - 1 < t.wave + n → tagAction 1 lk t = ({ t with poison := true }, some 4)) ∧
    (∀ lk, 2 ^ 32 - 1 < t.wave + 2 * n - 1 → tagAction 2 lk t = ({ t with poison := true }, some 4)) ∧
    (2 ^ 32 - 1 < t.wave + n → tagAction 3 true t = ({ t with poison := true }, some 4)) ∧
    (∀ lk, t.stop < 7 → tagAction 4 lk t = ({ t with stop := t.stop + 1 }, none)) ∧
    (∀ lk, 7 ≤ t.stop → tagAction 4 lk t = ({ t with poison := true }, some 5)) ∧
    (∀ lk, 0 < t.stop → tagAction 5 lk t = ({ t with stop := t.stop - 1 }, none)) ∧
    (∀ lk, t.stop = 0 → tagAction 5 lk t = ({ t with poison := true }, some 5)) ∧
    (∀ lk, tagAction 6 lk t = ({ t with stop := 0 }, none)) ∧
    ∀ (s : State) (fr : Firing) (ta : Nat) (lk : Bool) (u : Token) (x : Option Nat), tagAction ta lk t = (u, x) →
      s.out fr ta lk t = (match x with
        | some sub => if fr.anyPoison then s else s.raise (fr.site s) { cause := 1, sub := sub }
        | none => s).sendLink (fr.site s) (fr.names.sender fr.cluster) (if lk then fr.slot.lk1 else fr.slot.lk0) u

/-- Steering (R195, R196): the maximal runs of equal predicate values of port C, in order, cover the result; each run of true
elements goes on LK0 and each of false ones on LK1 under DA = 4, and the others send on LK0 alone. A piece keeps the
context, stop level, format and poison of the result; its wave, run and elements are those of its range. -/
def Obligations.SteeredPieces : Prop :=
  ∀ ps : List Bool,
    ((runs ps).map fun x => List.replicate x.2.1 x.2.2).flatten = ps ∧
    (runs ps).IsChain (fun x y => x.1 + x.2.1 = y.1 ∧ x.2.2 ≠ y.2.2) ∧ (∀ x ∈ runs ps, 0 < x.2.1) ∧
    (∀ x, (runs ps).head? = some x → x.1 = 0) ∧
    (∀ (t : Token) (lo n : Nat), lo + n ≤ t.data.length →
      t.slice lo n = { t with wave := t.wave + lo, data := (t.slice lo n).data } ∧ (t.slice lo n).data.length = n ∧
      ∀ i, i < n → (t.slice lo n).data[i]? = t.data[lo + i]?) ∧
    ∀ (s : State) (fr : Firing) (ta lo n : Nat) (p : Bool) (t : Token) (r : List (Nat × Nat × Bool)),
      s.sendPieces fr ta 4 t ((lo, n, p) :: r) = (s.out fr ta (!p) (t.slice lo n)).sendPieces fr ta 4 t r ∧
      s.sendPieces fr ta 5 t ((lo, n, p) :: r)
        = (if p then s.out fr ta false (t.slice lo n) else s).sendPieces fr ta 5 t r ∧
      s.sendPieces fr ta 6 t ((lo, n, p) :: r)
        = (if p then s else s.out fr ta false (t.slice lo n)).sendPieces fr ta 6 t r ∧
      (∀ sel, s.sendPieces fr ta sel t [] = s) ∧
      (∀ (d : Nat) (v : Res) (c : Token), d = 4 ∨ d = 5 ∨ d = 6 → fr.c = some c → c.poison = false →
        ps = ((c.data.take (v.token fr.ctx).data.length).map fun b => b.toNat % 2 == 1) →
        s.sendTo fr ta d v = s.sendPieces fr ta d (v.token fr.ctx) (runs ps))

/-! ### Contexts and the system group -/

/-- The words of contexts (R225 to R230): CTXNEW makes one context for each wave and gives its linkage; CTXSEND and CTXRET
send each element to the context that its linkage names, at wave 0 or at the linkage's wave; CTXFREE frees contexts of the
caller's own task once their operations are over. -/
def Obligations.ContextWords : Prop :=
  ∀ (s : State) (f : Fields) (fr : Firing) (js : List Nat), fr = s.run.cur → js = upto fr.run →
    (∀ (x : Ctx) (made : List W64) (t : State), s.ctx? fr.names.part fr.ctx = some x → fr.poisonOf f false = false →
      fr.c = none → s.newCtxs x fr.wave fr.run [] = (made, t) → made.length = fr.run →
      exec (.ctxnew f) s = .next (t.sendTo fr f.ta.toNat f.da.toNat
        ⟨fr.wave, fr.stopOf f, .i64, false, made⟩)) ∧
    (∀ (a b : Token) (c wave : Nat → Nat) (ret : Bool), fr.port f.sa.toNat = some a → fr.port f.sb.toNat = some b →
      b.poison = false → b.fmt = .i64 → s.leftBefore fr.names.part fr.ctx = [] →
      (∀ j, c j = if ret then bits (tokEl b j) 27 16 else bits (tokEl b j) 11 0) →
      (∀ j, wave j = if ret then bits (tokEl b j) 63 32 else 0) →
      (∀ j ∈ js, ∃ x, s.ctx? fr.names.part (c j) = some x ∧ x.asid = s.asidOf fr.names.part fr.ctx) →
      exec (if ret then .ctxret f else .ctxsend f) s
        = .next (js.foldl (fun s j => s.sendAcross (fr.siteAt s j) fr.cluster f.da.toNat fr.slot.lk0 fr.slot.lk1
            { a with ctx := c j, wave := wave j, stop := 0, data := [tokEl a j], at_ := none, flits := 0 }) s)) ∧
    (∀ (t : Token) (c : Nat → Nat) (me : Ctx), fr.port f.sa.toNat = some t → t.poison = false → t.fmt = .i64 →
      (∀ j, c j = bits (tokEl t j) 11 0) → s.ctx? fr.names.part fr.ctx = some me →
      (∀ j ∈ js, ∃ x, s.ctx? fr.names.part (c j) = some x ∧ x.asid = me.asid ∧ x.root = me.root ∧ x.id ≠ x.root) →
      ((∀ j ∈ js, s.quiet fr.names.part (c j) = true) →
        exec (.ctxfree f) s = .next ((js.foldl (fun s j => s.freeCtx fr.names.part (c j)) s).sendAcross (fr.site s) fr.cluster
          f.da.toNat fr.slot.lk0 fr.slot.lk1 ((fr.res f .i64 (t.data.map BitVec.toNat)).token fr.ctx))) ∧
      ((∃ j ∈ js, s.quiet fr.names.part (c j) = false) → exec (.ctxfree f) s = .next (s.waitFiring fr)))

/-- The context that CTXNEW makes (R226): its number was free; it has its caller's ASID, ranges, seed, priority, privilege and
work identifier, and belongs to its caller's task; K0 to K7 are 0 and its chain is fresh at wave 0. What R226 does not list,
its flags 0, its lease maximum 16, DBG, BRK and XTRAP 0 and that it is not halted, is the model's choice (log 49, DEDUCED). -/
def Obligations.CreatedContext : Prop :=
  ∀ (s t : State) (x : Ctx) (c : Nat), x.live = true → s.newCtx x = (some c, t) →
    c < 4096 ∧ s.ctx? x.part c = none ∧ s.ctxNamed x.part c = false ∧
    ∃ y, t.ctx? x.part c = some y ∧ y.asid = x.asid ∧ y.root = x.root ∧ y.workid = x.workid ∧ y.priv = x.priv ∧
      y.prio = x.prio ∧ y.ranges = x.ranges ∧ y.args = x.args ∧ y.seed = x.seed ∧ y.flags = 0 ∧ y.keeps = [] ∧ y.kinit = [] ∧
      y.depth = 0 ∧ y.leaseMax = 16 ∧ y.xtrap = false ∧ y.brk = false ∧ y.halted = false ∧
      y.chain.wave = 0 ∧ y.chain.last = 0xFD ∧ y.chain.seen = []

/-- The words that report and stop (R404, R405, R411): TRAP and BREAK raise one record for each element, ASSERT one for a
false predicate, HALT one for its firing; BREAK under BRK and HALT stop the context; ELOG notes events, YIELD the context. -/
def Obligations.ReportWords : Prop :=
  ∀ (s : State) (f : Fields) (t : Token) (fr : Firing) (code p : Nat) (x : Ctx),
    fr = s.run.cur → fr.port f.sa.toNat = some t → t.data.length = fr.run → t.poison = false →
    code = bits fr.slot.lit 15 0 → p = fr.names.part → s.ctx? p fr.ctx = some x →
    exec (.trap f) s = .next ((recordEach s fr t 0x0D code).sendTo fr 0 f.da.toNat (passRes s f t)) ∧
    (x.brk = false →
      exec (.break f) s = .next ((recordEach s fr t 0x0E code).sendTo fr 0 f.da.toNat (passRes s f t))) ∧
    (x.brk = true → exec (.break f) s
      = .next (((recordEach s fr t 0x0E code).modCtx p fr.ctx fun y => { y with halted := true }).modCtx p fr.ctx fun y =>
          { y with resume := y.resume ++ (upto fr.run).map fun j =>
            ⟨fr, f.da.toNat, { (passRes s f t).token fr.ctx with wave := fr.wave + j, data := [tokEl t j] }⟩ })) ∧
    (t.fmt = .p →
      ((∀ j ∈ upto fr.run, (tokEl t j).toNat % 2 = 1) →
        exec (.assert f) s = .next (s.sendTo fr 0 f.da.toNat (passRes s f t))) ∧
      (∀ j0, j0 < fr.run → (tokEl t j0).toNat % 2 = 0 → (∀ j, j < j0 → (tokEl t j).toNat % 2 = 1) →
        exec (.assert f) s = .next ((s.raise (fr.siteAt s j0)
          { cause := 0x0F, sub := 1, code := code,
            info := ((upto fr.run).filter fun j => (tokEl t j).toNat % 2 == 0).length }).sendTo fr 0 f.da.toNat (passRes s f t)))) ∧
    exec (.halt f) s = .next ((s.raise (fr.site s) { cause := 0x10, sub := 0, info := (tokEl t 0).toNat, code := code }).modCtx
      p fr.ctx fun y => { y with halted := true }) ∧
    exec (.elog f) s = .next (((upto fr.run).foldl (fun s j => s.pushThyme (clusterStrip fr.cluster)
      (thymeEvt code 1 fr.ctx (s.asidOf p fr.ctx) (fr.wave + j) (tokEl t j))) s).sendTo fr 0 f.da.toNat (passRes s f t)) ∧
    exec (.yield f) s = .next ((s.modElem fr.cluster fr.elem fun e => { e with yield_ := some fr.ctx }).sendTo fr 0 f.da.toNat
      (passRes s f t))

/-- TASKDONE, SYSCALL and TASKSPAWN (R401, R406, R410): the context is done, where CTXNEW did not make it; the others take
their places in the chain with their operands. -/
def Obligations.TaskWords : Prop :=
  ∀ (s : State) (f : Fields) (t : Token) (fr : Firing) (js : List Nat) (x : Ctx),
    fr = s.run.cur → js = upto fr.run → fr.port f.sa.toNat = some t → fr.poisonOf f false = false →
    s.ctx? fr.names.part fr.ctx = some x →
    (x.root = x.id → exec (.taskdone f) s = .next (s.modCtx fr.names.part fr.ctx fun y => { y with done := true })) ∧
    (x.root ≠ x.id → exec (.taskdone f) s = .next (s.raise (fr.site s) { cause := 0x01, sub := 7 })) ∧
    (t.fmt = .i64 ∨ t.fmt = .a →
      (f.sb = 0x7F → Queues s (.syscall f) f 0xE1 (js.map fun j => { kind := .syscall, data := tokEl t j, fmt := .i64 })) ∧
      (∀ u : Token, fr.port f.sb.toNat = some u → (u.fmt = .i64 ∨ u.fmt = .a) →
        Queues s (.syscall f) f 0xE1 (js.map fun j =>
          { kind := .syscall, data := tokEl t j, data2 := tokEl u j, fmt := .i64 }))) ∧
    (t.fmt = .a → Queues s (.taskspawn f) f 0xE7 (js.map fun j => { kind := .spawn, va := (tokEl t j).toNat, fmt := .i64 }))

/-- The words that read and write system registers (R268, R407, R408, R411): RDSYS gives the selector's value for each
element and a read of SYS.FLAGSRC clears the flags; WRSYS writes what a privileged context may write and gives what the
selector then reads; WORKID, CLOCK and PERFRD give theirs. -/
def Obligations.SystemRegisterWords : Prop :=
  ∀ (s : State) (f : Fields) (fr : Firing) (sel p : Nat) (x : Ctx),
    fr = s.run.cur → sel = bits fr.slot.lit 11 0 → p = fr.names.part → s.ctx? p fr.ctx = some x →
    fr.poisonOf f false = false →
    (readRight sel = .u ∨ (readRight sel = .p ∧ x.priv = true) →
      (sel ≠ 3 → exec (.rdsys f) s = .next (s.sendTo fr 0 f.da.toNat (elemRes s f .i64 fun _ => (s.sysRead fr sel).toNat))) ∧
      (sel = 3 → fr.run = 1 → exec (.rdsys f) s
        = .next ((s.modCtx p fr.ctx fun y => { y with flags := 0 }).sendTo fr 0 f.da.toNat
          (elemRes s f .i64 fun _ => x.flags.toNat)))) ∧
    exec (.workid f) s = .next (s.sendTo fr 0 f.da.toNat (elemRes s f .i64 fun _ => x.workid.toNat)) ∧
    exec (.clock f) s = .next (s.sendTo fr 0 f.da.toNat (elemRes s f .i64 fun _ => s.dev.clock)) ∧
    exec (.perfrd f) s = .next (s.sendTo fr 0 f.da.toNat (elemRes s f .i64 fun _ => s.perf fr (bits fr.slot.lit 3 0))) ∧
    (∀ (t : Token) (v : W64), fr.port f.sa.toNat = some t → t.data = [v] → fr.run = 1 → (t.fmt = .i64 ∨ t.fmt = .a) →
      x.priv = true →
      (∀ u : State, (0x10 ≤ sel ∧ sel < 0x20 ∨ sel = 1 ∨ sel = 2 ∨ sel = 4 ∨ sel = 5 ∨ sel = 7) →
        u = s.modCtx p fr.ctx (fun y => y.setReg (s.part p).leasecap sel v) →
        exec (.wrsys f) s = .next (u.sendTo fr 0 f.da.toNat (elemRes s f .i64 fun _ => (u.sysRead fr sel).toNat))) ∧
      (∀ u : State, 0x20 ≤ sel → sel < 0x28 →
        u = s.modCtx p fr.ctx (fun y => y.setKeep fr.cluster fr.elem (sel - 0x20) v) →
        exec (.wrsys f) s = .next (u.sendTo fr 0 f.da.toNat (elemRes s f .i64 fun _ => v.toNat))) ∧
      (∀ u : State, sel = 0x81 → s.xlatInv p v = some u →
        exec (.wrsys f) s = .next (u.sendTo fr 0 f.da.toNat (elemRes s f .i64 fun _ => 0))))

/-- What a context may not do (R206, R209, R407): a PRIVILEGE record with the selector in INFO, no effect, and a poisoned
result. -/
def Obligations.PrivilegeTraps : Prop :=
  ∀ (s : State) (f : Fields) (fr : Firing) (sel : Nat) (x : Ctx) (t : Token),
    fr = s.run.cur → sel = bits fr.slot.lit 11 0 → s.ctx? fr.names.part fr.ctx = some x → fr.poisonOf f false = false →
    fr.port f.sa.toNat = some t →
    ((readRight sel = .c ∨ readRight sel = .m ∨ (readRight sel = .p ∧ x.priv = false)) → exec (.rdsys f) s
      = .next ((s.raise (fr.site s) { cause := 2, sub := 2, info := sel }).sendTo fr 0 f.da.toNat (fr.poisonRes f .i64))) ∧
    ((writeRight sel = .c ∨ writeRight sel = .m ∨ (writeRight sel = .p ∧ x.priv = false)) → exec (.wrsys f) s
      = .next ((s.raise (fr.site s) { cause := 2, sub := 2, info := sel }).sendTo fr 0 f.da.toNat (fr.poisonRes f .i64)))

/-! ### Words of elements (R213 to R291) -/

/-- Group 0x1 (R232, R233): sums, differences, saturation, products, quotients and remainders of each element, computed
exactly on integers and narrowed; nothing else changes but what the sending of the result changes, and no flag. -/
def Obligations.IntegerArithmetic : Prop :=
  ∀ (s : State) (f : Fields) (fm : Fmt) (a b c : List Nat) (W : Nat) (A B C : Nat → Int),
    W = fm.width → (∀ j, A j = toS W (el a j)) → (∀ j, B j = toS W (el b j)) → (∀ j, C j = toS W (el c j)) →
    (Reads2 s f fm a b → (fm.isInt = true ∨ fm = .a) →
      Gives s (.add f) f fm (fun j => wrap W (A j + B j)) ∧
      Gives s (.sub f) f fm (fun j => wrap W (A j - B j))) ∧
    (Reads2 s f fm a b → fm.isInt = true →
      Gives s (.adds f) f fm (fun j => wrap W (max (-2 ^ (W - 1)) (min (2 ^ (W - 1) - 1) (A j + B j)))) ∧
      Gives s (.addsn f) f fm (fun j => min (2 ^ W - 1) (el a j + el b j)) ∧
      Gives s (.subs f) f fm (fun j => wrap W (max (-2 ^ (W - 1)) (min (2 ^ (W - 1) - 1) (A j - B j)))) ∧
      Gives s (.subsn f) f fm (fun j => min (2 ^ W - 1) (el a j - el b j)) ∧
      Gives s (.mul f) f fm (fun j => wrap W (A j * B j)) ∧
      Gives s (.mulh f) f fm (fun j => wrap W (A j * B j / 2 ^ W)) ∧
      Gives s (.mulhn f) f fm (fun j => el a j * el b j / 2 ^ W % 2 ^ W) ∧
      Gives s (.div f) f fm (fun j => if el b j = 0 then 2 ^ W - 1 else wrap W ((A j).tdiv (B j))) ∧
      Gives s (.divn f) f fm (fun j => if el b j = 0 then 2 ^ W - 1 else el a j / el b j) ∧
      Gives s (.rem f) f fm (fun j => if el b j = 0 then el a j else wrap W ((A j).tmod (B j))) ∧
      Gives s (.remn f) f fm (fun j => if el b j = 0 then el a j else el a j % el b j)) ∧
    (Reads3 s f fm a b c → fm.isInt = true →
      Gives s (.madd f) f fm (fun j => wrap W (A j * B j + C j))) ∧
    (Reads1 s f fm a → fm.isInt = true →
      Gives s (.neg f) f fm (fun j => wrap W (-A j)) ∧
      Gives s (.abs f) f fm (fun j => wrap W |A j|))

/-- Group 0x2 (R234 to R236): logic, shifts with the amount taken modulo the width, counts and bit fields; then what the
counts and the moves of bits are, bit by bit. -/
def Obligations.LogicAndShifts : Prop :=
  (∀ (s : State) (f : Fields) (fm : Fmt) (a b c : List Nat) (w W : Nat), W = fm.width →
    (Reads2 s f fm a b → (fm.isInt = true ∨ fm = .a ∨ fm = .p) →
      Gives s (.and_ f) f fm (fun j => el a j &&& el b j) ∧
      Gives s (.or_ f) f fm (fun j => el a j ||| el b j) ∧
      Gives s (.xor_ f) f fm (fun j => el a j ^^^ el b j) ∧
      Gives s (.andn f) f fm (fun j => el a j &&& (2 ^ W - 1 - el b j % 2 ^ W))) ∧
    (Reads1 s f fm a → (fm.isInt = true ∨ fm = .a ∨ fm = .p) →
      Gives s (.not_ f) f fm (fun j => 2 ^ W - 1 - el a j % 2 ^ W)) ∧
    (ReadsOwn s f fm a b w → fm.isInt = true →
      Gives s (.shl f) f fm (fun j => el a j * 2 ^ (el b j % W) % 2 ^ W) ∧
      Gives s (.shrl f) f fm (fun j => el a j / 2 ^ (el b j % W)) ∧
      Gives s (.shra f) f fm (fun j => wrap W (toS W (el a j) / 2 ^ (el b j % W))) ∧
      Gives s (.rotl f) f fm (fun j => (el a j * 2 ^ (el b j % W) ||| el a j / 2 ^ (W - el b j % W)) % 2 ^ W) ∧
      Gives s (.bfx f) f fm (fun j => el a j / 2 ^ (el b j % 256) % 2 ^ min (el b j / 256 % 256) W) ∧
      Gives s (.byteperm f) f fm (fun j => bytePerm W (el a j) (el b j) (W / 8))) ∧
    (Reads1 s f fm a → fm.isInt = true →
      Gives s (.clz f) f fm (fun j => clzBits W (el a j)) ∧
      Gives s (.ctz f) f fm (fun j => ctzFrom (el a j) W 0) ∧
      Gives s (.popc f) f fm (fun j => ((upto W).filter fun i => (el a j).testBit i).length) ∧
      Gives s (.brev f) f fm (fun j => revBits W (el a j) W)) ∧
    (Clean s f true → fm.isInt = true → s.run.cur.fmtOf f = fm → s.source s.run.cur f.sa.toNat fm = some a →
      s.ownSource s.run.cur f.sb.toNat = some (b, w) → s.source s.run.cur 0x42 fm = some c →
      Gives s (.bfi f) f fm (fun j => bfiBits W (el a j) (el b j) (el c j)))) ∧
  ∀ W a : Nat, 0 < W → a < 2 ^ W →
    (a ≠ 0 → clzBits W a < W ∧ a.testBit (W - 1 - clzBits W a) = true ∧
      (∀ i, W - 1 - clzBits W a < i → a.testBit i = false) ∧
      ctzFrom a W 0 < W ∧ a.testBit (ctzFrom a W 0) = true ∧ ∀ i, i < ctzFrom a W 0 → a.testBit i = false) ∧
    clzBits W 0 = W ∧ ctzFrom 0 W 0 = W ∧
    (∀ i, i < W → (revBits W a W).testBit i = a.testBit (W - 1 - i)) ∧
    (∀ b c i : Nat, i < W → (bfiBits W a b c).testBit i =
      if b % 256 ≤ i ∧ i < b % 256 + min (b / 256 % 256) W then c.testBit (i - b % 256) else a.testBit i)

/-- Group 0x3 (R237 to R240): compares give P, minima and maxima give an operand, LEA an address modulo 2^64, IDX a field
of a work identifier, and the width changes the target's format. -/
def Obligations.ComparesAndWidths : Prop :=
  ∀ (s : State) (f : Fields) (fm : Fmt) (a b : List Nat) (w W : Nat) (A B : Nat → Int),
    W = fm.width → (∀ j, A j = toS W (el a j)) → (∀ j, B j = toS W (el b j)) →
    (Reads2 s f fm a b → (fm.isInt = true ∨ fm = .a ∨ fm = .p) →
      Gives s (.ceq f) f .p (fun j => if el a j = el b j then 1 else 0) ∧
      Gives s (.cne f) f .p (fun j => if el a j = el b j then 0 else 1)) ∧
    (Reads2 s f fm a b → fm.isInt = true →
      Gives s (.clt f) f .p (fun j => if A j < B j then 1 else 0) ∧
      Gives s (.cle f) f .p (fun j => if A j ≤ B j then 1 else 0) ∧
      Gives s (.min_ f) f fm (fun j => if B j < A j then el b j else el a j) ∧
      Gives s (.max_ f) f fm (fun j => if B j < A j then el a j else el b j)) ∧
    (Reads2 s f fm a b → (fm.isInt = true ∨ fm = .a) →
      Gives s (.cltn f) f .p (fun j => if el a j < el b j then 1 else 0) ∧
      Gives s (.clen f) f .p (fun j => if el a j ≤ el b j then 1 else 0) ∧
      Gives s (.minn f) f fm (fun j => min (el a j) (el b j)) ∧
      Gives s (.maxn f) f fm (fun j => max (el a j) (el b j))) ∧
    (ReadsOwn s f .a a b w → Gives s (.lea f) f .a (fun j => wrap 64 (el a j + toS w (el b j)))) ∧
    (∀ x, Reads1 s f .i64 a → s.ctx? s.run.cur.names.part s.run.cur.ctx = some x →
      Gives s (.idx f) f .i64 (fun j => idxField x.nf x.widths (el a j) (s.amount s.run.cur f.sb.toNat))) ∧
    (∀ tgt, Reads1 s f fm a → widthTarget f = tgt → (fm.isInt = true ∨ fm = .a) →
      ((tgt.isInt = true ∨ tgt = .a) → fm.width ≤ tgt.width →
        Gives s (.sext f) f tgt (fun j => if fm = .a then el a j else wrap tgt.width (A j)) ∧
        Gives s (.zext f) f tgt (fun j => el a j)) ∧
      (tgt.isInt = true → tgt.width ≤ fm.width →
        Gives s (.narrow f) f tgt (fun j => el a j % 2 ^ tgt.width) ∧
        Gives s (.narrows f) f tgt (fun j => wrap tgt.width (max (-2 ^ (tgt.width - 1)) (min (2 ^ (tgt.width - 1) - 1)
          (if fm = .a then (el a j : Int) else A j))))))

/-- Group 0x6 (R270 to R273): each element of two or three floating operands is the operation of its opcode on the
elements, and the flags of all elements are ORed into SYS.FLAGS. -/
def Obligations.FloatArithmetic : Prop :=
  ∀ (s : State) (f : Fields) (fm : Fmt) (a b c : List Nat) (F : FpFmt), fm.isFloat = true → F = fpOf fm →
    (Reads2 s f fm a b →
      GivesF s (.fadd f) f fm (fun j => fpAdd F (el a j) (el b j)) ∧
      GivesF s (.fsub f) f fm (fun j => fpSub F (el a j) (el b j)) ∧
      GivesF s (.fmul f) f fm (fun j => fpMul F (el a j) (el b j)) ∧
      GivesF s (.fdiv f) f fm (fun j => fpDiv F (el a j) (el b j)) ∧
      GivesF s (.fmin f) f fm (fun j => fpMinMax F false (el a j) (el b j)) ∧
      GivesF s (.fmax f) f fm (fun j => fpMinMax F true (el a j) (el b j)) ∧
      GivesF s (.fminm f) f fm (fun j => fpMinMaxM F false (el a j) (el b j)) ∧
      GivesF s (.fmaxm f) f fm (fun j => fpMinMaxM F true (el a j) (el b j)) ∧
      Gives s (.fcpys f) f fm (fun j => fpCpys F (el a j) (el b j))) ∧
    (Reads3 s f fm a b c →
      GivesF s (.ffma f) f fm (fun j => fpFma F (el a j) (el b j) (el c j)) ∧
      GivesF s (.ffms f) f fm (fun j => fpFms F (el a j) (el b j) (el c j)) ∧
      GivesF s (.fnfma f) f fm (fun j => fpFnma F (el a j) (el b j) (el c j))) ∧
    (Reads1 s f fm a →
      GivesF s (.fsqrt f) f fm (fun j => fpSqrt F (el a j)) ∧
      Gives s (.fabs f) f fm (fun j => fpAbs F (el a j)) ∧
      Gives s (.fneg f) f fm (fun j => fpNeg F (el a j)) ∧
      Gives s (.fclass f) f (intOfWidth fm) (fun j => fpClass F (el a j)))

/-- Group 0x7 (R274 to R282): compares give P with their flags, conversions take the target format and the rounding of the
literal, and FSPLIT sends two results. -/
def Obligations.FloatConversions : Prop :=
  ∀ (s : State) (f : Fields) (fm d : Fmt) (a b : List Nat) (F : FpFmt) (rm : Rm), F = fpOf fm →
    rm = litRm s.run.cur.slot.lit →
    (Reads2 s f fm a b → fm.isFloat = true →
      GivesF s (.fceq f) f .p (fun j => ((if (fpCmp F 0 (el a j) (el b j)).1 then 1 else 0), (fpCmp F 0 (el a j) (el b j)).2)) ∧
      GivesF s (.fclt f) f .p (fun j => ((if (fpCmp F 1 (el a j) (el b j)).1 then 1 else 0), (fpCmp F 1 (el a j) (el b j)).2)) ∧
      GivesF s (.fcle f) f .p (fun j => ((if (fpCmp F 2 (el a j) (el b j)).1 then 1 else 0), (fpCmp F 2 (el a j) (el b j)).2)) ∧
      GivesF s (.fcun f) f .p (fun j => ((if (fpCmp F 3 (el a j) (el b j)).1 then 1 else 0), (fpCmp F 3 (el a j) (el b j)).2)) ∧
      GivesF s (.fscale f) f fm (fun j => fpScale F (el a j) (el b j))) ∧
    (Reads1 s f fm a → litFmt s.run.cur.slot.lit = some d →
      (fm.isFloat = true → d.isFloat = true → GivesF s (.fcvt f) f d (fun j => fpCvt F (fpOf d) rm (el a j))) ∧
      (fm.isFloat = true → d.isInt = true →
        GivesF s (.fcvti f) f d (fun j => fpToInt F rm (litUns s.run.cur.slot.lit) d.width (el a j))) ∧
      (fm.isInt = true → d.isFloat = true →
        GivesF s (.icvtf f) f d (fun j => fpOfInt (fpOf d) rm (toS fm.width (el a j))) ∧
        GivesF s (.icvtfn f) f d (fun j => fpOfInt (fpOf d) rm (el a j)))) ∧
    (Reads1 s f fm a → fm.isFloat = true →
      GivesF s (.frint f) f fm (fun j => fpRint F rm (litExact s.run.cur.slot.lit) (el a j)) ∧
      GivesF s (.fexpo f) f fm (fun j => fpExpo F (el a j)) ∧
      GivesF s (.fmant f) f fm (fun j => fpMant F (el a j)) ∧
      exec (.fsplit f) s = .next (((s.orFlags s.run.cur.names.part s.run.cur.ctx
          (orFlags ((upto s.run.cur.run).map fun j => (fpSplit F (el a j)).2))).sendTo s.run.cur f.ta.toNat f.da.toNat
            (elemRes s f fm fun j => (fpSplit F (el a j)).1.1)).sendTo s.run.cur f.ta.toNat f.db.toNat
            (elemRes s f fm fun j => (fpSplit F (el a j)).1.2)))

/-- ± m × 2^e as a rational number. -/
def ratOf (neg : Bool) (m : Nat) (e : Int) : ℚ := (if neg then -1 else 1) * m * 2 ^ e

/-- A pattern stands for this number. -/
def Stands (k : FpFmt) (v : Nat) (q : ℚ) : Prop := ∃ n m e, unpack k v = .fin n m e ∧ ratOf n m e = q

/-- R293's bound: a value returned for the exact result `y` is no NaN and, where it is finite, within `k2 / 2` ulp of `y`;
ulp(y) is the spacing of the format at `y`, that of the subnormals below the least normal exponent. -/
def WithinUlps (k : FpFmt) (k2 : Nat) (y : ℚ) (v : Nat) : Prop :=
  (unpack k v).isNaN = false ∧
  ∀ n m e, unpack k v = .fin n m e → 2 * |ratOf n m e - y| ≤ k2 * (2 : ℚ) ^ (max (Int.log 2 |y|) k.emin - k.mb)

/-- A result that is not representable (R293, R294): within `k2 / 2` ulp of `y`, in F64 within `wide / 2` ulp, in BF16 the
rounding of an F32 value within that bound; NX is set, and UF where the value is zero or subnormal, and no other flag. -/
def InexactAt (fm : Fmt) (k2 wide : Nat) (y : ℚ) (r : Nat × FpFlags) : Prop :=
  (match fm with
    | .bf16 => ∃ u, WithinUlps (fpOf .f32) k2 y u ∧ r.1 = (fpCvt (fpOf .f32) (fpOf .bf16) .rne u).1
    | .f64 => WithinUlps (fpOf .f64) wide y r.1
    | _ => WithinUlps (fpOf fm) k2 y r.1) ∧
  r.2 = fNX ||| flagIf (isTinyPattern (fpOf fm) r.1) fUF

/-- The row completes with a result each element of which, with its flags, is one that `ok` allows for the element of the
operand: for a NaN always the canonical quiet NaN, with NV for a signalling one (R296); for an infinity of either sign `inf`,
for a finite number `fin`, given the operand's sign, significand and exponent. -/
def GivesSpecial (s : State) (i : Instr) (f : Fields) (fm : Fmt) (a : List Nat)
    (inf : Bool → Nat × FpFlags) (fin : Nat → Bool → Nat → Int → Nat × FpFlags → Prop) : Prop :=
  ∃ g : Nat → Nat × FpFlags, GivesF s i f fm g ∧ ∀ j, j < s.run.cur.run →
    (∀ b, unpack (fpOf fm) (el a j) = .nan b → g j = ((fpOf fm).nan, flagIf b fNV)) ∧
    (∀ n, unpack (fpOf fm) (el a j) = .inf n → g j = inf n) ∧
    (∀ n m e, unpack (fpOf fm) (el a j) = .fin n m e → fin (el a j) n m e (g j))

/-- Group 0x8 (R292 to R296): every special function completes, with the values and flags of R296's table where it has a row
for the operand and else with a value within R293's bound and R294's flags. The exact result of FRCP is 1/a itself; those of
the other functions are the model's, computed to 512 bits and more (log 7, DESIGN CHOICE). -/
def Obligations.SpecialFunctions : Prop :=
  ∀ (s : State) (f : Fields) (fm : Fmt) (a : List Nat) (k : FpFmt) (one : Bool → Nat × FpFlags)
    (nan : Nat × FpFlags), fm.isFloat = true → Reads1 s f fm a → k = fpOf fm →
    (∀ n, one n = (k.signed n (oneOf k), fNone)) → nan = (k.nan, fNV) →
    Stands k (oneOf k) 1 ∧
    GivesSpecial s (.fexp2f f) f fm a (fun _ => nan) (fun _ n m e r =>
      (m = 0 → r = one false) ∧ (1 < |ratOf n m e| → r = nan) ∧
      (|ratOf n m e| = 1 → Stands k r.1 (if n then 1 / 2 else 2) ∧ r.2 = fNone) ∧
      (m ≠ 0 → |ratOf n m e| < 1 →
        InexactAt fm 1 2 (ratOf false (exp2Exact n m e).1 (exp2Exact n m e).2) r)) ∧
    GivesSpecial s (.flog2m f) f fm a (fun n => if n then nan else (0, fNone)) (fun _ n m e r =>
      (m = 0 → r = (k.signed true k.inf, fDZ)) ∧ (ratOf n m e < 0 → r = nan) ∧
      (∀ z : Int, ratOf n m e = 2 ^ z → r = (0, fNone)) ∧
      (0 < ratOf n m e → (∀ z : Int, ratOf n m e ≠ 2 ^ z) →
        InexactAt fm 2 4 (ratOf false (log2Exact m).1 (log2Exact m).2) r)) ∧
    GivesSpecial s (.frcp f) f fm a (fun n => (k.signed n 0, fNone)) (fun _ n m e r =>
      (m = 0 → r = (k.signed n k.inf, fDZ)) ∧
      (m ≠ 0 → (2 - 2 ^ (-(k.mb : Int) - 1)) * 2 ^ k.bias ≤ |(ratOf n m e)⁻¹| → r = (k.signed n k.inf, fOF)) ∧
      (m ≠ 0 → |(ratOf n m e)⁻¹| < (2 - 2 ^ (-(k.mb : Int) - 1)) * 2 ^ k.bias →
        (∀ z : Int, |ratOf n m e| = 2 ^ z → Stands k r.1 (ratOf n m e)⁻¹ ∧ r.2 = fNone) ∧
        ((∀ z : Int, |ratOf n m e| ≠ 2 ^ z) → InexactAt fm 2 2 (ratOf n m e)⁻¹ r))) ∧
    GivesSpecial s (.frsq f) f fm a (fun n => if n then nan else (0, fNone)) (fun _ n m e r =>
      (m = 0 → r = (k.signed n k.inf, fDZ)) ∧ (ratOf n m e < 0 → r = nan) ∧
      (∀ z : Int, ratOf n m e = 4 ^ z → Stands k r.1 (2 ^ (-z)) ∧ r.2 = fNone) ∧
      (0 < ratOf n m e → (∀ z : Int, ratOf n m e ≠ 4 ^ z) →
        InexactAt fm 2 2 (ratOf false (rsqExact m e).1 (rsqExact m e).2) r)) ∧
    GivesSpecial s (.fsin1 f) f fm a (fun _ => nan) (fun _ n m e r =>
      (∀ z : Int, ratOf n m e = z → r = (k.signed n 0, fNone)) ∧
      (∀ z : Int, ratOf n m e = z + 1 / 2 → r = one (z % 2 = 1)) ∧
      ((∀ z : Int, 2 * ratOf n m e ≠ z) →
        InexactAt fm 2 4 (ratOf (n != (sinExact m e).1) (sinExact m e).2.1 (sinExact m e).2.2) r)) ∧
    GivesSpecial s (.fcos1 f) f fm a (fun _ => nan) (fun _ n m e r =>
      (∀ z : Int, ratOf n m e = z → r = one (z % 2 = 1)) ∧
      (∀ z : Int, ratOf n m e = z + 1 / 2 → r = (0, fNone)) ∧
      ((∀ z : Int, 2 * ratOf n m e ≠ z) →
        InexactAt fm 2 4 (ratOf (cosExact m e).1 (cosExact m e).2.1 (cosExact m e).2.2) r)) ∧
    GivesSpecial s (.ftanh f) f fm a one (fun x n m e r =>
      (m = 0 → r = (x, fNone)) ∧
      (m ≠ 0 → InexactAt fm 4 4 (ratOf n (tanhExact m e).1 (tanhExact m e).2) r)) ∧
    GivesSpecial s (.fsigm f) f fm a (fun n => if n then (0, fNone) else one false) (fun _ n m e r =>
      (m = 0 → Stands k r.1 (1 / 2) ∧ r.2 = fNone) ∧
      (m ≠ 0 → InexactAt fm 4 4 (ratOf false (sigmExact n m e).1 (sigmExact n m e).2) r)) ∧
    GivesSpecial s (.ferf f) f fm a one (fun x n m e r =>
      (m = 0 → r = (x, fNone)) ∧
      (m ≠ 0 → InexactAt fm 4 4 (ratOf n (erfExact m e).1 (erfExact m e).2) r))

/-- Group 0x9 (R283 to R291), the words that place elements: element by element, with the zero of the format where R287
and R288 say so. -/
def Obligations.VectorPlacement : Prop :=
  ∀ (s : State) (f : Fields) (fm : Fmt) (a b : List Nat) (w n : Nat), n = s.run.cur.run →
    (ReadsOwn s f fm a b w →
      Gives s (.vbcast f) f fm (fun _ => el a (min (el b 0) (n - 1))) ∧
      Gives s (.vperm f) f fm (fun j => if el b j < n then el a (el b j) else zeroOf fm) ∧
      Gives s (.vslide f) f fm (fun j =>
        if 0 ≤ (j : Int) + toS w (el b 0) ∧ (j : Int) + toS w (el b 0) < n then el a ((j : Int) + toS w (el b 0)).toNat
        else zeroOf fm) ∧
      (0 < el b 0 → el b 0 < n → exec (.vsplit f) s
        = .next ((s.sendTo s.run.cur f.ta.toNat f.da.toNat
            ⟨s.run.cur.wave, s.run.cur.stopOf f, fm, false, (a.take (el b 0)).map w64⟩).sendTo s.run.cur f.ta.toNat f.db.toNat
            ⟨s.run.cur.wave + el b 0, s.run.cur.stopOf f, fm, false, (a.drop (el b 0)).map w64⟩))) ∧
    (Reads1 s f fm a → fm = .p → Gives s (.viota f) f .i32 (fun j => ((a.take j).filter fun x => x % 2 == 1).length)) ∧
    (∀ p : List Bool, Reads1 s f fm a → s.run.cur.predOn f.sb.toNat = some p → p.length = n →
      Gives s (.vexpand f) f fm (fun j =>
        if at! p j false then el a ((p.take j).filter id).length else zeroOf fm) ∧
      (compact p a ≠ [] → exec (.vcompact f) s
        = .next (s.sendTo s.run.cur f.ta.toNat f.da.toNat
            ⟨s.run.cur.wave, s.run.cur.stopOf f, fm, false, (compact p a).map w64⟩))) ∧
    (∀ x y : Token, s.run.cur.a = some x → s.run.cur.b = some y → x.poison = false → y.poison = false → x.fmt = y.fmt →
      x.stop = y.stop → f.da.toNat ≠ 7 → x.data ≠ [] → (x.data ++ y.data).length ≤ 32 →
      exec (.vjoin f) s
        = .next (s.sendTo s.run.cur f.ta.toNat f.da.toNat ⟨x.wave, x.stop, x.fmt, false, x.data ++ y.data⟩))

/-- Group 0x9 (R284, R289 to R291), the words that reduce: one element, at the last wave of the firing; VSCAN gives the
prefix sums. -/
def Obligations.VectorReductions : Prop :=
  ∀ (s : State) (f : Fields) (fm : Fmt) (a b : List Nat) (one : Fmt → Nat × FpFlags → Result),
    (∀ o r, one o r = .next ((s.orFlags s.run.cur.names.part s.run.cur.ctx r.2).sendTo s.run.cur f.ta.toNat f.da.toNat
      ⟨s.run.cur.wave + s.run.cur.run - 1, s.run.cur.stopOf f, o, false, [w64 r.1]⟩)) →
    (Reads1 s f fm a → fm.isInt = true →
      exec (.vredadd f) s = one fm (a.sum % 2 ^ fm.width, fNone) ∧
      (∀ x ∈ a, 0 < s.run.cur.run → ∃ m ∈ a, exec (.vredmax f) s = one fm (m, fNone) ∧ toS fm.width x ≤ toS fm.width m) ∧
      (∀ x ∈ a, 0 < s.run.cur.run → ∃ m ∈ a, exec (.vredmin f) s = one fm (m, fNone) ∧ toS fm.width m ≤ toS fm.width x) ∧
      ((∀ x ∈ a, x < 2 ^ fm.width) → 0 < s.run.cur.run →
        Gives s (.vscan f) f fm (fun j => (a.take (j + 1)).sum % 2 ^ fm.width))) ∧
    (Reads1 s f fm a → fm.isFloat = true →
      exec (.vfredadd f) s = one fm (treeSumOf fm a) ∧
      exec (.vredmax f) s = one fm (extreme true fm a) ∧
      exec (.vredmin f) s = one fm (extreme false fm a) ∧
      ∀ (x : Nat) (xs : List Nat) (y : Nat × FpFlags) (z : List Nat × FpFlags), a = x :: xs → y = canonNaN (fpOf fm) x →
        z = scanFrom fm y.1 xs → exec (.vscan f) s
          = .next ((s.orFlags s.run.cur.names.part s.run.cur.ctx (y.2 ||| z.2)).sendTo s.run.cur f.ta.toNat f.da.toNat
            ⟨s.run.cur.wave, s.run.cur.stopOf f, fm, false, (y.1 :: z.1).map w64⟩)) ∧
    (Reads1 s f fm a → exec (.vlen f) s = one .i32 (s.run.cur.run, fNone)) ∧
    (Reads2 s f fm a b → fm.isInt = true →
      exec (.vdot f) s = one fm ((List.zipWith (· * ·) a b).sum % 2 ^ fm.width, fNone)) ∧
    (Reads2 s f fm a b → fm.isFloat = true → exec (.vdot f) s = one fm (dot fm a b))

/-- The words that move tokens (R215 to R219, R223, R220): operand A unchanged, steered by the destinations that R195 gives,
SELECT by the predicate on port C, MERGE the token of either port, GATE the whole token on one path. -/
def Obligations.DataflowWords : Prop :=
  ∀ (s : State) (f : Fields) (fm : Fmt) (a b : List Nat),
    (Reads1 s f fm a →
      ((∀ t, s.run.cur.port f.sb.toNat = some t → t.fmt = fm) → Gives s (.mov f) f fm (fun j => el a j)) ∧
      (∀ t, s.run.cur.port f.sb.toNat = some t → t.fmt ≠ fm → exec (.mov f) s = .next (s.mismatch s.run.cur f fm)) ∧
      Gives s (.steer f) f fm (fun j => el a j) ∧
      Gives s (.itag f) f .i64 (fun j =>
        (match s.run.cur.port f.sa.toNat with
          | some t => t.stop
          | none => 0) * 2 ^ 56 + fm.code * 2 ^ 52 + (s.run.cur.run - 1) * 2 ^ 47 + s.run.cur.ctx * 2 ^ 32
          + (s.run.cur.wave + j))) ∧
    (∀ p : List Bool, Clean s f true → s.run.cur.fmtOf f = fm → s.source s.run.cur f.sa.toNat fm = some a →
      s.run.cur.pred = some p →
      (s.source s.run.cur f.sb.toNat fm = some b →
        Gives s (.select f) f fm (fun j => if at! p j false then el a j else el b j)) ∧
      (poisonedTok s.run.cur.c = false → f.da.toNat = 4 → exec (.gate f) s
        = .next (s.sendTo s.run.cur f.ta.toNat (if true ∈ p then 1 else 2) (elemRes s f fm fun j => el a j))) ∧
      (poisonedTok s.run.cur.c = false → f.da.toNat = 5 → exec (.gate f) s
        = .next (if true ∈ p then s.sendTo s.run.cur f.ta.toNat 1 (elemRes s f fm fun j => el a j) else s)) ∧
      (poisonedTok s.run.cur.c = false → f.da.toNat = 6 → exec (.gate f) s
        = .next (if true ∈ p then s else s.sendTo s.run.cur f.ta.toNat 1 (elemRes s f fm fun j => el a j)))) ∧
    (∀ t : Token, (s.run.cur.a = some t ∨ (s.run.cur.a = none ∧ s.run.cur.b = some t)) →
      exec (.merge f) s = .next (s.sendTo s.run.cur f.ta.toNat f.da.toNat ⟨t.wave, t.stop, t.fmt, t.poison, t.data⟩)) ∧
    exec (.sink f) s = .next s

/-- The words that write tags (R221, R222, R224): the wave advanced or set, never past 2^32 - 1 and never lowered, and
the stop level set to 0 to 7; else the token leaves poisoned with its tag unchanged and the WAVE or STOPLVL trap is
raised. -/
def Obligations.TagWords : Prop :=
  ∀ (s : State) (f : Fields) (fm : Fmt) (a : List Nat) (w : Nat) (good : Nat → Res) (bad : Nat → Result),
    Reads1 s f fm a →
    (∀ w, good w = { elemRes s f fm (fun j => el a j) with wave := w }) →
    (∀ sub, bad sub = .next ((s.raise (s.run.cur.site s) { cause := 0x01, sub := sub }).sendTo s.run.cur 0 f.da.toNat
      { elemRes s f fm (fun j => el a j) with poison := true })) →
    (w = s.run.cur.wave + s.amount s.run.cur f.sb.toNat % 2 ^ 32 →
      (w + s.run.cur.run - 1 ≤ 2 ^ 32 - 1 →
        exec (.wadv f) s = .next (s.sendTo s.run.cur f.ta.toNat f.da.toNat (good w))) ∧
      (2 ^ 32 - 1 < w + s.run.cur.run - 1 → exec (.wadv f) s = bad 4)) ∧
    (s.wsetWave s.run.cur f.sb.toNat = some w →
      (s.run.cur.wave ≤ w → w + s.run.cur.run - 1 ≤ 2 ^ 32 - 1 →
        exec (.wset f) s = .next (s.sendTo s.run.cur f.ta.toNat f.da.toNat (good w))) ∧
      ((w < s.run.cur.wave ∨ 2 ^ 32 - 1 < w + s.run.cur.run - 1) → exec (.wset f) s = bad 4)) ∧
    (w = s.amount s.run.cur f.sb.toNat →
      (w ≤ 7 → exec (.stop f) s
        = .next (s.sendTo s.run.cur f.ta.toNat f.da.toNat { good s.run.cur.wave with stop := w })) ∧
      (7 < w → exec (.stop f) s = bad 5))

/-! ### Words that present memory operations (R82, R244 to R254) -/

/-- What presenting does (R79, R81, R82): one operation for each ask, in wave order, with the firing's names, its
element, the triple of its literal (TSLICE, TBUILD and a WRSYS to CLWAYS are unchained, R330, R331) and the operations
that left before it; every operation waits in the buffer, the
results are awaited unless none is wanted, and nothing else of the machine has changed. -/
def Obligations.PresentedOperations : Prop :=
  ∀ (s t : State) (fr : Firing) (f : Fields) (op : Nat) (as : List Ask) (os : List Op),
    s.present fr f op as = (os, t) →
    os.length = as.length ∧ t.work.ops = s.work.ops ++ os ∧
    (∀ (j : Nat) (a : Ask) (o : Op), as[j]? = some a → os[j]? = some o →
      o.names = fr.names ∧ o.cluster = fr.cluster ∧ o.elem = fr.elem ∧ o.ctx = fr.ctx ∧ o.wave = fr.wave + j ∧
      (op ≠ 0xAC → op ≠ 0xAD → op ≠ 0xE3 →
        o.pred = bits fr.slot.lit 63 56 ∧ o.this = bits fr.slot.lit 55 48 ∧ o.succ = bits fr.slot.lit 47 40) ∧
      ((op = 0xAC ∨ op = 0xAD ∨ op = 0xE3) → o.this = 0xFE) ∧
      o.kind = a.kind ∧ o.width = a.width ∧ o.va = a.va ∧ o.ia = a.ia ∧ o.data = a.data ∧ o.fmt = a.fmt ∧
      o.poison = a.dead ∧ o.phase = .buffered ∧ o.j = j ∧ o.after = s.leftBefore fr.names.part fr.ctx) ∧
    os.Pairwise (fun o q => o.id < q.id) ∧
    (t.work.gathers = s.work.gathers ↔ ∀ a ∈ as, a.mute = true) ∧
    t.dev = s.dev ∧ t.parts = s.parts ∧ t.ctxs = s.ctxs ∧ t.fab = s.fab ∧ t.mem = s.mem ∧ t.ldr = s.ldr ∧
    t.work.engs = s.work.engs ∧ t.work.rings = s.work.rings ∧ t.work.msgs = s.work.msgs

/-- Which operations leave when they are launched (R87, R103, R104): a chained one and a member that another leads stay;
an unchained one starts at once, unless it must wait for what left before it or for posted writes to be flushed (R153). -/
def Obligations.LaunchedOperations : Prop :=
  ∀ (s : State) (o : Op) (os : List Op),
    (o.this ≠ 0xFE → s.launchOps (o :: os) = s.launchOps os) ∧
    (o.waitsBefore = true → s.released o = false → s.launchOps (o :: os) = s.launchOps os) ∧
    (s.unflushed o = true → s.launchOps (o :: os) = s.launchOps os) ∧
    (o.this = 0xFE → (∀ l, o.params = [2, l] → l = o.id) → (o.waitsBefore = true → s.released o = true) →
      s.unflushed o = false →
      s.launchOps (o :: os) = (s.startPiece o).launchOps os)

/-- The order of a chain (R81): which operation is Next, what Perform leaves in the chain, the chain of a new task; an
operation that may be performed is performed, and one that waits in its buffer and is not Next stays there, but that a load
may take its value from stores before it (R85). With no shared entry left only the Next operation enters the buffer, by the
kept entry (R84). -/
def Obligations.ChainOrder : Prop :=
  ∀ (c : Chain) (o : Op),
    (c.isNext o = true ↔ o.wave = c.wave ∧ (c.last = 0xFD → o.pred = 0xFD) ∧
      (c.last ≠ 0xFD → o.pred = c.last ∨ (o.pred = 0xFF ∧ c.lastSucc = o.this))) ∧
    (o.succ = 0xFD → (c.after o).wave = c.wave + 1 ∧ (c.after o).last = 0xFD ∧ (c.after o).lastSucc = 0xFD) ∧
    (o.succ ≠ 0xFD → (c.after o).wave = c.wave ∧ (c.after o).last = o.this ∧ (c.after o).lastSucc = o.succ) ∧
    (∀ (s : State) (y : Ctx), o.this ≠ 0xFE → s.ctx? o.names.part o.ctx = some y →
      (s.endOp o).ctx? o.names.part o.ctx = some { y with chain := y.chain.after o } ∧ (s.endOp o).op? o.id = none ∧
      (s.endOp o).mem.hbm = s.mem.hbm ∧ (s.endOp o).fab = s.fab ∧ (s.endOp o).parts = s.parts) ∧
    (∀ (x : Part) (p id home lsec sec : Nat) (r : Running) (wid : W64), ∀ d, d = (x.newTask p id home lsec sec r wid).chain →
      d.wave = 0 ∧ d.last = 0xFD ∧ d.lastSucc = 0xFD) ∧
    (∀ (s : State) (y : Ctx), s.op? s.run.subj.a = some o → s.ctx? o.names.part o.ctx = some y → o.phase = .buffered →
      o.this ≠ 0xFE → y.halted = false → y.chain.stale o = false → y.chain.isNext o = false → o.kind ≠ .load →
      (s.part o.names.part).stopped = false → exec .chainPerform s = .next (s.enter o (s.entryFor o false))) ∧
    (∀ (s : State) (q : Op), q.this ≠ 0xFE → q.entry = .outside → 192 ≤ s.sharedUse (s.homeCluster q) →
      s.entryFor q true = .kept ∧ s.entryFor q false = .outside) ∧
    ∀ (i s : State) (y : Ctx), MayPerform i s o y → exec .chainPerform i = .next (s.runOp o)

/-- Loads and stores (R244, R245, R246, R248, R252): with every check passed, one operation for each wave, of the
width and at the address that the literal gives; the format of a load from SB; LDG reads once, STS writes once. -/
def Obligations.LoadsAndStores : Prop :=
  ∀ (s : State) (f : Fields) (t : Token) (ia : Nat → Nat) (w : Nat) (js : List Nat),
    Addressed s f false t → w = litWidth s.run.cur.slot.lit → js = upto s.run.cur.run →
    (∀ fm, Fmt.ofCode (f.sb.toNat % 16) = some fm →
      (Checked s t w { rd := true } js ia →
        Presents s (.ld f) f 0x40 asIs (js.map fun j =>
          { kind := .load, width := w, va := vaOf s t j, ia := ia j, data2 := tokEl t j, fmt := fm }) ∧
        Presents s (.ldv f) f 0x42 pieces (js.map fun j =>
          { kind := .load, width := w, va := vaOf s t j, ia := ia j, data2 := tokEl t j, fmt := fm }) ∧
        Presents s (.ldfe f) f 0x47 asIs (js.map fun j =>
          { kind := .ldfe (0x10 ≤ f.sb.toNat), width := w, va := vaOf s t j, ia := ia j, data2 := tokEl t j, fmt := fm })) ∧
      (Checked s t w { rd := true } [0] ia →
        Presents s (.ldg f) f 0x44 asIs (js.map fun j =>
          if j = 0 then { kind := .load, width := w, va := vaOf s t j, ia := ia j, data2 := tokEl t j, fmt := fm, params := [1] }
          else { kind := .nop, data2 := tokEl t j, fmt := .a, mute := true }))) ∧
    (∀ vs, s.storeData s.run.cur f w = some vs →
      (Checked s t w { w := true } js ia →
        Presents s (.st f) f 0x41 asIs (js.map fun j =>
          { kind := .store, width := w, va := vaOf s t j, ia := ia j, data := w64 (at! vs j 0), data2 := tokEl t j, fmt := .a }) ∧
        Presents s (.stv f) f 0x43 pieces (js.map fun j =>
          { kind := .store, width := w, va := vaOf s t j, ia := ia j, data := w64 (at! vs j 0), data2 := tokEl t j, fmt := .a }) ∧
        Presents s (.stfe f) f 0x48 asIs (js.map fun j =>
          { kind := .stfe, width := w, va := vaOf s t j, ia := ia j, data := w64 (at! vs j 0), data2 := tokEl t j, fmt := .a })) ∧
      (Checked s t w { w := true } [s.run.cur.run - 1] ia →
        Presents s (.sts f) f 0x45 asIs (js.map fun j =>
          if j + 1 = s.run.cur.run then
            { kind := .store, width := w, va := vaOf s t j, ia := ia j, data := w64 (at! vs j 0), data2 := tokEl t j, fmt := .a }
          else { kind := .nop, data := w64 (at! vs j 0), data2 := tokEl t j, fmt := .a }))) ∧
    (Checked s t 3 { rd := true } js ia →
      Presents s (.ctrread f) f 0x4F asIs (js.map fun j =>
        { kind := .ctrRead, width := 3, va := vaOf s t j, ia := ia j, data2 := tokEl t j, fmt := .i64 }))

/-- Atomics and counters (R34, R132, R133, R134, R138): one operation for each wave with operand b from SB, c of AMOCAS from
port C; a CTRADD needs W alone, and one of a negative amount raises DECREASE and is not sent. -/
def Obligations.AtomicsAndCounters : Prop :=
  ∀ (s : State) (f : Fields) (t : Token) (ia : Nat → Nat) (w : Nat) (js : List Nat),
    w = litWidth s.run.cur.slot.lit → js = upto s.run.cur.run →
    (Addressed s f false t → Checked s t w { rd := true, w := true } js ia →
      AmoPresents s f t ia (.amoadd f) 0x50 .add ∧ AmoPresents s f t ia (.amoand f) 0x51 .and_ ∧
      AmoPresents s f t ia (.amoor f) 0x52 .or_ ∧ AmoPresents s f t ia (.amoxor f) 0x53 .xor_ ∧
      AmoPresents s f t ia (.amomin f) 0x54 .min_ ∧ AmoPresents s f t ia (.amomax f) 0x55 .max_ ∧
      AmoPresents s f t ia (.amominn f) 0x56 .minn ∧ AmoPresents s f t ia (.amomaxn f) 0x57 .maxn ∧
      AmoPresents s f t ia (.amoswap f) 0x58 .swap ∧ AmoPresents s f t ia (.amofadd f) 0x5A .fadd ∧
      AmoPresents s f t ia (.amofmin f) 0x4D .fmin ∧ AmoPresents s f t ia (.amofmax f) 0x4E .fmax) ∧
    (Addressed s f true t → Checked s t w { rd := true, w := true } js ia →
      ∀ fm bs cs, s.amoB s.run.cur f .cas w = some (fm, bs) → s.source s.run.cur 0x42 fm = some cs →
        Presents s (.amocas f) f 0x59 asIs (js.map fun j =>
          { kind := .amo .cas, width := w, va := vaOf s t j, ia := ia j, data := w64 (at! bs j 0), data2 := w64 (at! cs j 0),
            fmt := fm })) ∧
    (Addressed s f false t → ∀ vs, s.i64B s.run.cur f = some vs →
      (Checked s t 3 { w := true } js ia → (∀ j, 0 ≤ toS 64 (at! vs j 0)) →
        Presents s (.ctradd f) f 0x5B asIs (js.map fun j =>
          { kind := .amo .ctradd, width := 3, va := vaOf s t j, ia := ia j, data := w64 (at! vs j 0), fmt := .i64 })) ∧
      (s.run.cur.run = 1 → toS 64 (at! vs 0 0) < 0 →
        PresentsFrom (s.raise (s.run.cur.siteAt s 0) { cause := 8, sub := 1, addr := vaOf s t 0, info := at! vs 0 0 }) s
          (.ctradd f) f 0x5B asIs
          [{ kind := .amo .ctradd, width := 3, va := vaOf s t 0, data := w64 (at! vs 0 0), fmt := .i64, dead := true }]) ∧
      (Checked s t 3 { rd := true } js ia →
        Presents s (.ctrwait f) f 0x5C asIs (js.map fun j =>
          { kind := .ctrWait, width := 3, va := vaOf s t j, ia := ia j, data := w64 (at! vs j 0), fmt := .i64 })))

/-- The words that take places in the chain, ranges, prefetches and leases (R83, R93, R118, R119, R249 to R251, R253); a
FENCE with a poisoned operand, or with two formats, takes its places and sends poison, the latter under a FORMAT record (R190, R192). -/
def Obligations.ChainRangeAndLeaseWords : Prop :=
  ∀ (s : State) (f : Fields) (js : List Nat) (fr : Firing), fr = s.run.cur → js = upto fr.run →
    (fr.poisonOf f false = false → fr.formatsDiffer f = false →
      Queues s (.mnop f) f 0x46 (js.map fun j =>
        { kind := .nop, data2 := fr.elemA f j, fmt := fr.fmtOf f, mute := true }) ∧
      QueuesFrom (s.flushGuard fr.names.part fr.ctx) s (.region f) f 0x49 (js.map fun j =>
        { kind := .region, data2 := fr.elemA f j, fmt := fr.fmtOf f }) ∧
      Queues s (.fence f) f 0x5F (js.map fun j =>
        { kind := .fence (bit fr.slot.lit 38) (bit fr.slot.lit 39), data2 := fr.elemA f j, fmt := fr.fmtOf f })) ∧
    (∀ dead : List Ask, dead = (js.map fun j =>
        { kind := .fence (bit fr.slot.lit 38) (bit fr.slot.lit 39), data2 := fr.elemA f j, fmt := fr.fmtOf f, dead := true }) →
      steers f = false →
      (fr.poisonOf f false = true → Queues s (.fence f) f 0x5F dead) ∧
      (fr.poisonOf f false = false → fr.formatsDiffer f = true →
        QueuesFrom (s.formatRecord fr f) s (.fence f) f 0x5F dead)) ∧
    (∀ (t : Token) (ia : Nat → Nat), Addressed s f false t →
      (∀ ns, s.i64B fr f = some ns →
        (∀ j ∈ js, at! ns j 0 ≠ 0 ∧
          rangeCheck (s.rangesOf fr.names.part fr.ctx) (vaOf s t j) (at! ns j 0) { rd := true } = some (ia j)) →
        Queues s (.flushr f) f 0x4B (js.map fun j =>
          { kind := .flush, va := vaOf s t j, ia := ia j, data := w64 (at! ns j 0), data2 := tokEl t j, fmt := .a }) ∧
        Queues s (.invr f) f 0x4C (js.map fun j =>
          { kind := .inval, va := vaOf s t j, ia := ia j, data := w64 (at! ns j 0), data2 := tokEl t j, fmt := .a })) ∧
      ((∀ j ∈ js, rangeCheck (s.rangesOf fr.names.part fr.ctx) (vaOf s t j) 1 { rd := true } = some (ia j)) →
        Presents s (.pref f) f 0x4A asIs (js.map fun j =>
          { kind := .pref, va := vaOf s t j, ia := ia j, fmt := .a, mute := true })) ∧
      (∀ (x : Ctx) (top n : Nat), s.ctx? fr.names.part fr.ctx = some x →
        top = min x.leaseMax (s.part fr.names.part).leasecap →
        (f.sb.toNat = 0x7F → n = top) →
        (f.sb.toNat < 0x40 → n = min (max 1 (constInt f.sb.toNat).toNat) top) →
        (0x48 ≤ f.sb.toNat → f.sb.toNat < 0x50 →
          n = min (max 1 (x.keep fr.cluster fr.elem (f.sb.toNat - 0x48)).toNat) top) →
        (f.sb.toNat = 0x7F ∨ f.sb.toNat < 0x40 ∨ (0x48 ≤ f.sb.toNat ∧ f.sb.toNat < 0x50)) → 1 ≤ top →
        Checked s t 0 { w := true } js ia →
        Presents s (.lease f) f 0x5D asIs (js.map fun j =>
          { kind := .lease, va := vaOf s t j, ia := ia j, data := w64 n, data2 := tokEl t j, fmt := .a })) ∧
      (Checked s t 0 {} js ia →
        Presents s (.unlease f) f 0x5E asIs (js.map fun j =>
          { kind := .unlease, va := vaOf s t j, ia := ia j, fmt := .i32 })))

/-- The issuer's checks that stop an access (R35, R55, R192, R244, R247, R401): the access is not made, its record is
raised at its wave, and its result will be poisoned. Said for a firing of run 1. -/
def Obligations.StoppedAccesses : Prop :=
  ∀ (s : State) (f : Fields) (t : Token) (w : Nat) (fr : Firing) (lv : Level),
    fr = s.run.cur → fr.run = 1 → w = litWidth fr.slot.lit → fr.port f.sa.toNat = some t →
    lv = (levelOf (litLevel fr.slot.lit)).getD .l1 →
    let load (a : Ask) : Prop := a.kind = .load ∧ a.width = w ∧ a.va = vaOf s t 0 ∧ a.dead = true
    let store (a : Ask) : Prop := a.kind = .store ∧ a.width = w ∧ a.va = vaOf s t 0 ∧ a.dead = true
    let stops (s0 : State) : Prop :=
      (∃ a, load a ∧ PresentsFrom s0 s (.ld f) f 0x40 asIs [a]) ∧ (∃ a, store a ∧ PresentsFrom s0 s (.st f) f 0x41 asIs [a])
    (fr.poisonOf f false = true → stops (s.raise (fr.siteAt s 0) { cause := 0x0C, sub := 1 })) ∧
    (fr.poisonOf f false = false → t.fmt ≠ .a →
      stops (s.raise (fr.site s) { cause := 3, sub := 1, info := fr.codeOf f.sa.toNat + 16 * fr.codeOf f.sb.toNat })) ∧
    (Addressed s f false t → (s.storeData fr f w).isSome →
      (vaOf s t 0 % 2 ^ w ≠ 0 → stops (s.raise (fr.siteAt s 0) { cause := 5, sub := 7, addr := vaOf s t 0 })) ∧
      (vaOf s t 0 % 2 ^ w = 0 → lv = .l1 ∨ lv = .l2 ∨ lv = .mem →
        rangeCheck (s.rangesOf fr.names.part fr.ctx) (vaOf s t 0) (2 ^ w) { rd := true } = none →
        rangeCheck (s.rangesOf fr.names.part fr.ctx) (vaOf s t 0) (2 ^ w) { w := true } = none →
        stops (s.raise (fr.siteAt s 0) { cause := 5, sub := 3, addr := vaOf s t 0 })) ∧
      (vaOf s t 0 % 2 ^ w = 0 → lv = .es → 4096 < vaOf s t 0 + 2 ^ w →
        stops (s.raise (fr.siteAt s 0) { cause := 5, sub := 6, addr := vaOf s t 0 })))

/-! ### Engine commands, rings and tiles (R255 to R264, R310 to R334, R378) -/

/-- Group 0xC (R255 to R264): with every check passed, a firing queues one command for each wave, which holds its checked
addresses, a SHADOW that drops its pair whatever its operand H names; COPYSTAT gives the occupancy of the copy engine of its
cluster. -/
def Obligations.EngineCommands : Prop :=
  ∀ (s : State) (f : Fields) (t u : Token) (fr : Firing) (l : W64) (js : List Nat),
    fr = s.run.cur → l = fr.slot.lit → js = upto fr.run → fr.port f.sa.toNat = some t → fr.poisonOf f false = false →
    (fr.port f.sb.toNat = some u → t.fmt = .a → u.fmt = .a →
      (∀ (two : Bool) (rl c : Nat) (offs : List (Int × Int)) (rs : Nat → List (Nat × Nat)),
        copyRows two l (s.keepOf fr (bits l 23 21)) = (rl, offs) → rl ≠ 0 →
        (∀ j ∈ js, s.checkRows fr (copyS l, (tokEl t j).toNat) (some (copyD l, (tokEl u j).toNat)) rl offs = .ok (rs j)) →
        (copyCV l = false → c = 0) →
        (copyCV l = true → s.check8 fr (copyCL l) (s.keepOf fr (copyCK l)).toNat = .ok c) →
        Queues s (if two then .copy2d f else .copy f) f (if two then 0xC2 else 0xC0) (js.map fun j =>
          { kind := .copy, va := (tokEl t j).toNat, data := tokEl u j, data2 := tokEl t j, fmt := .a,
            params := c :: rl * offs.length :: rl :: (rs j).flatMap fun x => [x.1, x.2] })) ∧
      (∀ (m : W64) (n : Nat) (src : Nat → Nat), m = s.keepOf fr (copyMK l) → bits m 63 35 = 0 → n = bits l 23 0 → n ≠ 0 →
        (∀ j ∈ js, s.engCheck fr (copyS l) (tokEl t j).toNat n { rd := true } = .ok (src j)) →
        Queues s (.copym f) f 0xC1 (js.map fun j =>
          { kind := .copym, va := (tokEl t j).toNat, data := tokEl u j, data2 := tokEl t j, fmt := .a,
            params := [(s.keepOf fr (copyCK l)).toNat, n, src j, m.toNat] })) ∧
      (∀ (n : Nat) (a b : Nat → Nat), n = bits l 15 0 * 2 ^ 16 →
        (∀ j ∈ js, rangeCheck (s.rangesOf fr.names.part fr.ctx) (tokEl t j).toNat n { rd := true, w := true } = some (a j)) →
        (∀ j ∈ js, rangeCheck (s.rangesOf fr.names.part fr.ctx) (tokEl u j).toNat n { rd := true, w := true } = some (b j) ∨
          (bit l 32 = true ∧ b j = 0 ∧
            rangeCheck (s.rangesOf fr.names.part fr.ctx) (tokEl u j).toNat n { rd := true, w := true } = none)) →
        Queues s (.shadow f) f 0xC3 (js.map fun j =>
          { kind := .shadow (bit l 32), va := (tokEl t j).toNat, ia := a j, data := tokEl u j, fmt := .i64, params := [b j] })) ∧
      Queues s (.ringreg f) f 0xD0 (js.map fun j =>
        { kind := .ringreg, va := (tokEl t j).toNat, data := tokEl u j, fmt := .i64 })) ∧
    (t.fmt = .a →
      (∀ a : Nat → Nat,
        (∀ j ∈ js, rangeCheck (s.rangesOf fr.names.part fr.ctx) (tokEl t j).toNat 1 { rd := true, w := true } = some (a j)) →
        Queues s (.publish f) f 0xC4 (js.map fun j =>
          { kind := .publish, va := (tokEl t j).toNat, ia := a j, data2 := tokEl t j, fmt := .a })) ∧
      (∀ ns, s.i64B fr f = some ns →
        (∀ j ∈ js, (tokEl t j).toNat % 16 = 0 ∧ at! ns j 0 % 16 = 0 ∧
          (at! ns j 0 ≠ 0 → s.scratchValid fr.names.part fr.cluster (feLevel l) (tokEl t j).toNat (at! ns j 0) = true)) →
        Queues s (.feset f) f 0xC5 (js.map fun j =>
          { kind := .feset, va := (tokEl t j).toNat, ia := (tokEl t j).toNat, data := w64 (at! ns j 0), data2 := tokEl t j,
            fmt := .a }) ∧
        Queues s (.feclr f) f 0xC6 (js.map fun j =>
          { kind := .feclr, va := (tokEl t j).toNat, ia := (tokEl t j).toNat, data := w64 (at! ns j 0), data2 := tokEl t j,
            fmt := .a })) ∧
      Queues s (.free f) f 0xCA (js.map fun j => { kind := .free, va := (tokEl t j).toNat, fmt := .i64 })) ∧
    (t.fmt = .i64 →
      (s.privOf fr.names.part fr.ctx = true →
        Queues s (.waymask f) f 0xC8 (js.map fun j => { kind := .waymask, data := tokEl t j, fmt := .i64 })) ∧
      (s.privOf fr.names.part fr.ctx = false → fr.run = 1 →
        QueuesFrom (s.raise (fr.siteAt s 0) { cause := 2, sub := 1 }) s (.waymask f) f 0xC8
          [{ kind := .waymask, data := tokEl t 0, fmt := .i64, dead := true }]) ∧
      (f.sb = 0x7F → Queues s (.alloc f) f 0xC9 (js.map fun j => { kind := .alloc, data := tokEl t j, fmt := .a })) ∧
      (f.sb ≠ 0x7F → ∀ bs, s.i64B fr f = some bs →
        Queues s (.alloc f) f 0xC9 (js.map fun j =>
          { kind := .alloc, data := tokEl t j, data2 := w64 (at! bs j 0), fmt := .a }))) ∧
    (∀ slots mine : Nat, slots = (s.copySlots fr.cluster).length → slots ≤ 128 →
      mine = ((s.copySlots fr.cluster).filter fun x => x.2 == fr.ctx).length →
      ∃ v : Nat, exec (.copystat f) s = .next (s.sendTo fr 0 f.da.toNat (elemRes s f .i64 fun _ => v)) ∧
        v % 256 = mine ∧ v / 256 % 256 = slots ∧
        (v.testBit 16 = true ↔ ∃ e ∈ s.work.engs, e.cluster = fr.cluster ∧ e.names.part = fr.names.part ∧ e.ctx = fr.ctx ∧
          (e.kind = .copy ∨ e.kind = .copym) ∧ ∃ w ∈ s.work.waits, ∃ k, w.who = .piece e.id k))

/-- Group 0xD (R378, R380 to R385): the ring words queue one operation for each wave, with the ring ID and the address or
the count of its element; the interface makes every check when their turn comes. -/
def Obligations.RingWords : Prop :=
  ∀ (s : State) (f : Fields) (t : Token) (fr : Firing) (js : List Nat),
    fr = s.run.cur → js = upto fr.run → fr.port f.sa.toNat = some t → t.fmt = .i64 → fr.poisonOf f false = false →
    (∀ u : Token, fr.port f.sb.toNat = some u → u.fmt = .a →
      Queues s (.msend f) f 0xD1 (js.map fun j =>
        { kind := .msend, va := (tokEl u j).toNat, data := tokEl t j, data2 := tokEl u j, fmt := .i64 }) ∧
      Queues s (.mrecv f) f 0xD2 (js.map fun j =>
        { kind := .mrecv, va := (tokEl u j).toNat, data := tokEl t j, data2 := tokEl u j, fmt := .a })) ∧
    (fr.port f.sb.toNat = none →
      Queues s (.mpeek f) f 0xD3 (js.map fun j => { kind := .mpeek, data := tokEl t j, fmt := .i64 }) ∧
      Queues s (.ringdereg f) f 0xD5 (js.map fun j => { kind := .ringdereg, data := tokEl t j, fmt := .i64 })) ∧
    (∀ ns, s.i64B fr f = some ns → ∃ va : Nat → Nat,
      Queues s (.mack f) f 0xD4 (js.map fun j =>
        { kind := .mack, va := va j, data := tokEl t j, data2 := w64 (at! ns j 0), fmt := .i64 }))

/-- The tile words of an element (R303, R305, R310, R313, R314, R330, R331, R332): with good references one operation for
each wave; a CBLOAD is always chained, the others begin at once when they are not. -/
def Obligations.TileElementWords : Prop :=
  ∀ (s : State) (f : Fields) (t : Token) (fr : Firing) (js : List Nat),
    fr = s.run.cur → js = upto fr.run → fr.port f.sa.toNat = some t → fr.poisonOf f false = false →
    (t.fmt = .t ∨ t.fmt = .a → (∀ j ∈ js, ∃ r, tileRef t.fmt (tokEl t j) false = .ok r) →
      (∀ u : Token, fr.port f.sb.toNat = some u → (u.fmt = .t ∨ u.fmt = .a) →
        (∀ j ∈ js, ∃ r, tileRef u.fmt (tokEl u j) false = .ok r) →
        TilesFrom s s (.tcvt f) f 0xA4 (js.map fun j => { kind := .tcvt, data := tokEl t j, data2 := tokEl u j, fmt := .t })) ∧
      TilesFrom s s (.tstat f) f 0xAA (js.map fun j => { kind := .tstat, data := tokEl t j, fmt := .i64 }) ∧
      (∀ v w, s.ownSource fr f.sb.toNat = some (v, w) →
        TilesFrom s s (.tslice f) f 0xAC (js.map fun j =>
          { kind := .tslice, data := tokEl t j, data2 := w64 (at! v j 0), fmt := .p }) ∧
        TilesFrom s s (.tbuild f) f 0xAD (js.map fun j =>
          { kind := .tbuild, data := tokEl t j, data2 := w64 (at! v j 0), fmt := .t }))) ∧
    (t.fmt = .t → fr.run = 1 → bits (tokEl t 0) 63 61 = 3 →
      TilesFrom (s.raise (fr.siteAt s 0) { cause := 3, sub := 2 }) s (.tstat f) f 0xAA
        [{ kind := .tstat, data := tokEl t 0, fmt := .i64, dead := true }]) ∧
    (t.fmt = .a → (∀ j ∈ js, (tokEl t j).toNat % 64 = 0) →
      Queues s (.cbload f) f 0xA9 (js.map fun j =>
        { kind := .cbload, va := (tokEl t j).toNat, data := tokEl t j, data2 := tokEl t j, fmt := .a }) ∧
      TilesFrom s s (.gemvb f) f 0xA8 (js.map fun j =>
        { kind := .gemvb, va := (tokEl t j).toNat, data := tokEl t j, data2 := tokEl t j, fmt := .a }))

/-- The words of a matrix island (R316, R318, R321, R322, R326, R327, R329): one operation for each wave with the
references that its operands hold; a packet in memory has its header read first. -/
def Obligations.IslandWords : Prop :=
  ∀ (s : State) (f : Fields) (t : Token) (fr : Firing) (js : List Nat),
    fr = s.run.cur → js = upto fr.run → TileTok s f.sa.toNat t →
    (∀ h : Nat → List Piece, fr.port f.sb.toNat = none →
      (∀ j ∈ js, PacketReads s t j false 1 (h j) ∧ h j ≠ []) →
      NodeStarts s (.tld f) (fun j => [tokEl t j, 0]) h) ∧
    (∀ u : Token, TileTok s f.sb.toNat u →
      (∀ h g : Nat → List Piece,
        (∀ j ∈ js, PacketReads s t j false 1 (h j) ∧
          PacketReads s u j true ((h j).foldl (fun m x => max m (x.id + 1)) 1) (g j)) →
        NodeStarts s (.mma f) (fun j => [tokEl t j, tokEl u j]) (fun j => h j ++ g j) ∧
        NodeStarts s (.mmaz f) (fun j => [tokEl t j, tokEl u j]) (fun j => h j ++ g j)) ∧
      ((∀ j ∈ js, (∃ i, tileRef .t (tokEl t j) true = .ok (.acc i) ∨ tileRef .t (tokEl t j) true = .ok (.slot i)) ∧
          ∃ lv a, tileRef .t (tokEl u j) true = .ok (.mem lv a)) →
        NodeStarts s (.tst f) (fun j => [tokEl t j, tokEl u j]) (fun _ => [])) ∧
      ((∀ j ∈ js, (∃ i, tileRef .t (tokEl t j) true = .ok (.acc i)) ∧ ∃ i, tileRef .t (tokEl u j) true = .ok (.acc i)) →
        NodeStarts s (.tadd f) (fun j => [tokEl t j, tokEl u j]) (fun _ => []))) ∧
    ((∀ j ∈ js, ∃ i, tileRef .t (tokEl t j) true = .ok (.acc i)) →
      (fr.port f.sb.toNat = none →
        NodeStarts s (.ttrans f) (fun j => [tokEl t j, 0]) (fun _ => []) ∧
        NodeStarts s (.tscale f) (fun j => [tokEl t j, 0]) (fun _ => [])) ∧
      (∀ u : Token, fr.port f.sb.toNat = some u → u.poison = false →
        NodeStarts s (.tscale f) (fun j => [tokEl t j, tokEl u j]) (fun _ => [])))

/-- TFILL (R328): the value of a constant in the format of IKIND, or of a port that carries that format. -/
def Obligations.IslandFill : Prop :=
  ∀ (s : State) (f : Fields) (fr : Firing) (want : Fmt) (k : Nat), fr = s.run.cur →
    fr.slot.word = wordOf 0xAB f → f.sb.toNat = 0x7F → want = (if bit fr.slot.lit 3 then Fmt.i32 else Fmt.f32) →
    (f.sa.toNat < 0x40 → constIn want f.sa.toNat = some k → NodeStarts s (.tfill f) (fun _ => [w64 k, 0]) (fun _ => [])) ∧
    (∀ t : Token, fr.port f.sa.toNat = some t → t.poison = false → t.fmt = want →
      NodeStarts s (.tfill f) (fun j => [tokEl t j, 0]) (fun _ => []))

/-- The words of a stream port (R339, R341, R346 to R354): the firing's elements join the queues of their node, which
takes what it can and sends its outputs, but takes nothing while a read of its port waits in place at a fault. -/
def Obligations.StreamWords : Prop :=
  ∀ (s : State) (f : Fields) (ns : Names) (c : Nat), ns = s.run.cur.names → c = s.run.cur.ctx →
    Consumes s (.sopen f) f takeSopen id ∧
    Consumes s (.sread f) f takeSread (fun t => t.flushReads t.run.cur.names t.run.cur.ctx t.portTurns) ∧
    Consumes s (.swrite f) f takeSwrite id ∧
    Consumes s (.sclose f) f takeSclose (fun t => t.pumpPort ns c) ∧
    Consumes s (.isect f) f (takePair false) id ∧ Consumes s (.union f) f (takePair true) id ∧
    Consumes s (.spaacc f) f takeSpaacc id ∧
    Consumes s (.spaflush f) f takeSpaflush (fun t => t.pumpPort ns c) ∧
    Consumes s (.stoplvl f) f takeStoplvl id ∧ Consumes s (.scount f) f takeScount id ∧
    ∀ i : Instr, i = .sopen f ∨ i = .swrite f ∨ i = .isect f ∨ i = .union f ∨ i = .spaacc f ∨ i = .stoplvl f ∨ i = .scount f →
      (s.enqueue s.run.cur f).portStuck ns c = true → exec i s = .next (s.enqueue s.run.cur f)

/-- What the nodes of a stream port do with the elements at the head of their queues. ISECT and UNION (R349) take one turn of
Pair: on two columns, on a column and a stop, on two stops, and on formats that they do not accept (R344); they send A's
side first. STOPLVL and SCOUNT (R352) on data elements and on stops. -/
def Obligations.StreamNodes : Prop :=
  ∀ (s : State) (n : Node) (x y : SElem) (a b : List SElem) (un : Bool) (cx cy : Nat) (none_ : Nat → SElem),
    cx = x.val.toNat % 2 ^ 32 → cy = y.val.toNat % 2 ^ 32 →
    (∀ c, none_ c = dataElem .i64 (0xFFFFFFFF * 2 ^ 32 + c)) →
    (∀ fm : Fmt, fm = .i64 ∨ (un = false ∧ fm = .i32) →
      (x.stop = 0 → y.stop = 0 → x.poison = false → y.poison = false → x.fmt = fm → y.fmt = fm →
        (cx = cy → takePair un s n (x :: a) (y :: b) = some ⟨s, a, b, [x], [y]⟩) ∧
        (cx < cy → takePair un s n (x :: a) (y :: b)
          = some ⟨s, a, y :: b, if un then [x] else [], if un then [none_ cx] else []⟩) ∧
        (cy < cx → takePair un s n (x :: a) (y :: b)
          = some ⟨s, x :: a, b, if un then [none_ cy] else [], if un then [y] else []⟩)) ∧
      (x.stop = 0 → 0 < y.stop → x.poison = false → x.fmt = fm → takePair un s n (x :: a) (y :: b)
        = some ⟨s, a, y :: b, if un then [x] else [], if un then [none_ cx] else []⟩) ∧
      (0 < x.stop → y.stop = 0 → y.poison = false → y.fmt = fm → takePair un s n (x :: a) (y :: b)
        = some ⟨s, x :: a, b, if un then [none_ cy] else [], if un then [y] else []⟩)) ∧
    (0 < x.stop → 0 < y.stop →
      (x.stop = y.stop → x.poison = false → y.poison = false → takePair un s n (x :: a) (y :: b)
        = some ⟨s, a, b, [stopElem x.fmt x.stop false], [stopElem y.fmt y.stop false]⟩) ∧
      (x.stop ≠ y.stop → takePair un s n (x :: a) (y :: b) = some ⟨s.raise (n.site s x.wave) { cause := 1, sub := 8 }, a, b,
        [stopElem x.fmt (max x.stop y.stop) true], [stopElem y.fmt (max x.stop y.stop) true]⟩)) ∧
    (x.stop = 0 → x.poison = false → x.fmt ≠ .i64 →
      (un = true ∨ x.fmt ≠ .i32 → ∃ r, takePair un s n (x :: a) (y :: b) = some r ∧
        r.s = s.raise (n.site s x.wave) { cause := 3, sub := 1, info := x.fmt.code + 16 * y.fmt.code } ∧ r.a = a ∧
        r.o1 = [badElem .i64] ∧ r.o2 = [badElem .i64]) ∧
      (un = false → x.fmt = .i32 → y.stop = 0 → y.poison = false → y.fmt = .i64 → takePair un s n (x :: a) (y :: b)
        = some ⟨s.raise (n.site s x.wave) { cause := 3, sub := 1, info := x.fmt.code + 16 * y.fmt.code }, a, b, [badElem .i64], [badElem .i64]⟩)) ∧
    (x.stop = 0 → takeStoplvl s n (x :: a) b = some ⟨s, a, b, [x], []⟩) ∧
    (∀ l : Int, l = (x.stop : Int) + toS 4 (bits n.slot.lit 3 0) → 0 < x.stop →
      (1 ≤ l → l ≤ 7 → takeStoplvl s n (x :: a) b = some ⟨s, a, b, [stopElem x.fmt l.toNat x.poison], []⟩) ∧
      (l ≤ 0 → takeStoplvl s n (x :: a) b = some ⟨s, a, b, [], []⟩) ∧
      (7 < l → takeStoplvl s n (x :: a) b
        = some ⟨s.raise (n.site s x.wave) { cause := 1, sub := 5 }, a, b, [stopElem x.fmt x.stop true], []⟩)) ∧
    (∀ (c : Nat) (put : Nat → State), c = n.st.counts.getD n.names.idx 0 →
      (∀ v, put v = s.modStream n.names n.ctx fun st => { st with counts := st.counts.set n.names.idx v }) →
      (x.stop = 0 → takeScount s n (x :: a) b = some ⟨put (c + 1), a, b, [], []⟩) ∧
      (0 < x.stop → takeScount s n (x :: a) b
        = some ⟨put 0, a, b, [{ dataElem .i32 (c % 2 ^ 32) with poison := x.poison }, x], []⟩))

/-! ### Resets, registers and events of the control plane -/

/-- Resets and boot (R26, R27, R142, R143, R421, R444, R445, R447). A cold reset with a valid image leaves every field at its reset
value, whatever the state: DEVID what the fuses give, every strip that it does not name FUSED, LSDCFG what the board record gives;
without one boot stops with MBSTAT.CODE 0x0F, each strip that DEVID does not name FUSED. A warm reset, or the one value of
RESETCTL, keeps HBM, the scratch of clusters, the slots, the strip states, the layout record and the ceiling, empties everything
that was running, and boots partition 0 alone on the lowest strip present. Reduced service
ends with its window in HBM, a fast clock and a trained link where R143 lets it train. That a warm reset keeps scratch, the
layout of the window in slice scratch, that a strip that boots and was FREE becomes a MEMBER, that the kept partitions wait for the
end of reduced service, and that the check of the images in a reset of RESETCTL is free, are the model's readings (logs 26,
63, 108 and 109). -/
def Obligations.ResetsAndBoot : Prop :=
  ∀ (s : State) (a b : Bool) (d w : W64), d = s.dev.devid → w = s.dev.board →
    (a = true ∨ b = true → ∃ t, exec (.coldReset a b) s = .next t ∧
      t.dev = { Dev.cold d w with lsdcfg := lsdcfgFields w } ∧ t.parts = (State.cold d w).parts ∧
      t.ctxs = [] ∧ t.fab = State.reset.fab ∧ t.mem = State.reset.mem ∧ t.work = State.reset.work ∧ t.ldr = State.reset.ldr ∧
      (∀ k, k < 16 → (t.stripState k = 6 ↔ stripPresent d k = false)) ∧
      (∀ b, b < 16 → stripPresent d b = true → (∀ k, k < b → stripPresent d k = false) →
        t.dev.reduced = some b ∧ t.stripState b = 3 ∧ ∀ k, k < 16 → b < k → stripPresent d k = true → t.stripState k = 0)) ∧
    (a = false → b = false → ∃ t, exec (.coldReset a b) s = .next t ∧ t.dev.mbstat = 0x0F ∧ t.dev.devid = d ∧
      ∀ k, k < 16 → t.stripState k = if stripPresent d k then 0 else 6) ∧
    (∀ p, exec (.registerWrite p .hostPf (.mailbox 8) 0x5741524D) s = exec (.warmReset (Config.imageValid s.run.steps) false) s) ∧
    (∀ p v, v ≠ 0x5741524D → exec (.registerWrite p .hostPf (.mailbox 8) v) s = .next s) ∧
    (a = true ∨ b = true → ∃ t, exec (.warmReset a b) s = .next t ∧
      t.mem.hbm = s.mem.hbm ∧ t.mem.cs = s.mem.cs ∧ t.mem.clways = s.mem.clways ∧ t.mem.l1 = [] ∧ t.mem.l2 = [] ∧
      t.mem.xlat = [] ∧ t.ctxs = [] ∧ t.work.ops = [] ∧ t.work.engs = [] ∧ t.work.rings = [] ∧ t.fab.slots = s.fab.slots ∧
      t.dev.pwrcap = s.dev.pwrcap ∧ t.dev.journal = s.dev.journal ∧ t.dev.reduced = some (bootStripOf d) ∧
      (s.stripState (bootStripOf d) ≠ 0 → t.dev.strips = s.dev.strips) ∧
      (∀ k, k ≠ bootStripOf d → t.stripState k = s.stripState k) ∧
      (s.dev.strips.length = 16 → s.stripState (bootStripOf d) = 0 → t.stripState (bootStripOf d) = 3) ∧
      (s.parts.length = 16 → s.dev.kept = [] → (t.part 0).live = true ∧ (t.part 0).first = bootStripOf d ∧ (t.part 0).count = 1 ∧
        (∀ p, 0 < p → p < 16 → (t.part p).live = false) ∧ t.dev.kept = s.parts.map Part.warm)) ∧
    (∀ k link plan, s.dev.reduced = some k → s.dev.kept ≠ [] → ∀ u c : State, c = s.copyWindow k →
      u = { c with dev := { c.dev with reduced := none, fast := true, mbstat := 1, lsoUp := true, lsdUp := link && c.dev.mayTrain } } →
      exec (.reducedServiceEnd plan link) s = .next (plan.foldl (fun u x => u.form x) (u.resumeParts k))) ∧
    (∀ k link plan, s.dev.reduced = some k → s.dev.kept = [] →
      ∃ t, exec (.reducedServiceEnd plan link) s = .next t ∧ t.dev.reduced = none ∧ t.dev.fast = true ∧ t.dev.mbstat = 1 ∧
        t.dev.lsoUp = true ∧
        t.mem.ss = s.mem.ss ∧ (plan = [] → t.parts = s.parts) ∧ (link = true → s.dev.mayTrain = true → t.dev.lsdUp = true) ∧
        (MemForm s → ∀ o, o < 0x600000 → t.mem.hbm.get (stripWindow * k + o) = s.mem.ss.get (16 * k * 2 ^ 19 + o)) ∧
        (MemForm s → ∀ x, ¬ (stripWindow * k ≤ x ∧ x < stripWindow * k + 0x600000) → t.mem.hbm.get x = s.mem.hbm.get x)) ∧
    (s.dev.bridge = true → ∃ t, exec .dieBridgeDown s = .next t ∧ t.dev.bridge = false ∧
      t.parts = s.parts.map (fun x => { x with stopped := x.stopped || x.spans }) ∧ t.mem = s.mem ∧ t.ctxs = s.ctxs) ∧
    (s.dev.layout = none → bit s.dev.layoutreq 63 = true → ∃ t, exec .sageWatchdogRecovery s = .next t ∧
      bit t.dev.layoutreq 63 = false ∧ bits t.dev.layoutstat 63 56 = 9 ∧ t.mem = s.mem ∧ t.parts = s.parts) ∧
    (∀ v : W64, s.dev.lsdUp = false → ∃ t, exec (.hostLsdcfgWrite v) s = .next t ∧
      bits t.dev.lsdcfg 5 0 = bits v 5 0 ∧ bits t.dev.lsdcfg 13 8 = bits v 13 8 ∧ bits t.dev.lsdcfg 63 14 = 0 ∧
      bits t.dev.lsdcfg 7 6 = 0 ∧ { t with dev := { t.dev with lsdcfg := s.dev.lsdcfg } } = s) ∧
    (∀ v : W64, s.dev.lsdUp = true → exec (.hostLsdcfgWrite v) s = .next s)

/-- Writes of registers from outside a context (R8, R34, R37, R57, R69, R124, R268, R406, R408, R409, R436): the writer needs
the right; then the register takes the value in its writable fields. That a write names one field of a slot is the model's choice
(log 62, DESIGN CHOICE). -/
def Obligations.RegisterWrites : Prop :=
  ∀ (s : State) (p k : Nat) (v : W64) (w : Agent) (x : Part), x = s.part p → w = .monitor k → x.hasStrip k = true →
    (∀ n, writeRight n ≠ .none_ → startsMore n v = false →
      exec (.registerWrite p w (.sel n) v) s = .next (s.setPart p (x.setReg n v))) ∧
    (∀ n, writeRight n = .none_ → exec (.registerWrite p w (.sel n) v) s = .next s) ∧
    (∀ c n, writeRight n ≠ .none_ → (n < 8 ∨ 0x10 ≤ n ∧ n < 0x20) →
      exec (.registerWrite p w (.ctxSel c n) v) s = .next (s.modCtx p c fun y => y.setReg x.leasecap n v)) ∧
    (∀ i j, i < 65536 → exec (.registerWrite p w (.handle i j) v) s
      = .next (s.setPart p { x with handles := x.handles.set i ((x.handles.getD i ⟨0, 0, 0, 0⟩).setWord j v) })) ∧
    (∀ a, exec (.registerWrite p w (.address a) v) s = match agentRegister w a with
      | some r => exec (.registerWrite p w r v) s
      | none => .next s) ∧
    (∀ c el i, x.hasCluster c = true → el < 16 → i < 64 →
      exec (.registerWrite p w (.table c el i 0) v) s = .next (s.setSlot c el i { s.slot c el i with word := v.setWidth 32 }) ∧
      exec (.registerWrite p w (.table c el i 3) v) s = .next (s.setSlot c el i { s.slot c el i with lit := v })) ∧
    (∀ c y, s.ctx? p c = some y → ∃ t, exec (.sysFlagsrcRead p c) s = .next t ∧ t.run.busRead = w64 y.flags.toNat ∧
      t.ctx? p c = some { y with flags := 0 } ∧ t.mem = s.mem ∧ t.parts = s.parts ∧ t.fab = s.fab) ∧
    (x.live = true → exec (.asidbaseWrite p v) s = .next (s.setPart p { x with asidbase := w64 (bits v 47 15 * 2 ^ 15) })) ∧
    (exec (.scvalWrite p w v) s = .next (s.setPart p { x with scval := x.scval.set w v })) ∧
    (∀ t, x.live = true → s.xlatInv p v = some t → exec (.xlatinv p v) s = .next t) ∧
    (∀ c, x.hasCluster c = true → s.mem.ways = [] → bits v 63 12 = 0 → maskOk (bits v 11 0) = true →
      (waysOf (bits v 11 0) < waysOf (s.mask c) → s.shrinkRefused c (waysOf (bits v 11 0) * 0x8000) = false →
        exec (.clwaysWrite p c v) s = .next (s.setMask c (bits v 11 0))) ∧
      (waysOf (s.mask c) ≤ waysOf (bits v 11 0) → s.mem.leases = [] →
        exec (.clwaysWrite p c v) s = .next ((s.evictWays p c (waysOf (bits v 11 0))).setMask c (bits v 11 0)))) ∧
    (x.live = true → x.modeWait = none → x.mode ≠ bit v 0 →
      (s.dev.layout = none → s.partFree p = true → exec (.slicecfgModeWrite p v) s = .next (s.changeMode p (bit v 0))) ∧
      (s.dev.layout.isSome = true → exec (.slicecfgModeWrite p v) s
        = .next (s.setPart p { x with modeWait := some (bit v 0), cfgBusy := true })))

/-- The fields that a plain write leaves in the registers of R34, R71, R124, R150, R268, R405, R408 and R436: the bits that the rule
gives the field, and zero in the reserved ones, whatever is written there (R3). -/
def Obligations.RegisterFields : Prop :=
  ∀ (x : Part) (y : Ctx) (v : W64),
    ((x.setReg 0x43 v).leasecap = if bits v 5 0 = 16 ∨ bits v 5 0 = 32 then bits v 5 0 else x.leasecap) ∧
    (bits (x.setReg 0x85 v).hostwin 63 47 = bits v 63 47 ∧ bits (x.setReg 0x85 v).hostwin 0 0 = bits v 0 0) ∧
    (bits (x.setReg 0x8E v).hostaper 63 16 = bits v 63 16 ∧ bits (x.setReg 0x8E v).hostaper 15 0 = 0) ∧
    (x.tenants.length = 64 → ∀ k, k < 64 →
      bits (at! (x.setReg (0xC0 + k) v).tenants k 0) 63 16 = bits v 63 16 ∧
      bits (at! (x.setReg (0xC0 + k) v).tenants k 0) 15 2 = 0 ∧ bits (at! (x.setReg (0xC0 + k) v).tenants k 0) 1 0 = bits v 1 0) ∧
    (∀ cap, (y.setReg cap 5 v).leaseMax = (if bits v 5 0 = 0 then 1 else min (bits v 5 0) cap) ∧ (y.setReg cap 5 v).xtrap = bit v 15) ∧
    (∀ h : Handle,
      (bits (h.setWord 0 v).w0 43 16 = bits v 43 16 ∧ bits (h.setWord 0 v).w0 8 0 = bits v 8 0 ∧
        bits (h.setWord 0 v).w0 63 44 = 0 ∧ bits (h.setWord 0 v).w0 15 9 = 0 ∧ (h.setWord 0 v).w1 = h.w1) ∧
      (h.setWord 1 v).w1 = v ∧ bits (h.setWord 2 v).w2 31 0 = bits v 31 0 ∧ bits (h.setWord 2 v).w2 63 32 = 0 ∧
      (h.setWord 3 v).w3 = 0) ∧
    (∀ cap, (y.setReg cap 2 v).flags.toNat = bits v 4 0 ∧ (y.setReg cap 1 v).workid = v ∧ (y.setReg cap 7 v).brk = bit v 0) ∧
    (∀ cap k, k < 8 →
      (at! (y.setReg cap (0x10 + 2 * k) v).ranges k (0, 0)).1 = rangeVa v ∧
      (at! (y.setReg cap (0x11 + 2 * k) v).ranges k (0, 0)).2 = rangeIa v)

/-- TRAPPTR.HEAD (R399): a write takes effect unless the value lies above TAIL, both counting modulo 2^32. -/
def Obligations.TrapHeadWrites : Prop :=
  ∀ (old v : W64) (used : Nat), used = (bits old 63 32 + 2 ^ 32 - bits old 31 0) % 2 ^ 32 → used < 2 ^ 30 →
    (∀ n, n ≤ used → bits v 31 0 = (bits old 31 0 + n) % 2 ^ 32 →
      bits (trapHead old v) 31 0 = bits v 31 0 ∧ bits (trapHead old v) 63 32 = bits old 63 32) ∧
    (∀ n, 0 < n → n < 2 ^ 30 → bits v 31 0 = (bits old 63 32 + n) % 2 ^ 32 → trapHead old v = old)

/-- Frames and faults that wait (R46, R51, R405, R406, R414): FRESUME retries or gives up, CTXCTL resumes or kills a halted
context, SCDONE answers the SYSCALL that its context waits in with the writer's SCVAL, FRAMESCRUB zeroes a page. -/
def Obligations.ResumesAndReplies : Prop :=
  ∀ (s : State) (p : Nat) (v : W64) (x : Part), x = s.part p →
    (∀ (kill : Bool) (t : State) (i : Instr), kill = bit v 0 →
      i = (if kill then .fresumeKill p v else .fresumeRetry p v) → t = s.setPart p { x with fresumes := x.fresumes ++ [v] } →
      (x.gated = true → exec i s = .next t) ∧
      (x.live = true → x.gated = false → x.fresumes = [] → s.fresumeDue p (bits v 63 52) (bits v 51 16) kill = false →
        exec i s = .next ((t.fresume p (bits v 63 52) (bits v 51 16) kill).modPart p fun y => { y with fresumes := [] })) ∧
      (x.live = true → x.gated = false → x.fresumes = [] → s.fresumeDue p (bits v 63 52) (bits v 51 16) kill = true →
        exec i s = .next (t.setPart p { x with fresumes := [v] }))) ∧
    (∀ (o : Op) (id : Nat) (w : Waiting), s.op? id = some o → s.members o = [o] → w.who = .op id →
      s.resolveWait p true w
        = ({ s with work := { s.work with waits := s.work.waits.filter fun y => y ≠ w } } : State).finish o o.bad) ∧
    (∀ c y, c = bits v 11 0 → s.ctx? p c = some y → y.halted = true →
      (bits v 63 62 = 1 → exec (.ctxctlResume p v) s = .next (y.resume.foldl (fun s h => s.sendHeld h)
        (s.modCtx p c fun z => { z with halted := false, resume := [] }))) ∧
      (bits v 63 62 = 2 → exec (.ctxctlKill p v) s = .next (s.killTask p y.root))) ∧
    (∀ k, x.hasStrip k = true → s.syscallWaits p (bits v 11 0) = false → exec (.scdoneWrite p (.monitor k) v) s = .next s) ∧
    (∀ k (o : Op), x.hasStrip k = true → x.gated = false →
      s.work.ops.find? (fun o => o.kind = .syscall && o.phase = .parked && o.names.part == p && o.ctx == bits v 11 0) = some o →
      exec (.scdoneWrite p (.monitor k) v) s = .next (s.finish o
        ⟨if bit v 12 then 0 else x.scval.getD (.monitor k) 0, .i64, bit v 12⟩)) ∧
    (∀ k, x.hasStrip k = true → x.gated = true → s.syscallWaits p (bits v 11 0) = true →
      exec (.scdoneWrite p (.monitor k) v) s = .next (s.setPart p
        { x with scheld := x.scheld ++ [(bits v 11 0, x.scval.getD (.monitor k) 0, bit v 12)] })) ∧
    (∀ k t, x.hasStrip k = true →
      (s.scrub p v = .done t → exec (.framescrub p (.monitor k) v) s = .next (t.modPart p fun y => y.setFail (.monitor k) false)) ∧
      (bits v 15 10 ≠ 16 → bits v 15 10 ≠ 21 → bits v 15 10 ≠ 30 →
        exec (.framescrub p (.monitor k) v) s = .next (s.setPart p (x.setFail (.monitor k) true))))

/-! ### Events of the control plane: moves, saves, layout changes, launches and tasks -/

/-- Moves of blocks and the save and restore of a partition (R360, R361, R412, R413): a write of BLKMOVE with GO reports the
status of a refused move or begins the move; the install, the sweep and the free follow, and GO then reads 0. A write of
PCTL with GO gates the partition for a SAVE; the round in which nothing moves ends it; a RESTORE writes the bank back. -/
def Obligations.MovesAndSaves : Prop :=
  ∀ (s : State) (p : Nat) (v : W64) (x : Part), x = s.part p →
    (∀ (dst : Place) (st : Nat) (w : W64) (t : State), x.live = true → bit v 63 = true → bit x.blkmove 63 = false →
      dst = ⟨bits v 40 30, bits v 29 26, bits v 25 25⟩ → st = s.moveStatus p (bits v 58 53) (bits v 52 41) (bit v 59) dst →
      w = setBits x.blkmove 59 25 (bits v 59 25) → t = s.setPart p { x with blkmove := w } →
      (x.hasCluster dst.cluster = false → st = 1) ∧
      (x.move = none → x.gated = false →
        (st ≠ 0 → exec (.blkmove p v) s = .next (t.setPart p { x with blkmove := setBits w 62 60 st })) ∧
        (st = 0 → exec (.blkmove p v) s = .next ((t.setPart p { x with blkmove := setBits w 63 63 1 }).beginMove p
          (bits v 58 53) (bits v 52 41) (bit v 59) dst true))) ∧
      (x.move ≠ none ∨ x.gated = true → exec (.blkmove p v) s = .next (t.setPart p { x with blkmove := setBits w 63 63 1 }))) ∧
    (∀ m : Move, s.run.subj.a = p → x.move = some m → x.stopped = false →
      (m.step = 1 → exec .moveInstall s = .next (s.installMove p m)) ∧
      (m.step = 3 → exec .moveSweep s = .next (((x.forwarded m).foldl (fun s b => s.forgetPlace p b.1 b.2) s).modPart p
        fun y => { y with move := some { m with step := 4 } })) ∧
      (m.step = 4 → s.onOldRoute p m = false → exec .moveFree s = .next ((s.setPart p (x.freeMove m)).pumpMove p) ∧
        (x.freeMove m).move = none ∧ (∀ f ∈ (x.freeMove m).forwards, ¬ (f.cluster = m.src.cluster ∧ f.elem = m.src.elem)) ∧
        (m.asked = true → bit (x.freeMove m).blkmove 63 = false ∧ (s.setPart p (x.freeMove m)).pumpMove p = s.setPart p (x.freeMove m)) ∧
        (m.asked = false → (x.freeMove m).blkmove = x.blkmove))) ∧
    (x.live = true → bit v 63 = true → bits v 62 61 = 1 → bit x.pctl 63 = false →
      (s.layoutHolds p = true → exec (.pctlSave p v) s = .next (s.takePctl p v)) ∧
      (s.layoutHolds p = false → x.gated = false → (if bit v 57 then x.bank1 else x.bank0) = none →
        exec (.pctlSave p v) s = .next ((s.takePctl p v).gate p)) ∧
      (s.layoutHolds p = false → x.gated = true → exec (.pctlSave p v) s = .next ((s.takePctl p v).endPctl p 1))) ∧
    (∀ t : State, s.run.subj.a = p → x.saving = true → x.move = none → t = s.settleRound p →
      (t ≠ s ∨ t.unsettled p = true → exec .saveSettleRound s = .next t) ∧
      (t = s → t.unsettled p = false → exec .saveSettleRound s = .next (t.settled p))) ∧
    (x.live = true → bit v 63 = true → bits v 62 61 = 2 → bit x.pctl 63 = false →
      ((if bit v 57 then x.bank1 else x.bank0) = none →
        exec (.pctlRestore p v) s = .next ((s.takePctl p v).endPctl p 1)) ∧
      (∀ b : Saved, (if bit v 57 then x.bank1 else x.bank0) = some b → x.gated = true → s.layoutHolds p = false →
        exec (.pctlRestore p v) s = .next ((((((s.takePctl p v).modPart p fun y => y.setBank none).reload p b).endPctl p 0)).ungate p)))

/-- Changes of the layout (R418, R419, R421 to R431): a request with GO while none runs is refused under the status of the
first check that fails, else it is accepted and its strips change state; SCRUB, MIGRATE, the rehash, COMMIT and the steps of
a DEFRAG follow; a DIRTY strip is zeroed and freed. Nothing of this
happens while a warm reset has partitions waiting for the end of reduced service (log 108, DESIGN CHOICE). -/
def Obligations.LayoutChanges : Prop :=
  ∀ (s : State) (v : W64),
    (s.dev.kept ≠ [] → exec (.grow v) s = .next s ∧ exec (.shrink v) s = .next s ∧ exec (.defrag v) s = .next s ∧
      exec (.reserve v) s = .next s ∧ exec (.release v) s = .next s ∧ exec .stripScrubDone s = .next s ∧
      exec .rehashWalk s = .next s ∧ exec .layoutCommit s = .next s ∧ exec .stripZeroDone s = .next s) ∧
    (s.dev.kept = [] → bit s.dev.layoutreq 63 = false ∨ s.requested v = true → ∀ st, st = s.layoutStatus v → bit v 63 = true → st ≠ 0 →
      (bits v 62 60 = 1 → exec (.grow v) s = .next (s.report v st)) ∧
      (bits v 62 60 = 2 → exec (.shrink v) s = .next (s.report v st)) ∧
      (bits v 62 60 = 3 → exec (.defrag v) s = .next (s.report v st)) ∧
      (bits v 62 60 = 4 → exec (.reserve v) s = .next (s.report v st)) ∧
      (bits v 62 60 = 5 → exec (.release v) s = .next (s.report v st)) ∧
      bit (s.report v st).dev.layoutreq 63 = false ∧ bits (s.report v st).dev.layoutstat 63 56 = st % 256 ∧
      { s.report v st with dev := s.dev } = s) ∧
    (∀ (t : State) (l : Layout), s.dev.kept = [] → bit s.dev.layoutreq 63 = false ∨ s.requested v = true →
      bit v 63 = true → s.layoutStatus v = 0 → s.accept v = (t, l) →
      l.gen = (bits s.dev.layoutstat 31 0 + 1) % 2 ^ 32 ∧ t.dev.layout = some l ∧
      (bits v 62 60 = 1 → exec (.grow v) s
        = .next (((t.forgetAka l.part).setStrips l.joining 4 l.part).enterState { l with left := l.joining } 2).1) ∧
      (bits v 62 60 = 2 → exec (.shrink v) s
        = .next ((((t.forgetAka l.part).setStrips l.leaving 5 l.part).enterState l 4).1.gate l.part)) ∧
      (bits v 62 60 = 3 → exec (.defrag v) s = .next (((t.forgetAka l.part).enterState l 8).1.gate l.part)) ∧
      (bits v 62 60 = 4 → exec (.reserve v) s = .next ((t.setStrips (runStrips l.newF l.newN) 2 l.part).endLayout l)) ∧
      (bits v 62 60 = 5 → exec (.release v) s = .next ((t.setStrips (runStrips l.newF l.newN) 0 0).endLayout l))) ∧
    (∀ (l : Layout) (k : Nat) (r : List Nat), k = s.run.subj.a → s.dev.kept = [] → s.dev.layout = some l → l.state = 2 → k ∈ l.left →
      r = l.left.filter (fun y => y ≠ k) →
      (r ≠ [] → exec .stripScrubDone s
        = .next { s.scrubStrip k with dev := { s.dev with layout := some { l with left := r } } }) ∧
      (r = [] → exec .stripScrubDone s = .next ((s.scrubStrip k).join { l with left := [] }))) ∧
    (∀ (l : Layout) (k : Nat), k = s.run.subj.a → s.dev.kept = [] → s.dev.layout = some l → l.state = 5 →
      (s.part l.part).hasStrip (sliceStrip k) = true →
      exec .rehashWalk s = .next (((s.mem.l2.filter fun y => y.slice == k && !y.replica).foldl
        (fun s y => s.moveLine l.part k y) s).moveRegs l.part k)) ∧
    (∀ l : Layout, s.dev.kept = [] → s.dev.layout = some l →
      (l.state = 4 → exec .layoutCommit s = .next (s.migrate l)) ∧
      (l.state = 5 → s.walked l.part = true → l.op = 1 → exec .layoutCommit s = .next (s.commit l)) ∧
      (l.state = 5 → s.walked l.part = true → l.op ≠ 1 → exec .layoutCommit s = .next (s.enterState l 6).1) ∧
      (l.state = 6 → (∀ k ∈ l.leaving, bits (at! s.dev.frames k 0) 63 32 = 0) →
        exec .layoutCommit s = .next (s.commit l)) ∧
      (l.state = 9 → exec .layoutCommit s = .next ((s.defragCopy l).defragCommit l)) ∧
      (l.state = 10 → exec .layoutCommit s = .next (s.defragRestore l)) ∧
      (l.state = 11 → exec .layoutCommit s
        = .next ((s.dirty (runStrips l.oldF l.oldN)).endLayout { l with state := 7 }))) ∧
    (∀ k, k = s.run.subj.a → s.dev.kept = [] → k < 16 → s.dev.strips.length = 16 → s.stripState k = 1 → ∃ t, exec .stripZeroDone s = .next t ∧
      t.stripState k = 0 ∧ (∀ j, j ≠ k → t.stripState j = s.stripState j) ∧
      (MemForm s → ∀ a, stripWindow * k ≤ a → a < stripWindow * (k + 1) → t.mem.hbm.get a = unwritten) ∧
      (MemForm s → ∀ a, a < stripWindow * k ∨ stripWindow * (k + 1) ≤ a → t.mem.hbm.get a = s.mem.hbm.get a) ∧
      t.ctxs = s.ctxs ∧ t.parts = s.parts)

/-- Launches and tasks (R46, R90, R94, R176 to R182, R388 to R395, R402): the launch interface answers a record with its
status; a launch starts, its section is loaded, its tasks are dispatched; blocks give way and come back; a task that is done
and has nothing left to perform retires; an aborted one is held or, after 64 aborts, dropped. -/
def Obligations.LaunchesAndTasks : Prop :=
  ∀ (s : State) (p : Nat) (x : Part), x = s.part p →
    (∀ (q : Nat) (v : W64), x.live = true → q < 64 → bits v 63 48 ≠ 0 ∨ bits v 7 0 ≠ 0 → ∀ st t,
      s.submitted p q (x.submitStatus q false true none) [] = (st, t) →
      exec (.launchSubmit p q v) s = .next { t with run := { t.run with busRead := st } }) ∧
    (∀ (q : Nat) (v : W64) (pa : Nat) (ws : Option (List W64)) (u : State), x.live = true → q < 64 → pa = bits v 47 8 * 256 →
      bits v 63 48 = 0 → bits v 7 0 = 0 → (paLocal pa = true ∧ s.paReserved p pa = false) ∨ paHost pa = true →
      s.recordAt pa = (ws, u) → ∀ st t, u.submitted p q (x.submitStatus q false false
        (if (paHost pa = true ∧ bit x.hostwin 0 = false) ∨ u.paSpoiled pa 256 = true then none else ws)) (ws.getD []) = (st, t) →
      exec (.launchSubmit p q v) s = .next { t with run := { t.run with busRead := st } }) ∧
    (x.works = true → s.run.subj.a = p →
      (∀ (t u : State) (hs : List HeldLaunch) (h : HeldLaunch), t = ((upto 64).filterMap fun q => x.head q).foldl (fun s h => s.markHead p h) s →
        (t.part p).running.length < 16 → t.startable p (upto 64) [] = (hs, u) → (u.part p).nextStart hs = some h →
        h.launch.tcb = 0 → exec .launchStart s = .next (u.startLaunch p h)) ∧
      (∀ r : Running, x.running[s.run.subj.b]? = some r →
        (r.loaded = false → r.stopped = false → r.emptySpace = false → r.sec < r.launch.secEnd →
          exec .sectionLoad s = .next (s.loadOn p r)) ∧
        (∀ (y : Running) (k : Section) (home id : Nat) (w : W64) (t u : State), s.dispatchPick p = some y → y.order = r.order →
          s.runSection p r = some k → r.nextId = some w → s.taskHome p k = (some home, t) →
          t.dispatchTask p r k.lsec home w = some (id, u) → exec .dispatch s = .next (u.passOver p r (s.couldDispatch p))) ∧
        (∀ (c : Cursor) (w : W64) (sec l home id : Nat) (rest : List (W64 × Nat)) (t : State),
          r.cursors.find? (fun c => c.cluster == s.run.subj.c) = some c → c.entries = (w, sec) :: rest → c.task = none →
          r.lsecs[sec]? = some l → home = inRun (s.loadRun p) c.cluster → r.loaded = true → r.stopped = false →
          x.queueFree r (heldMark c.cluster) = true → s.streamRoom p l = true → s.chainSlot p home = true → s.dispatchTask p r l home w = some (id, t) →
          exec .schedTableDispatch s = .next ((t.modPart p fun z => z.dropHead r (heldMark c.cluster)).modRun p r.queue r.lseq fun y =>
            { y with cursors := modFirst (fun k => k.cluster == c.cluster) (fun k => { k with task := some id }) y.cursors })) ∧
        (r.sec < r.launch.secEnd → s.sectionOver p r = true →
          exec .releaseIslands s = .next ((r.lsecs.foldl (fun s l => s.releaseNodes p l r.order) s).modRun p r.queue r.lseq fun y =>
            { y with loaded := false, lsecs := [], tile := 0,
                     sec := if y.launch.mode || y.stopped then y.launch.secEnd else y.sec + 1 })) ∧
        (s.launchBusy p r = false → r.launch.secEnd ≤ r.sec → exec .launchComplete s = .next (s.completeStep p r))) ∧
      (∀ (l b : Nat) (e : PlEntry), l = s.run.subj.b → b = s.run.subj.c → s.entry? ⟨p, l, false, b, 0⟩ = some e →
        (s.evictable p l b e = true → s.roomWanted p l e.place.cluster e.place.elem = true →
          (e.moving = false → s.olderOther p e.place = false →
            exec .blockEvict s = .next (s.modEntry p l b fun y => { y with moving := true })) ∧
          (e.moving = true → e.valid = true → exec .blockEvict s
            = .next ((s.modEntry p l b fun y => { y with valid := false }).tellCaches p l b s.fab.pcache))) ∧
        (s.evictable p l b e = false ∨ s.roomWanted p l e.place.cluster e.place.elem = false → e.moving = true → e.valid = true →
          exec .blockEvict s = .next (s.cancelEvict p l b)) ∧
        (e.moving = true → e.valid = false →
          ((s.forgetPlace p l b).boundFor p l b e.place = false →
            exec .blockEvict s = .next ((s.forgetPlace p l b).evictBlock p l b e.place)) ∧
          ((s.forgetPlace p l b).boundFor p l b e.place = true → exec .blockEvict s = .next (s.forgetPlace p l b)))) ∧
      (∀ (l b : Nat) (k : Section) (r : Running) (pl : Place), l = s.run.subj.b → b = s.run.subj.c → (l, b) ∈ s.neededBlocks p →
        s.section? p l = some k → x.running.find? (fun r => r.lsecs.contains l) = some r → s.reloadPlace p k b = some pl →
        (∀ t, s.fetchSlots p r k b = .inl t → exec .blockReload s = .next t) ∧
        (∀ xs t, s.fetchSlots p r k b = .inr (xs, t) → exec .blockReload s = .next (t.standBlock p k.lsec b pl xs)))) ∧
    (∀ (c : Nat) (y : Ctx), s.run.subj.a = p → s.run.subj.b = c → s.ctx? p c = some y → y.root = y.id →
      (y.done = true → y.aborted = false → s.taskCtxs p c = [c] → y.chain.last = 0xFD → s.quiet p c = true →
        s.islandWaits p c = false → s.streamWaits p c = false → x.stopped = false → (s.closeTask p c).noRings p c = true →
        exec .taskRetire s = .next (((y.orphans.foldl State.pushTrap ((s.closeTask p c).flushGuard p c)).freeCtx p c).taskEnded p y.queue y.lseq c false)) ∧
      (y.done = false ∨ s.quiet p c = false ∨ y.chain.last ≠ 0xFD ∨ s.islandWaits p c = true ∨ s.streamWaits p c = true ∨
        x.stopped = true → exec .taskRetire s = .next s) ∧
      (∀ (t : State) (h : HeldTask), y.aborted = true → s.taskQuiet p c = true → x.stopped = false →
        (s.closeTask p c).noRings p c = true → ∀ mark, mark = ((((s.closeTask p c).part p).run? y.queue y.lseq).map fun r => r.markOf c).getD 0 →
        t = ((s.closeTask p c).freeTask p c).modRun p y.queue y.lseq (fun r =>
          { r with cursors := r.cursors.map fun k => if k.task = some c then { k with task := some mark } else k }) →
        (((s.closeTask p c).freeTask p c).part p).tasks.find? (fun t => t.ctx == c && !t.ready) = some h →
        exec .taskRequeue s = .next ((t.modPart p fun z =>
          { z with tasks := modFirst (fun q => q = h) (fun _ => { h with ready := true, ctx := mark }) z.tasks }).pumpFresumes p))) ∧
    (∀ (o : Op) (y : Ctx) (w : Waiting) (root n : Nat) (key : Nat × Nat × Nat), s.op? s.run.subj.a = some o → o.names.part = p → o.phase = .faulted →
      root = s.rootOf p o.ctx → s.ctx? p root = some y → x.stopped = false →
      s.work.waits.find? (fun w => w.who = .op s.run.subj.a && w.aborts) = some w → y.aborted = false →
      key = (y.queue, y.lseq, y.workid.toNat) → n = x.aborts.getD key 0 + 1 →
      (n < 64 → exec .taskAbort s = .next (((s.cancelTask p root).modPart p fun z =>
        { z with aborts := z.aborts.set key n,
                 tasks := z.tasks ++ [⟨y.asid, w.granule, y.queue, y.lseq, y.workid, false, root⟩] }).pumpFresumes p)) ∧
      (64 ≤ n → exec .taskAbort s = .next (((((s.cancelTask p root).modPart p fun z => { z with aborts := z.aborts.del key }).raise
        (o.site s) { cause := 9, sub := 1, info := n }).taskEnded p y.queue y.lseq root true).pumpFresumes p)))

/-! ### Events of memory, engines and the fabric -/

/-- Accesses from outside and answers to the device's own (R117, R144 to R155, R47, R450): an aligned access of a control
core or of the aperture is made at the home slice, one that a peer may make at the channel controller, whose bytes then
change and no others; one that finds its line busy joins its queue, and one to a peer or to the host leaves and awaits its
answer (R112, R144, R151); an answer ends the operation that awaits it, a refusal poisons it; an emulated atomic is performed
under the lock of its line and answers the value it writes; a splice reads a page at its IAs and writes the new frame at its PAs, and adds its
bytes to the writer's counter; a request of the aperture under ASID 0 is not supported, and at a fault it is aborted. What a read of poison answers is free (R403, log 24, DESIGN CHOICE). That an outside access is aligned and at most eight bytes, and that the value read
returns on the bus, is the model's choice (log 5, DESIGN CHOICE). -/
def Obligations.OutsideAccesses : Prop :=
  ∀ (s : State) (x : ExtAccess),
    (∀ (p asid : Nat) (z : ExtAccess), (s.part p).live = true → extAligned x = true → x.addr < 2 ^ 52 → z = OutsideWho.core.access x →
      (s.lineQueued asid (x.addr / 64) = true ∨ s.homeNow p asid x.addr none (extNeed z.kind) .any = .busy →
        exec (.coreMemoryAccess p asid x) s = .next (s.queueOutside p asid x.addr .core z)) ∧
      ∀ (old : Nat) (pl : Place_) (t : State), s.lineQueued asid (x.addr / 64) = false →
        s.homeNow p asid x.addr none (extNeed z.kind) .any = .ready pl t → old = leNat (t.bytesAt pl asid x.addr (2 ^ x.width)) →
        (∀ sl pa, pl.far = some (sl, pa) →
          exec (.coreMemoryAccess p asid x) s = .next (t.sendOutside p asid sl .core z pa)) ∧
        (pl.far = none →
          (x.kind ≠ .write → t.spoiledAt pl asid x.addr (2 ^ x.width) = true →
            exec (.coreMemoryAccess p asid x) s = .next (t.answerPoison x.addr)) ∧
          (x.kind = .read → t.spoiledAt pl asid x.addr (2 ^ x.width) = false →
            exec (.coreMemoryAccess p asid x) s = .next (t.answer (w64 old))) ∧
          (x.kind ≠ .read → x.kind = .write ∨ t.spoiledAt pl asid x.addr (2 ^ x.width) = false →
            exec (.coreMemoryAccess p asid x) s
              = .next ((t.writeNow pl asid x.addr (leBytes (2 ^ x.width) (extValue z old))).answer (w64 old))) ∧
          (x.kind = .amo .add → x.width = 3 → extValue z old = min (old + x.data.toNat) (2 ^ 64 - 1)))) ∧
    (∀ (p asid ia : Nat), (s.part p).live = true → extAligned x = true → x.addr < 2 ^ 36 →
      asid = bits (s.part p).hostaper 63 52 → asid ≠ 0 → ia = (bits (s.part p).hostaper 51 16 * 2 ^ 16 + x.addr) % 2 ^ 52 →
      exec (.hostApertureAccess p x) s = .next (s.outsideAccess p asid ia .host x)) ∧
    (∀ (p : Nat), (s.part p).live = true → extAligned x = true → x.addr < 2 ^ 36 → bits (s.part p).hostaper 63 52 = 0 →
      exec (.hostApertureAccess p x) s = .next { s with run := { s.run with done := .unsupported } }) ∧
    (∀ (p asid ia c u : Nat) (t : State), s.lineQueued asid (ia / 64) = false →
      s.homeNow p asid ia none (extNeed x.kind) .plain = .fault c u t →
      s.outsideAccess p asid ia .host x = { s with run := { s.run with done := .abort } }) ∧
    (s.admits x = true → s.dev.reduced = none → MemForm s → x.kind = .write ∨ s.paSpoiled x.addr (2 ^ x.width) = false → ∃ t, exec (.peerAccess x) s = .next t ∧
      t.run.busRead = w64 (leNat (s.mem.hbm.read x.addr (2 ^ x.width))) ∧
      (x.kind = .read → t.mem = s.mem) ∧
      (x.kind = .write → t.mem.hbm.read x.addr (2 ^ x.width)
        = leBytes (2 ^ x.width) (x.data.toNat % 2 ^ (8 * 2 ^ x.width))) ∧
      (∀ a, a < x.addr ∨ x.addr + 2 ^ x.width ≤ a → t.mem.hbm.get a = s.mem.hbm.get a) ∧
      t.mem.l2 = s.mem.l2 ∧ t.mem.l1 = s.mem.l1 ∧ t.dev = s.dev ∧ t.ctxs = s.ctxs ∧ t.work = s.work) ∧
    (s.admits x = false → exec (.peerAccess x) s = .next s) ∧
    (∀ o : AmoOp, x.kind = .amo o → s.admits x = true → s.reduces x.addr = true → AmoOp.merges o = true →
      exec (.reductionMerge x) s = .next (s.controllerAccess x)) ∧
    (∀ (id : Nat) (o : Op) (v : W64) (u : State), u = s.answered id → s.op? id = some o → s.hostFill? id = none → o.phase = .parked →
      (∀ r, o.params = 6 :: r →
        exec (.hostCompletion id v) s = .next (u.endOutside o v) ∧
        exec (.hostCompletionTimeout id) s
          = .next ((u.raise (o.site u) { cause := 5, sub := 10, addr := o.ia }).finish o.answered o.bad)) ∧
      (∀ r, o.params = 5 :: r →
        (o.kind = .load ∨ o.kind = .store → exec (.peerAcknowledgement id v false) s = .next (s.endOutside o v)) ∧
        (∀ a, o.kind = .amo a → exec (.peerAcknowledgement id v false) s
          = .next (if mergedAway id a then s.finish o.answered (o.answered.good 0) else s.endOutside o v)) ∧
        exec (.peerAcknowledgement id v true) s
          = .next ((s.raise (o.site s) { cause := 5, sub := 8, addr := o.ia }).finish o.answered o.bad)) ∧
      (∀ (pa : Nat) (r : List Nat), o.params = 7 :: pa :: r →
        (s.dev.locks.contains (lockIndex pa) = true → exec (.emulate id v) s = .next s) ∧
        (s.dev.locks.contains (lockIndex pa) = false →
          exec (.emulate id v) s = .next ((s.lock pa).park o (9 :: pa :: v.toNat :: r)))) ∧
      (∀ (a : AmoOp) (pa old : Nat) (r : List Nat) (n : Nat), o.kind = .amo a → o.params = 9 :: pa :: old :: r →
        n = 2 ^ (8 * 2 ^ o.width) →
        exec (.emulate id v) s = .next (((s.unlock pa).endOutside { o with params := 0 :: 0 :: r } (w64 old)).answer
          (w64 (amoNew a o.fmt ((w64 old).toNat % n) (o.data.toNat % n) (o.data2.toNat % n)).1)) ∧
        exec (.hostCompletionTimeout id) s
          = .next (((u.unlock pa).raise (o.site u) { cause := 5, sub := 10, addr := o.ia }).finish o.answered o.bad))) ∧
    (∀ (id : Nat) (e : EngOp) (v : W64) (u : State), u = s.answered id → s.op? id = none → s.eng? id = some e →
      exec (.hostCompletion id v) s = .next (u.answerEng e v none) ∧
      exec (.hostCompletionTimeout id) s = .next (u.answerEng e 0 (some (5, 10))) ∧
      exec (.peerAcknowledgement id v true) s = .next (s.answerEng e v (some (5, 8)))) ∧
    (∀ (id : Nat) (q : OutsideReq) (v : W64) (u : State), u = s.answered id → s.op? id = none → s.eng? id = none → s.out? id = some q → q.sent = true →
      (paHost q.pa = true → exec (.hostCompletion id v) s = .next (u.answerOut q v) ∧
        exec (.hostCompletionTimeout id) s = .next (u.refuseOut q 10)) ∧
      (paPeer q.pa = true →
        (q.acc.kind = .read ∨ q.acc.kind = .write → exec (.peerAcknowledgement id v false) s = .next (s.answerOut q v)) ∧
        (∀ a, q.acc.kind = .amo a →
          exec (.peerAcknowledgement id v false) s = .next (s.answerOut q (if mergedAway id a then 0 else v))) ∧
        exec (.peerAcknowledgement id v true) s = .next (s.refuseOut q 8))) ∧
    (∀ (p asid page frame n base pa : Nat) (e : W64) (q : Nat),
      s.findLeaf p asid (page * 2 ^ 16) = .ok (e, q, n) →
      base = alignDown (page * 2 ^ 16) (2 ^ n) → pa = alignDown (frame * 2 ^ 16) (2 ^ n) → leafPin e = false →
      s.paReserved p pa = false → (paHost pa = true → bit (s.part p).hostwin 0 = true) → leafMig e = true →
      s.rangeFree asid base (2 ^ n) = true → s.splicing p asid base = false →
      ∃ t, exec (.splice p asid page frame) s = .next t ∧ t.run.busRead = w64 (2 ^ n) ∧ t.mem = s.mem ∧ t.ctxs = s.ctxs ∧
        t.parts = s.parts ∧ ∃ g : EngOp, t.work.engs = s.work.engs ++ [g] ∧ g.kind = .splice ∧ g.asid = asid ∧
          g.pieces = piecesOf false .l2 0 base (2 ^ n) 0 1
            ++ piecesOf true .l2 0 pa (2 ^ n) 0 ((piecesOf false .l2 0 base (2 ^ n) 0 1).length + 1) ∧
          g.ctr = some (.l2, s.run.subj.a, 2 ^ n))

/-- The directory (R112 to R116, R123): a request that has its turn at its home is served, unless its cluster's scratch
ways change; an eviction is acknowledged, a sharer's copy unlinked, an owner's dirty data taken in; a walk of a sharer
list leaves each copy I and ends at the home; a probe is served, or queued behind a lease. -/
def Obligations.DirectoryEvents : Prop :=
  ∀ s : State,
    (∀ r : HReq, s.homeTurn r = true → (s.part r.part).stopped = false →
      (∀ id, r.from_ = .outside id → s.req? s.run.subj.a .l2 = some r → exec .l2Access s = .next (s.serveOutside r id)) ∧
      ((∀ id, r.from_ ≠ .outside id) → (∀ e k, r.from_ ≠ .piece e k) →
      (s.req? s.run.subj.a .l2 = some r → exec .l2Access s = .next (s.serve r)) ∧
      (s.req? s.run.subj.a .mem = some r → exec .memAccess s = .next (s.serve r)) ∧
      (s.fillHeld r = false →
        (s.req? s.run.subj.a .upgrade = some r → exec .upgrade s = .next (s.serve r)) ∧
        (s.req? s.run.subj.a .getS = some r → exec .getS s = .next (s.serve r)) ∧
        (s.req? s.run.subj.a .getM = some r → exec .getM s = .next (s.serve r)))) ∧
      ((∃ e k, r.from_ = .piece e k) → s.req? s.run.subj.a .l2 = some r → exec .l2Access s = .next s) ∧
      (s.fillHeld r = true → s.req? s.run.subj.a .getS = some r → exec .getS s = .next s) ∧
      (∀ x : L1Line, s.putting? r = some x →
        (s.req? s.run.subj.a .putS = some r →
          (x.st = .s → s.listed (s.putHome r) x = true →
            exec .putS s = .next ((s.unlink (s.putHome r) x).endPut r x)) ∧
          (x.st = .i ∨ s.listed (s.putHome r) x = false → exec .putS s = .next (s.endPut r x))) ∧
        (s.req? s.run.subj.a .putO = some r →
          (x.st = .m → s.listed (s.putHome r) x = true → exec .putO s = .next
            (((s.intoL2 r.part (s.putHome r) x.asid x.line x.data x.bad).setDI (s.putHome r) x.asid x.line).endPut r x)) ∧
          (x.st = .e → s.listed (s.putHome r) x = true →
            exec .putO s = .next ((s.setDI (s.putHome r) x.asid x.line).endPut r x)) ∧
          (x.st = .i ∨ s.listed (s.putHome r) x = false → exec .putO s = .next (s.endPut r x))))) ∧
    (∀ m : CMsg, s.cmsg? s.run.subj.a = some m →
      (∀ (t : Txn) (l : L1Line), m.kind = .inv → s.txn? m.req = some t → (s.part t.req.part).stopped = false → s.l1Any? m.cluster m.asid m.line = some l →
        (l.next = 0x7FF → exec .inv s
          = .next ((s.invalidate t.req m.cluster).modMsg m.id fun y => { y with kind := .invAck })) ∧
        (l.next ≠ 0x7FF → exec .inv s
          = .next ((s.invalidate t.req m.cluster).modMsg m.id fun y => { y with cluster := l.next }))) ∧
      (∀ t : Txn, m.kind = .invAck → s.txn? m.req = some t → s.fillHeld t.req = false → (s.part t.req.part).stopped = false → exec .invAck s
        = .next ({ s with mem := { s.mem with cmsgs := s.mem.cmsgs.filter fun x => x.id ≠ m.id } }.endWalk t.req)) ∧
      (m.kind ≠ .inv → m.kind ≠ .invAck → (∀ t, s.txn? m.req = some t → s.fillHeld t.req = false ∧ (s.part t.req.part).stopped = false) →
        (s.leaseOn m.cluster m.asid m.line = none → exec .forwardedProbe s = .next (s.serveProbe m)) ∧
        (∀ e, s.leaseOn m.cluster m.asid m.line = some e →
          exec .forwardedProbe s = .next (s.modMsg m.id fun y => { y with queued := true }))))

/-- The chain and what it performs (R79, R81, R93, R121, R125, R135, R165, R244): an operation that is Next is performed;
one whose place has passed is dropped under a CHAIN record; a lease is tried when its LEASE is Next and ends with its
clock; a wait turned away is presented again when its table has room; PUBLISH changes the whole range at one point. -/
def Obligations.ChainEvents : Prop :=
  ∀ (i s : State) (o : Op) (y : Ctx),
    (MayPerform i s o y → exec .chainPerform i = .next (s.runOp o)) ∧
    (s.op? s.run.subj.a = some o → s.ctx? o.names.part o.ctx = some y → o.phase = .buffered → o.chained = true →
      y.halted = false → y.chain.stale o = true → (s.part o.names.part).stopped = false →
      exec .chainPerform s = .next ((s.raise (o.site s) { cause := 1, sub := 3 }).dropOp o.id)) ∧
    (s.op? s.run.subj.a = some o → s.ctx? o.names.part o.ctx = some y → o.phase = .parked → (s.part o.names.part).stopped = false →
      exec .chainPerform s = .next (s.retest o)) ∧
    (s.op? s.run.subj.a = some o → o.phase = .buffered → o.chained = true → s.ctx? o.names.part o.ctx = some y →
      y.halted = true → exec .chainPerform s = .next s) ∧
    ((s.part o.names.part).stopped = true → s.op? s.run.subj.a = some o → exec .chainPerform s = .next s) ∧
    (MayPerform i s o y → o.poison = false → s.members o = [o] → o.level = .l1 → o.kind = .store ∨ o.kind = .load →
      ∀ (c asid line : Nat) (l : L1Line), c = s.homeCluster o → asid = s.asidOf o.names.part o.ctx → line = o.ia / 64 →
      s.leaseOn c asid line = none → s.l1? c asid line = some l → s.leafAdmits o.names.part asid o = true →
      (o.kind = .store → l.st = .e ∨ l.st = .m) →
      exec .chainPerform i = .next ((s.touchL1 c asid line o.strm).performAt (.l1 c) o)) ∧
    (s.op? s.run.subj.a = some o → s.ctx? o.names.part o.ctx = some y → o.kind = .lease → o.phase = .buffered →
      y.takes o = true → y.halted = false → (s.part o.names.part).gated = false → (s.part o.names.part).stopped = false →
      ∀ e, e = s.entryFor o true → exec .leaseGrant s = .next ((s.enter o e).tryLease { o with entry := e })) ∧
    (∀ e : Lease, (s.mem.leases.find? fun e => e.cluster == s.run.subj.a && e.entry == s.run.subj.b) = some e →
      (e.end_ ≤ s.dev.clock → (s.part e.part).stopped = false → exec .leaseExpiry s = .next (s.endLease e true)) ∧
      (s.dev.clock < e.end_ → exec .leaseExpiry s = .next s)) ∧
    (∀ q : Op, s.op? s.run.subj.a = some o → o.phase = .turned →
      (s.work.ops.find? fun q => q.phase = .turned && q.waitTable s = o.waitTable s && !s.chainHalted q) = some q → q.id = o.id →
      (s.part o.names.part).stopped = false → s.tableRoom (o.waitTable s) = true → exec .ctrwaitRepresent s
        = .next ((s.modOp o.id fun x => { x with phase := .buffered }).startAccess { o with phase := .buffered })) ∧
    (∀ (p asid : Nat) (r : ShadowPair), s.op? s.run.subj.a = some o → o.kind = .publish → o.phase = .parked →
      p = o.names.part → (s.part p).stopped = false → asid = s.asidOf p o.ctx →
      (s.part p).shadows.find? (fun r => r.asid == asid && r.s == o.ia) = some r →
      s.rangeFree asid r.s r.size = true → s.rangeFree asid r.h r.size = true →
      ∀ xs ys, s.leavesOf p asid r.s r.size (r.size / 2 ^ 16) 0 = some xs →
      s.leavesOf p asid r.h r.size (r.size / 2 ^ 16) 0 = some ys → (∀ e ∈ xs, leafMig e.2.1 = false) →
      (∀ e ∈ ys, leafMig e.2.1 = false) →
      exec .publishPoint s = .next ((((((s.flushRange p asid r.s r.size).swapLeaves (List.zip xs ys)).dropXlat asid r.s r.size).dropXlat
        asid r.h r.size).wakeIa p asid r.s r.size).finish o o.operand))

/-- A scratch access that its context may perform (R54, R64, R133, R244, R403): a load delivers the bytes at its offset, zero in
guard granules, and is poisoned where a granule is; a store writes the bytes of its operand and an atomic those of its result, but for guard granules, and
every other byte of the scratch memories, of HBM and of the caches is unchanged; what lies outside the scratch is refused. A record
of an access to `.sg` names the cluster where it lies. -/
def Obligations.ScratchAccesses : Prop :=
  ∀ (i s : State) (o : Op) (y : Ctx) (x : Spot) (n : Nat), MayPerform i s o y → o.poison = false → o.level.cached = false →
    s.members o = [o] → x = o.spot s → n = 2 ^ o.width → s.wayBlocked x = false →
    ∀ w : Site, w = (if o.level = .sg then { o.site s with unit := x.unit, strip := clusterStrip x.unit } else o.site s) →
    (s.scratchValid o.names.part o.cluster o.level o.ia n = true →
      (o.kind = .load → s.spotSpoiled x n = false → exec .chainPerform i
        = .next ((s.noteGuards w o.level x n).finish o (o.good (leNat (s.readSpot x n))))) ∧
      (o.kind = .load → s.spotSpoiled x n = true → exec .chainPerform i
        = .next ((s.noteGuards w o.level x n).finish o o.bad)) ∧
      (∀ bs : List Byte, MemForm s →
        (o.kind = .store ∧ bs = leBytes n o.data.toNat) ∨
          (∃ a, o.kind = .amo a ∧ s.spotSpoiled x n = false ∧ bs = leBytes n (amoNew a o.fmt (leNat (s.readSpot x n)) (o.data.toNat % 2 ^ (8 * n))
            (o.data2.toNat % 2 ^ (8 * n))).1) →
        ∃ t, exec .chainPerform i = .next t ∧
          (∀ j, j < n → s.guarded (x.add j) = false → (t.bankMem x).get (x.key.2 + j) = at! bs j 0) ∧
          (∀ j, j < n → s.guarded (x.add j) = true → (t.bankMem x).get (x.key.2 + j) = (s.bankMem x).get (x.key.2 + j)) ∧
          (∀ z : Spot, z.key.1 ≠ x.key.1 ∨ z.key.2 < x.key.2 ∨ x.key.2 + n ≤ z.key.2 →
            (t.bankMem z).get z.key.2 = (s.bankMem z).get z.key.2) ∧
          t.mem.hbm = s.mem.hbm ∧ t.mem.l1 = s.mem.l1 ∧ t.mem.l2 = s.mem.l2 ∧ t.mem.full = s.mem.full)) ∧
    (s.scratchValid o.names.part o.cluster o.level o.ia n = false → o.kind = .load ∨ o.kind = .store →
      exec .chainPerform i = .next ((s.raise w { cause := 5, sub := 6, addr := o.va }).finish o o.bad))

/-- Engines, islands and messages (R142, R157, R158, R161, R171, R320, R380, R381, R385): a piece is performed, but for a
partition that Sage has stopped; the completion
counter is added to once the engine may; an island operation whose bytes have arrived takes its step; a message reserves
the next entry of its ring or is turned away; entries complete in number order; an acknowledgement ends the MSEND. -/
def Obligations.EngineAndRingEvents : Prop :=
  ∀ s : State,
    (∀ e : EngOp, s.eng? s.run.subj.a = some e → (s.part e.names.part).stopped = true →
      exec .enginePiece s = .next s ∧ exec .engineCompletionAdd s = .next s) ∧
    (∀ (e : EngOp) (x : Piece), s.eng? s.run.subj.a = some e → e.kind ≠ .sread → e.kind ≠ .swrite →
      (s.part e.names.part).stopped = false →
      e.pieces.find? (fun x => x.id == s.run.subj.b) = some x →
      exec .enginePiece s = .next ((s.performPiece e x (s.engIdent e)).engOn e.id)) ∧
    (∀ (e : EngOp) (lv : Level) (a n : Nat) (t : State), s.eng? s.run.subj.a = some e → e.ctr = some (lv, a, n) →
      s.mayAdd e = true → e.kind ≠ .copym → (s.part e.names.part).stopped = false →
      s.ctrAddNow e.names.part e.asid ((s.ctx? e.names.part e.ctx).map fun x => x.seed) e.site e.cluster lv a n (some (.piece e.id 0)) = .ok t →
      exec .engineCompletionAdd s = .next (t.endAdd e)) ∧
    (∀ (e : EngOp) (c : Channel), s.eng? s.run.subj.a = some e → s.channel? e.names = some c → s.nodeReady e = true →
      (s.part e.names.part).stopped = false →
      (e.bad = true ∨ (∃ k ∈ e.sources, k ∈ c.bad) → exec .islandStep s = .next (s.nodeSend e none)) ∧
      (e.bad = false → (∀ k ∈ e.sources, k ∉ c.bad) →
        (e.word.toNat / 2 ^ 24 ≠ 0xA0 → e.word.toNat / 2 ^ 24 ≠ 0xA1 → e.word.toNat / 2 ^ 24 ≠ 0xA2 →
          e.word.toNat / 2 ^ 24 ≠ 0xA3 → e.word.toNat / 2 ^ 24 ≠ 0xAB →
          exec .islandStep s = .next (s.stepAcc e c (e.word.toNat / 2 ^ 24))) ∧
        (e.word.toNat / 2 ^ 24 = 0xA0 → exec .islandStep s = .next (s.stepTld e)) ∧
        (e.word.toNat / 2 ^ 24 = 0xA1 → exec .islandStep s = .next (s.stepTst e c)) ∧
        (e.word.toNat / 2 ^ 24 = 0xA2 → exec .islandStep s = .next (s.stepMma e c false)) ∧
        (e.word.toNat / 2 ^ 24 = 0xA3 → exec .islandStep s = .next (s.stepMma e c true)) ∧
        (e.word.toNat / 2 ^ 24 = 0xAB → exec .islandStep s = .next (s.stepTfill e)))) ∧
    (∀ m : Msg, s.work.msgs.find? (fun m => m.id == s.run.subj.a) = some m → (s.part m.op.names.part).stopped = false →
      (m.state = .flying → s.headArrived m = true →
        (s.ringOf m = none →
          exec .messageReceive s = .next (s.settleMsg m fun x => { x with state := .nacked 1 })) ∧
        (∀ r : Ring, s.ringOf m = some r →
          (r.tag ≠ bits m.ring 15 8 ∨ r.asid ≠ m.asid ∨ r.part ≠ m.op.names.part ∨ r.closing.isSome →
            exec .messageReceive s = .next (s.settleMsg m fun x => { x with state := .nacked 1 })) ∧
          (r.tag = bits m.ring 15 8 → r.asid = m.asid → r.part = m.op.names.part → r.closing = none →
            (r.n ≤ r.rtail - r.head → exec .messageReceive s = .next s) ∧
            (r.rtail - r.head < r.n → s.msgFirst m = true → ∃ (t u : State) (e : EngOp),
              u = s.settleMsg m (fun x => { x with state := .reserved, n := r.rtail }) ∧ exec .messageReceive s = .next t ∧ t.work.engs = s.work.engs ++ [e] ∧ e.params = [1, m.id] ∧
              e.ctr = some (r.ctrLvl, r.ctrAddr, 1) ∧
              e.pieces = writePieces .cs r.cluster (r.base + 128 * (r.rtail % r.n)) (entryBytes m r.rtail) 1 ∧
              t.work.msgs = u.work.msgs ∧ t.fab = u.fab ∧
              t.work.rings = (s.modRing r.cluster r.slot fun x => { x with rtail := r.rtail + 1 }).work.rings ∧
              t.mem = s.mem ∧ t.ctxs = s.ctxs)))) ∧
      (∀ (r : Ring) (e : EngOp) (u : State), m.state = .reserved → s.ringOf m = some r → s.entryEng m.id = some e →
        e.pieces = [] → m.flits = 0 → s.pieceWaits e 0 = false → e.params = [1, m.id] →
        s.chainDone m.op.names.part m.op.ctx m.id m.op.id (m.op.scope = 0) = true →
        u = ((((s.modRing r.cluster r.slot fun x => { x with wtail := m.n + 1 }).modEng e.id fun x =>
          { x with params := [2, m.id] }).wakeRing r.cluster r.slot).drainRing r.cluster r.slot) →
        (r.wtail ≠ m.n → exec .ringEntryComplete s = .next s) ∧
        (r.wtail = m.n → e.ctr = none →
          exec .ringEntryComplete s = .next ((u.dropEng e.id).setMsg m.id fun x => { x with state := .acked })) ∧
        (∀ (lv : Level) (a n : Nat) (t : State), r.wtail = m.n → e.ctr = some (lv, a, n) →
          u.ctrAddNow e.names.part e.asid ((u.ctx? e.names.part e.ctx).map fun x => x.seed) (m.op.site u) e.cluster lv a n (some (.piece e.id 0)) = .ok t →
          exec .ringEntryComplete s = .next ((t.dropEng e.id).setMsg m.id fun x => { x with state := .acked }))) ∧
      (m.state = .acked → exec .messageAck s = .next (((s.dropMsg m.id).msgResult m.op (m.op.good m.n)).injectMsgs)) ∧
      (∀ u, m.state = .nacked u → exec .messageAck s = .next ((((s.raise { m.op.site s with unit := m.from_ }
        { cause := 10, sub := u, info := m.ring.toNat }).dropMsg m.id).msgResult m.op m.op.bad).injectMsgs)))

/-- The fabric, records and periods (R73, R187, R307, R308, R366 to R372, R398, R399, R451, R452): a token whose flits have
all arrived reaches its port; a hop is crossed and left; credits return; the first trap record whose ring has room is
written, and so is the first event of a Thyme port; windows and grants change; statistics records of one tree merge and
are applied in order. -/
def Obligations.FabricAndRecordEvents : Prop :=
  ∀ s : State,
    (∀ t : Token, s.fab.net.find? (fun t => t.id == s.run.subj.a) = some t → (s.part t.dest.part).stopped = false →
      (t.flits = 0 → exec .tokenArrival s = .next (s.arrive t)) ∧
      (t.flits ≠ 0 → (s.packet? t.id).isSome = true → exec .tokenArrival s = .next s) ∧
      (t.flits ≠ 0 → s.packet? t.id = none →
        exec .tokenArrival s = .next ((s.ejectToken t).arrive { t with flits := 0 }))) ∧
    ((∀ h, s.fab.hops[s.run.subj.a]? = some h → (s.part h.part).stopped = false) →
      (s.run.subj.b = 0 → exec .flitCross s = .next (s.crossHop s.run.subj.a)) ∧
      (s.run.subj.b ≠ 0 → exec .flitCross s = .next (s.ejectHop s.run.subj.a))) ∧
    (∀ h, s.fab.hops[s.run.subj.a]? = some h → (s.part h.part).stopped = true → exec .flitCross s = .next s) ∧
    (∀ (k : Nat) (h : Hop), k = s.run.subj.a → s.fab.hops[k]? = some h → ∃ t, exec .creditReturn s = .next t ∧
      t.fab.hops[k]? = some { h with owed := h.owed - 1, owed0 := false, owed1 := false } ∧
      (∀ j, j ≠ k → t.fab.hops[j]? = s.fab.hops[j]?) ∧
      t.fab.net = s.fab.net ∧ t.fab.slots = s.fab.slots ∧ t.mem = s.mem ∧ t.work = s.work ∧ t.ctxs = s.ctxs) ∧
    (∀ (r : TrapRec) (pa : Nat), s.dev.traps.find? (fun r => r.part == s.run.subj.a
        && ((s.part s.run.subj.a).trapSlot r.ring).isSome) = some r →
      (s.part s.run.subj.a).trapSlot r.ring = some pa → exec .trapRecordWrite s = .next (s.writeTrap r pa)) ∧
    (∀ (k : Nat) (t : Thyme) (e : ThymeEvt) (q : List ThymeEvt), k = s.run.subj.a → s.dev.thyme[k]? = some t →
      t.queue = e :: q → ∃ u v, exec .thymeEventWrite s = .next u ∧ u.dev.thyme[k]? = some v ∧
        v.queue = q ∧ v.count = t.count + 1 ∧ v.events = t.events.set (t.count % 4096) { e with w0 := w64 s.dev.clock } ∧
        (∀ j, j ≠ k → u.dev.thyme[j]? = s.dev.thyme[j]?) ∧ u.mem = s.mem ∧ u.parts = s.parts ∧ u.ctxs = s.ctxs) ∧
    ((s.part s.run.subj.a).live = true →
      exec .qosWindowEnd s = .next (s.modPart s.run.subj.a fun x => { x with frac := x.nextFrac, lat := [] })) ∧
    (∀ gs : List Nat, gs.length = 16 →
      (∀ st, st < 16 → stripPresent s.dev.devid st = true → 8 ≤ at! gs st 0 ∧ at! gs st 0 ≤ 64) →
      exec (.powerPeriod gs) s = .next { s with dev := { s.dev with
        grants := (upto 16).map fun st => if stripPresent s.dev.devid st then at! gs st 0 else 0 } }) ∧
    (∀ (i j : Nat) (a b r : StatRec) (m z : List StatRec), i = s.run.subj.a → j = s.run.subj.b →
      s.ldr.stats = s.ldr.stats.take i ++ a :: (m ++ b :: z) → i + m.length + 1 = j → i ≤ s.ldr.stats.length →
      (s.part a.part).stopped = false → a.joins b = true → (∀ x ∈ m, a.sameTree x = false) → a.merge b = some r →
      exec .statRecordMerge s
        = .next { s with ldr := { s.ldr with stats := s.ldr.stats.take i ++ r :: (m ++ z) } }) ∧
    (∀ (k : Nat) (r : StatRec) (ia : Nat) (t : State), k = s.run.subj.a → s.ldr.stats[k]? = some r →
      (s.part r.part).stopped = false → (∀ x ∈ s.ldr.stats.take k, r.sameTree x = false) → r.va % 64 = 0 → r.ia = some ia →
      s.statAdds r ia (s.homeFor r.part r.asid (ia / 64) ((s.ctx? r.part r.ctx).map fun x => x.seed))
        ((s.ctx? r.part r.ctx).map fun x => x.seed) (r.adds (leNat (s.peek r.part r.asid (ia + 32) 8))) = some t →
      exec .statRecordApply s = .next { t with ldr := { t.ldr with
        stats := t.ldr.stats.take k ++ t.ldr.stats.drop (k + 1) } })
end

