-- ==== Sys2Proof/Laws/State.lean ====
section
/-! SUPPORT. What each update of State.lean's fields leaves in each field: one lemma for each, true by
unfolding, so that no proof opens a record update. -/

namespace Sys2Proof.Machine

variable (s : State)

/-! ### setPart -/

@[simp] theorem State.setPart_dev (p : Nat) (x : Part) : (s.setPart p x).dev = s.dev := rfl
@[simp] theorem State.setPart_parts (p : Nat) (x : Part) : (s.setPart p x).parts = setAt s.parts p x := rfl
@[simp] theorem State.setPart_ctxs (p : Nat) (x : Part) : (s.setPart p x).ctxs = s.ctxs := rfl
@[simp] theorem State.setPart_fab (p : Nat) (x : Part) : (s.setPart p x).fab = s.fab := rfl
@[simp] theorem State.setPart_mem (p : Nat) (x : Part) : (s.setPart p x).mem = s.mem := rfl
@[simp] theorem State.setPart_work (p : Nat) (x : Part) : (s.setPart p x).work = s.work := rfl
@[simp] theorem State.setPart_ldr (p : Nat) (x : Part) : (s.setPart p x).ldr = s.ldr := rfl
@[simp] theorem State.setPart_run (p : Nat) (x : Part) : (s.setPart p x).run = s.run := rfl

/-! ### modPart -/

@[simp] theorem State.modPart_dev (p : Nat) (f : Part → Part) : (s.modPart p f).dev = s.dev := rfl
@[simp] theorem State.modPart_parts (p : Nat) (f : Part → Part) : (s.modPart p f).parts = setAt s.parts p (f (s.part p)) := rfl
@[simp] theorem State.modPart_ctxs (p : Nat) (f : Part → Part) : (s.modPart p f).ctxs = s.ctxs := rfl
@[simp] theorem State.modPart_fab (p : Nat) (f : Part → Part) : (s.modPart p f).fab = s.fab := rfl
@[simp] theorem State.modPart_mem (p : Nat) (f : Part → Part) : (s.modPart p f).mem = s.mem := rfl
@[simp] theorem State.modPart_work (p : Nat) (f : Part → Part) : (s.modPart p f).work = s.work := rfl
@[simp] theorem State.modPart_ldr (p : Nat) (f : Part → Part) : (s.modPart p f).ldr = s.ldr := rfl
@[simp] theorem State.modPart_run (p : Nat) (f : Part → Part) : (s.modPart p f).run = s.run := rfl

/-! ### modCtx -/

@[simp] theorem State.modCtx_dev (p c : Nat) (f : Ctx → Ctx) : (s.modCtx p c f).dev = s.dev := rfl
@[simp] theorem State.modCtx_parts (p c : Nat) (f : Ctx → Ctx) : (s.modCtx p c f).parts = s.parts := rfl
@[simp] theorem State.modCtx_ctxs (p c : Nat) (f : Ctx → Ctx) : (s.modCtx p c f).ctxs = modFirst (fun x => x.part == p && x.id == c && x.live) f s.ctxs := rfl
@[simp] theorem State.modCtx_fab (p c : Nat) (f : Ctx → Ctx) : (s.modCtx p c f).fab = s.fab := rfl
@[simp] theorem State.modCtx_mem (p c : Nat) (f : Ctx → Ctx) : (s.modCtx p c f).mem = s.mem := rfl
@[simp] theorem State.modCtx_work (p c : Nat) (f : Ctx → Ctx) : (s.modCtx p c f).work = s.work := rfl
@[simp] theorem State.modCtx_ldr (p c : Nat) (f : Ctx → Ctx) : (s.modCtx p c f).ldr = s.ldr := rfl
@[simp] theorem State.modCtx_run (p c : Nat) (f : Ctx → Ctx) : (s.modCtx p c f).run = s.run := rfl

/-! ### setSlot -/

@[simp] theorem State.setSlot_dev (c e i : Nat) (v : Slot) : (s.setSlot c e i v).dev = s.dev := rfl
@[simp] theorem State.setSlot_parts (c e i : Nat) (v : Slot) : (s.setSlot c e i v).parts = s.parts := rfl
@[simp] theorem State.setSlot_ctxs (c e i : Nat) (v : Slot) : (s.setSlot c e i v).ctxs = s.ctxs := rfl
@[simp] theorem State.setSlot_fab (c e i : Nat) (v : Slot) : (s.setSlot c e i v).fab = { s.fab with slots := s.fab.slots.set (c, e, i) v } := rfl
@[simp] theorem State.setSlot_mem (c e i : Nat) (v : Slot) : (s.setSlot c e i v).mem = s.mem := rfl
@[simp] theorem State.setSlot_work (c e i : Nat) (v : Slot) : (s.setSlot c e i v).work = s.work := rfl
@[simp] theorem State.setSlot_ldr (c e i : Nat) (v : Slot) : (s.setSlot c e i v).ldr = s.ldr := rfl
@[simp] theorem State.setSlot_run (c e i : Nat) (v : Slot) : (s.setSlot c e i v).run = s.run := rfl

/-! ### modElem -/

@[simp] theorem State.modElem_dev (c e : Nat) (f : ElemState → ElemState) : (s.modElem c e f).dev = s.dev := rfl
@[simp] theorem State.modElem_parts (c e : Nat) (f : ElemState → ElemState) : (s.modElem c e f).parts = s.parts := rfl
@[simp] theorem State.modElem_ctxs (c e : Nat) (f : ElemState → ElemState) : (s.modElem c e f).ctxs = s.ctxs := rfl
@[simp] theorem State.modElem_fab (c e : Nat) (f : ElemState → ElemState) : (s.modElem c e f).fab = { s.fab with elems := s.fab.elems.set (c, e) (f (s.elem c e)) } := rfl
@[simp] theorem State.modElem_mem (c e : Nat) (f : ElemState → ElemState) : (s.modElem c e f).mem = s.mem := rfl
@[simp] theorem State.modElem_work (c e : Nat) (f : ElemState → ElemState) : (s.modElem c e f).work = s.work := rfl
@[simp] theorem State.modElem_ldr (c e : Nat) (f : ElemState → ElemState) : (s.modElem c e f).ldr = s.ldr := rfl
@[simp] theorem State.modElem_run (c e : Nat) (f : ElemState → ElemState) : (s.modElem c e f).run = s.run := rfl

/-! ### modCtr -/

@[simp] theorem State.modCtr_dev (c : Nat) (f : ClusterCtr → ClusterCtr) : (s.modCtr c f).dev = s.dev := rfl
@[simp] theorem State.modCtr_parts (c : Nat) (f : ClusterCtr → ClusterCtr) : (s.modCtr c f).parts = s.parts := rfl
@[simp] theorem State.modCtr_ctxs (c : Nat) (f : ClusterCtr → ClusterCtr) : (s.modCtr c f).ctxs = s.ctxs := rfl
@[simp] theorem State.modCtr_fab (c : Nat) (f : ClusterCtr → ClusterCtr) : (s.modCtr c f).fab = { s.fab with ctrs := s.fab.ctrs.set c (f (s.ctr c)) } := rfl
@[simp] theorem State.modCtr_mem (c : Nat) (f : ClusterCtr → ClusterCtr) : (s.modCtr c f).mem = s.mem := rfl
@[simp] theorem State.modCtr_work (c : Nat) (f : ClusterCtr → ClusterCtr) : (s.modCtr c f).work = s.work := rfl
@[simp] theorem State.modCtr_ldr (c : Nat) (f : ClusterCtr → ClusterCtr) : (s.modCtr c f).ldr = s.ldr := rfl
@[simp] theorem State.modCtr_run (c : Nat) (f : ClusterCtr → ClusterCtr) : (s.modCtr c f).run = s.run := rfl

/-! ### modSection -/

@[simp] theorem State.modSection_dev (p l : Nat) (f : Section → Section) : (s.modSection p l f).dev = s.dev := rfl
@[simp] theorem State.modSection_parts (p l : Nat) (f : Section → Section) : (s.modSection p l f).parts = s.parts := rfl
@[simp] theorem State.modSection_ctxs (p l : Nat) (f : Section → Section) : (s.modSection p l f).ctxs = s.ctxs := rfl
@[simp] theorem State.modSection_fab (p l : Nat) (f : Section → Section) : (s.modSection p l f).fab = s.fab := rfl
@[simp] theorem State.modSection_mem (p l : Nat) (f : Section → Section) : (s.modSection p l f).mem = s.mem := rfl
@[simp] theorem State.modSection_work (p l : Nat) (f : Section → Section) : (s.modSection p l f).work = s.work := rfl
@[simp] theorem State.modSection_ldr (p l : Nat) (f : Section → Section) : (s.modSection p l f).ldr = { s.ldr with sections := modFirst (fun x => x.part == p && x.lsec == l) f s.ldr.sections } := rfl
@[simp] theorem State.modSection_run (p l : Nat) (f : Section → Section) : (s.modSection p l f).run = s.run := rfl

/-! ### pushTrap -/

@[simp] theorem State.pushTrap_dev (r : TrapRec) : (s.pushTrap r).dev = { s.dev with traps := s.dev.traps ++ [r] } := rfl
@[simp] theorem State.pushTrap_parts (r : TrapRec) : (s.pushTrap r).parts = s.parts := rfl
@[simp] theorem State.pushTrap_ctxs (r : TrapRec) : (s.pushTrap r).ctxs = s.ctxs := rfl
@[simp] theorem State.pushTrap_fab (r : TrapRec) : (s.pushTrap r).fab = s.fab := rfl
@[simp] theorem State.pushTrap_mem (r : TrapRec) : (s.pushTrap r).mem = s.mem := rfl
@[simp] theorem State.pushTrap_work (r : TrapRec) : (s.pushTrap r).work = s.work := rfl
@[simp] theorem State.pushTrap_ldr (r : TrapRec) : (s.pushTrap r).ldr = s.ldr := rfl
@[simp] theorem State.pushTrap_run (r : TrapRec) : (s.pushTrap r).run = s.run := rfl

/-! ### raise -/

@[simp] theorem State.raise_dev (w : Site) (t : Trap) : (s.raise w t).dev = { s.dev with traps := s.dev.traps ++ [trapRecord w t t.ring] } := rfl
@[simp] theorem State.raise_parts (w : Site) (t : Trap) : (s.raise w t).parts = s.parts := rfl
@[simp] theorem State.raise_ctxs (w : Site) (t : Trap) : (s.raise w t).ctxs = s.ctxs := rfl
@[simp] theorem State.raise_fab (w : Site) (t : Trap) : (s.raise w t).fab = s.fab := rfl
@[simp] theorem State.raise_mem (w : Site) (t : Trap) : (s.raise w t).mem = s.mem := rfl
@[simp] theorem State.raise_work (w : Site) (t : Trap) : (s.raise w t).work = s.work := rfl
@[simp] theorem State.raise_ldr (w : Site) (t : Trap) : (s.raise w t).ldr = s.ldr := rfl
@[simp] theorem State.raise_run (w : Site) (t : Trap) : (s.raise w t).run = s.run := rfl

/-! ### halt -/

@[simp] theorem State.halt_dev (p c : Nat) : (s.halt p c).dev = s.dev := rfl
@[simp] theorem State.halt_parts (p c : Nat) : (s.halt p c).parts = s.parts := rfl
@[simp] theorem State.halt_ctxs (p c : Nat) : (s.halt p c).ctxs = modFirst (fun x => x.part == p && x.id == c && x.live) (fun x => { x with halted := true }) s.ctxs := rfl
@[simp] theorem State.halt_fab (p c : Nat) : (s.halt p c).fab = s.fab := rfl
@[simp] theorem State.halt_mem (p c : Nat) : (s.halt p c).mem = s.mem := rfl
@[simp] theorem State.halt_work (p c : Nat) : (s.halt p c).work = s.work := rfl
@[simp] theorem State.halt_ldr (p c : Nat) : (s.halt p c).ldr = s.ldr := rfl
@[simp] theorem State.halt_run (p c : Nat) : (s.halt p c).run = s.run := rfl

/-! ### newId and draw -/

@[simp] theorem State.newId_dev : (s.newId).2.dev = s.dev := rfl
@[simp] theorem State.newId_parts : (s.newId).2.parts = s.parts := rfl
@[simp] theorem State.newId_ctxs : (s.newId).2.ctxs = s.ctxs := rfl
@[simp] theorem State.newId_fab : (s.newId).2.fab = s.fab := rfl
@[simp] theorem State.newId_mem : (s.newId).2.mem = s.mem := rfl
@[simp] theorem State.newId_work : (s.newId).2.work = s.work := rfl
@[simp] theorem State.newId_ldr : (s.newId).2.ldr = s.ldr := rfl
@[simp] theorem State.newId_run : (s.newId).2.run = { s.run with nextId := s.run.nextId + 1 } := rfl

@[simp] theorem State.draw_dev (n : Nat) : (s.draw n).2.dev = s.dev := rfl
@[simp] theorem State.draw_parts (n : Nat) : (s.draw n).2.parts = s.parts := rfl
@[simp] theorem State.draw_ctxs (n : Nat) : (s.draw n).2.ctxs = s.ctxs := rfl
@[simp] theorem State.draw_fab (n : Nat) : (s.draw n).2.fab = s.fab := rfl
@[simp] theorem State.draw_mem (n : Nat) : (s.draw n).2.mem = s.mem := rfl
@[simp] theorem State.draw_work (n : Nat) : (s.draw n).2.work = s.work := rfl
@[simp] theorem State.draw_ldr (n : Nat) : (s.draw n).2.ldr = s.ldr := rfl
@[simp] theorem State.draw_run (n : Nat) : (s.draw n).2.run = { s.run with fresh := s.run.fresh + 1 } := rfl

@[simp] theorem State.newId_fst : s.newId.1 = s.run.nextId := rfl

/-! ### What an update of one part leaves of another -/

theorem State.part_eq {s t : State} (h : t.parts = s.parts) (p : Nat) : t.part p = s.part p := by
  simp [State.part, h]
theorem State.ctx?_eq {s t : State} (h : t.ctxs = s.ctxs) (p c : Nat) : t.ctx? p c = s.ctx? p c := by
  simp [State.ctx?, h]
theorem State.section?_eq {s t : State} (h : t.ldr = s.ldr) (p l : Nat) : t.section? p l = s.section? p l := by
  simp [State.section?, h]
theorem State.asidOf_eq {s t : State} (h : t.ctxs = s.ctxs) (p c : Nat) : t.asidOf p c = s.asidOf p c := by
  simp [State.asidOf, State.ctx?, h]

end Sys2Proof.Machine
end

