-- ==== Sys2Proof/Laws/Operands.lean ====
section
/-! SUPPORT. What operands are, what the OR of no flag does, and what a firing presents: one lemma for each shared
operation that words of elements use (R189 to R192, R268, R82, R247). -/

namespace Sys2Proof.Machine

/-! ### Lists -/

@[simp] theorem length_padTo (n : Nat) (xs : List Nat) : (padTo n xs).length = n := by simp [padTo, upto]

theorem at!_eq_getD {α : Type} (xs : List α) (i : Nat) (d : α) : at! xs i d = xs.getD i d := by
  induction xs generalizing i with
  | nil => simp [at!]
  | cons x r ih =>
    cases i with
    | zero => simp [at!]
    | succ i => simpa [at!] using ih i

theorem at!_map_upto {α : Type} (g : Nat → α) (n j : Nat) (d : α) (h : j < n) : at! ((upto n).map g) j d = g j := by
  rw [at!_eq_getD]
  simp [upto, h]

/-- A list of `n` elements is the list of its elements. -/
theorem eq_upto {α : Type} (xs : List α) (d : α) (n : Nat) (h : xs.length = n) : xs = (upto n).map fun j => at! xs j d := by
  subst h
  apply List.ext_getElem
  · simp [upto]
  · intro i h1 h2
    simp [upto, at!_eq_getD, h1]

/-- A map over a list of `n` elements, element by element. -/
theorem map_upto {α β : Type} (g : α → β) (xs : List α) (d : α) (n : Nat) (h : xs.length = n) :
    xs.map g = (upto n).map fun j => g (at! xs j d) := by
  conv_lhs => rw [eq_upto xs d n h]
  simp

/-- A pairing of two lists of `n` elements, element by element. -/
theorem zipWith_upto {α β γ : Type} (g : α → β → γ) (xs : List α) (ys : List β) (d : α) (e : β) (n : Nat)
    (h : xs.length = n) (k : ys.length = n) :
    List.zipWith g xs ys = (upto n).map fun j => g (at! xs j d) (at! ys j e) := by
  conv_lhs => rw [eq_upto xs d n h, eq_upto ys e n k]
  simp [List.zipWith_map, List.zipWith_self]

/-! ### Sources (R189, R192) -/

variable (s : State)

theorem length_wideIn {f : Fmt} {n : Nat} {v : W64} {xs : List Nat} (h : wideIn f n v = some xs) : xs.length = n := by
  unfold wideIn at h
  split at h <;> simp_all [upto] <;> subst h <;> simp

theorem length_numIn {f : Fmt} {vs xs : List Nat} (h : numIn f vs = some xs) : xs.length = vs.length := by
  unfold numIn at h
  split at h <;> simp_all
  subst h
  simp

/-- A source delivers one element for each wave of the firing. -/
theorem length_source {fr : Firing} {sel : Nat} {f : Fmt} {xs : List Nat} (h : s.source fr sel f = some xs) :
    xs.length = fr.run := by
  unfold State.source at h
  simp only at h
  split at h
  · cases hc : constIn f sel <;> simp_all
    subst h
    simp
  split at h
  · split at h
    · split at h <;> simp_all
      subst h
      simp
    · simp at h
  split at h
  · exact length_wideIn h
  split at h
  · simpa [upto] using length_numIn h
  split at h
  · simpa using length_numIn h
  split at h
  · simpa using length_numIn h
  split at h
  · simpa using length_numIn h
  split at h
  · exact length_wideIn h
  · simp at h

theorem length_ownSource {fr : Firing} {sel w : Nat} {xs : List Nat} (h : s.ownSource fr sel = some (xs, w)) :
    xs.length = fr.run := by
  unfold State.ownSource at h
  split at h
  · split at h
    · simp only [Option.some.injEq, Prod.mk.injEq] at h
      rw [← h.1]
      simp
    · simp at h
  · cases hs : s.source fr sel .i64 with
    | none => simp [hs] at h
    | some v =>
      simp only [hs, Option.map_some, Option.some.injEq, Prod.mk.injEq] at h
      exact h.1 ▸ length_source s hs

/-! ### Flags (R268, R269) -/

theorem modFirst_same {α : Type} (p : α → Bool) (f : α → α) (h : ∀ x, f x = x) (l : List α) : modFirst p f l = l := by
  induction l with
  | nil => rfl
  | cons a l ih => simp [modFirst, h, ih]

/-- A firing that sets no flag leaves every context as it is. -/
theorem orFlags_none (p c : Nat) : s.orFlags p c fNone = s := by
  have : (modFirst (fun x => x.part == p && x.id == c && x.live)
      (fun x : Ctx => { x with flags := x.flags ||| fNone }) s.ctxs) = s.ctxs := by
    apply modFirst_same
    intro x
    simp [fNone]
  simp only [State.orFlags, State.modCtx, this]

theorem orFlags_nones (l : List FpFlags) (h : ∀ x ∈ l, x = fNone) : orFlags l = fNone := by
  have key : ∀ l : List FpFlags, (∀ x ∈ l, x = fNone) → l.foldl (· ||| ·) fNone = fNone := by
    intro l
    induction l with
    | nil => intro _; rfl
    | cons a l ih =>
      intro h
      rw [List.foldl_cons, h a (by simp)]
      exact ih fun x hx => h x (by simp [hx])
  exact key l h

/-! ### A computing firing (R190, R192, R195) -/

/-- What a computing firing answers: nothing poisoned, every format taken, its flags and its result. -/
theorem compute_sends {f : Fields} {c : Bool} {out : Fmt → Option Fmt} {o : Fmt} {vs : List Nat} {fl : FpFlags}
    {body : Firing → Fmt → Option (List Nat × FpFlags)} (hp : s.run.cur.poisonOf f c = false)
    (hq : s.run.cur.predOk f = true) (ho : out (s.run.cur.fmtOf f) = some o)
    (hb : body s.run.cur (s.run.cur.fmtOf f) = some (vs, fl)) :
    s.compute f c out body
      = (s.orFlags s.run.cur.names.part s.run.cur.ctx fl).sendTo s.run.cur f.ta.toNat f.da.toNat
          (s.run.cur.res f o vs) := by
  simp [State.compute, hp, hq, ho, hb]

/-! ### What a firing presents (R82, R247) -/

/-- Asks that all pass their checks change nothing but their addresses, and raise nothing. -/
theorem checkAsks_ok (fr : Firing) (need : Need) (as : List Ask) (ia : Nat → Nat) :
    ∀ j, (∀ k (h : k < as.length), (as[k]).dead = false ∧ (as[k]).kind ≠ .nop ∧
        s.issueCheck fr ((levelOf (litLevel fr.slot.lit)).getD .l1) (as[k]).va (2 ^ (as[k]).width) need = .ok (ia (j + k))) →
      s.checkAsks fr need j as = (as.mapIdx fun k a => { a with ia := ia (j + k) }, s) := by
  induction as with
  | nil => intro j _; rfl
  | cons a as ih =>
    intro j h
    obtain ⟨h1, h2, h3⟩ := h 0 (by simp)
    simp only [List.getElem_cons_zero, Nat.add_zero] at h1 h2 h3
    have h' : s.checkAsks fr need (j + 1) as = (as.mapIdx fun k a => { a with ia := ia (j + 1 + k) }, s) := by
      apply ih
      intro k hk
      have := h (k + 1) (by simpa using hk)
      simpa [Nat.add_assoc, Nat.add_comm 1 k] using this
    simp [State.checkAsks, State.checkAsk, h1, h2, h3, h', List.mapIdx_cons, Nat.add_assoc, Nat.add_comm 1]

/-- Chained operations wait in the home store buffer: none of them leaves as it is presented (R81). -/
theorem launchOps_chained (os : List Op) (h : ∀ o ∈ os, o.chained = true) : s.launchOps os = s := by
  induction os with
  | nil => rfl
  | cons o os ih =>
    have ho := h o (by simp)
    simp only [State.launchOps, List.foldl_cons, State.launchOp, ho, Bool.true_or, if_true]
    exact ih fun x hx => h x (by simp [hx])

theorem mkOps_chained (fr : Firing) (op gid : Nat) (ht : opTriple op = true) (hc : litThis fr.slot.lit ≠ 0xFE)
    (as : List Ask) :
    ∀ id j, ∀ o ∈ mkOps s fr op gid id j as, o.chained = true := by
  induction as with
  | nil => intro id j o ho; simp [mkOps] at ho
  | cons a as ih =>
    intro id j o ho
    simp only [mkOps, List.mem_cons] at ho
    rcases ho with rfl | ho
    · simpa [mkOp, Op.chained, ht] using hc
    · exact ih _ _ o ho

theorem length_mkOps (fr : Firing) (op gid : Nat) (as : List Ask) : ∀ id j, (mkOps s fr op gid id j as).length = as.length := by
  induction as with
  | nil => intro id j; rfl
  | cons a as ih => intro id j; simp [mkOps, ih]

/-- The operation that a firing presents for its element `k`. -/
theorem getElem_mkOps (fr : Firing) (op gid : Nat) (as : List Ask) :
    ∀ id j k (h : k < (mkOps s fr op gid id j as).length) (h' : k < as.length),
      (mkOps s fr op gid id j as)[k] = mkOp s fr op gid (id + k) (j + k) as[k] := by
  induction as with
  | nil => intro id j k h h'; simp at h'
  | cons a as ih =>
    intro id j k h h'
    cases k with
    | zero => simp [mkOps]
    | succ k =>
      simp only [mkOps, List.getElem_cons_succ]
      rw [ih]
      · congr 1 <;> omega
      · simpa using h'

end Sys2Proof.Machine
end

