-- ==== Sys2Proof/Laws/Element.lean ====
section
/-! SUPPORT. What the shared shapes of element-by-element words answer, in the terms of Safety (R190, R192, R195, R269):
one operand, two, three, and a second one with a format of its own. -/

namespace Sys2Proof.Machine

variable {s : State} {f : Fields} {fm o : Fmt} {a b c : List Nat} {w : Nat} {out : Fmt → Option Fmt}

/-- The OR of the flags and the result of a list of elements. -/
theorem computed {rc : Bool} {body : Firing → Fmt → Option (List Nat × FpFlags)} (hc : Clean s f rc)
    (hf : s.run.cur.fmtOf f = fm) (ho : out fm = some o) {r : Nat → Nat × FpFlags}
    (hb : body s.run.cur fm = some ((upto s.run.cur.run).map fun j => (r j).1,
      orFlags ((upto s.run.cur.run).map fun j => (r j).2))) :
    s.compute f rc out body
      = (s.orFlags s.run.cur.names.part s.run.cur.ctx (orFlags ((upto s.run.cur.run).map fun j => (r j).2))).sendTo
          s.run.cur f.ta.toNat f.da.toNat (elemRes s f o fun j => (r j).1) := by
  rw [compute_sends s hc.good hc.pred (by rw [hf]; exact ho) (by rw [hf]; exact hb)]
  congr 1
  simp [Firing.res, elemRes]

/-- The same where no element has a flag. -/
theorem computed_exact {rc : Bool} {body : Firing → Fmt → Option (List Nat × FpFlags)} (hc : Clean s f rc)
    (hf : s.run.cur.fmtOf f = fm) (ho : out fm = some o) {h : Nat → Nat}
    (hb : body s.run.cur fm = some ((upto s.run.cur.run).map h, fNone)) :
    s.compute f rc out body = s.sendTo s.run.cur f.ta.toNat f.da.toNat (elemRes s f o h) := by
  rw [compute_sends s hc.good hc.pred (by rw [hf]; exact ho) (by rw [hf]; exact hb), orFlags_none]
  congr 1
  simp [Firing.res, elemRes]

theorem each1_sends {g : Fmt → Nat → Nat × FpFlags} (r : Reads1 s f fm a) (ho : out fm = some o) :
    s.each1 f out g
      = (s.orFlags s.run.cur.names.part s.run.cur.ctx
          (orFlags ((upto s.run.cur.run).map fun j => (g fm (el a j)).2))).sendTo
          s.run.cur f.ta.toNat f.da.toNat (elemRes s f o fun j => (g fm (el a j)).1) :=
  computed r.toClean r.fmt ho (by
    simp only [r.srcA, map_upto (g fm) a 0 _ (length_source s r.srcA), List.map_map]; rfl)

theorem each2_sends {g : Fmt → Nat → Nat → Nat × FpFlags} (r : Reads2 s f fm a b) (ho : out fm = some o) :
    s.each2 f out g
      = (s.orFlags s.run.cur.names.part s.run.cur.ctx
          (orFlags ((upto s.run.cur.run).map fun j => (g fm (el a j) (el b j)).2))).sendTo
          s.run.cur f.ta.toNat f.da.toNat (elemRes s f o fun j => (g fm (el a j) (el b j)).1) :=
  computed r.toClean r.fmt ho (by
    simp only [r.srcA, r.srcB, List.map_map,
      zipWith_upto (g fm) a b 0 0 _ (length_source s r.srcA) (length_source s r.srcB)]; rfl)

theorem each3_sends {g : Fmt → Nat → Nat → Nat → Nat × FpFlags} (r : Reads3 s f fm a b c) (ho : out fm = some o) :
    s.each3 f out g
      = (s.orFlags s.run.cur.names.part s.run.cur.ctx
          (orFlags ((upto s.run.cur.run).map fun j => (g fm (el a j) (el b j) (el c j)).2))).sendTo
          s.run.cur f.ta.toNat f.da.toNat (elemRes s f o fun j => (g fm (el a j) (el b j) (el c j)).1) := by
  have la := length_source s r.srcA
  have lb := length_source s r.srcB
  have lc := length_source s r.srcC
  have hz : List.zip b c = (upto s.run.cur.run).map fun j => (el b j, el c j) := by
    rw [List.zip, zipWith_upto _ b c 0 0 _ lb lc]
  have key : List.zipWith (fun x (h : Nat × Nat) => g fm x h.1 h.2) a (List.zip b c)
      = (upto s.run.cur.run).map fun j => g fm (el a j) (el b j) (el c j) := by
    rw [hz, zipWith_upto _ a _ 0 (0, 0) _ la (by simp [upto])]
    apply List.map_congr_left
    intro j hj
    have : j < s.run.cur.run := by simpa [upto] using hj
    rw [at!_map_upto _ _ _ _ this]
  exact computed r.toClean r.fmt ho (by simp only [r.srcA, r.srcB, r.srcC, key, List.map_map]; rfl)

/-- An exact word of one operand. -/
theorem each1_exact {g : Fmt → Nat → Nat × FpFlags} {h : Nat → Nat} (r : Reads1 s f fm a) (ho : out fm = some o)
    (hg : ∀ j, g fm (el a j) = (h j, fNone)) :
    s.each1 f out g = s.sendTo s.run.cur f.ta.toNat f.da.toNat (elemRes s f o h) := by
  rw [each1_sends r ho, orFlags_nones _ (by simp [hg]), orFlags_none]
  simp [hg]

/-- An exact word of two operands. -/
theorem each2_exact {g : Fmt → Nat → Nat → Nat × FpFlags} {h : Nat → Nat} (r : Reads2 s f fm a b) (ho : out fm = some o)
    (hg : ∀ j, g fm (el a j) (el b j) = (h j, fNone)) :
    s.each2 f out g = s.sendTo s.run.cur f.ta.toNat f.da.toNat (elemRes s f o h) := by
  rw [each2_sends r ho, orFlags_nones _ (by simp [hg]), orFlags_none]
  simp [hg]

/-- An exact word of three operands. -/
theorem each3_exact {g : Fmt → Nat → Nat → Nat → Nat × FpFlags} {h : Nat → Nat} (r : Reads3 s f fm a b c)
    (ho : out fm = some o) (hg : ∀ j, g fm (el a j) (el b j) (el c j) = (h j, fNone)) :
    s.each3 f out g = s.sendTo s.run.cur f.ta.toNat f.da.toNat (elemRes s f o h) := by
  rw [each3_sends r ho, orFlags_nones _ (by simp [hg]), orFlags_none]
  simp [hg]

/-- A word whose second operand has a format of its own. -/
theorem eachOwn_exact {g : Fmt → Nat → Nat → Nat → Nat} (r : ReadsOwn s f fm a b w) (ho : out fm = some o) :
    s.eachOwn f out g
      = s.sendTo s.run.cur f.ta.toNat f.da.toNat (elemRes s f o fun j => g fm w (el a j) (el b j)) :=
  computed_exact r.toClean r.fmt ho (by
    simp only [r.srcA, r.own, zipWith_upto (g fm w) a b 0 0 _ (length_source s r.srcA) (length_ownSource s r.own)])

end Sys2Proof.Machine
end

