-- ==== Sys2Proof/Laws/Encoding.lean ====
section
/-! SUPPORT. The word layout of R188 taken apart and put together again, and what the loader's checks of a word say of
the fields that its encoding fixes. -/

namespace Sys2Proof

theorem fieldsOf_wordOf (op : Nat) (f : Fields) : fieldsOf (wordOf op f) = f := by
  obtain ⟨ta, sa, sb, da, db⟩ := f
  simp only [fieldsOf, wordOf, Fields.mk.injEq]
  refine ⟨?_, ?_, ?_, ?_, ?_⟩ <;>
    · apply BitVec.eq_of_getLsbD_eq
      intro i hi
      simp only [BitVec.getLsbD_extractLsb', BitVec.getLsbD_append]
      interval_cases i <;> simp

theorem opOf_wordOf (op : Nat) (f : Fields) (h : op < 256) : opOf (wordOf op f) = op := by
  have e : (wordOf op f).extractLsb' 24 8 = BitVec.ofNat 8 op := by
    apply BitVec.eq_of_getLsbD_eq
    intro i hi
    simp only [wordOf, BitVec.getLsbD_extractLsb', BitVec.getLsbD_append]
    interval_cases i <;> simp
  have k := congrArg BitVec.toNat e
  simp only [BitVec.extractLsb'_toNat, Nat.shiftRight_eq_div_pow, BitVec.toNat_ofNat] at k
  have hlt := (wordOf op f).isLt
  simp only [opOf]
  omega

/-- The fields that an encoding fixes are fixed by the loader's checks too. -/
def Fixed.fits (k : Fixed) (r : Machine.WordRule) : Bool :=
  match k with
  | .none => true
  | .db => !r.two
  | .sbDb => decide (r.sb = Machine.selN) && !r.two
  | .ports => decide (r.sa = [(0x40, 0x40)]) && decide (r.sb = [(0x41, 0x41)]) && !r.two
  | .taDb => !r.tags && !r.two
  | .taSbDb => !r.tags && decide (r.sb = Machine.selN) && !r.two
  | .saOnly => !r.tags && decide (r.sb = Machine.selN) && decide (r.da = [0]) && !r.two
  | .sb => decide (r.sb = Machine.selN)
  | .ta => !r.tags

theorem Fixed.ok_of_wordOk {op : Nat} {f : Fields} {k : Fixed} {r : Machine.WordRule} (hr : Machine.wordRule op = some r)
    (hk : k.fits r = true) (h : Machine.wordOk op f = true) : k.ok f = true := by
  simp only [Machine.wordOk, hr, Bool.and_eq_true] at h
  obtain ⟨⟨ht, hs⟩, hd⟩ := h
  simp only [Machine.tagOk, Machine.sourceOk, Machine.destOk, Bool.and_eq_true] at ht hs hd
  have sa_is (x : Nat) (h : r.sa = [(x, x)]) : f.sa.toNat = x := by
    have := hs.1.1.1.1
    simp only [h, Machine.Sel.has, List.any_cons, List.any_nil, Bool.or_false, Bool.and_eq_true, decide_eq_true_eq] at this
    omega
  have sb_is (x : Nat) (h : r.sb = [(x, x)]) : f.sb.toNat = x := by
    have := hs.1.1.1.2
    simp only [h, Machine.Sel.has, List.any_cons, List.any_nil, Bool.or_false, Bool.and_eq_true, decide_eq_true_eq] at this
    omega
  have ta_is (h : r.tags = false) : f.ta = 0 := by
    simp only [h, Bool.false_eq_true, if_false, beq_iff_eq] at ht
    exact BitVec.eq_of_toNat_eq (by simpa using ht)
  have db_is (h : r.two = false) : f.db = 0 := by
    have := hd.1.2
    simp only [h, Bool.false_eq_true, if_false, beq_iff_eq] at this
    exact BitVec.eq_of_toNat_eq (by simpa using this)
  have da_is (h : r.da = [0]) : f.da = 0 := by
    have := hd.1.1
    simp only [h, List.contains_cons, List.contains_nil, Bool.or_false, beq_iff_eq] at this
    exact BitVec.eq_of_toNat_eq (by simpa using this)
  have sb7F (h : r.sb = Machine.selN) : f.sb = 0x7F := BitVec.eq_of_toNat_eq (by simpa using sb_is 0x7F h)
  have sa40 (h : r.sa = [(0x40, 0x40)]) : f.sa = 0x40 := BitVec.eq_of_toNat_eq (by simpa using sa_is 0x40 h)
  have sb41 (h : r.sb = [(0x41, 0x41)]) : f.sb = 0x41 := BitVec.eq_of_toNat_eq (by simpa using sb_is 0x41 h)
  cases k <;>
    simp only [Fixed.fits, Bool.and_eq_true, Bool.not_eq_true', decide_eq_true_eq] at hk <;>
    simp_all [Fixed.ok]

/-- A word whose fields pass the loader's checks decodes to its instruction. -/
theorem decode_of_wordOk {op : Nat} {f : Fields} {k : Fixed} {c : Fields → Instr} {r : Machine.WordRule} (hop : op < 256)
    (hm : opcodeMap op = some (k, c)) (hr : Machine.wordRule op = some r) (hk : k.fits r = true)
    (h : Machine.wordOk op f = true) : decodeWord (wordOf op f) = .ok (c f) := by
  simp [decodeWord, opOf_wordOf op f hop, fieldsOf_wordOf, hm, Fixed.ok_of_wordOk hr hk h]

end Sys2Proof
end

