-- ==== Sys2Proof/Laws/Memory.lean ====
section
/-! SUPPORT. The laws of byte memory: every operation keeps the canonical form, a read after a write gives what was
written, and a write leaves every other byte alone. -/

namespace Sys2Proof.Machine

/-- Every address of the memory lies above `a`. -/
abbrev Memory.above (m : Memory) (a : Nat) : Prop := ∀ c ∈ m, a < c.1

theorem Memory.wf_cons (c : Host.Cell) (m : Memory) :
    Memory.wf (c :: m) = true ↔ c.2 ≠ unwritten ∧ Memory.above m c.1 ∧ Memory.wf m = true := by
  simp [Memory.wf, Memory.above, bne_iff_ne, and_assoc]

theorem Memory.get_above {m : Memory} {a : Nat} (h : Memory.above m a) : m.get a = unwritten := by
  cases m with
  | nil => rfl
  | cons c r =>
    have := h c (by simp)
    simp [Memory.get, Nat.ne_of_gt this, this]

theorem Memory.above_put {m : Memory} {x a : Nat} {b : Byte} (h : Memory.above m x) (hx : x < a) :
    Memory.above (m.put a b) x := by
  induction m with
  | nil => intro c hc; simp only [Memory.put] at hc; split at hc <;> simp_all
  | cons c r ih =>
    have hr : Memory.above r x := fun d hd => h d (by simp [hd])
    have hc := h c (by simp)
    intro d hd
    simp only [Memory.put] at hd
    split at hd
    · rcases List.mem_cons.1 hd with rfl | hd
      · exact hc
      · exact ih hr d hd
    · split at hd <;> split at hd <;> aesop

/-- A write keeps the canonical form. -/
theorem Memory.wf_put {m : Memory} (h : m.wf = true) (a : Nat) (b : Byte) : (m.put a b).wf = true := by
  induction m with
  | nil => simp only [Memory.put]; split <;> simp_all [Memory.wf]
  | cons c r ih =>
    obtain ⟨h1, h2, h3⟩ := (Memory.wf_cons c r).1 h
    simp only [Memory.put]
    split
    · exact (Memory.wf_cons _ _).2 ⟨h1, Memory.above_put h2 (by assumption), ih h3⟩
    · split
      · rename_i _ e
        split
        · exact h3
        · refine (Memory.wf_cons _ _).2 ⟨by assumption, ?_, h3⟩
          simpa [← e] using h2
      · split
        · exact h
        · refine (Memory.wf_cons _ _).2 ⟨by assumption, ?_, h⟩
          intro d hd
          rcases List.mem_cons.1 hd with rfl | hd
          · show a < _; omega
          · have := h2 d hd; show a < _; omega

/-- A write of bytes keeps the canonical form. -/
theorem Memory.wf_write {m : Memory} (h : m.wf = true) (a : Nat) (bs : List Byte) : (m.write a bs).wf = true := by
  induction bs generalizing m a with
  | nil => exact h
  | cons b bs ih => exact ih (Memory.wf_put h a b) (a + 1)

/-- A part of the list keeps the canonical form. -/
theorem Memory.wf_filter {m : Memory} (h : m.wf = true) (p : Host.Cell → Bool) : Memory.wf (m.filter p) = true := by
  induction m with
  | nil => rfl
  | cons c r ih =>
    obtain ⟨h1, h2, h3⟩ := (Memory.wf_cons c r).1 h
    rw [List.filter_cons]
    split
    · exact (Memory.wf_cons _ _).2 ⟨h1, fun d hd => h2 d (List.mem_filter.1 hd).1, ih h3⟩
    · exact ih h3

/-- Zeroing keeps the canonical form. -/
theorem Memory.wf_zero {m : Memory} (h : m.wf = true) (a n : Nat) : (m.zero a n).wf = true := Memory.wf_filter h _

/-- A read after a write: the byte written at its address, the byte before at every other one. -/
theorem Memory.get_put {m : Memory} (h : m.wf = true) (a x : Nat) (b : Byte) :
    (m.put a b).get x = if x = a then b else m.get x := by
  induction m with
  | nil =>
    simp only [Memory.put]
    split
    · simp_all [Memory.get]
    · by_cases e : x = a
      · simp [Memory.get, e]
      · simp [Memory.get, e, Ne.symm e]
  | cons c r ih =>
    obtain ⟨h1, h2, h3⟩ := (Memory.wf_cons c r).1 h
    simp only [Memory.put]
    split
    · rename_i lt
      by_cases ec : c.1 = x
      · have : x ≠ a := by omega
        simp [Memory.get, ec, this]
      · by_cases lx : x < c.1
        · have : x ≠ a := by omega
          simp [Memory.get, ec, lx, this]
        · simp only [Memory.get, ec, lx, if_false]
          exact ih h3
    · rename_i nlt
      split
      · rename_i e
        split
        · rename_i eb
          by_cases ex : x = a
          · subst ex
            simp only [if_true, eb]
            exact Memory.get_above (e ▸ h2)
          · have ec : c.1 ≠ x := by omega
            by_cases lx : x < c.1
            · simp only [ex, if_false, Memory.get, ec, lx, if_true]
              exact Memory.get_above fun d hd => Nat.lt_trans lx (h2 d hd)
            · simp [ex, Memory.get, ec, lx]
        · by_cases ex : x = a
          · simp [Memory.get, ex]
          · have ec : c.1 ≠ x := by omega
            have ea : a ≠ x := fun h => ex h.symm
            by_cases lx : x < c.1
            · have : x < a := by omega
              simp [Memory.get, ex, ec, ea, lx, this]
            · have : ¬ x < a := by omega
              simp [Memory.get, ex, ec, ea, lx, this]
      · rename_i ne
        have lt : a < c.1 := by omega
        split
        · rename_i eb
          by_cases ex : x = a
          · subst ex
            have : c.1 ≠ x := by omega
            simp [Memory.get, this, lt, eb]
          · simp [ex]
        · by_cases ex : x = a
          · simp [Memory.get, ex]
          · have ea : a ≠ x := fun h => ex h.symm
            by_cases lx : x < a
            · have l2 : x < c.1 := by omega
              have n2 : c.1 ≠ x := by omega
              simp [Memory.get, ex, ea, lx, l2, n2]
            · simp [Memory.get, ex, ea, lx]

/-- A byte outside a write of bytes is as before. -/
theorem Memory.get_write_outside {m : Memory} (h : m.wf = true) (a x : Nat) (bs : List Byte)
    (hx : x < a ∨ a + bs.length ≤ x) : (m.write a bs).get x = m.get x := by
  induction bs generalizing m a with
  | nil => rfl
  | cons b bs ih =>
    have hn : x ≠ a := by
      simp only [List.length_cons] at hx
      omega
    rw [Memory.write, ih (Memory.wf_put h a b) (a + 1) (by simp only [List.length_cons] at hx; omega),
      Memory.get_put h, if_neg hn]

/-- A byte inside a write of bytes is the byte written. -/
theorem Memory.get_write_inside {m : Memory} (h : m.wf = true) (a i : Nat) (bs : List Byte) (hi : i < bs.length) :
    (m.write a bs).get (a + i) = bs[i] := by
  induction bs generalizing m a i with
  | nil => simp at hi
  | cons b bs ih =>
    rw [Memory.write]
    cases i with
    | zero =>
      rw [Memory.get_write_outside (Memory.wf_put h a b) _ _ _ (by omega), Memory.get_put h]
      simp
    | succ i =>
      have := ih (Memory.wf_put h a b) (a + 1) i (by simpa using hi)
      rw [show a + (i + 1) = a + 1 + i by omega]
      simpa using this

/-- The bytes read after they were written are those bytes. -/
theorem Memory.read_write {m : Memory} (h : m.wf = true) (a : Nat) (bs : List Byte) :
    (m.write a bs).read a bs.length = bs := by
  have key : ∀ n k, k + n = bs.length → (m.write a bs).read (a + k) n = bs.drop k := by
    intro n
    induction n with
    | zero =>
      intro k hk
      rw [List.drop_of_length_le (by omega)]
      rfl
    | succ n ih =>
      intro k hk
      have hlt : k < bs.length := by omega
      rw [Memory.read, Memory.get_write_inside h a k bs hlt, List.drop_eq_getElem_cons hlt]
      rw [show a + k + 1 = a + (k + 1) by omega, ih (k + 1) (by omega)]
  simpa using key bs.length 0 (by omega)

theorem Memory.length_read (m : Memory) (a n : Nat) : (m.read a n).length = n := by
  induction n generalizing a with
  | zero => rfl
  | succ n ih => simp [Memory.read, ih]

/-- The memory after reset is in canonical form. -/
theorem wf_reset : State.reset.mem.hbm.wf = true := rfl

end Sys2Proof.Machine
end

