-- ==== Sys2Proof/Laws/PerInstr.lean ====
section
/-! SUPPORT. The family DecodeRoundTrip: the word of a well-formed instruction decodes to it, one lemma for each
constructor. An event has no word. -/

namespace Sys2Proof.Laws

/-- The word of a well-formed instruction decodes to that instruction. -/
def DecodeRoundTrip.Statement (i : Instr) : Prop := i.wellFormed = true → ∀ w, encodeWord i = some w → decodeWord w = .ok i

/-- The statement of a word of an opcode. -/
theorem DecodeRoundTrip.ofWord {op : Nat} {f : Fields} {k : Fixed} {c : Fields → Instr} {r : Machine.WordRule} (hop : op < 256)
    (hm : opcodeMap op = some (k, c)) (hr : Machine.wordRule op = some r) (hk : k.fits r = true)
    (hw : (c f).wellFormed = Machine.wordOk op f) (he : encodeWord (c f) = some (wordOf op f)) : DecodeRoundTrip.Statement (c f) := by
  intro h w e
  rw [he] at e
  cases e
  exact decode_of_wordOk hop hm hr hk (hw ▸ h)

theorem DecodeRoundTrip.coldReset (imageA imageB : Bool) : DecodeRoundTrip.Statement (.coldReset imageA imageB) := fun _ _ e => nomatch e
theorem DecodeRoundTrip.warmReset (imageA imageB : Bool) : DecodeRoundTrip.Statement (.warmReset imageA imageB) := fun _ _ e => nomatch e
theorem DecodeRoundTrip.reducedServiceEnd (plan : List (Nat × Nat × Nat)) (linkTrained : Bool) : DecodeRoundTrip.Statement (.reducedServiceEnd plan linkTrained) := fun _ _ e => nomatch e
theorem DecodeRoundTrip.sageWatchdogRecovery : DecodeRoundTrip.Statement (.sageWatchdogRecovery) := fun _ _ e => nomatch e
theorem DecodeRoundTrip.dieBridgeDown : DecodeRoundTrip.Statement (.dieBridgeDown) := fun _ _ e => nomatch e
theorem DecodeRoundTrip.hostLsdcfgWrite (v : W64) : DecodeRoundTrip.Statement (.hostLsdcfgWrite v) := fun _ _ e => nomatch e
theorem DecodeRoundTrip.registerWrite (p : Nat) (w : Agent) (r : RegRef) (v : W64) : DecodeRoundTrip.Statement (.registerWrite p w r v) := fun _ _ e => nomatch e
theorem DecodeRoundTrip.sysFlagsrcRead (p c : Nat) : DecodeRoundTrip.Statement (.sysFlagsrcRead p c) := fun _ _ e => nomatch e
theorem DecodeRoundTrip.xlatinv (p : Nat) (v : W64) : DecodeRoundTrip.Statement (.xlatinv p v) := fun _ _ e => nomatch e
theorem DecodeRoundTrip.fresumeRetry (p : Nat) (v : W64) : DecodeRoundTrip.Statement (.fresumeRetry p v) := fun _ _ e => nomatch e
theorem DecodeRoundTrip.fresumeKill (p : Nat) (v : W64) : DecodeRoundTrip.Statement (.fresumeKill p v) := fun _ _ e => nomatch e
theorem DecodeRoundTrip.framescrub (p : Nat) (w : Agent) (v : W64) : DecodeRoundTrip.Statement (.framescrub p w v) := fun _ _ e => nomatch e
theorem DecodeRoundTrip.asidbaseWrite (p : Nat) (v : W64) : DecodeRoundTrip.Statement (.asidbaseWrite p v) := fun _ _ e => nomatch e
theorem DecodeRoundTrip.clwaysWrite (p cluster : Nat) (v : W64) : DecodeRoundTrip.Statement (.clwaysWrite p cluster v) := fun _ _ e => nomatch e
theorem DecodeRoundTrip.slicecfgModeWrite (p : Nat) (v : W64) : DecodeRoundTrip.Statement (.slicecfgModeWrite p v) := fun _ _ e => nomatch e
theorem DecodeRoundTrip.blkmove (p : Nat) (v : W64) : DecodeRoundTrip.Statement (.blkmove p v) := fun _ _ e => nomatch e
theorem DecodeRoundTrip.moveInstall : DecodeRoundTrip.Statement (.moveInstall) := fun _ _ e => nomatch e
theorem DecodeRoundTrip.moveSweep : DecodeRoundTrip.Statement (.moveSweep) := fun _ _ e => nomatch e
theorem DecodeRoundTrip.moveFree : DecodeRoundTrip.Statement (.moveFree) := fun _ _ e => nomatch e
theorem DecodeRoundTrip.pctlSave (p : Nat) (v : W64) : DecodeRoundTrip.Statement (.pctlSave p v) := fun _ _ e => nomatch e
theorem DecodeRoundTrip.saveSettleRound : DecodeRoundTrip.Statement (.saveSettleRound) := fun _ _ e => nomatch e
theorem DecodeRoundTrip.pctlRestore (p : Nat) (v : W64) : DecodeRoundTrip.Statement (.pctlRestore p v) := fun _ _ e => nomatch e
theorem DecodeRoundTrip.ctxctlResume (p : Nat) (v : W64) : DecodeRoundTrip.Statement (.ctxctlResume p v) := fun _ _ e => nomatch e
theorem DecodeRoundTrip.ctxctlKill (p : Nat) (v : W64) : DecodeRoundTrip.Statement (.ctxctlKill p v) := fun _ _ e => nomatch e
theorem DecodeRoundTrip.scvalWrite (p : Nat) (w : Agent) (v : W64) : DecodeRoundTrip.Statement (.scvalWrite p w v) := fun _ _ e => nomatch e
theorem DecodeRoundTrip.scdoneWrite (p : Nat) (w : Agent) (v : W64) : DecodeRoundTrip.Statement (.scdoneWrite p w v) := fun _ _ e => nomatch e
theorem DecodeRoundTrip.launchSubmit (p q : Nat) (v : W64) : DecodeRoundTrip.Statement (.launchSubmit p q v) := fun _ _ e => nomatch e
theorem DecodeRoundTrip.grow (v : W64) : DecodeRoundTrip.Statement (.grow v) := fun _ _ e => nomatch e
theorem DecodeRoundTrip.shrink (v : W64) : DecodeRoundTrip.Statement (.shrink v) := fun _ _ e => nomatch e
theorem DecodeRoundTrip.defrag (v : W64) : DecodeRoundTrip.Statement (.defrag v) := fun _ _ e => nomatch e
theorem DecodeRoundTrip.reserve (v : W64) : DecodeRoundTrip.Statement (.reserve v) := fun _ _ e => nomatch e
theorem DecodeRoundTrip.release (v : W64) : DecodeRoundTrip.Statement (.release v) := fun _ _ e => nomatch e
theorem DecodeRoundTrip.stripScrubDone : DecodeRoundTrip.Statement (.stripScrubDone) := fun _ _ e => nomatch e
theorem DecodeRoundTrip.rehashWalk : DecodeRoundTrip.Statement (.rehashWalk) := fun _ _ e => nomatch e
theorem DecodeRoundTrip.layoutCommit : DecodeRoundTrip.Statement (.layoutCommit) := fun _ _ e => nomatch e
theorem DecodeRoundTrip.stripZeroDone : DecodeRoundTrip.Statement (.stripZeroDone) := fun _ _ e => nomatch e
theorem DecodeRoundTrip.hostApertureAccess (p : Nat) (x : ExtAccess) : DecodeRoundTrip.Statement (.hostApertureAccess p x) := fun _ _ e => nomatch e
theorem DecodeRoundTrip.peerAccess (x : ExtAccess) : DecodeRoundTrip.Statement (.peerAccess x) := fun _ _ e => nomatch e
theorem DecodeRoundTrip.reductionMerge (x : ExtAccess) : DecodeRoundTrip.Statement (.reductionMerge x) := fun _ _ e => nomatch e
theorem DecodeRoundTrip.hostCompletionTimeout (op : Nat) : DecodeRoundTrip.Statement (.hostCompletionTimeout op) := fun _ _ e => nomatch e
theorem DecodeRoundTrip.emulate (op : Nat) (old : W64) : DecodeRoundTrip.Statement (.emulate op old) := fun _ _ e => nomatch e
theorem DecodeRoundTrip.coreMemoryAccess (p asid : Nat) (x : ExtAccess) : DecodeRoundTrip.Statement (.coreMemoryAccess p asid x) := fun _ _ e => nomatch e
theorem DecodeRoundTrip.getS : DecodeRoundTrip.Statement (.getS) := fun _ _ e => nomatch e
theorem DecodeRoundTrip.getM : DecodeRoundTrip.Statement (.getM) := fun _ _ e => nomatch e
theorem DecodeRoundTrip.upgrade : DecodeRoundTrip.Statement (.upgrade) := fun _ _ e => nomatch e
theorem DecodeRoundTrip.putS : DecodeRoundTrip.Statement (.putS) := fun _ _ e => nomatch e
theorem DecodeRoundTrip.putO : DecodeRoundTrip.Statement (.putO) := fun _ _ e => nomatch e
theorem DecodeRoundTrip.inv : DecodeRoundTrip.Statement (.inv) := fun _ _ e => nomatch e
theorem DecodeRoundTrip.invAck : DecodeRoundTrip.Statement (.invAck) := fun _ _ e => nomatch e
theorem DecodeRoundTrip.forwardedProbe : DecodeRoundTrip.Statement (.forwardedProbe) := fun _ _ e => nomatch e
theorem DecodeRoundTrip.l2Access : DecodeRoundTrip.Statement (.l2Access) := fun _ _ e => nomatch e
theorem DecodeRoundTrip.memAccess : DecodeRoundTrip.Statement (.memAccess) := fun _ _ e => nomatch e
theorem DecodeRoundTrip.chainPerform : DecodeRoundTrip.Statement (.chainPerform) := fun _ _ e => nomatch e
theorem DecodeRoundTrip.leaseGrant : DecodeRoundTrip.Statement (.leaseGrant) := fun _ _ e => nomatch e
theorem DecodeRoundTrip.leaseExpiry : DecodeRoundTrip.Statement (.leaseExpiry) := fun _ _ e => nomatch e
theorem DecodeRoundTrip.ctrwaitRepresent : DecodeRoundTrip.Statement (.ctrwaitRepresent) := fun _ _ e => nomatch e
theorem DecodeRoundTrip.enginePiece : DecodeRoundTrip.Statement (.enginePiece) := fun _ _ e => nomatch e
theorem DecodeRoundTrip.engineCompletionAdd : DecodeRoundTrip.Statement (.engineCompletionAdd) := fun _ _ e => nomatch e
theorem DecodeRoundTrip.publishPoint : DecodeRoundTrip.Statement (.publishPoint) := fun _ _ e => nomatch e
theorem DecodeRoundTrip.splice (p asid page frame : Nat) : DecodeRoundTrip.Statement (.splice p asid page frame) := fun _ _ e => nomatch e
theorem DecodeRoundTrip.islandStep : DecodeRoundTrip.Statement (.islandStep) := fun _ _ e => nomatch e
theorem DecodeRoundTrip.tokenArrival : DecodeRoundTrip.Statement (.tokenArrival) := fun _ _ e => nomatch e
theorem DecodeRoundTrip.flitCross : DecodeRoundTrip.Statement (.flitCross) := fun _ _ e => nomatch e
theorem DecodeRoundTrip.creditReturn : DecodeRoundTrip.Statement (.creditReturn) := fun _ _ e => nomatch e
theorem DecodeRoundTrip.messageReceive : DecodeRoundTrip.Statement (.messageReceive) := fun _ _ e => nomatch e
theorem DecodeRoundTrip.ringEntryComplete : DecodeRoundTrip.Statement (.ringEntryComplete) := fun _ _ e => nomatch e
theorem DecodeRoundTrip.messageAck : DecodeRoundTrip.Statement (.messageAck) := fun _ _ e => nomatch e
theorem DecodeRoundTrip.trapRecordWrite : DecodeRoundTrip.Statement (.trapRecordWrite) := fun _ _ e => nomatch e
theorem DecodeRoundTrip.thymeEventWrite : DecodeRoundTrip.Statement (.thymeEventWrite) := fun _ _ e => nomatch e
theorem DecodeRoundTrip.qosWindowEnd : DecodeRoundTrip.Statement (.qosWindowEnd) := fun _ _ e => nomatch e
theorem DecodeRoundTrip.powerPeriod (grants : List Nat) : DecodeRoundTrip.Statement (.powerPeriod grants) := fun _ _ e => nomatch e
theorem DecodeRoundTrip.launchStart : DecodeRoundTrip.Statement (.launchStart) := fun _ _ e => nomatch e
theorem DecodeRoundTrip.sectionLoad : DecodeRoundTrip.Statement (.sectionLoad) := fun _ _ e => nomatch e
theorem DecodeRoundTrip.blockEvict : DecodeRoundTrip.Statement (.blockEvict) := fun _ _ e => nomatch e
theorem DecodeRoundTrip.blockReload : DecodeRoundTrip.Statement (.blockReload) := fun _ _ e => nomatch e
theorem DecodeRoundTrip.dispatch : DecodeRoundTrip.Statement (.dispatch) := fun _ _ e => nomatch e
theorem DecodeRoundTrip.schedTableDispatch : DecodeRoundTrip.Statement (.schedTableDispatch) := fun _ _ e => nomatch e
theorem DecodeRoundTrip.releaseIslands : DecodeRoundTrip.Statement (.releaseIslands) := fun _ _ e => nomatch e
theorem DecodeRoundTrip.taskRetire : DecodeRoundTrip.Statement (.taskRetire) := fun _ _ e => nomatch e
theorem DecodeRoundTrip.launchComplete : DecodeRoundTrip.Statement (.launchComplete) := fun _ _ e => nomatch e
theorem DecodeRoundTrip.taskAbort : DecodeRoundTrip.Statement (.taskAbort) := fun _ _ e => nomatch e
theorem DecodeRoundTrip.taskRequeue : DecodeRoundTrip.Statement (.taskRequeue) := fun _ _ e => nomatch e
theorem DecodeRoundTrip.statRecordMerge : DecodeRoundTrip.Statement (.statRecordMerge) := fun _ _ e => nomatch e
theorem DecodeRoundTrip.statRecordApply : DecodeRoundTrip.Statement (.statRecordApply) := fun _ _ e => nomatch e
theorem DecodeRoundTrip.hostCompletion (op : Nat) (v : W64) : DecodeRoundTrip.Statement (.hostCompletion op v) := fun _ _ e => nomatch e
theorem DecodeRoundTrip.peerAcknowledgement (op : Nat) (v : W64) (refused : Bool) : DecodeRoundTrip.Statement (.peerAcknowledgement op v refused) := fun _ _ e => nomatch e
theorem DecodeRoundTrip.mov (f : Fields) : DecodeRoundTrip.Statement (.mov f) := DecodeRoundTrip.ofWord (op := 0x01) (by decide) rfl rfl rfl rfl rfl
theorem DecodeRoundTrip.steer (f : Fields) : DecodeRoundTrip.Statement (.steer f) := DecodeRoundTrip.ofWord (op := 0x02) (by decide) rfl rfl rfl rfl rfl
theorem DecodeRoundTrip.merge (f : Fields) : DecodeRoundTrip.Statement (.merge f) := DecodeRoundTrip.ofWord (op := 0x03) (by decide) rfl rfl rfl rfl rfl
theorem DecodeRoundTrip.select (f : Fields) : DecodeRoundTrip.Statement (.select f) := DecodeRoundTrip.ofWord (op := 0x04) (by decide) rfl rfl rfl rfl rfl
theorem DecodeRoundTrip.gate (f : Fields) : DecodeRoundTrip.Statement (.gate f) := DecodeRoundTrip.ofWord (op := 0x05) (by decide) rfl rfl rfl rfl rfl
theorem DecodeRoundTrip.wadv (f : Fields) : DecodeRoundTrip.Statement (.wadv f) := DecodeRoundTrip.ofWord (op := 0x06) (by decide) rfl rfl rfl rfl rfl
theorem DecodeRoundTrip.wset (f : Fields) : DecodeRoundTrip.Statement (.wset f) := DecodeRoundTrip.ofWord (op := 0x07) (by decide) rfl rfl rfl rfl rfl
theorem DecodeRoundTrip.itag (f : Fields) : DecodeRoundTrip.Statement (.itag f) := DecodeRoundTrip.ofWord (op := 0x08) (by decide) rfl rfl rfl rfl rfl
theorem DecodeRoundTrip.ctxnew (f : Fields) : DecodeRoundTrip.Statement (.ctxnew f) := DecodeRoundTrip.ofWord (op := 0x09) (by decide) rfl rfl rfl rfl rfl
theorem DecodeRoundTrip.ctxsend (f : Fields) : DecodeRoundTrip.Statement (.ctxsend f) := DecodeRoundTrip.ofWord (op := 0x0A) (by decide) rfl rfl rfl rfl rfl
theorem DecodeRoundTrip.ctxret (f : Fields) : DecodeRoundTrip.Statement (.ctxret f) := DecodeRoundTrip.ofWord (op := 0x0B) (by decide) rfl rfl rfl rfl rfl
theorem DecodeRoundTrip.ctxfree (f : Fields) : DecodeRoundTrip.Statement (.ctxfree f) := DecodeRoundTrip.ofWord (op := 0x0C) (by decide) rfl rfl rfl rfl rfl
theorem DecodeRoundTrip.sink (f : Fields) : DecodeRoundTrip.Statement (.sink f) := DecodeRoundTrip.ofWord (op := 0x0D) (by decide) rfl rfl rfl rfl rfl
theorem DecodeRoundTrip.stop (f : Fields) : DecodeRoundTrip.Statement (.stop f) := DecodeRoundTrip.ofWord (op := 0x0E) (by decide) rfl rfl rfl rfl rfl
theorem DecodeRoundTrip.add (f : Fields) : DecodeRoundTrip.Statement (.add f) := DecodeRoundTrip.ofWord (op := 0x10) (by decide) rfl rfl rfl rfl rfl
theorem DecodeRoundTrip.sub (f : Fields) : DecodeRoundTrip.Statement (.sub f) := DecodeRoundTrip.ofWord (op := 0x11) (by decide) rfl rfl rfl rfl rfl
theorem DecodeRoundTrip.adds (f : Fields) : DecodeRoundTrip.Statement (.adds f) := DecodeRoundTrip.ofWord (op := 0x12) (by decide) rfl rfl rfl rfl rfl
theorem DecodeRoundTrip.addsn (f : Fields) : DecodeRoundTrip.Statement (.addsn f) := DecodeRoundTrip.ofWord (op := 0x13) (by decide) rfl rfl rfl rfl rfl
theorem DecodeRoundTrip.subs (f : Fields) : DecodeRoundTrip.Statement (.subs f) := DecodeRoundTrip.ofWord (op := 0x14) (by decide) rfl rfl rfl rfl rfl
theorem DecodeRoundTrip.subsn (f : Fields) : DecodeRoundTrip.Statement (.subsn f) := DecodeRoundTrip.ofWord (op := 0x15) (by decide) rfl rfl rfl rfl rfl
theorem DecodeRoundTrip.mul (f : Fields) : DecodeRoundTrip.Statement (.mul f) := DecodeRoundTrip.ofWord (op := 0x16) (by decide) rfl rfl rfl rfl rfl
theorem DecodeRoundTrip.mulh (f : Fields) : DecodeRoundTrip.Statement (.mulh f) := DecodeRoundTrip.ofWord (op := 0x17) (by decide) rfl rfl rfl rfl rfl
theorem DecodeRoundTrip.mulhn (f : Fields) : DecodeRoundTrip.Statement (.mulhn f) := DecodeRoundTrip.ofWord (op := 0x18) (by decide) rfl rfl rfl rfl rfl
theorem DecodeRoundTrip.div (f : Fields) : DecodeRoundTrip.Statement (.div f) := DecodeRoundTrip.ofWord (op := 0x19) (by decide) rfl rfl rfl rfl rfl
theorem DecodeRoundTrip.divn (f : Fields) : DecodeRoundTrip.Statement (.divn f) := DecodeRoundTrip.ofWord (op := 0x1A) (by decide) rfl rfl rfl rfl rfl
theorem DecodeRoundTrip.rem (f : Fields) : DecodeRoundTrip.Statement (.rem f) := DecodeRoundTrip.ofWord (op := 0x1B) (by decide) rfl rfl rfl rfl rfl
theorem DecodeRoundTrip.remn (f : Fields) : DecodeRoundTrip.Statement (.remn f) := DecodeRoundTrip.ofWord (op := 0x1C) (by decide) rfl rfl rfl rfl rfl
theorem DecodeRoundTrip.madd (f : Fields) : DecodeRoundTrip.Statement (.madd f) := DecodeRoundTrip.ofWord (op := 0x1D) (by decide) rfl rfl rfl rfl rfl
theorem DecodeRoundTrip.neg (f : Fields) : DecodeRoundTrip.Statement (.neg f) := DecodeRoundTrip.ofWord (op := 0x1E) (by decide) rfl rfl rfl rfl rfl
theorem DecodeRoundTrip.abs (f : Fields) : DecodeRoundTrip.Statement (.abs f) := DecodeRoundTrip.ofWord (op := 0x1F) (by decide) rfl rfl rfl rfl rfl
theorem DecodeRoundTrip.and_ (f : Fields) : DecodeRoundTrip.Statement (.and_ f) := DecodeRoundTrip.ofWord (op := 0x20) (by decide) rfl rfl rfl rfl rfl
theorem DecodeRoundTrip.or_ (f : Fields) : DecodeRoundTrip.Statement (.or_ f) := DecodeRoundTrip.ofWord (op := 0x21) (by decide) rfl rfl rfl rfl rfl
theorem DecodeRoundTrip.xor_ (f : Fields) : DecodeRoundTrip.Statement (.xor_ f) := DecodeRoundTrip.ofWord (op := 0x22) (by decide) rfl rfl rfl rfl rfl
theorem DecodeRoundTrip.andn (f : Fields) : DecodeRoundTrip.Statement (.andn f) := DecodeRoundTrip.ofWord (op := 0x23) (by decide) rfl rfl rfl rfl rfl
theorem DecodeRoundTrip.not_ (f : Fields) : DecodeRoundTrip.Statement (.not_ f) := DecodeRoundTrip.ofWord (op := 0x24) (by decide) rfl rfl rfl rfl rfl
theorem DecodeRoundTrip.shl (f : Fields) : DecodeRoundTrip.Statement (.shl f) := DecodeRoundTrip.ofWord (op := 0x25) (by decide) rfl rfl rfl rfl rfl
theorem DecodeRoundTrip.shrl (f : Fields) : DecodeRoundTrip.Statement (.shrl f) := DecodeRoundTrip.ofWord (op := 0x26) (by decide) rfl rfl rfl rfl rfl
theorem DecodeRoundTrip.shra (f : Fields) : DecodeRoundTrip.Statement (.shra f) := DecodeRoundTrip.ofWord (op := 0x27) (by decide) rfl rfl rfl rfl rfl
theorem DecodeRoundTrip.rotl (f : Fields) : DecodeRoundTrip.Statement (.rotl f) := DecodeRoundTrip.ofWord (op := 0x28) (by decide) rfl rfl rfl rfl rfl
theorem DecodeRoundTrip.clz (f : Fields) : DecodeRoundTrip.Statement (.clz f) := DecodeRoundTrip.ofWord (op := 0x29) (by decide) rfl rfl rfl rfl rfl
theorem DecodeRoundTrip.ctz (f : Fields) : DecodeRoundTrip.Statement (.ctz f) := DecodeRoundTrip.ofWord (op := 0x2A) (by decide) rfl rfl rfl rfl rfl
theorem DecodeRoundTrip.popc (f : Fields) : DecodeRoundTrip.Statement (.popc f) := DecodeRoundTrip.ofWord (op := 0x2B) (by decide) rfl rfl rfl rfl rfl
theorem DecodeRoundTrip.brev (f : Fields) : DecodeRoundTrip.Statement (.brev f) := DecodeRoundTrip.ofWord (op := 0x2C) (by decide) rfl rfl rfl rfl rfl
theorem DecodeRoundTrip.bfx (f : Fields) : DecodeRoundTrip.Statement (.bfx f) := DecodeRoundTrip.ofWord (op := 0x2D) (by decide) rfl rfl rfl rfl rfl
theorem DecodeRoundTrip.bfi (f : Fields) : DecodeRoundTrip.Statement (.bfi f) := DecodeRoundTrip.ofWord (op := 0x2E) (by decide) rfl rfl rfl rfl rfl
theorem DecodeRoundTrip.byteperm (f : Fields) : DecodeRoundTrip.Statement (.byteperm f) := DecodeRoundTrip.ofWord (op := 0x2F) (by decide) rfl rfl rfl rfl rfl
theorem DecodeRoundTrip.ceq (f : Fields) : DecodeRoundTrip.Statement (.ceq f) := DecodeRoundTrip.ofWord (op := 0x30) (by decide) rfl rfl rfl rfl rfl
theorem DecodeRoundTrip.cne (f : Fields) : DecodeRoundTrip.Statement (.cne f) := DecodeRoundTrip.ofWord (op := 0x31) (by decide) rfl rfl rfl rfl rfl
theorem DecodeRoundTrip.clt (f : Fields) : DecodeRoundTrip.Statement (.clt f) := DecodeRoundTrip.ofWord (op := 0x32) (by decide) rfl rfl rfl rfl rfl
theorem DecodeRoundTrip.cle (f : Fields) : DecodeRoundTrip.Statement (.cle f) := DecodeRoundTrip.ofWord (op := 0x33) (by decide) rfl rfl rfl rfl rfl
theorem DecodeRoundTrip.cltn (f : Fields) : DecodeRoundTrip.Statement (.cltn f) := DecodeRoundTrip.ofWord (op := 0x34) (by decide) rfl rfl rfl rfl rfl
theorem DecodeRoundTrip.clen (f : Fields) : DecodeRoundTrip.Statement (.clen f) := DecodeRoundTrip.ofWord (op := 0x35) (by decide) rfl rfl rfl rfl rfl
theorem DecodeRoundTrip.min_ (f : Fields) : DecodeRoundTrip.Statement (.min_ f) := DecodeRoundTrip.ofWord (op := 0x36) (by decide) rfl rfl rfl rfl rfl
theorem DecodeRoundTrip.max_ (f : Fields) : DecodeRoundTrip.Statement (.max_ f) := DecodeRoundTrip.ofWord (op := 0x37) (by decide) rfl rfl rfl rfl rfl
theorem DecodeRoundTrip.minn (f : Fields) : DecodeRoundTrip.Statement (.minn f) := DecodeRoundTrip.ofWord (op := 0x38) (by decide) rfl rfl rfl rfl rfl
theorem DecodeRoundTrip.maxn (f : Fields) : DecodeRoundTrip.Statement (.maxn f) := DecodeRoundTrip.ofWord (op := 0x39) (by decide) rfl rfl rfl rfl rfl
theorem DecodeRoundTrip.lea (f : Fields) : DecodeRoundTrip.Statement (.lea f) := DecodeRoundTrip.ofWord (op := 0x3A) (by decide) rfl rfl rfl rfl rfl
theorem DecodeRoundTrip.idx (f : Fields) : DecodeRoundTrip.Statement (.idx f) := DecodeRoundTrip.ofWord (op := 0x3B) (by decide) rfl rfl rfl rfl rfl
theorem DecodeRoundTrip.sext (f : Fields) : DecodeRoundTrip.Statement (.sext f) := DecodeRoundTrip.ofWord (op := 0x3C) (by decide) rfl rfl rfl rfl rfl
theorem DecodeRoundTrip.zext (f : Fields) : DecodeRoundTrip.Statement (.zext f) := DecodeRoundTrip.ofWord (op := 0x3D) (by decide) rfl rfl rfl rfl rfl
theorem DecodeRoundTrip.narrow (f : Fields) : DecodeRoundTrip.Statement (.narrow f) := DecodeRoundTrip.ofWord (op := 0x3E) (by decide) rfl rfl rfl rfl rfl
theorem DecodeRoundTrip.narrows (f : Fields) : DecodeRoundTrip.Statement (.narrows f) := DecodeRoundTrip.ofWord (op := 0x3F) (by decide) rfl rfl rfl rfl rfl
theorem DecodeRoundTrip.ld (f : Fields) : DecodeRoundTrip.Statement (.ld f) := DecodeRoundTrip.ofWord (op := 0x40) (by decide) rfl rfl rfl rfl rfl
theorem DecodeRoundTrip.st (f : Fields) : DecodeRoundTrip.Statement (.st f) := DecodeRoundTrip.ofWord (op := 0x41) (by decide) rfl rfl rfl rfl rfl
theorem DecodeRoundTrip.ldv (f : Fields) : DecodeRoundTrip.Statement (.ldv f) := DecodeRoundTrip.ofWord (op := 0x42) (by decide) rfl rfl rfl rfl rfl
theorem DecodeRoundTrip.stv (f : Fields) : DecodeRoundTrip.Statement (.stv f) := DecodeRoundTrip.ofWord (op := 0x43) (by decide) rfl rfl rfl rfl rfl
theorem DecodeRoundTrip.ldg (f : Fields) : DecodeRoundTrip.Statement (.ldg f) := DecodeRoundTrip.ofWord (op := 0x44) (by decide) rfl rfl rfl rfl rfl
theorem DecodeRoundTrip.sts (f : Fields) : DecodeRoundTrip.Statement (.sts f) := DecodeRoundTrip.ofWord (op := 0x45) (by decide) rfl rfl rfl rfl rfl
theorem DecodeRoundTrip.mnop (f : Fields) : DecodeRoundTrip.Statement (.mnop f) := DecodeRoundTrip.ofWord (op := 0x46) (by decide) rfl rfl rfl rfl rfl
theorem DecodeRoundTrip.ldfe (f : Fields) : DecodeRoundTrip.Statement (.ldfe f) := DecodeRoundTrip.ofWord (op := 0x47) (by decide) rfl rfl rfl rfl rfl
theorem DecodeRoundTrip.stfe (f : Fields) : DecodeRoundTrip.Statement (.stfe f) := DecodeRoundTrip.ofWord (op := 0x48) (by decide) rfl rfl rfl rfl rfl
theorem DecodeRoundTrip.region (f : Fields) : DecodeRoundTrip.Statement (.region f) := DecodeRoundTrip.ofWord (op := 0x49) (by decide) rfl rfl rfl rfl rfl
theorem DecodeRoundTrip.pref (f : Fields) : DecodeRoundTrip.Statement (.pref f) := DecodeRoundTrip.ofWord (op := 0x4A) (by decide) rfl rfl rfl rfl rfl
theorem DecodeRoundTrip.flushr (f : Fields) : DecodeRoundTrip.Statement (.flushr f) := DecodeRoundTrip.ofWord (op := 0x4B) (by decide) rfl rfl rfl rfl rfl
theorem DecodeRoundTrip.invr (f : Fields) : DecodeRoundTrip.Statement (.invr f) := DecodeRoundTrip.ofWord (op := 0x4C) (by decide) rfl rfl rfl rfl rfl
theorem DecodeRoundTrip.amofmin (f : Fields) : DecodeRoundTrip.Statement (.amofmin f) := DecodeRoundTrip.ofWord (op := 0x4D) (by decide) rfl rfl rfl rfl rfl
theorem DecodeRoundTrip.amofmax (f : Fields) : DecodeRoundTrip.Statement (.amofmax f) := DecodeRoundTrip.ofWord (op := 0x4E) (by decide) rfl rfl rfl rfl rfl
theorem DecodeRoundTrip.ctrread (f : Fields) : DecodeRoundTrip.Statement (.ctrread f) := DecodeRoundTrip.ofWord (op := 0x4F) (by decide) rfl rfl rfl rfl rfl
theorem DecodeRoundTrip.amoadd (f : Fields) : DecodeRoundTrip.Statement (.amoadd f) := DecodeRoundTrip.ofWord (op := 0x50) (by decide) rfl rfl rfl rfl rfl
theorem DecodeRoundTrip.amoand (f : Fields) : DecodeRoundTrip.Statement (.amoand f) := DecodeRoundTrip.ofWord (op := 0x51) (by decide) rfl rfl rfl rfl rfl
theorem DecodeRoundTrip.amoor (f : Fields) : DecodeRoundTrip.Statement (.amoor f) := DecodeRoundTrip.ofWord (op := 0x52) (by decide) rfl rfl rfl rfl rfl
theorem DecodeRoundTrip.amoxor (f : Fields) : DecodeRoundTrip.Statement (.amoxor f) := DecodeRoundTrip.ofWord (op := 0x53) (by decide) rfl rfl rfl rfl rfl
theorem DecodeRoundTrip.amomin (f : Fields) : DecodeRoundTrip.Statement (.amomin f) := DecodeRoundTrip.ofWord (op := 0x54) (by decide) rfl rfl rfl rfl rfl
theorem DecodeRoundTrip.amomax (f : Fields) : DecodeRoundTrip.Statement (.amomax f) := DecodeRoundTrip.ofWord (op := 0x55) (by decide) rfl rfl rfl rfl rfl
theorem DecodeRoundTrip.amominn (f : Fields) : DecodeRoundTrip.Statement (.amominn f) := DecodeRoundTrip.ofWord (op := 0x56) (by decide) rfl rfl rfl rfl rfl
theorem DecodeRoundTrip.amomaxn (f : Fields) : DecodeRoundTrip.Statement (.amomaxn f) := DecodeRoundTrip.ofWord (op := 0x57) (by decide) rfl rfl rfl rfl rfl
theorem DecodeRoundTrip.amoswap (f : Fields) : DecodeRoundTrip.Statement (.amoswap f) := DecodeRoundTrip.ofWord (op := 0x58) (by decide) rfl rfl rfl rfl rfl
theorem DecodeRoundTrip.amocas (f : Fields) : DecodeRoundTrip.Statement (.amocas f) := DecodeRoundTrip.ofWord (op := 0x59) (by decide) rfl rfl rfl rfl rfl
theorem DecodeRoundTrip.amofadd (f : Fields) : DecodeRoundTrip.Statement (.amofadd f) := DecodeRoundTrip.ofWord (op := 0x5A) (by decide) rfl rfl rfl rfl rfl
theorem DecodeRoundTrip.ctradd (f : Fields) : DecodeRoundTrip.Statement (.ctradd f) := DecodeRoundTrip.ofWord (op := 0x5B) (by decide) rfl rfl rfl rfl rfl
theorem DecodeRoundTrip.ctrwait (f : Fields) : DecodeRoundTrip.Statement (.ctrwait f) := DecodeRoundTrip.ofWord (op := 0x5C) (by decide) rfl rfl rfl rfl rfl
theorem DecodeRoundTrip.lease (f : Fields) : DecodeRoundTrip.Statement (.lease f) := DecodeRoundTrip.ofWord (op := 0x5D) (by decide) rfl rfl rfl rfl rfl
theorem DecodeRoundTrip.unlease (f : Fields) : DecodeRoundTrip.Statement (.unlease f) := DecodeRoundTrip.ofWord (op := 0x5E) (by decide) rfl rfl rfl rfl rfl
theorem DecodeRoundTrip.fence (f : Fields) : DecodeRoundTrip.Statement (.fence f) := DecodeRoundTrip.ofWord (op := 0x5F) (by decide) rfl rfl rfl rfl rfl
theorem DecodeRoundTrip.fadd (f : Fields) : DecodeRoundTrip.Statement (.fadd f) := DecodeRoundTrip.ofWord (op := 0x60) (by decide) rfl rfl rfl rfl rfl
theorem DecodeRoundTrip.fsub (f : Fields) : DecodeRoundTrip.Statement (.fsub f) := DecodeRoundTrip.ofWord (op := 0x61) (by decide) rfl rfl rfl rfl rfl
theorem DecodeRoundTrip.fmul (f : Fields) : DecodeRoundTrip.Statement (.fmul f) := DecodeRoundTrip.ofWord (op := 0x62) (by decide) rfl rfl rfl rfl rfl
theorem DecodeRoundTrip.ffma (f : Fields) : DecodeRoundTrip.Statement (.ffma f) := DecodeRoundTrip.ofWord (op := 0x63) (by decide) rfl rfl rfl rfl rfl
theorem DecodeRoundTrip.ffms (f : Fields) : DecodeRoundTrip.Statement (.ffms f) := DecodeRoundTrip.ofWord (op := 0x64) (by decide) rfl rfl rfl rfl rfl
theorem DecodeRoundTrip.fnfma (f : Fields) : DecodeRoundTrip.Statement (.fnfma f) := DecodeRoundTrip.ofWord (op := 0x65) (by decide) rfl rfl rfl rfl rfl
theorem DecodeRoundTrip.fdiv (f : Fields) : DecodeRoundTrip.Statement (.fdiv f) := DecodeRoundTrip.ofWord (op := 0x66) (by decide) rfl rfl rfl rfl rfl
theorem DecodeRoundTrip.fsqrt (f : Fields) : DecodeRoundTrip.Statement (.fsqrt f) := DecodeRoundTrip.ofWord (op := 0x67) (by decide) rfl rfl rfl rfl rfl
theorem DecodeRoundTrip.fmin (f : Fields) : DecodeRoundTrip.Statement (.fmin f) := DecodeRoundTrip.ofWord (op := 0x68) (by decide) rfl rfl rfl rfl rfl
theorem DecodeRoundTrip.fmax (f : Fields) : DecodeRoundTrip.Statement (.fmax f) := DecodeRoundTrip.ofWord (op := 0x69) (by decide) rfl rfl rfl rfl rfl
theorem DecodeRoundTrip.fminm (f : Fields) : DecodeRoundTrip.Statement (.fminm f) := DecodeRoundTrip.ofWord (op := 0x6A) (by decide) rfl rfl rfl rfl rfl
theorem DecodeRoundTrip.fmaxm (f : Fields) : DecodeRoundTrip.Statement (.fmaxm f) := DecodeRoundTrip.ofWord (op := 0x6B) (by decide) rfl rfl rfl rfl rfl
theorem DecodeRoundTrip.fabs (f : Fields) : DecodeRoundTrip.Statement (.fabs f) := DecodeRoundTrip.ofWord (op := 0x6C) (by decide) rfl rfl rfl rfl rfl
theorem DecodeRoundTrip.fneg (f : Fields) : DecodeRoundTrip.Statement (.fneg f) := DecodeRoundTrip.ofWord (op := 0x6D) (by decide) rfl rfl rfl rfl rfl
theorem DecodeRoundTrip.fcpys (f : Fields) : DecodeRoundTrip.Statement (.fcpys f) := DecodeRoundTrip.ofWord (op := 0x6E) (by decide) rfl rfl rfl rfl rfl
theorem DecodeRoundTrip.fclass (f : Fields) : DecodeRoundTrip.Statement (.fclass f) := DecodeRoundTrip.ofWord (op := 0x6F) (by decide) rfl rfl rfl rfl rfl
theorem DecodeRoundTrip.fceq (f : Fields) : DecodeRoundTrip.Statement (.fceq f) := DecodeRoundTrip.ofWord (op := 0x70) (by decide) rfl rfl rfl rfl rfl
theorem DecodeRoundTrip.fclt (f : Fields) : DecodeRoundTrip.Statement (.fclt f) := DecodeRoundTrip.ofWord (op := 0x71) (by decide) rfl rfl rfl rfl rfl
theorem DecodeRoundTrip.fcle (f : Fields) : DecodeRoundTrip.Statement (.fcle f) := DecodeRoundTrip.ofWord (op := 0x72) (by decide) rfl rfl rfl rfl rfl
theorem DecodeRoundTrip.fcun (f : Fields) : DecodeRoundTrip.Statement (.fcun f) := DecodeRoundTrip.ofWord (op := 0x73) (by decide) rfl rfl rfl rfl rfl
theorem DecodeRoundTrip.fcvt (f : Fields) : DecodeRoundTrip.Statement (.fcvt f) := DecodeRoundTrip.ofWord (op := 0x74) (by decide) rfl rfl rfl rfl rfl
theorem DecodeRoundTrip.fcvti (f : Fields) : DecodeRoundTrip.Statement (.fcvti f) := DecodeRoundTrip.ofWord (op := 0x75) (by decide) rfl rfl rfl rfl rfl
theorem DecodeRoundTrip.icvtf (f : Fields) : DecodeRoundTrip.Statement (.icvtf f) := DecodeRoundTrip.ofWord (op := 0x76) (by decide) rfl rfl rfl rfl rfl
theorem DecodeRoundTrip.icvtfn (f : Fields) : DecodeRoundTrip.Statement (.icvtfn f) := DecodeRoundTrip.ofWord (op := 0x77) (by decide) rfl rfl rfl rfl rfl
theorem DecodeRoundTrip.frint (f : Fields) : DecodeRoundTrip.Statement (.frint f) := DecodeRoundTrip.ofWord (op := 0x78) (by decide) rfl rfl rfl rfl rfl
theorem DecodeRoundTrip.fscale (f : Fields) : DecodeRoundTrip.Statement (.fscale f) := DecodeRoundTrip.ofWord (op := 0x79) (by decide) rfl rfl rfl rfl rfl
theorem DecodeRoundTrip.fexpo (f : Fields) : DecodeRoundTrip.Statement (.fexpo f) := DecodeRoundTrip.ofWord (op := 0x7A) (by decide) rfl rfl rfl rfl rfl
theorem DecodeRoundTrip.fmant (f : Fields) : DecodeRoundTrip.Statement (.fmant f) := DecodeRoundTrip.ofWord (op := 0x7B) (by decide) rfl rfl rfl rfl rfl
theorem DecodeRoundTrip.fsplit (f : Fields) : DecodeRoundTrip.Statement (.fsplit f) := DecodeRoundTrip.ofWord (op := 0x7C) (by decide) rfl rfl rfl rfl rfl
theorem DecodeRoundTrip.fexp2f (f : Fields) : DecodeRoundTrip.Statement (.fexp2f f) := DecodeRoundTrip.ofWord (op := 0x80) (by decide) rfl rfl rfl rfl rfl
theorem DecodeRoundTrip.flog2m (f : Fields) : DecodeRoundTrip.Statement (.flog2m f) := DecodeRoundTrip.ofWord (op := 0x81) (by decide) rfl rfl rfl rfl rfl
theorem DecodeRoundTrip.frcp (f : Fields) : DecodeRoundTrip.Statement (.frcp f) := DecodeRoundTrip.ofWord (op := 0x82) (by decide) rfl rfl rfl rfl rfl
theorem DecodeRoundTrip.frsq (f : Fields) : DecodeRoundTrip.Statement (.frsq f) := DecodeRoundTrip.ofWord (op := 0x83) (by decide) rfl rfl rfl rfl rfl
theorem DecodeRoundTrip.fsin1 (f : Fields) : DecodeRoundTrip.Statement (.fsin1 f) := DecodeRoundTrip.ofWord (op := 0x84) (by decide) rfl rfl rfl rfl rfl
theorem DecodeRoundTrip.fcos1 (f : Fields) : DecodeRoundTrip.Statement (.fcos1 f) := DecodeRoundTrip.ofWord (op := 0x85) (by decide) rfl rfl rfl rfl rfl
theorem DecodeRoundTrip.ftanh (f : Fields) : DecodeRoundTrip.Statement (.ftanh f) := DecodeRoundTrip.ofWord (op := 0x86) (by decide) rfl rfl rfl rfl rfl
theorem DecodeRoundTrip.fsigm (f : Fields) : DecodeRoundTrip.Statement (.fsigm f) := DecodeRoundTrip.ofWord (op := 0x87) (by decide) rfl rfl rfl rfl rfl
theorem DecodeRoundTrip.ferf (f : Fields) : DecodeRoundTrip.Statement (.ferf f) := DecodeRoundTrip.ofWord (op := 0x88) (by decide) rfl rfl rfl rfl rfl
theorem DecodeRoundTrip.vsplit (f : Fields) : DecodeRoundTrip.Statement (.vsplit f) := DecodeRoundTrip.ofWord (op := 0x90) (by decide) rfl rfl rfl rfl rfl
theorem DecodeRoundTrip.vjoin (f : Fields) : DecodeRoundTrip.Statement (.vjoin f) := DecodeRoundTrip.ofWord (op := 0x91) (by decide) rfl rfl rfl rfl rfl
theorem DecodeRoundTrip.vbcast (f : Fields) : DecodeRoundTrip.Statement (.vbcast f) := DecodeRoundTrip.ofWord (op := 0x92) (by decide) rfl rfl rfl rfl rfl
theorem DecodeRoundTrip.vredadd (f : Fields) : DecodeRoundTrip.Statement (.vredadd f) := DecodeRoundTrip.ofWord (op := 0x93) (by decide) rfl rfl rfl rfl rfl
theorem DecodeRoundTrip.vredmax (f : Fields) : DecodeRoundTrip.Statement (.vredmax f) := DecodeRoundTrip.ofWord (op := 0x94) (by decide) rfl rfl rfl rfl rfl
theorem DecodeRoundTrip.vredmin (f : Fields) : DecodeRoundTrip.Statement (.vredmin f) := DecodeRoundTrip.ofWord (op := 0x95) (by decide) rfl rfl rfl rfl rfl
theorem DecodeRoundTrip.vscan (f : Fields) : DecodeRoundTrip.Statement (.vscan f) := DecodeRoundTrip.ofWord (op := 0x96) (by decide) rfl rfl rfl rfl rfl
theorem DecodeRoundTrip.vperm (f : Fields) : DecodeRoundTrip.Statement (.vperm f) := DecodeRoundTrip.ofWord (op := 0x97) (by decide) rfl rfl rfl rfl rfl
theorem DecodeRoundTrip.vslide (f : Fields) : DecodeRoundTrip.Statement (.vslide f) := DecodeRoundTrip.ofWord (op := 0x98) (by decide) rfl rfl rfl rfl rfl
theorem DecodeRoundTrip.vcompact (f : Fields) : DecodeRoundTrip.Statement (.vcompact f) := DecodeRoundTrip.ofWord (op := 0x99) (by decide) rfl rfl rfl rfl rfl
theorem DecodeRoundTrip.vexpand (f : Fields) : DecodeRoundTrip.Statement (.vexpand f) := DecodeRoundTrip.ofWord (op := 0x9A) (by decide) rfl rfl rfl rfl rfl
theorem DecodeRoundTrip.viota (f : Fields) : DecodeRoundTrip.Statement (.viota f) := DecodeRoundTrip.ofWord (op := 0x9B) (by decide) rfl rfl rfl rfl rfl
theorem DecodeRoundTrip.vfredadd (f : Fields) : DecodeRoundTrip.Statement (.vfredadd f) := DecodeRoundTrip.ofWord (op := 0x9C) (by decide) rfl rfl rfl rfl rfl
theorem DecodeRoundTrip.vlen (f : Fields) : DecodeRoundTrip.Statement (.vlen f) := DecodeRoundTrip.ofWord (op := 0x9D) (by decide) rfl rfl rfl rfl rfl
theorem DecodeRoundTrip.vdot (f : Fields) : DecodeRoundTrip.Statement (.vdot f) := DecodeRoundTrip.ofWord (op := 0x9E) (by decide) rfl rfl rfl rfl rfl
theorem DecodeRoundTrip.tld (f : Fields) : DecodeRoundTrip.Statement (.tld f) := DecodeRoundTrip.ofWord (op := 0xA0) (by decide) rfl rfl rfl rfl rfl
theorem DecodeRoundTrip.tst (f : Fields) : DecodeRoundTrip.Statement (.tst f) := DecodeRoundTrip.ofWord (op := 0xA1) (by decide) rfl rfl rfl rfl rfl
theorem DecodeRoundTrip.mma (f : Fields) : DecodeRoundTrip.Statement (.mma f) := DecodeRoundTrip.ofWord (op := 0xA2) (by decide) rfl rfl rfl rfl rfl
theorem DecodeRoundTrip.mmaz (f : Fields) : DecodeRoundTrip.Statement (.mmaz f) := DecodeRoundTrip.ofWord (op := 0xA3) (by decide) rfl rfl rfl rfl rfl
theorem DecodeRoundTrip.tcvt (f : Fields) : DecodeRoundTrip.Statement (.tcvt f) := DecodeRoundTrip.ofWord (op := 0xA4) (by decide) rfl rfl rfl rfl rfl
theorem DecodeRoundTrip.ttrans (f : Fields) : DecodeRoundTrip.Statement (.ttrans f) := DecodeRoundTrip.ofWord (op := 0xA5) (by decide) rfl rfl rfl rfl rfl
theorem DecodeRoundTrip.tadd (f : Fields) : DecodeRoundTrip.Statement (.tadd f) := DecodeRoundTrip.ofWord (op := 0xA6) (by decide) rfl rfl rfl rfl rfl
theorem DecodeRoundTrip.tscale (f : Fields) : DecodeRoundTrip.Statement (.tscale f) := DecodeRoundTrip.ofWord (op := 0xA7) (by decide) rfl rfl rfl rfl rfl
theorem DecodeRoundTrip.gemvb (f : Fields) : DecodeRoundTrip.Statement (.gemvb f) := DecodeRoundTrip.ofWord (op := 0xA8) (by decide) rfl rfl rfl rfl rfl
theorem DecodeRoundTrip.cbload (f : Fields) : DecodeRoundTrip.Statement (.cbload f) := DecodeRoundTrip.ofWord (op := 0xA9) (by decide) rfl rfl rfl rfl rfl
theorem DecodeRoundTrip.tstat (f : Fields) : DecodeRoundTrip.Statement (.tstat f) := DecodeRoundTrip.ofWord (op := 0xAA) (by decide) rfl rfl rfl rfl rfl
theorem DecodeRoundTrip.tfill (f : Fields) : DecodeRoundTrip.Statement (.tfill f) := DecodeRoundTrip.ofWord (op := 0xAB) (by decide) rfl rfl rfl rfl rfl
theorem DecodeRoundTrip.tslice (f : Fields) : DecodeRoundTrip.Statement (.tslice f) := DecodeRoundTrip.ofWord (op := 0xAC) (by decide) rfl rfl rfl rfl rfl
theorem DecodeRoundTrip.tbuild (f : Fields) : DecodeRoundTrip.Statement (.tbuild f) := DecodeRoundTrip.ofWord (op := 0xAD) (by decide) rfl rfl rfl rfl rfl
theorem DecodeRoundTrip.sopen (f : Fields) : DecodeRoundTrip.Statement (.sopen f) := DecodeRoundTrip.ofWord (op := 0xB0) (by decide) rfl rfl rfl rfl rfl
theorem DecodeRoundTrip.sread (f : Fields) : DecodeRoundTrip.Statement (.sread f) := DecodeRoundTrip.ofWord (op := 0xB1) (by decide) rfl rfl rfl rfl rfl
theorem DecodeRoundTrip.swrite (f : Fields) : DecodeRoundTrip.Statement (.swrite f) := DecodeRoundTrip.ofWord (op := 0xB2) (by decide) rfl rfl rfl rfl rfl
theorem DecodeRoundTrip.sclose (f : Fields) : DecodeRoundTrip.Statement (.sclose f) := DecodeRoundTrip.ofWord (op := 0xB3) (by decide) rfl rfl rfl rfl rfl
theorem DecodeRoundTrip.isect (f : Fields) : DecodeRoundTrip.Statement (.isect f) := DecodeRoundTrip.ofWord (op := 0xB4) (by decide) rfl rfl rfl rfl rfl
theorem DecodeRoundTrip.union (f : Fields) : DecodeRoundTrip.Statement (.union f) := DecodeRoundTrip.ofWord (op := 0xB5) (by decide) rfl rfl rfl rfl rfl
theorem DecodeRoundTrip.spaacc (f : Fields) : DecodeRoundTrip.Statement (.spaacc f) := DecodeRoundTrip.ofWord (op := 0xB6) (by decide) rfl rfl rfl rfl rfl
theorem DecodeRoundTrip.spaflush (f : Fields) : DecodeRoundTrip.Statement (.spaflush f) := DecodeRoundTrip.ofWord (op := 0xB7) (by decide) rfl rfl rfl rfl rfl
theorem DecodeRoundTrip.stoplvl (f : Fields) : DecodeRoundTrip.Statement (.stoplvl f) := DecodeRoundTrip.ofWord (op := 0xB8) (by decide) rfl rfl rfl rfl rfl
theorem DecodeRoundTrip.scount (f : Fields) : DecodeRoundTrip.Statement (.scount f) := DecodeRoundTrip.ofWord (op := 0xB9) (by decide) rfl rfl rfl rfl rfl
theorem DecodeRoundTrip.copy (f : Fields) : DecodeRoundTrip.Statement (.copy f) := DecodeRoundTrip.ofWord (op := 0xC0) (by decide) rfl rfl rfl rfl rfl
theorem DecodeRoundTrip.copym (f : Fields) : DecodeRoundTrip.Statement (.copym f) := DecodeRoundTrip.ofWord (op := 0xC1) (by decide) rfl rfl rfl rfl rfl
theorem DecodeRoundTrip.copy2d (f : Fields) : DecodeRoundTrip.Statement (.copy2d f) := DecodeRoundTrip.ofWord (op := 0xC2) (by decide) rfl rfl rfl rfl rfl
theorem DecodeRoundTrip.shadow (f : Fields) : DecodeRoundTrip.Statement (.shadow f) := DecodeRoundTrip.ofWord (op := 0xC3) (by decide) rfl rfl rfl rfl rfl
theorem DecodeRoundTrip.publish (f : Fields) : DecodeRoundTrip.Statement (.publish f) := DecodeRoundTrip.ofWord (op := 0xC4) (by decide) rfl rfl rfl rfl rfl
theorem DecodeRoundTrip.feset (f : Fields) : DecodeRoundTrip.Statement (.feset f) := DecodeRoundTrip.ofWord (op := 0xC5) (by decide) rfl rfl rfl rfl rfl
theorem DecodeRoundTrip.feclr (f : Fields) : DecodeRoundTrip.Statement (.feclr f) := DecodeRoundTrip.ofWord (op := 0xC6) (by decide) rfl rfl rfl rfl rfl
theorem DecodeRoundTrip.copystat (f : Fields) : DecodeRoundTrip.Statement (.copystat f) := DecodeRoundTrip.ofWord (op := 0xC7) (by decide) rfl rfl rfl rfl rfl
theorem DecodeRoundTrip.waymask (f : Fields) : DecodeRoundTrip.Statement (.waymask f) := DecodeRoundTrip.ofWord (op := 0xC8) (by decide) rfl rfl rfl rfl rfl
theorem DecodeRoundTrip.alloc (f : Fields) : DecodeRoundTrip.Statement (.alloc f) := DecodeRoundTrip.ofWord (op := 0xC9) (by decide) rfl rfl rfl rfl rfl
theorem DecodeRoundTrip.free (f : Fields) : DecodeRoundTrip.Statement (.free f) := DecodeRoundTrip.ofWord (op := 0xCA) (by decide) rfl rfl rfl rfl rfl
theorem DecodeRoundTrip.ringreg (f : Fields) : DecodeRoundTrip.Statement (.ringreg f) := DecodeRoundTrip.ofWord (op := 0xD0) (by decide) rfl rfl rfl rfl rfl
theorem DecodeRoundTrip.msend (f : Fields) : DecodeRoundTrip.Statement (.msend f) := DecodeRoundTrip.ofWord (op := 0xD1) (by decide) rfl rfl rfl rfl rfl
theorem DecodeRoundTrip.mrecv (f : Fields) : DecodeRoundTrip.Statement (.mrecv f) := DecodeRoundTrip.ofWord (op := 0xD2) (by decide) rfl rfl rfl rfl rfl
theorem DecodeRoundTrip.mpeek (f : Fields) : DecodeRoundTrip.Statement (.mpeek f) := DecodeRoundTrip.ofWord (op := 0xD3) (by decide) rfl rfl rfl rfl rfl
theorem DecodeRoundTrip.mack (f : Fields) : DecodeRoundTrip.Statement (.mack f) := DecodeRoundTrip.ofWord (op := 0xD4) (by decide) rfl rfl rfl rfl rfl
theorem DecodeRoundTrip.ringdereg (f : Fields) : DecodeRoundTrip.Statement (.ringdereg f) := DecodeRoundTrip.ofWord (op := 0xD5) (by decide) rfl rfl rfl rfl rfl
theorem DecodeRoundTrip.trap (f : Fields) : DecodeRoundTrip.Statement (.trap f) := DecodeRoundTrip.ofWord (op := 0xE0) (by decide) rfl rfl rfl rfl rfl
theorem DecodeRoundTrip.syscall (f : Fields) : DecodeRoundTrip.Statement (.syscall f) := DecodeRoundTrip.ofWord (op := 0xE1) (by decide) rfl rfl rfl rfl rfl
theorem DecodeRoundTrip.rdsys (f : Fields) : DecodeRoundTrip.Statement (.rdsys f) := DecodeRoundTrip.ofWord (op := 0xE2) (by decide) rfl rfl rfl rfl rfl
theorem DecodeRoundTrip.wrsys (f : Fields) : DecodeRoundTrip.Statement (.wrsys f) := DecodeRoundTrip.ofWord (op := 0xE3) (by decide) rfl rfl rfl rfl rfl
theorem DecodeRoundTrip.yield (f : Fields) : DecodeRoundTrip.Statement (.yield f) := DecodeRoundTrip.ofWord (op := 0xE4) (by decide) rfl rfl rfl rfl rfl
theorem DecodeRoundTrip.halt (f : Fields) : DecodeRoundTrip.Statement (.halt f) := DecodeRoundTrip.ofWord (op := 0xE5) (by decide) rfl rfl rfl rfl rfl
theorem DecodeRoundTrip.taskdone (f : Fields) : DecodeRoundTrip.Statement (.taskdone f) := DecodeRoundTrip.ofWord (op := 0xE6) (by decide) rfl rfl rfl rfl rfl
theorem DecodeRoundTrip.taskspawn (f : Fields) : DecodeRoundTrip.Statement (.taskspawn f) := DecodeRoundTrip.ofWord (op := 0xE7) (by decide) rfl rfl rfl rfl rfl
theorem DecodeRoundTrip.workid (f : Fields) : DecodeRoundTrip.Statement (.workid f) := DecodeRoundTrip.ofWord (op := 0xE8) (by decide) rfl rfl rfl rfl rfl
theorem DecodeRoundTrip.perfrd (f : Fields) : DecodeRoundTrip.Statement (.perfrd f) := DecodeRoundTrip.ofWord (op := 0xE9) (by decide) rfl rfl rfl rfl rfl
theorem DecodeRoundTrip.break (f : Fields) : DecodeRoundTrip.Statement (.break f) := DecodeRoundTrip.ofWord (op := 0xEA) (by decide) rfl rfl rfl rfl rfl
theorem DecodeRoundTrip.assert (f : Fields) : DecodeRoundTrip.Statement (.assert f) := DecodeRoundTrip.ofWord (op := 0xEB) (by decide) rfl rfl rfl rfl rfl
theorem DecodeRoundTrip.elog (f : Fields) : DecodeRoundTrip.Statement (.elog f) := DecodeRoundTrip.ofWord (op := 0xEC) (by decide) rfl rfl rfl rfl rfl
theorem DecodeRoundTrip.clock (f : Fields) : DecodeRoundTrip.Statement (.clock f) := DecodeRoundTrip.ofWord (op := 0xED) (by decide) rfl rfl rfl rfl rfl

end Sys2Proof.Laws
end

