-- ==== Sys2Proof/Laws/Send.lean ====
section
/-! SUPPORT. What the sending of a token changes (R195 to R203, R307, R356): the lemma of each operation says that it is
`Quiet`, and callers cite it and do not unfold the operation. -/

namespace Sys2Proof.Machine

theorem Quiet.rfl' (s : State) : Quiet s s := by constructor <;> rfl

theorem Quiet.trans {s t u : State} (h : Quiet s t) (k : Quiet t u) : Quiet s u where
  parts := k.parts.trans h.parts
  ctxs := k.ctxs.trans h.ctxs
  mem := k.mem.trans h.mem
  work := k.work.trans h.work
  dev := by
    have := congrArg (fun d : Dev => { d with traps := s.dev.traps }) k.dev
    simpa using this.trans h.dev
  slots := k.slots.trans h.slots
  ctrs := k.ctrs.trans h.ctrs
  waiting := k.waiting.trans h.waiting
  ready := k.ready.trans h.ready
  sections := k.sections.trans h.sections
  channels := k.channels.trans h.channels
  run := by
    have := congrArg (fun d : Run => { d with nextId := s.run.nextId }) k.run
    simpa using this.trans h.run

/-- A fold of quiet steps is quiet. -/
theorem Quiet.foldl {α : Type} (f : State → α → State) (h : ∀ s a, Quiet s (f s a)) (l : List α) :
    ∀ s, Quiet s (l.foldl f s) := by
  induction l with
  | nil => exact fun s => Quiet.rfl' s
  | cons a l ih => exact fun s => (h s a).trans (ih (f s a))

variable (s : State)

theorem quiet_raise (w : Site) (t : Trap) : Quiet s (s.raise w t) := by constructor <;> rfl
theorem quiet_modElem (c e : Nat) (f : ElemState → ElemState) : Quiet s (s.modElem c e f) := by constructor <;> rfl
theorem quiet_newId : Quiet s s.newId.2 := by constructor <;> rfl

theorem quiet_resolve (p : Port) (n : Names) : Quiet s (s.resolve p n).2 := by
  unfold State.resolve
  simp only
  repeat' split
  all_goals first | exact Quiet.rfl' s | (constructor <;> rfl)

theorem quiet_hopIndex (p : Nat × Nat × Nat) (pos h : Nat × Nat) : Quiet s (s.hopIndex p pos h).2 := by
  unfold State.hopIndex
  simp only
  split
  · exact Quiet.rfl' s
  · constructor <;> rfl

theorem quiet_hopIndices (p : Nat × Nat × Nat) (l : List ((Nat × Nat) × (Nat × Nat))) : ∀ s : State, Quiet s (s.hopIndices p l).2 := by
  induction l with
  | nil => exact fun s => Quiet.rfl' s
  | cons x r ih => exact fun s => (quiet_hopIndex s p x.1 x.2).trans (ih _)

theorem quiet_injectPacket (p : Nat × Nat × Nat) (id n : Nat) (m : Bool) (path : List ((Nat × Nat) × (Nat × Nat))) (d : Nat) :
    Quiet s (s.injectPacket p id n m path d) := by
  unfold State.injectPacket
  refine (quiet_hopIndices p path s).trans ?_
  constructor <;> rfl

theorem quiet_hold (t : Token) : Quiet s { s with fab := { s.fab with held := s.fab.held ++ [t] } } := by constructor <;> rfl
theorem quiet_net (t : Token) : Quiet s { s with fab := { s.fab with net := s.fab.net ++ [t] } } := by constructor <;> rfl

theorem quiet_dispatchToken (p : Port) (route : Nat) (t : Token) : Quiet s (s.dispatchToken p route t) := by
  unfold State.dispatchToken
  simp only
  split
  · exact quiet_newId s
  · have h := (quiet_newId s).trans (quiet_resolve s.newId.2 p t.dest)
    split
    · exact h.trans (quiet_hold _ _)
    · split
      · exact h.trans ((quiet_net _ _).trans (quiet_injectPacket _ _ _ _ _ _ _))
      · exact h.trans (quiet_net _ _)

theorem quiet_sendPlain (w : Site) (p : Port) (l : W32) (t : Token) : Quiet s (s.sendPlain w p l t) := by
  unfold State.sendPlain
  repeat' split
  · exact Quiet.rfl' s
  · exact quiet_raise s _ _
  · exact quiet_dispatchToken s _ _ _

theorem quiet_sendList (w : Site) (p : Port) (t : Token) (l : List W32) : ∀ s : State, Quiet s (s.sendList w p t l) := by
  induction l with
  | nil => exact fun s => Quiet.rfl' s
  | cons a l ih =>
    intro s
    unfold State.sendList
    split
    · exact Quiet.rfl' s
    · exact (quiet_sendPlain s w p a t).trans (ih _)

theorem quiet_sendLink (w : Site) (p : Port) (l : W32) (t : Token) : Quiet s (s.sendLink w p l t) := by
  unfold State.sendLink
  repeat' split
  · exact Quiet.rfl' s
  · exact quiet_sendList w p t _ s
  · exact quiet_sendPlain s w p l t

theorem quiet_out (f : Firing) (ta : Nat) (lk : Bool) (t : Token) : Quiet s (s.out f ta lk t) := by
  unfold State.out
  simp only
  repeat' split
  all_goals first | exact quiet_sendLink _ _ _ _ _ | exact (quiet_raise s _ _).trans (quiet_sendLink _ _ _ _ _)

theorem quiet_sendPieces (f : Firing) (ta sel : Nat) (t : Token) (l : List (Nat × Nat × Bool)) :
    ∀ s : State, Quiet s (s.sendPieces f ta sel t l) := by
  induction l with
  | nil => exact fun s => Quiet.rfl' s
  | cons a l ih =>
    intro s
    obtain ⟨lo, n, p⟩ := a
    unfold State.sendPieces
    refine Quiet.trans ?_ (ih _)
    repeat' split
    all_goals first | exact Quiet.rfl' s | exact quiet_out s _ _ _ _

theorem quiet_sendStat (n : Names) (c tree : Nat) (r : StatRec) : Quiet s (s.sendStat n c tree r) := by
  unfold State.sendStat
  repeat' split
  all_goals first | exact Quiet.rfl' s | (constructor <;> rfl)

theorem quiet_tapCount (f : Firing) (n : Nat) : Quiet s (s.tapCount f n) :=
  (quiet_modElem s _ _ _).trans (quiet_sendStat _ _ _ _ _)

/-- A result is sent: nothing changes but what `Quiet` leaves free. -/
theorem quiet_sendTo (f : Firing) (ta d : Nat) (r : Res) : Quiet s (s.sendTo f ta d r) := by
  unfold State.sendTo
  simp only
  repeat' split
  all_goals first
    | exact Quiet.rfl' s
    | exact quiet_out s _ _ _ _
    | exact (quiet_out s _ _ _ _).trans (quiet_out _ _ _ _ _)
    | exact quiet_tapCount s _ _
    | exact quiet_sendPieces _ _ _ _ _ s

end Sys2Proof.Machine
end

