-- ==== Sys2Proof/Laws/Updates.lean ====
section
/-! SUPPORT. What each update of the caches, the operations, the engines and the rings leaves in each field of State: one lemma
for each, true by unfolding. Then where a byte of HBM stands, which is what R23
and R33 say of it, and that placement entries are read back from their words (R355). -/

namespace Sys2Proof.Machine

variable (s : State)

/-! ### modL1 -/

@[simp] theorem State.modL1_dev (c asid line : Nat) (f : L1Line → L1Line) : (s.modL1 c asid line f).dev = s.dev := rfl
@[simp] theorem State.modL1_parts (c asid line : Nat) (f : L1Line → L1Line) : (s.modL1 c asid line f).parts = s.parts := rfl
@[simp] theorem State.modL1_ctxs (c asid line : Nat) (f : L1Line → L1Line) : (s.modL1 c asid line f).ctxs = s.ctxs := rfl
@[simp] theorem State.modL1_fab (c asid line : Nat) (f : L1Line → L1Line) : (s.modL1 c asid line f).fab = s.fab := rfl
@[simp] theorem State.modL1_work (c asid line : Nat) (f : L1Line → L1Line) : (s.modL1 c asid line f).work = s.work := rfl
@[simp] theorem State.modL1_ldr (c asid line : Nat) (f : L1Line → L1Line) : (s.modL1 c asid line f).ldr = s.ldr := rfl
@[simp] theorem State.modL1_run (c asid line : Nat) (f : L1Line → L1Line) : (s.modL1 c asid line f).run = s.run := rfl
@[simp] theorem State.modL1_mem_hbm (c asid line : Nat) (f : L1Line → L1Line) : (s.modL1 c asid line f).mem.hbm = s.mem.hbm := rfl
@[simp] theorem State.modL1_mem_es (c asid line : Nat) (f : L1Line → L1Line) : (s.modL1 c asid line f).mem.es = s.mem.es := rfl
@[simp] theorem State.modL1_mem_cs (c asid line : Nat) (f : L1Line → L1Line) : (s.modL1 c asid line f).mem.cs = s.mem.cs := rfl
@[simp] theorem State.modL1_mem_ss (c asid line : Nat) (f : L1Line → L1Line) : (s.modL1 c asid line f).mem.ss = s.mem.ss := rfl
@[simp] theorem State.modL1_mem_full (c asid line : Nat) (f : L1Line → L1Line) : (s.modL1 c asid line f).mem.full = s.mem.full := rfl
@[simp] theorem State.modL1_mem_marks (c asid line : Nat) (f : L1Line → L1Line) : (s.modL1 c asid line f).mem.marks = s.mem.marks := rfl
@[simp] theorem State.modL1_mem_regions (c asid line : Nat) (f : L1Line → L1Line) : (s.modL1 c asid line f).mem.regions = s.mem.regions := rfl
@[simp] theorem State.modL1_mem_guards (c asid line : Nat) (f : L1Line → L1Line) : (s.modL1 c asid line f).mem.guards = s.mem.guards := rfl
@[simp] theorem State.modL1_mem_clways (c asid line : Nat) (f : L1Line → L1Line) : (s.modL1 c asid line f).mem.clways = s.mem.clways := rfl
@[simp] theorem State.modL1_mem_ways (c asid line : Nat) (f : L1Line → L1Line) : (s.modL1 c asid line f).mem.ways = s.mem.ways := rfl
@[simp] theorem State.modL1_l1 (c asid line : Nat) (f : L1Line → L1Line) : (s.modL1 c asid line f).mem.l1 = modAll (fun x => x.cluster == c && x.asid == asid && x.line == line) f s.mem.l1 := rfl
@[simp] theorem State.modL1_mem_l2 (c asid line : Nat) (f : L1Line → L1Line) : (s.modL1 c asid line f).mem.l2 = s.mem.l2 := rfl
@[simp] theorem State.modL1_mem_xlat (c asid line : Nat) (f : L1Line → L1Line) : (s.modL1 c asid line f).mem.xlat = s.mem.xlat := rfl
@[simp] theorem State.modL1_mem_reqs (c asid line : Nat) (f : L1Line → L1Line) : (s.modL1 c asid line f).mem.reqs = s.mem.reqs := rfl
@[simp] theorem State.modL1_mem_txns (c asid line : Nat) (f : L1Line → L1Line) : (s.modL1 c asid line f).mem.txns = s.mem.txns := rfl
@[simp] theorem State.modL1_mem_cmsgs (c asid line : Nat) (f : L1Line → L1Line) : (s.modL1 c asid line f).mem.cmsgs = s.mem.cmsgs := rfl
@[simp] theorem State.modL1_mem_leases (c asid line : Nat) (f : L1Line → L1Line) : (s.modL1 c asid line f).mem.leases = s.mem.leases := rfl

/-! ### dropL1 -/

@[simp] theorem State.dropL1_dev (c asid line : Nat) : (s.dropL1 c asid line).dev = s.dev := rfl
@[simp] theorem State.dropL1_parts (c asid line : Nat) : (s.dropL1 c asid line).parts = s.parts := rfl
@[simp] theorem State.dropL1_ctxs (c asid line : Nat) : (s.dropL1 c asid line).ctxs = s.ctxs := rfl
@[simp] theorem State.dropL1_fab (c asid line : Nat) : (s.dropL1 c asid line).fab = s.fab := rfl
@[simp] theorem State.dropL1_work (c asid line : Nat) : (s.dropL1 c asid line).work = s.work := rfl
@[simp] theorem State.dropL1_ldr (c asid line : Nat) : (s.dropL1 c asid line).ldr = s.ldr := rfl
@[simp] theorem State.dropL1_run (c asid line : Nat) : (s.dropL1 c asid line).run = s.run := rfl
@[simp] theorem State.dropL1_mem_hbm (c asid line : Nat) : (s.dropL1 c asid line).mem.hbm = s.mem.hbm := rfl
@[simp] theorem State.dropL1_mem_es (c asid line : Nat) : (s.dropL1 c asid line).mem.es = s.mem.es := rfl
@[simp] theorem State.dropL1_mem_cs (c asid line : Nat) : (s.dropL1 c asid line).mem.cs = s.mem.cs := rfl
@[simp] theorem State.dropL1_mem_ss (c asid line : Nat) : (s.dropL1 c asid line).mem.ss = s.mem.ss := rfl
@[simp] theorem State.dropL1_mem_full (c asid line : Nat) : (s.dropL1 c asid line).mem.full = s.mem.full := rfl
@[simp] theorem State.dropL1_mem_marks (c asid line : Nat) : (s.dropL1 c asid line).mem.marks = s.mem.marks := rfl
@[simp] theorem State.dropL1_mem_regions (c asid line : Nat) : (s.dropL1 c asid line).mem.regions = s.mem.regions := rfl
@[simp] theorem State.dropL1_mem_guards (c asid line : Nat) : (s.dropL1 c asid line).mem.guards = s.mem.guards := rfl
@[simp] theorem State.dropL1_mem_clways (c asid line : Nat) : (s.dropL1 c asid line).mem.clways = s.mem.clways := rfl
@[simp] theorem State.dropL1_mem_ways (c asid line : Nat) : (s.dropL1 c asid line).mem.ways = s.mem.ways := rfl
@[simp] theorem State.dropL1_l1 (c asid line : Nat) : (s.dropL1 c asid line).mem.l1 = s.mem.l1.filter fun x => !(x.cluster == c && x.asid == asid && x.line == line && !x.putting) := rfl
@[simp] theorem State.dropL1_mem_l2 (c asid line : Nat) : (s.dropL1 c asid line).mem.l2 = s.mem.l2 := rfl
@[simp] theorem State.dropL1_mem_xlat (c asid line : Nat) : (s.dropL1 c asid line).mem.xlat = s.mem.xlat := rfl
@[simp] theorem State.dropL1_mem_reqs (c asid line : Nat) : (s.dropL1 c asid line).mem.reqs = s.mem.reqs := rfl
@[simp] theorem State.dropL1_mem_txns (c asid line : Nat) : (s.dropL1 c asid line).mem.txns = s.mem.txns := rfl
@[simp] theorem State.dropL1_mem_cmsgs (c asid line : Nat) : (s.dropL1 c asid line).mem.cmsgs = s.mem.cmsgs := rfl
@[simp] theorem State.dropL1_mem_leases (c asid line : Nat) : (s.dropL1 c asid line).mem.leases = s.mem.leases := rfl

/-! ### modL2 -/

@[simp] theorem State.modL2_dev (sl asid line : Nat) (f : L2Line → L2Line) : (s.modL2 sl asid line f).dev = s.dev := rfl
@[simp] theorem State.modL2_parts (sl asid line : Nat) (f : L2Line → L2Line) : (s.modL2 sl asid line f).parts = s.parts := rfl
@[simp] theorem State.modL2_ctxs (sl asid line : Nat) (f : L2Line → L2Line) : (s.modL2 sl asid line f).ctxs = s.ctxs := rfl
@[simp] theorem State.modL2_fab (sl asid line : Nat) (f : L2Line → L2Line) : (s.modL2 sl asid line f).fab = s.fab := rfl
@[simp] theorem State.modL2_work (sl asid line : Nat) (f : L2Line → L2Line) : (s.modL2 sl asid line f).work = s.work := rfl
@[simp] theorem State.modL2_ldr (sl asid line : Nat) (f : L2Line → L2Line) : (s.modL2 sl asid line f).ldr = s.ldr := rfl
@[simp] theorem State.modL2_run (sl asid line : Nat) (f : L2Line → L2Line) : (s.modL2 sl asid line f).run = s.run := rfl
@[simp] theorem State.modL2_mem_hbm (sl asid line : Nat) (f : L2Line → L2Line) : (s.modL2 sl asid line f).mem.hbm = s.mem.hbm := rfl
@[simp] theorem State.modL2_mem_es (sl asid line : Nat) (f : L2Line → L2Line) : (s.modL2 sl asid line f).mem.es = s.mem.es := rfl
@[simp] theorem State.modL2_mem_cs (sl asid line : Nat) (f : L2Line → L2Line) : (s.modL2 sl asid line f).mem.cs = s.mem.cs := rfl
@[simp] theorem State.modL2_mem_ss (sl asid line : Nat) (f : L2Line → L2Line) : (s.modL2 sl asid line f).mem.ss = s.mem.ss := rfl
@[simp] theorem State.modL2_mem_full (sl asid line : Nat) (f : L2Line → L2Line) : (s.modL2 sl asid line f).mem.full = s.mem.full := rfl
@[simp] theorem State.modL2_mem_marks (sl asid line : Nat) (f : L2Line → L2Line) : (s.modL2 sl asid line f).mem.marks = s.mem.marks := rfl
@[simp] theorem State.modL2_mem_regions (sl asid line : Nat) (f : L2Line → L2Line) : (s.modL2 sl asid line f).mem.regions = s.mem.regions := rfl
@[simp] theorem State.modL2_mem_guards (sl asid line : Nat) (f : L2Line → L2Line) : (s.modL2 sl asid line f).mem.guards = s.mem.guards := rfl
@[simp] theorem State.modL2_mem_clways (sl asid line : Nat) (f : L2Line → L2Line) : (s.modL2 sl asid line f).mem.clways = s.mem.clways := rfl
@[simp] theorem State.modL2_mem_ways (sl asid line : Nat) (f : L2Line → L2Line) : (s.modL2 sl asid line f).mem.ways = s.mem.ways := rfl
@[simp] theorem State.modL2_mem_l1 (sl asid line : Nat) (f : L2Line → L2Line) : (s.modL2 sl asid line f).mem.l1 = s.mem.l1 := rfl
@[simp] theorem State.modL2_l2 (sl asid line : Nat) (f : L2Line → L2Line) : (s.modL2 sl asid line f).mem.l2 = modAll (fun x => x.slice == sl && x.asid == asid && x.line == line) f s.mem.l2 := rfl
@[simp] theorem State.modL2_mem_xlat (sl asid line : Nat) (f : L2Line → L2Line) : (s.modL2 sl asid line f).mem.xlat = s.mem.xlat := rfl
@[simp] theorem State.modL2_mem_reqs (sl asid line : Nat) (f : L2Line → L2Line) : (s.modL2 sl asid line f).mem.reqs = s.mem.reqs := rfl
@[simp] theorem State.modL2_mem_txns (sl asid line : Nat) (f : L2Line → L2Line) : (s.modL2 sl asid line f).mem.txns = s.mem.txns := rfl
@[simp] theorem State.modL2_mem_cmsgs (sl asid line : Nat) (f : L2Line → L2Line) : (s.modL2 sl asid line f).mem.cmsgs = s.mem.cmsgs := rfl
@[simp] theorem State.modL2_mem_leases (sl asid line : Nat) (f : L2Line → L2Line) : (s.modL2 sl asid line f).mem.leases = s.mem.leases := rfl

/-! ### modReq -/

@[simp] theorem State.modReq_dev (id : Nat) (f : HReq → HReq) : (s.modReq id f).dev = s.dev := rfl
@[simp] theorem State.modReq_parts (id : Nat) (f : HReq → HReq) : (s.modReq id f).parts = s.parts := rfl
@[simp] theorem State.modReq_ctxs (id : Nat) (f : HReq → HReq) : (s.modReq id f).ctxs = s.ctxs := rfl
@[simp] theorem State.modReq_fab (id : Nat) (f : HReq → HReq) : (s.modReq id f).fab = s.fab := rfl
@[simp] theorem State.modReq_work (id : Nat) (f : HReq → HReq) : (s.modReq id f).work = s.work := rfl
@[simp] theorem State.modReq_ldr (id : Nat) (f : HReq → HReq) : (s.modReq id f).ldr = s.ldr := rfl
@[simp] theorem State.modReq_run (id : Nat) (f : HReq → HReq) : (s.modReq id f).run = s.run := rfl
@[simp] theorem State.modReq_mem_hbm (id : Nat) (f : HReq → HReq) : (s.modReq id f).mem.hbm = s.mem.hbm := rfl
@[simp] theorem State.modReq_mem_es (id : Nat) (f : HReq → HReq) : (s.modReq id f).mem.es = s.mem.es := rfl
@[simp] theorem State.modReq_mem_cs (id : Nat) (f : HReq → HReq) : (s.modReq id f).mem.cs = s.mem.cs := rfl
@[simp] theorem State.modReq_mem_ss (id : Nat) (f : HReq → HReq) : (s.modReq id f).mem.ss = s.mem.ss := rfl
@[simp] theorem State.modReq_mem_full (id : Nat) (f : HReq → HReq) : (s.modReq id f).mem.full = s.mem.full := rfl
@[simp] theorem State.modReq_mem_marks (id : Nat) (f : HReq → HReq) : (s.modReq id f).mem.marks = s.mem.marks := rfl
@[simp] theorem State.modReq_mem_regions (id : Nat) (f : HReq → HReq) : (s.modReq id f).mem.regions = s.mem.regions := rfl
@[simp] theorem State.modReq_mem_guards (id : Nat) (f : HReq → HReq) : (s.modReq id f).mem.guards = s.mem.guards := rfl
@[simp] theorem State.modReq_mem_clways (id : Nat) (f : HReq → HReq) : (s.modReq id f).mem.clways = s.mem.clways := rfl
@[simp] theorem State.modReq_mem_ways (id : Nat) (f : HReq → HReq) : (s.modReq id f).mem.ways = s.mem.ways := rfl
@[simp] theorem State.modReq_mem_l1 (id : Nat) (f : HReq → HReq) : (s.modReq id f).mem.l1 = s.mem.l1 := rfl
@[simp] theorem State.modReq_mem_l2 (id : Nat) (f : HReq → HReq) : (s.modReq id f).mem.l2 = s.mem.l2 := rfl
@[simp] theorem State.modReq_mem_xlat (id : Nat) (f : HReq → HReq) : (s.modReq id f).mem.xlat = s.mem.xlat := rfl
@[simp] theorem State.modReq_reqs (id : Nat) (f : HReq → HReq) : (s.modReq id f).mem.reqs = modFirst (fun r => r.id == id) f s.mem.reqs := rfl
@[simp] theorem State.modReq_mem_txns (id : Nat) (f : HReq → HReq) : (s.modReq id f).mem.txns = s.mem.txns := rfl
@[simp] theorem State.modReq_mem_cmsgs (id : Nat) (f : HReq → HReq) : (s.modReq id f).mem.cmsgs = s.mem.cmsgs := rfl
@[simp] theorem State.modReq_mem_leases (id : Nat) (f : HReq → HReq) : (s.modReq id f).mem.leases = s.mem.leases := rfl

/-! ### dropReq -/

@[simp] theorem State.dropReq_dev (id : Nat) : (s.dropReq id).dev = s.dev := rfl
@[simp] theorem State.dropReq_parts (id : Nat) : (s.dropReq id).parts = s.parts := rfl
@[simp] theorem State.dropReq_ctxs (id : Nat) : (s.dropReq id).ctxs = s.ctxs := rfl
@[simp] theorem State.dropReq_fab (id : Nat) : (s.dropReq id).fab = s.fab := rfl
@[simp] theorem State.dropReq_work (id : Nat) : (s.dropReq id).work = s.work := rfl
@[simp] theorem State.dropReq_ldr (id : Nat) : (s.dropReq id).ldr = s.ldr := rfl
@[simp] theorem State.dropReq_run (id : Nat) : (s.dropReq id).run = s.run := rfl
@[simp] theorem State.dropReq_mem_hbm (id : Nat) : (s.dropReq id).mem.hbm = s.mem.hbm := rfl
@[simp] theorem State.dropReq_mem_es (id : Nat) : (s.dropReq id).mem.es = s.mem.es := rfl
@[simp] theorem State.dropReq_mem_cs (id : Nat) : (s.dropReq id).mem.cs = s.mem.cs := rfl
@[simp] theorem State.dropReq_mem_ss (id : Nat) : (s.dropReq id).mem.ss = s.mem.ss := rfl
@[simp] theorem State.dropReq_mem_full (id : Nat) : (s.dropReq id).mem.full = s.mem.full := rfl
@[simp] theorem State.dropReq_mem_marks (id : Nat) : (s.dropReq id).mem.marks = s.mem.marks := rfl
@[simp] theorem State.dropReq_mem_regions (id : Nat) : (s.dropReq id).mem.regions = s.mem.regions := rfl
@[simp] theorem State.dropReq_mem_guards (id : Nat) : (s.dropReq id).mem.guards = s.mem.guards := rfl
@[simp] theorem State.dropReq_mem_clways (id : Nat) : (s.dropReq id).mem.clways = s.mem.clways := rfl
@[simp] theorem State.dropReq_mem_ways (id : Nat) : (s.dropReq id).mem.ways = s.mem.ways := rfl
@[simp] theorem State.dropReq_mem_l1 (id : Nat) : (s.dropReq id).mem.l1 = s.mem.l1 := rfl
@[simp] theorem State.dropReq_mem_l2 (id : Nat) : (s.dropReq id).mem.l2 = s.mem.l2 := rfl
@[simp] theorem State.dropReq_mem_xlat (id : Nat) : (s.dropReq id).mem.xlat = s.mem.xlat := rfl
@[simp] theorem State.dropReq_reqs (id : Nat) : (s.dropReq id).mem.reqs = s.mem.reqs.filter fun r => r.id ≠ id := rfl
@[simp] theorem State.dropReq_mem_txns (id : Nat) : (s.dropReq id).mem.txns = s.mem.txns := rfl
@[simp] theorem State.dropReq_mem_cmsgs (id : Nat) : (s.dropReq id).mem.cmsgs = s.mem.cmsgs := rfl
@[simp] theorem State.dropReq_mem_leases (id : Nat) : (s.dropReq id).mem.leases = s.mem.leases := rfl

/-! ### setGuards -/

@[simp] theorem State.setGuards_dev (l : List (Level × Nat)) : (s.setGuards l).dev = s.dev := rfl
@[simp] theorem State.setGuards_parts (l : List (Level × Nat)) : (s.setGuards l).parts = s.parts := rfl
@[simp] theorem State.setGuards_ctxs (l : List (Level × Nat)) : (s.setGuards l).ctxs = s.ctxs := rfl
@[simp] theorem State.setGuards_fab (l : List (Level × Nat)) : (s.setGuards l).fab = s.fab := rfl
@[simp] theorem State.setGuards_work (l : List (Level × Nat)) : (s.setGuards l).work = s.work := rfl
@[simp] theorem State.setGuards_ldr (l : List (Level × Nat)) : (s.setGuards l).ldr = s.ldr := rfl
@[simp] theorem State.setGuards_run (l : List (Level × Nat)) : (s.setGuards l).run = s.run := rfl
@[simp] theorem State.setGuards_mem_hbm (l : List (Level × Nat)) : (s.setGuards l).mem.hbm = s.mem.hbm := rfl
@[simp] theorem State.setGuards_mem_es (l : List (Level × Nat)) : (s.setGuards l).mem.es = s.mem.es := rfl
@[simp] theorem State.setGuards_mem_cs (l : List (Level × Nat)) : (s.setGuards l).mem.cs = s.mem.cs := rfl
@[simp] theorem State.setGuards_mem_ss (l : List (Level × Nat)) : (s.setGuards l).mem.ss = s.mem.ss := rfl
@[simp] theorem State.setGuards_mem_full (l : List (Level × Nat)) : (s.setGuards l).mem.full = s.mem.full := rfl
@[simp] theorem State.setGuards_mem_marks (l : List (Level × Nat)) : (s.setGuards l).mem.marks = s.mem.marks := rfl
@[simp] theorem State.setGuards_mem_regions (l : List (Level × Nat)) : (s.setGuards l).mem.regions = s.mem.regions := rfl
@[simp] theorem State.setGuards_guards (l : List (Level × Nat)) : (s.setGuards l).mem.guards = s.mem.guards ++ l.filter fun g => !s.mem.guards.contains g := rfl
@[simp] theorem State.setGuards_mem_clways (l : List (Level × Nat)) : (s.setGuards l).mem.clways = s.mem.clways := rfl
@[simp] theorem State.setGuards_mem_ways (l : List (Level × Nat)) : (s.setGuards l).mem.ways = s.mem.ways := rfl
@[simp] theorem State.setGuards_mem_l1 (l : List (Level × Nat)) : (s.setGuards l).mem.l1 = s.mem.l1 := rfl
@[simp] theorem State.setGuards_mem_l2 (l : List (Level × Nat)) : (s.setGuards l).mem.l2 = s.mem.l2 := rfl
@[simp] theorem State.setGuards_mem_xlat (l : List (Level × Nat)) : (s.setGuards l).mem.xlat = s.mem.xlat := rfl
@[simp] theorem State.setGuards_mem_reqs (l : List (Level × Nat)) : (s.setGuards l).mem.reqs = s.mem.reqs := rfl
@[simp] theorem State.setGuards_mem_txns (l : List (Level × Nat)) : (s.setGuards l).mem.txns = s.mem.txns := rfl
@[simp] theorem State.setGuards_mem_cmsgs (l : List (Level × Nat)) : (s.setGuards l).mem.cmsgs = s.mem.cmsgs := rfl
@[simp] theorem State.setGuards_mem_leases (l : List (Level × Nat)) : (s.setGuards l).mem.leases = s.mem.leases := rfl

/-! ### modOp -/

@[simp] theorem State.modOp_dev (id : Nat) (f : Op → Op) : (s.modOp id f).dev = s.dev := rfl
@[simp] theorem State.modOp_parts (id : Nat) (f : Op → Op) : (s.modOp id f).parts = s.parts := rfl
@[simp] theorem State.modOp_ctxs (id : Nat) (f : Op → Op) : (s.modOp id f).ctxs = s.ctxs := rfl
@[simp] theorem State.modOp_fab (id : Nat) (f : Op → Op) : (s.modOp id f).fab = s.fab := rfl
@[simp] theorem State.modOp_mem (id : Nat) (f : Op → Op) : (s.modOp id f).mem = s.mem := rfl
@[simp] theorem State.modOp_ldr (id : Nat) (f : Op → Op) : (s.modOp id f).ldr = s.ldr := rfl
@[simp] theorem State.modOp_run (id : Nat) (f : Op → Op) : (s.modOp id f).run = s.run := rfl
@[simp] theorem State.modOp_ops (id : Nat) (f : Op → Op) : (s.modOp id f).work.ops = modFirst (fun o => o.id == id) f s.work.ops := rfl
@[simp] theorem State.modOp_work_gathers (id : Nat) (f : Op → Op) : (s.modOp id f).work.gathers = s.work.gathers := rfl
@[simp] theorem State.modOp_work_engs (id : Nat) (f : Op → Op) : (s.modOp id f).work.engs = s.work.engs := rfl
@[simp] theorem State.modOp_work_rings (id : Nat) (f : Op → Op) : (s.modOp id f).work.rings = s.work.rings := rfl
@[simp] theorem State.modOp_work_msgs (id : Nat) (f : Op → Op) : (s.modOp id f).work.msgs = s.work.msgs := rfl
@[simp] theorem State.modOp_work_waits (id : Nat) (f : Op → Op) : (s.modOp id f).work.waits = s.work.waits := rfl
@[simp] theorem State.modOp_work_outs (id : Nat) (f : Op → Op) : (s.modOp id f).work.outs = s.work.outs := rfl

/-! ### park -/

@[simp] theorem State.park_dev (o : Op) (ps : List Nat) : (s.park o ps).dev = s.dev := rfl
@[simp] theorem State.park_parts (o : Op) (ps : List Nat) : (s.park o ps).parts = s.parts := rfl
@[simp] theorem State.park_ctxs (o : Op) (ps : List Nat) : (s.park o ps).ctxs = s.ctxs := rfl
@[simp] theorem State.park_fab (o : Op) (ps : List Nat) : (s.park o ps).fab = s.fab := rfl
@[simp] theorem State.park_mem (o : Op) (ps : List Nat) : (s.park o ps).mem = s.mem := rfl
@[simp] theorem State.park_ldr (o : Op) (ps : List Nat) : (s.park o ps).ldr = s.ldr := rfl
@[simp] theorem State.park_run (o : Op) (ps : List Nat) : (s.park o ps).run = s.run := rfl
@[simp] theorem State.park_ops (o : Op) (ps : List Nat) : (s.park o ps).work.ops = (s.work.ops.filter fun x => x.id ≠ o.id) ++ [{ o with phase := .parked, params := ps }] := rfl
@[simp] theorem State.park_work_gathers (o : Op) (ps : List Nat) : (s.park o ps).work.gathers = s.work.gathers := rfl
@[simp] theorem State.park_work_engs (o : Op) (ps : List Nat) : (s.park o ps).work.engs = s.work.engs := rfl
@[simp] theorem State.park_work_rings (o : Op) (ps : List Nat) : (s.park o ps).work.rings = s.work.rings := rfl
@[simp] theorem State.park_work_msgs (o : Op) (ps : List Nat) : (s.park o ps).work.msgs = s.work.msgs := rfl
@[simp] theorem State.park_work_waits (o : Op) (ps : List Nat) : (s.park o ps).work.waits = s.work.waits := rfl
@[simp] theorem State.park_work_outs (o : Op) (ps : List Nat) : (s.park o ps).work.outs = s.work.outs := rfl

/-! ### modEng -/

@[simp] theorem State.modEng_dev (id : Nat) (f : EngOp → EngOp) : (s.modEng id f).dev = s.dev := rfl
@[simp] theorem State.modEng_parts (id : Nat) (f : EngOp → EngOp) : (s.modEng id f).parts = s.parts := rfl
@[simp] theorem State.modEng_ctxs (id : Nat) (f : EngOp → EngOp) : (s.modEng id f).ctxs = s.ctxs := rfl
@[simp] theorem State.modEng_fab (id : Nat) (f : EngOp → EngOp) : (s.modEng id f).fab = s.fab := rfl
@[simp] theorem State.modEng_mem (id : Nat) (f : EngOp → EngOp) : (s.modEng id f).mem = s.mem := rfl
@[simp] theorem State.modEng_ldr (id : Nat) (f : EngOp → EngOp) : (s.modEng id f).ldr = s.ldr := rfl
@[simp] theorem State.modEng_run (id : Nat) (f : EngOp → EngOp) : (s.modEng id f).run = s.run := rfl
@[simp] theorem State.modEng_work_ops (id : Nat) (f : EngOp → EngOp) : (s.modEng id f).work.ops = s.work.ops := rfl
@[simp] theorem State.modEng_work_gathers (id : Nat) (f : EngOp → EngOp) : (s.modEng id f).work.gathers = s.work.gathers := rfl
@[simp] theorem State.modEng_engs (id : Nat) (f : EngOp → EngOp) : (s.modEng id f).work.engs = modFirst (fun e => e.id == id) f s.work.engs := rfl
@[simp] theorem State.modEng_work_rings (id : Nat) (f : EngOp → EngOp) : (s.modEng id f).work.rings = s.work.rings := rfl
@[simp] theorem State.modEng_work_msgs (id : Nat) (f : EngOp → EngOp) : (s.modEng id f).work.msgs = s.work.msgs := rfl
@[simp] theorem State.modEng_work_waits (id : Nat) (f : EngOp → EngOp) : (s.modEng id f).work.waits = s.work.waits := rfl
@[simp] theorem State.modEng_work_outs (id : Nat) (f : EngOp → EngOp) : (s.modEng id f).work.outs = s.work.outs := rfl

/-! ### modRing -/

@[simp] theorem State.modRing_dev (c k : Nat) (f : Ring → Ring) : (s.modRing c k f).dev = s.dev := rfl
@[simp] theorem State.modRing_parts (c k : Nat) (f : Ring → Ring) : (s.modRing c k f).parts = s.parts := rfl
@[simp] theorem State.modRing_ctxs (c k : Nat) (f : Ring → Ring) : (s.modRing c k f).ctxs = s.ctxs := rfl
@[simp] theorem State.modRing_fab (c k : Nat) (f : Ring → Ring) : (s.modRing c k f).fab = s.fab := rfl
@[simp] theorem State.modRing_mem (c k : Nat) (f : Ring → Ring) : (s.modRing c k f).mem = s.mem := rfl
@[simp] theorem State.modRing_ldr (c k : Nat) (f : Ring → Ring) : (s.modRing c k f).ldr = s.ldr := rfl
@[simp] theorem State.modRing_run (c k : Nat) (f : Ring → Ring) : (s.modRing c k f).run = s.run := rfl
@[simp] theorem State.modRing_work_ops (c k : Nat) (f : Ring → Ring) : (s.modRing c k f).work.ops = s.work.ops := rfl
@[simp] theorem State.modRing_work_gathers (c k : Nat) (f : Ring → Ring) : (s.modRing c k f).work.gathers = s.work.gathers := rfl
@[simp] theorem State.modRing_work_engs (c k : Nat) (f : Ring → Ring) : (s.modRing c k f).work.engs = s.work.engs := rfl
@[simp] theorem State.modRing_rings (c k : Nat) (f : Ring → Ring) : (s.modRing c k f).work.rings = modFirst (fun r => r.cluster == c && r.slot == k) f s.work.rings := rfl
@[simp] theorem State.modRing_work_msgs (c k : Nat) (f : Ring → Ring) : (s.modRing c k f).work.msgs = s.work.msgs := rfl
@[simp] theorem State.modRing_work_waits (c k : Nat) (f : Ring → Ring) : (s.modRing c k f).work.waits = s.work.waits := rfl
@[simp] theorem State.modRing_work_outs (c k : Nat) (f : Ring → Ring) : (s.modRing c k f).work.outs = s.work.outs := rfl

/-! ### dropOut -/

@[simp] theorem State.dropOut_dev (id : Nat) : (s.dropOut id).dev = s.dev := rfl
@[simp] theorem State.dropOut_parts (id : Nat) : (s.dropOut id).parts = s.parts := rfl
@[simp] theorem State.dropOut_ctxs (id : Nat) : (s.dropOut id).ctxs = s.ctxs := rfl
@[simp] theorem State.dropOut_fab (id : Nat) : (s.dropOut id).fab = s.fab := rfl
@[simp] theorem State.dropOut_mem (id : Nat) : (s.dropOut id).mem = s.mem := rfl
@[simp] theorem State.dropOut_ldr (id : Nat) : (s.dropOut id).ldr = s.ldr := rfl
@[simp] theorem State.dropOut_run (id : Nat) : (s.dropOut id).run = s.run := rfl
@[simp] theorem State.dropOut_work_ops (id : Nat) : (s.dropOut id).work.ops = s.work.ops := rfl
@[simp] theorem State.dropOut_work_gathers (id : Nat) : (s.dropOut id).work.gathers = s.work.gathers := rfl
@[simp] theorem State.dropOut_work_engs (id : Nat) : (s.dropOut id).work.engs = s.work.engs := rfl
@[simp] theorem State.dropOut_work_rings (id : Nat) : (s.dropOut id).work.rings = s.work.rings := rfl
@[simp] theorem State.dropOut_work_msgs (id : Nat) : (s.dropOut id).work.msgs = s.work.msgs := rfl
@[simp] theorem State.dropOut_work_waits (id : Nat) : (s.dropOut id).work.waits = s.work.waits := rfl
@[simp] theorem State.dropOut_outs (id : Nat) : (s.dropOut id).work.outs = s.work.outs.filter fun q => q.id ≠ id := rfl

/-! ### answer -/

@[simp] theorem State.answer_dev (v : W64) : (s.answer v).dev = s.dev := rfl
@[simp] theorem State.answer_parts (v : W64) : (s.answer v).parts = s.parts := rfl
@[simp] theorem State.answer_ctxs (v : W64) : (s.answer v).ctxs = s.ctxs := rfl
@[simp] theorem State.answer_fab (v : W64) : (s.answer v).fab = s.fab := rfl
@[simp] theorem State.answer_mem (v : W64) : (s.answer v).mem = s.mem := rfl
@[simp] theorem State.answer_work (v : W64) : (s.answer v).work = s.work := rfl
@[simp] theorem State.answer_ldr (v : W64) : (s.answer v).ldr = s.ldr := rfl
@[simp] theorem State.answer_run_agenda (v : W64) : (s.answer v).run.agenda = s.run.agenda := rfl
@[simp] theorem State.answer_run_cur (v : W64) : (s.answer v).run.cur = s.run.cur := rfl
@[simp] theorem State.answer_run_subj (v : W64) : (s.answer v).run.subj = s.run.subj := rfl
@[simp] theorem State.answer_run_steps (v : W64) : (s.answer v).run.steps = s.run.steps := rfl
@[simp] theorem State.answer_run_fresh (v : W64) : (s.answer v).run.fresh = s.run.fresh := rfl
@[simp] theorem State.answer_run_nextId (v : W64) : (s.answer v).run.nextId = s.run.nextId := rfl
@[simp] theorem State.answer_busRead (v : W64) : (s.answer v).run.busRead = v := rfl
@[simp] theorem State.answer_run_done (v : W64) : (s.answer v).run.done = s.run.done := rfl

/-! ### gotOut -/

@[simp] theorem State.gotOut_dev (id sub : Nat) (v : W64) : (s.gotOut id sub v).dev = s.dev := rfl
@[simp] theorem State.gotOut_parts (id sub : Nat) (v : W64) : (s.gotOut id sub v).parts = s.parts := rfl
@[simp] theorem State.gotOut_ctxs (id sub : Nat) (v : W64) : (s.gotOut id sub v).ctxs = s.ctxs := rfl
@[simp] theorem State.gotOut_fab (id sub : Nat) (v : W64) : (s.gotOut id sub v).fab = s.fab := rfl
@[simp] theorem State.gotOut_mem (id sub : Nat) (v : W64) : (s.gotOut id sub v).mem = s.mem := rfl
@[simp] theorem State.gotOut_ldr (id sub : Nat) (v : W64) : (s.gotOut id sub v).ldr = s.ldr := rfl
@[simp] theorem State.gotOut_run (id sub : Nat) (v : W64) : (s.gotOut id sub v).run = s.run := rfl
@[simp] theorem State.gotOut_work_ops (id sub : Nat) (v : W64) : (s.gotOut id sub v).work.ops = s.work.ops := rfl
@[simp] theorem State.gotOut_work_gathers (id sub : Nat) (v : W64) : (s.gotOut id sub v).work.gathers = s.work.gathers := rfl
@[simp] theorem State.gotOut_work_engs (id sub : Nat) (v : W64) : (s.gotOut id sub v).work.engs = s.work.engs := rfl
@[simp] theorem State.gotOut_work_rings (id sub : Nat) (v : W64) : (s.gotOut id sub v).work.rings = s.work.rings := rfl
@[simp] theorem State.gotOut_work_msgs (id sub : Nat) (v : W64) : (s.gotOut id sub v).work.msgs = s.work.msgs := rfl
@[simp] theorem State.gotOut_work_waits (id sub : Nat) (v : W64) : (s.gotOut id sub v).work.waits = s.work.waits := rfl
@[simp] theorem State.gotOut_outs (id sub : Nat) (v : W64) : (s.gotOut id sub v).work.outs = modAll (fun q => q.id == id) (fun q => { q with got := some (sub, v) }) s.work.outs := rfl

/-! ### dropAsks -/

@[simp] theorem State.dropAsks_dev (k : OutsideWho) : (s.dropAsks k).dev = s.dev := rfl
@[simp] theorem State.dropAsks_parts (k : OutsideWho) : (s.dropAsks k).parts = s.parts := rfl
@[simp] theorem State.dropAsks_ctxs (k : OutsideWho) : (s.dropAsks k).ctxs = s.ctxs := rfl
@[simp] theorem State.dropAsks_fab (k : OutsideWho) : (s.dropAsks k).fab = s.fab := rfl
@[simp] theorem State.dropAsks_mem (k : OutsideWho) : (s.dropAsks k).mem = s.mem := rfl
@[simp] theorem State.dropAsks_ldr (k : OutsideWho) : (s.dropAsks k).ldr = s.ldr := rfl
@[simp] theorem State.dropAsks_run (k : OutsideWho) : (s.dropAsks k).run = s.run := rfl
@[simp] theorem State.dropAsks_work_ops (k : OutsideWho) : (s.dropAsks k).work.ops = s.work.ops := rfl
@[simp] theorem State.dropAsks_work_gathers (k : OutsideWho) : (s.dropAsks k).work.gathers = s.work.gathers := rfl
@[simp] theorem State.dropAsks_work_engs (k : OutsideWho) : (s.dropAsks k).work.engs = s.work.engs := rfl
@[simp] theorem State.dropAsks_work_rings (k : OutsideWho) : (s.dropAsks k).work.rings = s.work.rings := rfl
@[simp] theorem State.dropAsks_work_msgs (k : OutsideWho) : (s.dropAsks k).work.msgs = s.work.msgs := rfl
@[simp] theorem State.dropAsks_work_waits (k : OutsideWho) : (s.dropAsks k).work.waits = s.work.waits := rfl
@[simp] theorem State.dropAsks_outs (k : OutsideWho) : (s.dropAsks k).work.outs = s.work.outs.filter fun q => q.who ≠ k := rfl

/-! ### leaveLine -/

@[simp] theorem State.leaveLine_dev (who : Requester) : (s.leaveLine who).dev = s.dev := rfl
@[simp] theorem State.leaveLine_parts (who : Requester) : (s.leaveLine who).parts = s.parts := rfl
@[simp] theorem State.leaveLine_ctxs (who : Requester) : (s.leaveLine who).ctxs = s.ctxs := rfl
@[simp] theorem State.leaveLine_fab (who : Requester) : (s.leaveLine who).fab = s.fab := rfl
@[simp] theorem State.leaveLine_work (who : Requester) : (s.leaveLine who).work = s.work := rfl
@[simp] theorem State.leaveLine_ldr (who : Requester) : (s.leaveLine who).ldr = s.ldr := rfl
@[simp] theorem State.leaveLine_run (who : Requester) : (s.leaveLine who).run = s.run := rfl
@[simp] theorem State.leaveLine_mem_hbm (who : Requester) : (s.leaveLine who).mem.hbm = s.mem.hbm := rfl
@[simp] theorem State.leaveLine_mem_es (who : Requester) : (s.leaveLine who).mem.es = s.mem.es := rfl
@[simp] theorem State.leaveLine_mem_cs (who : Requester) : (s.leaveLine who).mem.cs = s.mem.cs := rfl
@[simp] theorem State.leaveLine_mem_ss (who : Requester) : (s.leaveLine who).mem.ss = s.mem.ss := rfl
@[simp] theorem State.leaveLine_mem_full (who : Requester) : (s.leaveLine who).mem.full = s.mem.full := rfl
@[simp] theorem State.leaveLine_mem_marks (who : Requester) : (s.leaveLine who).mem.marks = s.mem.marks := rfl
@[simp] theorem State.leaveLine_mem_regions (who : Requester) : (s.leaveLine who).mem.regions = s.mem.regions := rfl
@[simp] theorem State.leaveLine_mem_guards (who : Requester) : (s.leaveLine who).mem.guards = s.mem.guards := rfl
@[simp] theorem State.leaveLine_mem_clways (who : Requester) : (s.leaveLine who).mem.clways = s.mem.clways := rfl
@[simp] theorem State.leaveLine_mem_ways (who : Requester) : (s.leaveLine who).mem.ways = s.mem.ways := rfl
@[simp] theorem State.leaveLine_mem_l1 (who : Requester) : (s.leaveLine who).mem.l1 = s.mem.l1 := rfl
@[simp] theorem State.leaveLine_mem_l2 (who : Requester) : (s.leaveLine who).mem.l2 = s.mem.l2 := rfl
@[simp] theorem State.leaveLine_mem_xlat (who : Requester) : (s.leaveLine who).mem.xlat = s.mem.xlat := rfl
@[simp] theorem State.leaveLine_reqs (who : Requester) : (s.leaveLine who).mem.reqs = s.mem.reqs.filter fun r => r.from_ ≠ who := rfl
@[simp] theorem State.leaveLine_mem_txns (who : Requester) : (s.leaveLine who).mem.txns = s.mem.txns := rfl
@[simp] theorem State.leaveLine_mem_cmsgs (who : Requester) : (s.leaveLine who).mem.cmsgs = s.mem.cmsgs := rfl
@[simp] theorem State.leaveLine_mem_leases (who : Requester) : (s.leaveLine who).mem.leases = s.mem.leases := rfl

/-! ### answered -/

@[simp] theorem State.answered_parts (id : Nat) : (s.answered id).parts = s.parts := rfl
@[simp] theorem State.answered_ctxs (id : Nat) : (s.answered id).ctxs = s.ctxs := rfl
@[simp] theorem State.answered_fab (id : Nat) : (s.answered id).fab = s.fab := rfl
@[simp] theorem State.answered_mem (id : Nat) : (s.answered id).mem = s.mem := rfl
@[simp] theorem State.answered_work (id : Nat) : (s.answered id).work = s.work := rfl
@[simp] theorem State.answered_ldr (id : Nat) : (s.answered id).ldr = s.ldr := rfl
@[simp] theorem State.answered_run (id : Nat) : (s.answered id).run = s.run := rfl
@[simp] theorem State.answered_dev_clock (id : Nat) : (s.answered id).dev.clock = s.dev.clock := rfl
@[simp] theorem State.answered_dev_devid (id : Nat) : (s.answered id).dev.devid = s.dev.devid := rfl
@[simp] theorem State.answered_dev_strips (id : Nat) : (s.answered id).dev.strips = s.dev.strips := rfl
@[simp] theorem State.answered_dev_frames (id : Nat) : (s.answered id).dev.frames = s.dev.frames := rfl
@[simp] theorem State.answered_dev_layoutreq (id : Nat) : (s.answered id).dev.layoutreq = s.dev.layoutreq := rfl
@[simp] theorem State.answered_dev_layoutstat (id : Nat) : (s.answered id).dev.layoutstat = s.dev.layoutstat := rfl
@[simp] theorem State.answered_dev_layout (id : Nat) : (s.answered id).dev.layout = s.dev.layout := rfl
@[simp] theorem State.answered_dev_journal (id : Nat) : (s.answered id).dev.journal = s.dev.journal := rfl
@[simp] theorem State.answered_dev_exports (id : Nat) : (s.answered id).dev.exports = s.dev.exports := rfl
@[simp] theorem State.answered_dev_lsdcfg (id : Nat) : (s.answered id).dev.lsdcfg = s.dev.lsdcfg := rfl
@[simp] theorem State.answered_dev_board (id : Nat) : (s.answered id).dev.board = s.dev.board := rfl
@[simp] theorem State.answered_dev_lsdUp (id : Nat) : (s.answered id).dev.lsdUp = s.dev.lsdUp := rfl
@[simp] theorem State.answered_dev_lsoUp (id : Nat) : (s.answered id).dev.lsoUp = s.dev.lsoUp := rfl
@[simp] theorem State.answered_dev_bridge (id : Nat) : (s.answered id).dev.bridge = s.dev.bridge := rfl
@[simp] theorem State.answered_dev_pwrcap (id : Nat) : (s.answered id).dev.pwrcap = s.dev.pwrcap := rfl
@[simp] theorem State.answered_dev_thymectl (id : Nat) : (s.answered id).dev.thymectl = s.dev.thymectl := rfl
@[simp] theorem State.answered_dev_thyme (id : Nat) : (s.answered id).dev.thyme = s.dev.thyme := rfl
@[simp] theorem State.answered_dev_mbstat (id : Nat) : (s.answered id).dev.mbstat = s.dev.mbstat := rfl
@[simp] theorem State.answered_dev_reduced (id : Nat) : (s.answered id).dev.reduced = s.dev.reduced := rfl
@[simp] theorem State.answered_dev_kept (id : Nat) : (s.answered id).dev.kept = s.dev.kept := rfl
@[simp] theorem State.answered_dev_fast (id : Nat) : (s.answered id).dev.fast = s.dev.fast := rfl
@[simp] theorem State.answered_dev_grants (id : Nat) : (s.answered id).dev.grants = s.dev.grants := rfl
@[simp] theorem State.answered_dev_locks (id : Nat) : (s.answered id).dev.locks = s.dev.locks := rfl
@[simp] theorem State.answered_dev_posted (id : Nat) : (s.answered id).dev.posted = s.dev.posted := rfl
@[simp] theorem State.answered_asked (id : Nat) : (s.answered id).dev.asked = dropFirst (fun x => x.id == id) s.dev.asked := rfl
@[simp] theorem State.answered_dev_traps (id : Nat) : (s.answered id).dev.traps = s.dev.traps := rfl

/-! ### lock -/

@[simp] theorem State.lock_parts (pa : Nat) : (s.lock pa).parts = s.parts := rfl
@[simp] theorem State.lock_ctxs (pa : Nat) : (s.lock pa).ctxs = s.ctxs := rfl
@[simp] theorem State.lock_fab (pa : Nat) : (s.lock pa).fab = s.fab := rfl
@[simp] theorem State.lock_mem (pa : Nat) : (s.lock pa).mem = s.mem := rfl
@[simp] theorem State.lock_work (pa : Nat) : (s.lock pa).work = s.work := rfl
@[simp] theorem State.lock_ldr (pa : Nat) : (s.lock pa).ldr = s.ldr := rfl
@[simp] theorem State.lock_run (pa : Nat) : (s.lock pa).run = s.run := rfl
@[simp] theorem State.lock_dev_clock (pa : Nat) : (s.lock pa).dev.clock = s.dev.clock := rfl
@[simp] theorem State.lock_dev_devid (pa : Nat) : (s.lock pa).dev.devid = s.dev.devid := rfl
@[simp] theorem State.lock_dev_strips (pa : Nat) : (s.lock pa).dev.strips = s.dev.strips := rfl
@[simp] theorem State.lock_dev_frames (pa : Nat) : (s.lock pa).dev.frames = s.dev.frames := rfl
@[simp] theorem State.lock_dev_layoutreq (pa : Nat) : (s.lock pa).dev.layoutreq = s.dev.layoutreq := rfl
@[simp] theorem State.lock_dev_layoutstat (pa : Nat) : (s.lock pa).dev.layoutstat = s.dev.layoutstat := rfl
@[simp] theorem State.lock_dev_layout (pa : Nat) : (s.lock pa).dev.layout = s.dev.layout := rfl
@[simp] theorem State.lock_dev_journal (pa : Nat) : (s.lock pa).dev.journal = s.dev.journal := rfl
@[simp] theorem State.lock_dev_exports (pa : Nat) : (s.lock pa).dev.exports = s.dev.exports := rfl
@[simp] theorem State.lock_dev_lsdcfg (pa : Nat) : (s.lock pa).dev.lsdcfg = s.dev.lsdcfg := rfl
@[simp] theorem State.lock_dev_board (pa : Nat) : (s.lock pa).dev.board = s.dev.board := rfl
@[simp] theorem State.lock_dev_lsdUp (pa : Nat) : (s.lock pa).dev.lsdUp = s.dev.lsdUp := rfl
@[simp] theorem State.lock_dev_lsoUp (pa : Nat) : (s.lock pa).dev.lsoUp = s.dev.lsoUp := rfl
@[simp] theorem State.lock_dev_bridge (pa : Nat) : (s.lock pa).dev.bridge = s.dev.bridge := rfl
@[simp] theorem State.lock_dev_pwrcap (pa : Nat) : (s.lock pa).dev.pwrcap = s.dev.pwrcap := rfl
@[simp] theorem State.lock_dev_thymectl (pa : Nat) : (s.lock pa).dev.thymectl = s.dev.thymectl := rfl
@[simp] theorem State.lock_dev_thyme (pa : Nat) : (s.lock pa).dev.thyme = s.dev.thyme := rfl
@[simp] theorem State.lock_dev_mbstat (pa : Nat) : (s.lock pa).dev.mbstat = s.dev.mbstat := rfl
@[simp] theorem State.lock_dev_reduced (pa : Nat) : (s.lock pa).dev.reduced = s.dev.reduced := rfl
@[simp] theorem State.lock_dev_kept (pa : Nat) : (s.lock pa).dev.kept = s.dev.kept := rfl
@[simp] theorem State.lock_dev_fast (pa : Nat) : (s.lock pa).dev.fast = s.dev.fast := rfl
@[simp] theorem State.lock_dev_grants (pa : Nat) : (s.lock pa).dev.grants = s.dev.grants := rfl
@[simp] theorem State.lock_locks (pa : Nat) : (s.lock pa).dev.locks = lockIndex pa :: s.dev.locks := rfl
@[simp] theorem State.lock_dev_posted (pa : Nat) : (s.lock pa).dev.posted = s.dev.posted := rfl
@[simp] theorem State.lock_dev_asked (pa : Nat) : (s.lock pa).dev.asked = s.dev.asked := rfl
@[simp] theorem State.lock_dev_traps (pa : Nat) : (s.lock pa).dev.traps = s.dev.traps := rfl

/-! ### unlock -/

@[simp] theorem State.unlock_parts (pa : Nat) : (s.unlock pa).parts = s.parts := rfl
@[simp] theorem State.unlock_ctxs (pa : Nat) : (s.unlock pa).ctxs = s.ctxs := rfl
@[simp] theorem State.unlock_fab (pa : Nat) : (s.unlock pa).fab = s.fab := rfl
@[simp] theorem State.unlock_mem (pa : Nat) : (s.unlock pa).mem = s.mem := rfl
@[simp] theorem State.unlock_work (pa : Nat) : (s.unlock pa).work = s.work := rfl
@[simp] theorem State.unlock_ldr (pa : Nat) : (s.unlock pa).ldr = s.ldr := rfl
@[simp] theorem State.unlock_run (pa : Nat) : (s.unlock pa).run = s.run := rfl
@[simp] theorem State.unlock_dev_clock (pa : Nat) : (s.unlock pa).dev.clock = s.dev.clock := rfl
@[simp] theorem State.unlock_dev_devid (pa : Nat) : (s.unlock pa).dev.devid = s.dev.devid := rfl
@[simp] theorem State.unlock_dev_strips (pa : Nat) : (s.unlock pa).dev.strips = s.dev.strips := rfl
@[simp] theorem State.unlock_dev_frames (pa : Nat) : (s.unlock pa).dev.frames = s.dev.frames := rfl
@[simp] theorem State.unlock_dev_layoutreq (pa : Nat) : (s.unlock pa).dev.layoutreq = s.dev.layoutreq := rfl
@[simp] theorem State.unlock_dev_layoutstat (pa : Nat) : (s.unlock pa).dev.layoutstat = s.dev.layoutstat := rfl
@[simp] theorem State.unlock_dev_layout (pa : Nat) : (s.unlock pa).dev.layout = s.dev.layout := rfl
@[simp] theorem State.unlock_dev_journal (pa : Nat) : (s.unlock pa).dev.journal = s.dev.journal := rfl
@[simp] theorem State.unlock_dev_exports (pa : Nat) : (s.unlock pa).dev.exports = s.dev.exports := rfl
@[simp] theorem State.unlock_dev_lsdcfg (pa : Nat) : (s.unlock pa).dev.lsdcfg = s.dev.lsdcfg := rfl
@[simp] theorem State.unlock_dev_board (pa : Nat) : (s.unlock pa).dev.board = s.dev.board := rfl
@[simp] theorem State.unlock_dev_lsdUp (pa : Nat) : (s.unlock pa).dev.lsdUp = s.dev.lsdUp := rfl
@[simp] theorem State.unlock_dev_lsoUp (pa : Nat) : (s.unlock pa).dev.lsoUp = s.dev.lsoUp := rfl
@[simp] theorem State.unlock_dev_bridge (pa : Nat) : (s.unlock pa).dev.bridge = s.dev.bridge := rfl
@[simp] theorem State.unlock_dev_pwrcap (pa : Nat) : (s.unlock pa).dev.pwrcap = s.dev.pwrcap := rfl
@[simp] theorem State.unlock_dev_thymectl (pa : Nat) : (s.unlock pa).dev.thymectl = s.dev.thymectl := rfl
@[simp] theorem State.unlock_dev_thyme (pa : Nat) : (s.unlock pa).dev.thyme = s.dev.thyme := rfl
@[simp] theorem State.unlock_dev_mbstat (pa : Nat) : (s.unlock pa).dev.mbstat = s.dev.mbstat := rfl
@[simp] theorem State.unlock_dev_reduced (pa : Nat) : (s.unlock pa).dev.reduced = s.dev.reduced := rfl
@[simp] theorem State.unlock_dev_kept (pa : Nat) : (s.unlock pa).dev.kept = s.dev.kept := rfl
@[simp] theorem State.unlock_dev_fast (pa : Nat) : (s.unlock pa).dev.fast = s.dev.fast := rfl
@[simp] theorem State.unlock_dev_grants (pa : Nat) : (s.unlock pa).dev.grants = s.dev.grants := rfl
@[simp] theorem State.unlock_locks (pa : Nat) : (s.unlock pa).dev.locks = s.dev.locks.filter fun k => k ≠ lockIndex pa := rfl
@[simp] theorem State.unlock_dev_posted (pa : Nat) : (s.unlock pa).dev.posted = s.dev.posted := rfl
@[simp] theorem State.unlock_dev_asked (pa : Nat) : (s.unlock pa).dev.asked = s.dev.asked := rfl
@[simp] theorem State.unlock_dev_traps (pa : Nat) : (s.unlock pa).dev.traps = s.dev.traps := rfl

/-! ### HBM channels (R23, R33) -/

/-- A byte of local HBM stands in a channel of the strip whose window holds its PA. -/
theorem strip_paChannel (pa : Nat) : (paChannel pa).strip = pa / stripWindow := by
  simp only [paChannel, stripChannel, HbmChannel.strip]
  generalize pa / stripWindow = s
  generalize hk : nbits pa 11 8 = k
  have : k < 16 := by subst hk; simp only [nbits]; omega
  omega

/-- The strip-local channel of a PA is its bits [11:8]: the lower half at the top edge. -/
theorem edge_paChannel (pa : Nat) : (paChannel pa).edge = nbits pa 11 8 / 8 := by
  simp only [paChannel, stripChannel, HbmChannel.edge]
  generalize pa / stripWindow = s
  generalize hk : nbits pa 11 8 = k
  have : k < 16 := by subst hk; simp only [nbits]; omega
  omega

/-! ### Placement entries (R355) -/

/-- A placement entry is read back from its word. -/
theorem plEntry_word (e : PlEntry) (hc : e.place.cluster < 2048) (he : e.place.elem < 16) (hh : e.place.half < 2) :
    plEntry e.word = e := by
  obtain ⟨v, m, p, c, el, h⟩ := e
  simp only at hc he hh
  have bit_iff (w : W64) (i : Nat) : bit w i = decide (w.toNat / 2 ^ i % 2 = 1) := Nat.testBit_eq_decide_div_mod_eq
  simp only [plEntry, PlEntry.word, bit_iff, bits, w64, BitVec.toNat_ofNat, Nat.shiftRight_eq_div_pow, Nat.mod_eq_of_lt hc,
    Nat.mod_eq_of_lt he, Nat.mod_eq_of_lt hh]
  cases v <;> cases m <;> cases p <;> simp <;> omega

end Sys2Proof.Machine
end

