-- ==== Sys2Proof/Machine/Objects.lean ====
section
/-! DEFINITION. What the partition monitor, Thedom and its translator do with code objects (R436 to R441): a load and an unload as
functions of the machine's state, the calls and their refusals, and the container that a translator reads. They are software, whose
single accesses are rows of the table; no row performs one of them whole (log 60, DESIGN CHOICE). -/

namespace Sys2Proof.Machine

/-! ### KLOAD (R436, R437) -/

/-- The generation that follows one in a handle's entry: 0 is passed over (R437). -/
def nextGen (g : Nat) : Nat := if (g + 1) % 256 = 0 then 1 else (g + 1) % 256

/-- The entry of a handle; one that has never been written is zero. -/
def Part.entryAt (x : Part) (i : Nat) : Handle := x.handles.getD i ⟨0, 0, 0, 0⟩

/-- The lowest free index (R437). -/
def Part.freeHandle (x : Part) : Option Nat := (upto 65536).find? fun i => !bit (x.entryAt i).w0 8

/-- The leaf of a page of an image: V, RD, X, C and PIN are 1, W is 0 (R39, R437). -/
def imageLeaf (frame : Nat) : W64 := w64 (alignDown frame (2 ^ 16) + 0x169)

/-- Pages of 64 KiB of an image are copied into fresh frames and mapped; each page is the PA of its leaf and that of its frame. -/
def State.mapImage (s : State) : List (Nat × Nat) → List Byte → State
  | [], _ => s
  | (leaf, frame) :: r, bs =>
    ((s.writePa frame (bs.take 65536)).writePa leaf (leBytes 8 (imageLeaf frame).toNat)).mapImage r (bs.drop 65536)

/-- The entry that KLOAD writes for an image (R436, R437). -/
def loadedEntry (old : Handle) (owner base : Nat) (bs : List Byte) : Handle :=
  let w1 := numAt bs 8 8
  ⟨w64 (nbits w1 7 0 * 2 ^ 36 + nbits w1 11 8 * 2 ^ 28 + owner % 4096 * 2 ^ 16 + 2 ^ 8 + nextGen (bits old.w0 7 0)),
    w64 base, w64 bs.length, 0⟩

/-- KLOAD (R437, R441): the report of an object that sealing refuses; none where no index is free; else the handle, INDEX in [15:0]
and GEN in [23:16], and the machine with the object loaded. -/
def State.kload (s : State) (p owner base : Nat) (pages : List (Nat × Nat)) (bs : List Byte) :
    Except SealFault (Option (W64 × State)) :=
  match sealObject bs with
  | .error e => .error e
  | .ok _ =>
    .ok ((s.part p).freeHandle.map fun i =>
      let h := loadedEntry ((s.part p).entryAt i) owner base bs
      (w64 (bits h.w0 7 0 * 2 ^ 16 + i), (s.mapImage pages bs).modPart p fun x => { x with handles := x.handles.set i h }))

/-! ### KUNLOAD (R438) -/

/-- A launch that names the handle is held in a queue or running (R438). -/
def Part.launched (x : Part) (index gen : Nat) : Bool :=
  (x.held.any fun h => h.launch.index == index && h.launch.gen == gen)
    || x.running.any fun r => r.launch.index == index && r.launch.gen == gen

/-- The blocks of a handle's sections that stand on elements. -/
def State.objectBlocks (s : State) (p index gen : Nat) : List (Nat × Nat × PlEntry) :=
  (s.ldr.sections.filter fun x => x.part == p && x.index == index && x.gen == gen).flatMap fun x =>
    (x.places.filter fun e => e.1 < 4096 && !e.2.out).map fun e => (x.lsec, e.1, e.2)

/-- Every loaded block of a handle's sections leaves by one step of its eviction (R361, R438). -/
def State.evictObject (s : State) (p index gen : Nat) : State :=
  (s.objectBlocks p index gen).foldl (fun s b => s.evictOn p b.1 b.2.1 b.2.2 true) s

/-- What comes of a KUNLOAD: BUSY, a handle that names nothing, a step of it with more to come, or the object is gone. -/
inductive Unload where
  | busy | notFound | waits (s : State) | done (s : State)
deriving DecidableEq, Repr

/-- Pages are scrubbed, each while its leaf is valid, then unmapped and their translations invalidated (R51); a page is its IA and the
PA of its leaf. -/
def State.unmapImage (s : State) (p asid : Nat) : List (Nat × Nat) → Unload
  | [] => .done s
  | (ia, leaf) :: r =>
    let v := w64 (asid % 4096 * 2 ^ 52 + alignDown ia (2 ^ 16) % 2 ^ 52 + 16 * 2 ^ 10)
    match s.scrub p v with
    | .done t =>
      match (t.writePa leaf (leBytes 8 0)).xlatInv p v with
      | some u => u.unmapImage p asid r
      | none => .waits s
    | _ => .waits s

/-- KUNLOAD begins (R438): refused while a launch names the handle, and where its generation is not the entry's; else V is 0, and the
first step of the evictions is taken. -/
def State.kunload (s : State) (p : Nat) (handle : W64) : Unload :=
  let i := bits handle 15 0
  let g := bits handle 23 16
  let h := (s.part p).entryAt i
  if (s.part p).launched i g then .busy
  else if !bit h.w0 8 || bits h.w0 7 0 ≠ g then .notFound
  else
    .waits ((s.modPart p fun x => { x with handles := x.handles.set i { h with w0 := setBits h.w0 8 8 0 } }).evictObject p i g)

/-- KUNLOAD goes on (R438): while a block of the object stands on an element, by a step of the evictions; then the pages go. -/
def State.kunloadOn (s : State) (p : Nat) (handle : W64) (pages : List (Nat × Nat)) : Unload :=
  let i := bits handle 15 0
  let g := bits handle 23 16
  if (s.objectBlocks p i g).isEmpty then s.unmapImage p (bits ((s.part p).entryAt i).w0 27 16) pages
  else .waits (s.evictObject p i g)

/-! ### The calls (R441) -/

/-- From which sides a call may come: the control program, a device context; none of a number that names no call. -/
def callSides : Nat → Option (Bool × Bool)
  | 1 | 2 | 4 | 5 | 6 | 7 | 8 | 14 => some (true, false)
  | 3 | 9 | 10 | 11 | 12 => some (true, true)
  | 13 => some (false, true)
  | _ => none

/-- The errors of a call (R441). -/
def badArg : W64 := -1
def noMem : W64 := -2
def notFound : W64 := -3
def denied : W64 := -4
def busyReply : W64 := -5
def noSys : W64 := -6

/-- The error that refuses a call: NOSYS for a number that names none, DENIED from the wrong side; none where it is served. -/
def callRefused (device : Bool) (num : Nat) : Option W64 :=
  match callSides num with
  | none => some noSys
  | some (program, context) => if if device then context else program then none else some denied

/-- Arguments outside what the table of R441 admits: a priority above 3 (R387), a length above 4,096, an alignment
that is no power of two; they reply BADARG (log 110, DESIGN CHOICE). -/
def badArgs (num a0 a1 : Nat) : Bool :=
  match num with
  | 4 => 4 ≤ a0
  | 9 => 4096 < a1
  | 11 => a1 = 0 || a1 ≠ 2 ^ a1.log2
  | _ => false

/-- An error value. -/
def isError (v : W64) : Bool := -4095 ≤ v.toInt && v.toInt ≤ -1

/-- The replies that a served call may give (R441); `clock` counts fabric cycles, of which there are 1.6 in a nanosecond. -/
def callReplies (num a0 a1 clock : Nat) (v : W64) : Bool :=
  if badArgs num a0 a1 then v = badArg
  else
    isError v || match num with
    | 1 => bits v 63 24 = 0
    | 4 => v.toNat < 64
    | 2 | 5 | 6 | 7 | 12 => v = 0
    | 8 => a1 ≤ v.toNat
    | 9 => v.toNat ≤ a1
    | 10 => v = w64 (clock * 5 / 8)
    | 11 => v.toNat % a1 = 0
    | _ => true

/-- A leaf of a page that a call maps: V, C, and RD, W and X of the rights' bits 0 to 2 (R39; log 110, DESIGN CHOICE). -/
def userLeaf (frame rights : Nat) : W64 := w64 (alignDown frame (2 ^ 16) + 0x41 + rights % 8 * 8)

/-- MMAP: pages, each the PA of its leaf and that of its frame, are mapped. -/
def State.mmap (s : State) (rights : Nat) : List (Nat × Nat) → State
  | [] => s
  | (leaf, frame) :: r => (s.writePa leaf (leBytes 8 (userLeaf frame rights).toNat)).mmap rights r

/-- MUNMAP and HFREE: pages, each its IA and the PA of its leaf, are unmapped and scrubbed. -/
def State.munmap (s : State) (p asid : Nat) (pages : List (Nat × Nat)) : Unload := s.unmapImage p asid pages

/-- PIN: the leaves of pages are pinned (R39, R49). -/
def State.pinPages (s : State) : List Nat → State
  | [] => s
  | leaf :: r => (s.writePa leaf (leBytes 8 ((s.tableEntry leaf) ||| 0x100).toNat)).pinPages r

/-- WAITCTR: the counter's value once it has reached the target; none before. -/
def State.waitctr (s : State) (p asid ia target : Nat) : Option W64 :=
  match s.readNow p asid ia 8 none { rd := true } .plain .core with
  | .ok bs _ => if target ≤ leNat bs then some (w64 (leNat bs)) else none
  | _ => none

/-- NUM of a SYSCALL (R404). -/
def Op.callNum (o : Op) : Nat := bits o.lit 15 0

/-- A call of a context, as it is served (R441): TABORT kills the task, as CTXCTL OP 2 kills it, and has no reply; one that is refused,
and any other with the reply `v` that Thedom gives it, is answered. -/
def State.serveCall (s : State) (p c : Nat) (v : W64) : State :=
  match s.work.ops.find? fun o => o.kind = .syscall && o.phase = .parked && o.names.part == p && o.ctx == c with
  | none => s
  | some o =>
    match callRefused true o.callNum with
    | some e => s.answerSyscall p c e false
    | none => if o.callNum = 13 then s.killTask p (s.rootOf p c) else s.answerSyscall p c v false

/-! ### The Korcy container (R439, R440) -/

/-- A record: its KIND, SKIP, and the bytes after its head. -/
structure KcyRec where
  kind : Nat
  skip : Bool
  body : List Byte
deriving DecidableEq, Repr

/-- The next `n` records; none where one is cut short or its LENGTH is no multiple of 8. -/
def kcyRecords : Nat → List Byte → Option (List KcyRec)
  | 0, _ => some []
  | n + 1, bs =>
    let h := numAt bs 0 8
    let len := nbits h 63 32
    if bs.length < 8 + len || len % 8 ≠ 0 then none
    else (kcyRecords n (bs.drop (8 + len))).map fun r => ⟨nbits h 15 0, h.testBit 16, slice bs 8 len⟩ :: r

/-- The kinds of a record. -/
def kcyKinds : List Nat := [0x01, 0x10, 0x11, 0x12, 0x20, 0x30]

/-- A file as a translator that knows MAJOR 1 reads it: the records of known kinds; none where it refuses the file. -/
def kcyRead (bs : List Byte) : Option (List KcyRec) :=
  if bs.length < 32 || numAt bs 0 4 ≠ 0x594B524B || numAt bs 4 2 ≠ 1 || numAt bs 12 4 ≠ 0 || numAt bs 16 8 ≠ 0 || numAt bs 24 8 ≠ 0 then none
  else
    match kcyRecords (numAt bs 8 4) (bs.drop 32) with
    | none => none
    | some rs =>
      if rs.all fun r => kcyKinds.contains r.kind || r.skip then some (rs.filter fun r => kcyKinds.contains r.kind) else none

/-- The level that a function is built from, by its KIND: the scalar one with STRICT = 1, else the highest of those present that the
translator understands; none refuses the file (R440). -/
def kcyLevel (strict : Bool) (levels : List Nat) : Option Nat :=
  (if strict then [0x12] else [0x10, 0x11, 0x12]).find? fun k => levels.contains k

end Sys2Proof.Machine
end

