-- ==== Sys2Proof/Tests/Slice0.lean ====
section
/-! SUPPORT. Tests of the model on fixed values, taken from the spec's rules by hand, and the witnesses of the statements'
hypotheses: for each statement a state and operands that meet them. -/

namespace Sys2Proof.Machine

/-! ### Well-formedness (R189 to R207): an ill-formed term for each check -/

theorem test_wf_ok : Instr.wellFormed (.add ⟨0, 0x40, 0x41, 1, 0⟩) = true := by decide
theorem test_wf_tag_action : Instr.wellFormed (.add ⟨7, 0x40, 0x41, 1, 0⟩) = false := by decide
theorem test_wf_select : Instr.wellFormed (.add ⟨0, 0x50, 0x41, 1, 0⟩) = false := by decide
theorem test_wf_no_operand_b : Instr.wellFormed (.neg ⟨0, 0x40, 0x41, 1, 0⟩) = false := by decide
theorem test_wf_destination : Instr.wellFormed (.ld ⟨0, 0x40, 0x03, 4, 0⟩) = false := by decide
theorem test_wf_second_destination : Instr.wellFormed (.add ⟨0, 0x40, 0x41, 1, 1⟩) = false := by decide
theorem test_wf_partition : Instr.wellFormed (.xlatinv 16 0) = false := by decide
theorem test_wf_queue : Instr.wellFormed (.launchSubmit 0 64 0) = false := by decide
theorem test_wf_context : Instr.wellFormed (.sysFlagsrcRead 0 4096) = false := by decide
theorem test_wf_asid : Instr.wellFormed (.coreMemoryAccess 0 4096 ⟨.read, 3, 0, 0, 0, .i64⟩) = false := by decide
theorem test_wf_access : Instr.wellFormed (.peerAccess ⟨.read, 4, 0, 0, 0, .i64⟩) = false := by decide
theorem test_wf_cluster : Instr.wellFormed (.clwaysWrite 0 12 0) = false := by decide
theorem test_wf_grants : Instr.wellFormed (.powerPeriod (List.replicate 16 7)) = false := by decide
theorem test_wf_plan : Instr.wellFormed (.reducedServiceEnd [(1, 15, 2)] true) = false := by decide

/-! ### Decoding (R188, R204): words written out field by field, OP TA SA SB DA DB -/

theorem test_decode_add : decodeWord 0b00010000_0000_1000000_1001000_001_000#32 = .ok (.add ⟨0, 0x40, 0x48, 1, 0⟩) := by decide
theorem test_decode_ffma : decodeWord 0b01100011_0000_1000000_1000001_001_000#32 = .ok (.ffma ⟨0, 0x40, 0x41, 1, 0⟩) := by decide
theorem test_decode_fcvt : decodeWord 0b01110100_0000_1000000_1111111_001_000#32 = .ok (.fcvt ⟨0, 0x40, 0x7f, 1, 0⟩) := by decide
theorem test_decode_fsplit : decodeWord 0b01111100_0000_1000000_1111111_001_010#32 = .ok (.fsplit ⟨0, 0x40, 0x7f, 1, 2⟩) := by decide
theorem test_decode_vjoin : decodeWord 0b10010001_0000_1000000_1000001_001_000#32 = .ok (.vjoin ⟨0, 0x40, 0x41, 1, 0⟩) := by decide
theorem test_decode_fexp2f : decodeWord 0b10000000_0000_1000000_1111111_001_000#32 = .ok (.fexp2f ⟨0, 0x40, 0x7f, 1, 0⟩) := by decide
theorem test_decode_shl : decodeWord 0b00100101_0000_1000000_0001110_001_000#32 = .ok (.shl ⟨0, 0x40, 0xe, 1, 0⟩) := by decide
theorem test_decode_zext : decodeWord 0b00111101_0000_1000000_0001001_001_000#32 = .ok (.zext ⟨0, 0x40, 0x9, 1, 0⟩) := by decide
theorem test_decode_ld : decodeWord 0b01000000_0000_1000000_0000011_001_000#32 = .ok (.ld ⟨0, 0x40, 0x3, 1, 0⟩) := by decide
theorem test_decode_st : decodeWord 0b01000001_0000_1000000_1000001_000_000#32 = .ok (.st ⟨0, 0x40, 0x41, 0, 0⟩) := by decide
theorem test_decode_amoadd : decodeWord 0b01010000_0000_1000000_1000001_001_000#32 = .ok (.amoadd ⟨0, 0x40, 0x41, 1, 0⟩) := by decide
theorem test_decode_ctradd : decodeWord 0b01011011_0000_1000000_0000001_001_000#32 = .ok (.ctradd ⟨0, 0x40, 0x1, 1, 0⟩) := by decide
theorem test_decode_lease : decodeWord 0b01011101_0000_1000000_0001000_001_000#32 = .ok (.lease ⟨0, 0x40, 0x8, 1, 0⟩) := by decide
theorem test_decode_fence : decodeWord 0b01011111_0000_1000000_1111111_001_000#32 = .ok (.fence ⟨0, 0x40, 0x7f, 1, 0⟩) := by decide
theorem test_decode_region : decodeWord 0b01001001_0000_1000000_1111111_001_000#32 = .ok (.region ⟨0, 0x40, 0x7f, 1, 0⟩) := by decide
theorem test_decode_mnop : decodeWord 0b01000110_0000_1000000_1111111_000_000#32 = .ok (.mnop ⟨0, 0x40, 0x7f, 0, 0⟩) := by decide
theorem test_decode_tfill : decodeWord 0b10101011_0000_1000000_1111111_001_000#32 = .ok (.tfill ⟨0, 0x40, 0x7f, 1, 0⟩) := by decide
theorem test_decode_tcvt : decodeWord 0b10100100_0000_1000000_1000001_001_000#32 = .ok (.tcvt ⟨0, 0x40, 0x41, 1, 0⟩) := by decide
theorem test_decode_cbload : decodeWord 0b10101001_0000_1000000_1111111_001_000#32 = .ok (.cbload ⟨0, 0x40, 0x7f, 1, 0⟩) := by decide
theorem test_decode_tstat : decodeWord 0b10101010_0000_1000000_1111111_001_000#32 = .ok (.tstat ⟨0, 0x40, 0x7f, 1, 0⟩) := by decide
theorem test_decode_mmaz : decodeWord 0b10100011_0000_1000000_1000001_001_000#32 = .ok (.mmaz ⟨0, 0x40, 0x41, 1, 0⟩) := by decide
theorem test_decode_tld : decodeWord 0b10100000_0000_1000000_1111111_001_000#32 = .ok (.tld ⟨0, 0x40, 0x7f, 1, 0⟩) := by decide
theorem test_decode_isect : decodeWord 0b10110100_0000_1000000_1000001_001_010#32 = .ok (.isect ⟨0, 0x40, 0x41, 1, 2⟩) := by decide
theorem test_decode_spaacc : decodeWord 0b10110110_0000_1000000_1111111_001_000#32 = .ok (.spaacc ⟨0, 0x40, 0x7f, 1, 0⟩) := by decide
theorem test_decode_sopen : decodeWord 0b10110000_0000_1000000_1000001_000_000#32 = .ok (.sopen ⟨0, 0x40, 0x41, 0, 0⟩) := by decide
theorem test_decode_sclose : decodeWord 0b10110011_0000_1000000_1111111_001_000#32 = .ok (.sclose ⟨0, 0x40, 0x7f, 1, 0⟩) := by decide
theorem test_decode_ringreg : decodeWord 0b11010000_0000_1000000_1000001_001_000#32 = .ok (.ringreg ⟨0, 0x40, 0x41, 1, 0⟩) := by decide
theorem test_decode_msend : decodeWord 0b11010001_0000_1000000_1000001_000_000#32 = .ok (.msend ⟨0, 0x40, 0x41, 0, 0⟩) := by decide
theorem test_decode_mrecv : decodeWord 0b11010010_0000_1000000_1000001_000_000#32 = .ok (.mrecv ⟨0, 0x40, 0x41, 0, 0⟩) := by decide
theorem test_decode_mack : decodeWord 0b11010100_0000_1000000_0000001_000_000#32 = .ok (.mack ⟨0, 0x40, 0x1, 0, 0⟩) := by decide
theorem test_decode_ringdereg : decodeWord 0b11010101_0000_1000000_1111111_001_000#32 = .ok (.ringdereg ⟨0, 0x40, 0x7f, 1, 0⟩) := by decide
theorem test_decode_syscall : decodeWord 0b11100001_0000_1000000_1000001_001_000#32 = .ok (.syscall ⟨0, 0x40, 0x41, 1, 0⟩) := by decide
theorem test_decode_rdsys : decodeWord 0b11100010_0000_1000000_1111111_001_000#32 = .ok (.rdsys ⟨0, 0x40, 0x7f, 1, 0⟩) := by decide
theorem test_decode_taskdone : decodeWord 0b11100110_0000_1000000_1111111_000_000#32 = .ok (.taskdone ⟨0, 0x40, 0x7f, 0, 0⟩) := by decide
theorem test_decode_assert : decodeWord 0b11101011_0000_1000000_1111111_000_000#32 = .ok (.assert ⟨0, 0x40, 0x7f, 0, 0⟩) := by decide
theorem test_decode_copy : decodeWord 0b11000000_0000_1000000_1000001_001_000#32 = .ok (.copy ⟨0, 0x40, 0x41, 1, 0⟩) := by decide
theorem test_decode_ctxsend : decodeWord 0b00001010_0000_1000000_1000001_001_000#32 = .ok (.ctxsend ⟨0, 0x40, 0x41, 1, 0⟩) := by decide
theorem test_decode_reserved : decodeWord 0b00001111_0000_1000000_1111111_001_000#32 = .error .reservedOpcode := by decide
theorem test_decode_fixed_b : decodeWord 0b00011110_0000_1000000_1000001_001_000#32 = .error .fixedBits := by decide
theorem test_decode_short : decode [0x08, 0x12, 0x08] = .error .short := by decide
theorem test_decode_bytes : decode [0x08, 0x12, 0x08, 0x10, 0xAA] = .ok (.add ⟨0, 0x40, 0x48, 1, 0⟩, [0xAA]) := by decide
theorem test_encode_add : encodeWord (.add ⟨0, 0x40, 0x48, 1, 0⟩) = some 0b00010000_0000_1000000_1001000_001_000#32 := by decide
theorem test_table_word : decodeTableWord 32 0x10081208 = some (.add ⟨0, 0x40, 0x48, 1, 0⟩) := by decide

/-! ### Small states -/
/-- A token of a format with elements on a port. -/
def tok (port : Nat) (f : Fmt) (xs : List W64) : Token := ⟨0, ⟨0, 0, false, 0, 0⟩, port, 0, 0, 0, f, false, xs, some (0, 0), 0⟩
/-- A loaded section of one block without an instruction. -/
def demoSection : Section := fetchSection .elem Slot.zero
/-- Reset with one loaded section, one context and a firing latched at wave 0 whose LK0 names slot 1 of block 0. -/
def demo (run : Nat) (lit : W64) (a b c : Option Token) : State :=
  { State.reset with
    ctxs := [fetchCtx]
    ldr := { State.reset.ldr with sections := [demoSection] }
    run := { State.reset.run with
      cur := ⟨⟨0, 0, false, 0, 0⟩, 0, 0, 0, ⟨0, 0x40002000, 0, lit⟩, 0, 0, run, a, b, c⟩ } }
/-- The elements of the tokens that a row has sent. -/
def sentBy : Result → List (List W64)
  | .next t => t.fab.net.map fun x => x.data
  | _ => []
/-- The flags of context 0 after a row. -/
def flagsOf : Result → List (BitVec 5)
  | .next t => t.ctxs.map fun x => x.flags
  | _ => []
/-- The causes and subcodes of the records that a row has raised. -/
def raisedBy : Result → List Nat
  | .next t => t.dev.traps.map fun r => r.w0.toNat / 2 ^ 48
  | _ => []
def fAB : Fields := ⟨0, 0x40, 0x41, 1, 0⟩

def fA : Fields := ⟨0, 0x40, 0x7F, 1, 0⟩

/-! ### Integer words (R232, R233) -/

theorem test_add_wraps : sentBy (exec (.add fAB) (demo 2 0x0 (some (tok 0 .i8 [0xff, 0x5])) (some (tok 1 .i8 [0x2, 0x7])) none)) = [[0x1, 0xc]] := by decide
theorem test_sub_wraps : sentBy (exec (.sub fAB) (demo 1 0x0 (some (tok 0 .i8 [0x0])) (some (tok 1 .i8 [0x1])) none)) = [[0xff]] := by decide
theorem test_adds_saturates : sentBy (exec (.adds fAB) (demo 1 0x0 (some (tok 0 .i8 [0x7f])) (some (tok 1 .i8 [0x1])) none)) = [[0x7f]] := by decide
theorem test_addsn_saturates : sentBy (exec (.addsn fAB) (demo 1 0x0 (some (tok 0 .i8 [0xff])) (some (tok 1 .i8 [0x1])) none)) = [[0xff]] := by decide
theorem test_subs_saturates : sentBy (exec (.subs fAB) (demo 1 0x0 (some (tok 0 .i8 [0x80])) (some (tok 1 .i8 [0x1])) none)) = [[0x80]] := by decide
theorem test_subsn_saturates : sentBy (exec (.subsn fAB) (demo 1 0x0 (some (tok 0 .i8 [0x0])) (some (tok 1 .i8 [0x1])) none)) = [[0x0]] := by decide
theorem test_mul_wraps : sentBy (exec (.mul fAB) (demo 1 0x0 (some (tok 0 .i8 [0x10])) (some (tok 1 .i8 [0x11])) none)) = [[0x10]] := by decide
theorem test_mulh_signed : sentBy (exec (.mulh fAB) (demo 1 0x0 (some (tok 0 .i8 [0x80])) (some (tok 1 .i8 [0x80])) none)) = [[0x40]] := by decide
theorem test_mulhn_unsigned : sentBy (exec (.mulhn fAB) (demo 1 0x0 (some (tok 0 .i8 [0xff])) (some (tok 1 .i8 [0xff])) none)) = [[0xfe]] := by decide
theorem test_div_toward_zero : sentBy (exec (.div fAB) (demo 1 0x0 (some (tok 0 .i8 [0xf9])) (some (tok 1 .i8 [0x2])) none)) = [[0xfd]] := by decide
theorem test_div_by_zero : sentBy (exec (.div fAB) (demo 1 0x0 (some (tok 0 .i8 [0x7])) (some (tok 1 .i8 [0x0])) none)) = [[0xff]] := by decide
theorem test_divn_unsigned : sentBy (exec (.divn fAB) (demo 1 0x0 (some (tok 0 .i8 [0xf9])) (some (tok 1 .i8 [0x2])) none)) = [[0x7c]] := by decide
theorem test_rem_sign_of_dividend : sentBy (exec (.rem fAB) (demo 1 0x0 (some (tok 0 .i8 [0xf9])) (some (tok 1 .i8 [0x2])) none)) = [[0xff]] := by decide
theorem test_rem_by_zero : sentBy (exec (.rem fAB) (demo 1 0x0 (some (tok 0 .i8 [0x7])) (some (tok 1 .i8 [0x0])) none)) = [[0x7]] := by decide
theorem test_remn_unsigned : sentBy (exec (.remn fAB) (demo 1 0x0 (some (tok 0 .i8 [0xf9])) (some (tok 1 .i8 [0x2])) none)) = [[0x1]] := by decide
theorem test_madd_wraps_once : sentBy (exec (.madd fAB) (demo 1 0x0 (some (tok 0 .i8 [0x10])) (some (tok 1 .i8 [0x10])) (some (tok 2 .i8 [0x5])))) = [[0x5]] := by decide
theorem test_neg_most_negative : sentBy (exec (.neg fA) (demo 1 0x0 (some (tok 0 .i8 [0x80])) none none)) = [[0x80]] := by decide
theorem test_abs_most_negative : sentBy (exec (.abs fA) (demo 1 0x0 (some (tok 0 .i8 [0x80])) none none)) = [[0x80]] := by decide

/-! ### Logic, shifts and fields (R234 to R236) -/

theorem test_and : sentBy (exec (.and_ fAB) (demo 1 0x0 (some (tok 0 .i8 [0xcc])) (some (tok 1 .i8 [0xaa])) none)) = [[0x88]] := by decide
theorem test_or : sentBy (exec (.or_ fAB) (demo 1 0x0 (some (tok 0 .i8 [0xcc])) (some (tok 1 .i8 [0xaa])) none)) = [[0xee]] := by decide
theorem test_xor : sentBy (exec (.xor_ fAB) (demo 1 0x0 (some (tok 0 .i8 [0xcc])) (some (tok 1 .i8 [0xaa])) none)) = [[0x66]] := by decide
theorem test_andn : sentBy (exec (.andn fAB) (demo 1 0x0 (some (tok 0 .i8 [0xcc])) (some (tok 1 .i8 [0xaa])) none)) = [[0x44]] := by decide
theorem test_not : sentBy (exec (.not_ fA) (demo 1 0x0 (some (tok 0 .i8 [0xcc])) none none)) = [[0x33]] := by decide
theorem test_shl_modulo_width : sentBy (exec (.shl fAB) (demo 1 0x0 (some (tok 0 .i8 [0x81])) (some (tok 1 .i8 [0x9])) none)) = [[0x2]] := by decide
theorem test_shrl : sentBy (exec (.shrl fAB) (demo 1 0x0 (some (tok 0 .i8 [0x81])) (some (tok 1 .i8 [0x1])) none)) = [[0x40]] := by decide
theorem test_shra : sentBy (exec (.shra fAB) (demo 1 0x0 (some (tok 0 .i8 [0x81])) (some (tok 1 .i8 [0x1])) none)) = [[0xc0]] := by decide
theorem test_rotl : sentBy (exec (.rotl fAB) (demo 1 0x0 (some (tok 0 .i8 [0x81])) (some (tok 1 .i8 [0x1])) none)) = [[0x3]] := by decide
theorem test_clz : sentBy (exec (.clz fA) (demo 1 0x0 (some (tok 0 .i8 [0x1])) none none)) = [[0x7]] := by decide
theorem test_ctz_of_zero : sentBy (exec (.ctz fA) (demo 1 0x0 (some (tok 0 .i8 [0x0])) none none)) = [[0x8]] := by decide
theorem test_popc : sentBy (exec (.popc fA) (demo 1 0x0 (some (tok 0 .i8 [0xf1])) none none)) = [[0x5]] := by decide
theorem test_brev : sentBy (exec (.brev fA) (demo 1 0x0 (some (tok 0 .i8 [0x1])) none none)) = [[0x80]] := by decide
theorem test_bfx : sentBy (exec (.bfx fAB) (demo 1 0x0 (some (tok 0 .i16 [0xb4])) (some (tok 1 .i16 [0x302])) none)) = [[0x5]] := by decide
theorem test_bfi : sentBy (exec (.bfi fAB) (demo 1 0x0 (some (tok 0 .i16 [0xf00f])) (some (tok 1 .i16 [0x304])) (some (tok 2 .i16 [0x7])))) = [[0xf07f]] := by decide
theorem test_byteperm : sentBy (exec (.byteperm fAB) (demo 1 0x0 (some (tok 0 .i16 [0x1234])) (some (tok 1 .i16 [0x1])) none)) = [[0x3412]] := by decide

/-! ### Compares, addresses and widths (R237 to R240) -/

theorem test_ceq : sentBy (exec (.ceq fAB) (demo 1 0x0 (some (tok 0 .i8 [0x5])) (some (tok 1 .i8 [0x5])) none)) = [[0x1]] := by decide
theorem test_cne : sentBy (exec (.cne fAB) (demo 1 0x0 (some (tok 0 .i8 [0x5])) (some (tok 1 .i8 [0x5])) none)) = [[0x0]] := by decide
theorem test_clt_signed : sentBy (exec (.clt fAB) (demo 1 0x0 (some (tok 0 .i8 [0xff])) (some (tok 1 .i8 [0x0])) none)) = [[0x1]] := by decide
theorem test_cle_signed : sentBy (exec (.cle fAB) (demo 1 0x0 (some (tok 0 .i8 [0x0])) (some (tok 1 .i8 [0xff])) none)) = [[0x0]] := by decide
theorem test_cltn_unsigned : sentBy (exec (.cltn fAB) (demo 1 0x0 (some (tok 0 .i8 [0xff])) (some (tok 1 .i8 [0x0])) none)) = [[0x0]] := by decide
theorem test_clen_unsigned : sentBy (exec (.clen fAB) (demo 1 0x0 (some (tok 0 .i8 [0x0])) (some (tok 1 .i8 [0xff])) none)) = [[0x1]] := by decide
theorem test_min_signed : sentBy (exec (.min_ fAB) (demo 1 0x0 (some (tok 0 .i8 [0xff])) (some (tok 1 .i8 [0x1])) none)) = [[0xff]] := by decide
theorem test_max_signed : sentBy (exec (.max_ fAB) (demo 1 0x0 (some (tok 0 .i8 [0xff])) (some (tok 1 .i8 [0x1])) none)) = [[0x1]] := by decide
theorem test_minn_unsigned : sentBy (exec (.minn fAB) (demo 1 0x0 (some (tok 0 .i8 [0xff])) (some (tok 1 .i8 [0x1])) none)) = [[0x1]] := by decide
theorem test_maxn_unsigned : sentBy (exec (.maxn fAB) (demo 1 0x0 (some (tok 0 .i8 [0xff])) (some (tok 1 .i8 [0x1])) none)) = [[0xff]] := by decide
theorem test_lea_sign_extends : sentBy (exec (.lea fAB) (demo 1 0x0 (some (tok 0 .a [0x10])) (some (tok 1 .i32 [0xffffffff])) none)) = [[0xf]] := by decide
theorem test_sext_i8_i16 : sentBy (exec (.sext ⟨0, 0x40, 1, 1, 0⟩) (demo 1 0x0 (some (tok 0 .i8 [0x80])) none none)) = [[0xff80]] := by decide
theorem test_zext_i8_i16 : sentBy (exec (.zext ⟨0, 0x40, 1, 1, 0⟩) (demo 1 0x0 (some (tok 0 .i8 [0x80])) none none)) = [[0x80]] := by decide
theorem test_narrow_i16_i8 : sentBy (exec (.narrow ⟨0, 0x40, 0, 1, 0⟩) (demo 1 0x0 (some (tok 0 .i16 [0x1234])) none none)) = [[0x34]] := by decide
theorem test_narrows_i16_i8 : sentBy (exec (.narrows ⟨0, 0x40, 0, 1, 0⟩) (demo 1 0x0 (some (tok 0 .i16 [0x1234])) none none)) = [[0x7f]] := by decide
theorem test_idx_past_fields : sentBy (exec (.idx ⟨0, 0x40, 0x15, 1, 0⟩) (demo 1 0x0 (some (tok 0 .i64 [0x1234])) none none)) = [[0x0]] := by decide

/-! ### Floating point (R270 to R282) -/

theorem test_fadd : sentBy (exec (.fadd fAB) (demo 1 0x0 (some (tok 0 .f32 [0x3f800000])) (some (tok 1 .f32 [0x40000000])) none)) = [[0x40400000]] := by decide
theorem test_fsub_to_plus_zero : sentBy (exec (.fsub fAB) (demo 1 0x0 (some (tok 0 .f32 [0x3f800000])) (some (tok 1 .f32 [0x3f800000])) none)) = [[0x0]] := by decide
theorem test_fmul : sentBy (exec (.fmul fAB) (demo 1 0x0 (some (tok 0 .f32 [0x40000000])) (some (tok 1 .f32 [0x40400000])) none)) = [[0x40c00000]] := by decide
theorem test_fdiv_by_zero : sentBy (exec (.fdiv fAB) (demo 1 0x0 (some (tok 0 .f32 [0x3f800000])) (some (tok 1 .f32 [0x80000000])) none)) = [[0xff800000]] := by decide
theorem test_ffma : sentBy (exec (.ffma fAB) (demo 1 0x0 (some (tok 0 .f32 [0x40000000])) (some (tok 1 .f32 [0x40400000])) (some (tok 2 .f32 [0x3f800000])))) = [[0x40e00000]] := by decide
theorem test_ffms : sentBy (exec (.ffms fAB) (demo 1 0x0 (some (tok 0 .f32 [0x40000000])) (some (tok 1 .f32 [0x40400000])) (some (tok 2 .f32 [0x3f800000])))) = [[0x40a00000]] := by decide
theorem test_fnfma : sentBy (exec (.fnfma fAB) (demo 1 0x0 (some (tok 0 .f32 [0x40000000])) (some (tok 1 .f32 [0x40400000])) (some (tok 2 .f32 [0x3f800000])))) = [[0xc0a00000]] := by decide
theorem test_fsqrt : sentBy (exec (.fsqrt fA) (demo 1 0x0 (some (tok 0 .f16 [0x4400])) none none)) = [[0x4000]] := by decide
theorem test_fmin_minus_zero : sentBy (exec (.fmin fAB) (demo 1 0x0 (some (tok 0 .f32 [0x0])) (some (tok 1 .f32 [0x80000000])) none)) = [[0x80000000]] := by decide
theorem test_fmax_plus_zero : sentBy (exec (.fmax fAB) (demo 1 0x0 (some (tok 0 .f32 [0x80000000])) (some (tok 1 .f32 [0x0])) none)) = [[0x0]] := by decide
theorem test_fminm_number : sentBy (exec (.fminm fAB) (demo 1 0x0 (some (tok 0 .f32 [0x7fc00000])) (some (tok 1 .f32 [0x3f800000])) none)) = [[0x7fc00000]] := by decide
theorem test_fmaxm_number : sentBy (exec (.fmaxm fAB) (demo 1 0x0 (some (tok 0 .f32 [0x3f800000])) (some (tok 1 .f32 [0x40000000])) none)) = [[0x40000000]] := by decide
theorem test_fabs : sentBy (exec (.fabs fA) (demo 1 0x0 (some (tok 0 .f32 [0xbf800000])) none none)) = [[0x3f800000]] := by decide
theorem test_fneg : sentBy (exec (.fneg fA) (demo 1 0x0 (some (tok 0 .f32 [0x3f800000])) none none)) = [[0xbf800000]] := by decide
theorem test_fcpys : sentBy (exec (.fcpys fAB) (demo 1 0x0 (some (tok 0 .f32 [0x3f800000])) (some (tok 1 .f32 [0x80000000])) none)) = [[0xbf800000]] := by decide
theorem test_fclass_quiet_nan : sentBy (exec (.fclass fA) (demo 1 0x0 (some (tok 0 .f32 [0x7fc00000])) none none)) = [[0x200]] := by decide
theorem test_fceq_nan : sentBy (exec (.fceq fAB) (demo 1 0x0 (some (tok 0 .f32 [0x7fc00000])) (some (tok 1 .f32 [0x7fc00000])) none)) = [[0x0]] := by decide
theorem test_fclt : sentBy (exec (.fclt fAB) (demo 1 0x0 (some (tok 0 .f32 [0x3f800000])) (some (tok 1 .f32 [0x40000000])) none)) = [[0x1]] := by decide
theorem test_fcle : sentBy (exec (.fcle fAB) (demo 1 0x0 (some (tok 0 .f32 [0x40000000])) (some (tok 1 .f32 [0x40000000])) none)) = [[0x1]] := by decide
theorem test_fcun : sentBy (exec (.fcun fAB) (demo 1 0x0 (some (tok 0 .f32 [0x7fc00000])) (some (tok 1 .f32 [0x3f800000])) none)) = [[0x1]] := by decide
theorem test_fcvt_f32_f16 : sentBy (exec (.fcvt fA) (demo 1 0x400 (some (tok 0 .f32 [0x3f800000])) none none)) = [[0x3c00]] := by decide
theorem test_fcvti_ties_even : sentBy (exec (.fcvti fA) (demo 1 0x200 (some (tok 0 .f32 [0x40200000])) none none)) = [[0x2]] := by decide
theorem test_icvtf : sentBy (exec (.icvtf fA) (demo 1 0x600 (some (tok 0 .i32 [0xfffffffd])) none none)) = [[0xc0400000]] := by decide
theorem test_icvtfn : sentBy (exec (.icvtfn fA) (demo 1 0x600 (some (tok 0 .i32 [0x3])) none none)) = [[0x40400000]] := by decide
theorem test_frint_ties_even : sentBy (exec (.frint fA) (demo 1 0x0 (some (tok 0 .f32 [0x40200000])) none none)) = [[0x40000000]] := by decide
theorem test_fscale : sentBy (exec (.fscale fAB) (demo 1 0x0 (some (tok 0 .f32 [0x3f800000])) (some (tok 1 .f32 [0x40400000])) none)) = [[0x41000000]] := by decide
theorem test_fexpo : sentBy (exec (.fexpo fA) (demo 1 0x0 (some (tok 0 .f32 [0x41000000])) none none)) = [[0x40400000]] := by decide
theorem test_fmant : sentBy (exec (.fmant fA) (demo 1 0x0 (some (tok 0 .f32 [0x40400000])) none none)) = [[0x3fc00000]] := by decide

/-! ### Vectors (R283 to R291) -/

theorem test_vbcast : sentBy (exec (.vbcast fAB) (demo 2 0x0 (some (tok 0 .i8 [0x5, 0x6])) (some (tok 1 .i8 [0x1, 0x0])) none)) = [[0x6, 0x6]] := by decide
theorem test_vperm_past_run : sentBy (exec (.vperm fAB) (demo 2 0x0 (some (tok 0 .i8 [0x5, 0x6])) (some (tok 1 .i8 [0x1, 0x7])) none)) = [[0x6, 0x0]] := by decide
theorem test_vslide : sentBy (exec (.vslide fAB) (demo 2 0x0 (some (tok 0 .i8 [0x5, 0x6])) (some (tok 1 .i8 [0x1, 0x0])) none)) = [[0x6, 0x0]] := by decide
theorem test_viota : sentBy (exec (.viota fA) (demo 3 0x0 (some (tok 0 .p [0x1, 0x0, 0x1])) none none)) = [[0x0, 0x1, 0x1]] := by decide
theorem test_vcompact : sentBy (exec (.vcompact fAB) (demo 3 0x0 (some (tok 0 .i8 [0x5, 0x6, 0x7])) (some (tok 1 .p [0x1, 0x0, 0x1])) none)) = [[0x5, 0x7]] := by decide
theorem test_vexpand : sentBy (exec (.vexpand fAB) (demo 3 0x0 (some (tok 0 .i8 [0x5, 0x6, 0x7])) (some (tok 1 .p [0x0, 0x1, 0x1])) none)) = [[0x0, 0x5, 0x6]] := by decide
theorem test_vredadd_wraps : sentBy (exec (.vredadd fA) (demo 3 0x0 (some (tok 0 .i8 [0xff, 0x2, 0x3])) none none)) = [[0x4]] := by decide
theorem test_vredmax_signed : sentBy (exec (.vredmax fA) (demo 2 0x0 (some (tok 0 .i8 [0xff, 0x1])) none none)) = [[0x1]] := by decide
theorem test_vredmin_signed : sentBy (exec (.vredmin fA) (demo 2 0x0 (some (tok 0 .i8 [0xff, 0x1])) none none)) = [[0xff]] := by decide
theorem test_vscan : sentBy (exec (.vscan fA) (demo 3 0x0 (some (tok 0 .i8 [0x1, 0x2, 0x3])) none none)) = [[0x1, 0x3, 0x6]] := by decide
theorem test_vdot : sentBy (exec (.vdot fAB) (demo 2 0x0 (some (tok 0 .i8 [0x1, 0x2])) (some (tok 1 .i8 [0x3, 0x4])) none)) = [[0xb]] := by decide
theorem test_vlen : sentBy (exec (.vlen fA) (demo 3 0x0 (some (tok 0 .i8 [0x1, 0x2, 0x3])) none none)) = [[0x3]] := by decide
theorem test_vfredadd : sentBy (exec (.vfredadd fA) (demo 2 0x0 (some (tok 0 .f32 [0x3f800000, 0x40000000])) none none)) = [[0x40400000]] := by decide
theorem test_vjoin : sentBy (exec (.vjoin fAB) (demo 1 0x0 (some (tok 0 .i8 [0x5])) (some (tok 1 .i8 [0x6])) none)) = [[0x5, 0x6]] := by decide
theorem test_vsplit : sentBy (exec (.vsplit ⟨0, 0x40, 0x41, 1, 1⟩) (demo 2 0x0 (some (tok 0 .i8 [0x5, 0x6])) (some (tok 1 .i8 [0x1, 0x0])) none)) = [[0x5], [0x6]] := by decide

/-! ### Dataflow (R215 to R224) -/

theorem test_mov : sentBy (exec (.mov fA) (demo 1 0x0 (some (tok 0 .i8 [0x5])) none none)) = [[0x5]] := by decide
theorem test_merge : sentBy (exec (.merge fAB) (demo 1 0x0 (some (tok 0 .i8 [0x5])) none none)) = [[0x5]] := by decide
theorem test_select : sentBy (exec (.select fAB) (demo 2 0x0 (some (tok 0 .i8 [0x5, 0x6])) (some (tok 1 .i8 [0x7, 0x8])) (some (tok 2 .p [0x1, 0x0])))) = [[0x5, 0x8]] := by decide
theorem test_steer_false_runs_dropped : sentBy (exec (.steer ⟨0, 0x40, 0x7F, 5, 0⟩) (demo 3 0x0 (some (tok 0 .i8 [0x5, 0x6, 0x7])) none (some (tok 2 .p [0x1, 0x0, 0x1])))) = [[0x5], [0x7]] := by decide
theorem test_gate_drops : sentBy (exec (.gate ⟨0, 0x40, 0x7F, 6, 0⟩) (demo 2 0x0 (some (tok 0 .i8 [0x5, 0x6])) none (some (tok 2 .p [0x1, 0x0])))) = [] := by decide
theorem test_itag : sentBy (exec (.itag fA) (demo 2 0x0 (some (tok 0 .i8 [0x5, 0x6])) none none)) = [[0x800000000000, 0x800000000001]] := by decide
theorem test_wset : sentBy (exec (.wset fAB) (demo 1 0x0 (some (tok 0 .i8 [0x5])) (some (tok 1 .i32 [0x9])) none)) = [[0x5]] := by decide
theorem test_wadv : sentBy (exec (.wadv ⟨0, 0x40, 1, 1, 0⟩) (demo 1 0x0 (some (tok 0 .i8 [0x5])) none none)) = [[0x5]] := by decide
theorem test_sink : sentBy (exec (.sink ⟨0, 0x40, 0x7F, 0, 0⟩) (demo 1 0x0 (some (tok 0 .i8 [0x5])) none none)) = [] := by decide
theorem test_stop : sentBy (exec (.stop ⟨0, 0x40, 2, 1, 0⟩) (demo 1 0x0 (some (tok 0 .i8 [0x5])) none none)) = [[0x5]] := by decide

/-! ### System words (R407, R408, R411) -/

theorem test_workid : sentBy (exec (.workid fA) (demo 1 0x0 (some (tok 0 .i8 [0x5])) none none)) = [[0x0]] := by decide
theorem test_rdsys_ctx : sentBy (exec (.rdsys fA) (demo 1 0x1 (some (tok 0 .i8 [0x5])) none none)) = [[0x0]] := by decide
theorem test_clock_at_reset : sentBy (exec (.clock fA) (demo 1 0x0 (some (tok 0 .i8 [0x5])) none none)) = [[0x0]] := by decide

/-! ### Memory operations on small states -/

/-- A single-place chain, four bytes, element scratch (R79, R241). -/
def litEs : W64 := 0xFD00FD2800000000
/-- The same, unchained. -/
def litEsFree : W64 := 0xFDFEFD2800000000
/-- The state that a row answers. -/
def nextOf (s : State) : Result → State
  | .next t => t
  | _ => s
/-- The same state with another subject. -/
def State.about (s : State) (a b c : Nat) : State := { s with run := { s.run with subj := ⟨a, b, c⟩ } }
/-- A store of 0xAABBCCDD at offset 16 of element scratch waits in the buffer. -/
def storeS : State :=
  (nextOf State.reset (exec (.st ⟨0, 0x40, 0x41, 0, 0⟩) (demo 1 litEs (some (tok 0 .a [0x10])) (some (tok 1 .i32 [0xAABBCCDD])) none))).about 2 0 0
/-- A load of four bytes there. -/
def loadS : State :=
  (nextOf State.reset (exec (.ld ⟨0, 0x40, 0x02, 1, 0⟩) (demo 1 litEs (some (tok 0 .a [0x10])) none none))).about 2 0 0
/-- An operation of nothing. -/
def blankOp : Op :=
  ⟨2, 0, 0, ⟨0, 0, false, 0, 0⟩, 0, 0, 0, 0, 0xFD, 0, 0xFD, .nop, .l1, false, 0, false, 2, 0, 0, 0, 0, .i32, [], 0, 0, false, [], .buffered, .shared, none⟩
/-- The first operation of a state. -/
def op0 (s : State) : Op := match s.work.ops with
  | o :: _ => o
  | [] => blankOp
/-- The first context. -/
def ctx0 (s : State) : Ctx := match s.ctxs with
  | x :: _ => x
  | [] => fetchCtx

theorem test_store_waits : storeS.work.ops.map (fun o => (o.id, o.ia, o.data.toNat, o.width)) = [(2, 0x10, 0xAABBCCDD, 2)] := by decide
theorem test_store_writes_little_endian :
    ((upto 5).map fun i => ((nextOf storeS (exec .chainPerform storeS)).mem.es.get (0x10 + i)).toNat) = [0xDD, 0xCC, 0xBB, 0xAA, 0] := by decide
theorem test_load_reads_back :
    sentBy (exec .chainPerform { loadS with mem := { loadS.mem with es := loadS.mem.es.write 0x10 [0x44, 0x33, 0x22, 0x11] } }) = [[0x11223344]] := by
  decide

theorem witness_MayPerform : MayPerform storeS storeS (op0 storeS) (ctx0 storeS) :=
  ⟨⟨op0 storeS, by decide, rfl, rfl⟩, by decide, by decide, by decide, by decide, by decide, by decide, by decide, by decide⟩
theorem witness_ScratchAccesses : MayPerform storeS storeS (op0 storeS) (ctx0 storeS) ∧ (op0 storeS).poison = false ∧
    (op0 storeS).level.cached = false ∧ storeS.members (op0 storeS) = [op0 storeS] ∧
    storeS.wayBlocked ((op0 storeS).spot storeS) = false ∧ storeS.scratchValid 0 0 .es 0x10 4 = true ∧
    (op0 storeS).kind = .store ∧ MemForm storeS := ⟨witness_MayPerform, by decide, by decide, by decide, by decide, by decide, by decide, by decide, by decide, by decide, by decide⟩

/-! ### Witnesses: decoding, steps and frames -/

/-- Reset with the word of `add pa, 8 => s.pa` placed to issue next. -/
def placedAdd : State := State.reset.withFetchWord 32 0x10081208
/-- Reset with a reserved word there. -/
def placedBad : State := State.reset.withFetchWord 32 0x0F000000
/-- Reset with an event that moves next. -/
def placedEvent : State := { State.reset with run := { State.reset.run with agenda := [.event .dieBridgeDown ⟨0, 0, 0⟩] } }

theorem witness_DecodeEncode : Instr.wellFormed (.add fAB) = true ∧ (encodeWord (.add fAB)).isSome = true := by decide
theorem witness_DecodeUnambiguous : decodeWord 0x10081208 = .ok (.add ⟨0, 0x40, 0x48, 1, 0⟩) := by decide
theorem witness_StepRunsDecoded : ∃ t, nextMove placedAdd = .issue t ∧
    decodeWord t.run.cur.slot.word = .ok (.add ⟨0, 0x40, 0x48, 1, 0⟩) ∧ Instr.wellFormed (.add ⟨0, 0x40, 0x48, 1, 0⟩) = true ∧
    slotOk t.run.cur.slot = true ∧ t.slotInSection t.run.cur.names t.run.cur.slot = true :=
  ⟨_, rfl, by decide, by decide, by decide, by decide⟩
theorem witness_StepRunsDecoded_event : ∃ t, nextMove placedEvent = .event .dieBridgeDown t := ⟨_, rfl⟩
theorem witness_RejectedWordTraps : ∃ t, nextMove placedBad = .issue t ∧
    decodeWord t.run.cur.slot.word = .error .reservedOpcode ∧
    trapWait placedBad (t.raise (t.run.cur.site t) { cause := 0x01, sub := 1 }) = false := ⟨_, rfl, by decide, by decide⟩
theorem test_step_runs_placed_word : ∃ t, step placedAdd = .next t ∧ t.run.cur.slot.word = 0x10081208 := ⟨_, rfl, rfl⟩
theorem witness_MemoryFormKept : MemForm State.reset ∧ ∃ t, step placedAdd = .next t :=
  ⟨⟨by decide, by decide, by decide, by decide⟩, _, rfl⟩
theorem witness_ValueFrame : valueOpcode (opcodeOf (.add fAB)) = true ∧
    ∃ t, exec (.add fAB) (demo 1 0 (some (tok 0 .i8 [1])) (some (tok 1 .i8 [2])) none) = .next t := ⟨by decide, _, rfl⟩
theorem witness_QueueFrame : queueOpcode (opcodeOf (.mnop fA)) = true ∧
    ∃ t, exec (.mnop fA) (demo 1 litEs (some (tok 0 .i8 [1])) none none) = .next t := ⟨by decide, _, rfl⟩
theorem witness_LoadFrame : opcodeOf (.ld ⟨0, 0x40, 2, 1, 0⟩) = 0x40 ∧
    ∃ t, exec (.ld ⟨0, 0x40, 2, 1, 0⟩) (demo 1 litEsFree (some (tok 0 .a [16])) none none) = .next t := ⟨by decide, _, rfl⟩
/-- A poisoned operand on port A. -/
def poisonedS : State := demo 1 0 (some { tok 0 .f32 [0] with poison := true }) (some (tok 1 .f32 [1])) none
theorem witness_PoisonPasses : poisonedS.run.cur.poisonOf fAB false = true ∧ poisonedS.run.cur.predOk fAB = true := by decide
theorem test_poison_passes : (match exec (.add fAB) poisonedS with
    | .next t => t.fab.net.map fun x => x.poison
    | _ => []) = [true] := by decide
/-- Operands of format F32, and of format I8. -/
def floatS : State := demo 1 0 (some (tok 0 .f32 [0x3F800000])) (some (tok 1 .f32 [0x3F800000])) none
def byteS : State := demo 1 0 (some (tok 0 .i8 [1])) (some (tok 1 .i8 [2])) none
theorem witness_MismatchTraps : floatS.run.cur.fmtOf fAB = .f32 ∧ floatS.run.cur.poisonOf fAB false = false ∧
    floatS.run.cur.predOk fAB = true ∧ Fmt.isInt .f32 = false := by decide
theorem witness_MismatchTraps_float : byteS.run.cur.fmtOf fAB = .i8 ∧ byteS.run.cur.poisonOf fAB false = false ∧
    byteS.run.cur.predOk fAB = true ∧ Fmt.isFloat .i8 = false := by decide
theorem test_mismatch_record : raisedBy (exec (.mul fAB) floatS) = [0x0301] := by decide

theorem test_tag_wave_top : tagAction 1 false { tok 0 .i8 [1] with wave := 2 ^ 32 - 2 } = ({ tok 0 .i8 [1] with wave := 2 ^ 32 - 1 }, none) := by decide
theorem test_tag_wave_past : (tagAction 1 true { tok 0 .i8 [1] with wave := 2 ^ 32 - 1 }).2 = some 4 := by decide
theorem test_tag_run : tagAction 2 false { tok 0 .i8 [1, 2] with wave := 5 } = ({ tok 0 .i8 [1, 2] with wave := 7 }, none) := by decide
theorem test_tag_loop_exit : tagAction 3 true { tok 0 .i8 [1] with wave := 5 } = ({ tok 0 .i8 [1] with wave := 6 }, none) := by decide
theorem test_tag_stop_top : (tagAction 4 false { tok 0 .i8 [1] with stop := 7 }).2 = some 5 ∧
    (tagAction 4 false { tok 0 .i8 [1] with stop := 6 }).1.stop = 7 := by decide
theorem test_tag_stop_zero : (tagAction 5 false (tok 0 .i8 [1])).2 = some 5 ∧
    (tagAction 5 false { tok 0 .i8 [1] with stop := 1 }).1.stop = 0 ∧ (tagAction 6 false { tok 0 .i8 [1] with stop := 7 }).1.stop = 0 := by decide

/-! ### Witnesses: words of elements -/

theorem reads1 : Reads1 byteS fA .i8 [1] := ⟨⟨by decide, by decide⟩, by decide, by decide⟩
theorem reads2 : Reads2 byteS fAB .i8 [1] [2] := ⟨⟨⟨by decide, by decide⟩, by decide, by decide⟩, by decide⟩
theorem readsOwn : ReadsOwn byteS fAB .i8 [1] [2] 8 := ⟨⟨⟨by decide, by decide⟩, by decide, by decide⟩, by decide⟩
/-- Three operands of format I8, and of F32. -/
def byte3S : State := demo 1 0 (some (tok 0 .i8 [1])) (some (tok 1 .i8 [2])) (some (tok 2 .i8 [3]))
def float3S : State := demo 1 0 (some (tok 0 .f32 [0x3F800000])) (some (tok 1 .f32 [0x40000000])) (some (tok 2 .f32 [0]))
theorem reads3 : Reads3 byte3S fAB .i8 [1] [2] [3] := ⟨⟨by decide, by decide⟩, by decide, by decide, by decide, by decide⟩
theorem reads3F : Reads3 float3S fAB .f32 [0x3F800000] [0x40000000] [0] := ⟨⟨by decide, by decide⟩, by decide, by decide, by decide, by decide⟩
theorem reads1F : Reads1 floatS fA .f32 [0x3F800000] := ⟨⟨by decide, by decide⟩, by decide, by decide⟩
theorem reads2F : Reads2 floatS fAB .f32 [0x3F800000] [0x3F800000] := ⟨⟨⟨by decide, by decide⟩, by decide, by decide⟩, by decide⟩
theorem witness_IntegerArithmetic : Reads2 byteS fAB .i8 [1] [2] ∧ Reads3 byte3S fAB .i8 [1] [2] [3] ∧ Reads1 byteS fA .i8 [1] ∧
    Fmt.isInt .i8 = true := ⟨reads2, reads3, reads1, by decide⟩
theorem witness_LogicAndShifts : Reads2 byteS fAB .i8 [1] [2] ∧ ReadsOwn byteS fAB .i8 [1] [2] 8 ∧ Reads1 byteS fA .i8 [1] ∧
    Clean byte3S fAB true ∧ byte3S.run.cur.fmtOf fAB = .i8 ∧ byte3S.source byte3S.run.cur 0x42 .i8 = some [3] ∧
    byte3S.ownSource byte3S.run.cur 0x41 = some ([2], 8) := ⟨reads2, readsOwn, reads1, reads3.toClean, by decide, by decide, by decide⟩
theorem witness_LogicAndShifts_bits : 0 < 8 ∧ 1 < 2 ^ 8 ∧ (1 : Nat) ≠ 0 := by decide
/-- Addresses and work identifiers. -/
def addrS : State := demo 1 0 (some (tok 0 .a [16])) (some (tok 1 .i32 [1])) none
def workS : State := demo 1 0 (some (tok 0 .i64 [16])) none none
theorem witness_ComparesAndWidths : Reads2 byteS fAB .i8 [1] [2] ∧ ReadsOwn addrS fAB .a [16] [1] 32 ∧
    Reads1 workS ⟨0, 0x40, 0x10, 1, 0⟩ .i64 [16] ∧ (workS.ctx? 0 0).isSome = true ∧
    Reads1 byteS ⟨0, 0x40, 1, 1, 0⟩ .i8 [1] ∧ widthTarget ⟨0, 0x40, 1, 1, 0⟩ = .i16 :=
  ⟨reads2, ⟨⟨⟨by decide, by decide⟩, by decide, by decide⟩, by decide⟩, ⟨⟨by decide, by decide⟩, by decide, by decide⟩, by decide,
    ⟨⟨by decide, by decide⟩, by decide, by decide⟩, by decide⟩
theorem witness_FloatArithmetic : Fmt.isFloat .f32 = true ∧ Reads2 floatS fAB .f32 [0x3F800000] [0x3F800000] ∧
    Reads3 float3S fAB .f32 [0x3F800000] [0x40000000] [0] ∧ Reads1 floatS fA .f32 [0x3F800000] := ⟨by decide, reads2F, reads3F, reads1F⟩
theorem witness_FloatConversions : Reads2 floatS fAB .f32 [0x3F800000] [0x3F800000] ∧
    Reads1 (demo 1 0x400 (some (tok 0 .f32 [1])) none none) fA .f32 [1] ∧ litFmt 0x400 = some .f16 ∧ litFmt 0x200 = some .i32 ∧
    Reads1 (demo 1 0x400 (some (tok 0 .i8 [1])) none none) fA .i8 [1] :=
  ⟨reads2F, ⟨⟨by decide, by decide⟩, by decide, by decide⟩, by decide, by decide, ⟨⟨by decide, by decide⟩, by decide, by decide⟩⟩
theorem witness_SpecialFunctions : Fmt.isFloat .f32 = true ∧ Reads1 floatS fA .f32 [0x3F800000] := ⟨by decide, reads1F⟩
/-- An operand under each row of R296's table, in F32: NaNs, an infinity, zeros, powers of two, halves and others. -/
theorem witness_SpecialFunctions_operands : unpack (fpOf .f32) 0x7F800001 = .nan true ∧ unpack (fpOf .f32) 0x7FC00000 = .nan false ∧
    unpack (fpOf .f32) 0xFF800000 = .inf true ∧ unpack (fpOf .f32) 0 = .fin false 0 (-149) ∧
    unpack (fpOf .f32) 0xBF800000 = .fin true (2 ^ 23) (-23) ∧ unpack (fpOf .f32) 0x3F000000 = .fin false (2 ^ 23) (-24) ∧
    unpack (fpOf .f32) 0x3FC00000 = .fin false (3 * 2 ^ 22) (-23) ∧ unpack (fpOf .f32) 1 = .fin false 1 (-149) := by decide
/-- R294: FRCP overflows at the least subnormal, with OF and NX; R296: FTANH of 100 is 1.0 with NX, FSIGM of -1000 is +0 with UF and NX. -/
theorem test_special_ends : spRcp .f32 1 = (0x7F800000, 5) ∧ spTanh .f32 0x42C80000 = (0x3F800000, 1) ∧ spSigm .f32 0xC47A0000 = (0, 3) := by
  decide +kernel
/-- Two elements with one, and predicates on ports A and B. -/
def pairS : State := demo 2 0 (some (tok 0 .i8 [5, 6])) (some (tok 1 .i8 [1, 0])) none
def predS : State := demo 2 0 (some (tok 0 .p [1, 0])) none none
def pickS : State := demo 2 0 (some (tok 0 .i8 [5, 6])) (some (tok 1 .p [1, 0])) none
theorem witness_VectorPlacement : ReadsOwn pairS ⟨0, 0x40, 0x41, 1, 1⟩ .i8 [5, 6] [1, 0] 8 ∧ 0 < el [1, 0] 0 ∧ el [1, 0] 0 < 2 ∧
    Reads1 predS fA .p [1, 0] ∧ Reads1 pickS fAB .i8 [5, 6] ∧ pickS.run.cur.predOn 0x41 = some [true, false] ∧
    compact [true, false] [5, 6] ≠ [] :=
  ⟨⟨⟨⟨by decide, by decide⟩, by decide, by decide⟩, by decide⟩, by decide, by decide, ⟨⟨by decide, by decide⟩, by decide, by decide⟩,
    ⟨⟨by decide, by decide⟩, by decide, by decide⟩, by decide, by decide⟩
theorem witness_VectorPlacement_join : pairS.run.cur.a = some (tok 0 .i8 [5, 6]) ∧ pairS.run.cur.b = some (tok 1 .i8 [1, 0]) ∧
    fAB.da.toNat ≠ 7 ∧ ([5, 6] ++ [1, 0]).length ≤ 32 := by decide
theorem witness_VectorReductions : Reads1 byteS fA .i8 [1] ∧ Reads1 floatS fA .f32 [0x3F800000] ∧ Reads2 byteS fAB .i8 [1] [2] ∧
    Reads2 floatS fAB .f32 [0x3F800000] [0x3F800000] ∧ 0 < byteS.run.cur.run ∧ (∀ x ∈ [1], x < 2 ^ 8) :=
  ⟨reads1, reads1F, reads2, reads2F, by decide, by decide⟩
/-- A value and a predicate on port C. -/
def steerS : State := demo 2 0 (some (tok 0 .i8 [5, 6])) (some (tok 1 .i8 [7, 8])) (some (tok 2 .p [1, 0]))
theorem witness_DataflowWords : Reads1 byteS fA .i8 [1] ∧ Clean steerS fAB true ∧ steerS.run.cur.fmtOf fAB = .i8 ∧
    steerS.source steerS.run.cur 0x40 .i8 = some [5, 6] ∧ steerS.source steerS.run.cur 0x41 .i8 = some [7, 8] ∧
    steerS.run.cur.pred = some [true, false] ∧ poisonedTok steerS.run.cur.c = false :=
  ⟨reads1, ⟨by decide, by decide⟩, by decide, by decide, by decide, by decide, by decide⟩
/-- A trigger of another format on port B. -/
def triggerS : State := demo 1 0 (some (tok 0 .i8 [1])) (some (tok 1 .i32 [2])) none
theorem witness_DataflowWords_trigger : Reads1 triggerS fAB .i8 [1] ∧ triggerS.run.cur.port 0x41 = some (tok 1 .i32 [2]) ∧
    byteS.run.cur.port 0x41 = some (tok 1 .i8 [2]) := ⟨⟨⟨by decide, by decide⟩, by decide, by decide⟩, by decide, by decide⟩
theorem witness_DataflowWords_merge : (demo 1 0 none (some (tok 1 .i8 [2])) none).run.cur.a = none ∧
    (demo 1 0 none (some (tok 1 .i8 [2])) none).run.cur.b = some (tok 1 .i8 [2]) := by decide
theorem witness_TagWords : Reads1 byteS ⟨0, 0x40, 1, 1, 0⟩ .i8 [1] ∧ byteS.amount byteS.run.cur 1 = 1 ∧
    byteS.wsetWave byteS.run.cur 1 = some 1 ∧ Reads1 (demo 1 8 (some (tok 0 .i8 [1])) none none) ⟨0, 0x40, 0x43, 1, 0⟩ .i8 [1] ∧
    (demo 1 8 (some (tok 0 .i8 [1])) none none).amount (demo 1 8 (some (tok 0 .i8 [1])) none none).run.cur 0x43 = 8 :=
  ⟨⟨⟨by decide, by decide⟩, by decide, by decide⟩, by decide, by decide, ⟨⟨by decide, by decide⟩, by decide, by decide⟩, by decide⟩

/-! ### Witnesses: contexts and the system group -/

/-- The same state with more contexts. -/
def State.plus (s : State) (xs : List Ctx) : State := { s with ctxs := s.ctxs ++ xs }
/-- A context that CTXNEW has made for context 0. -/
def childCtx : Ctx := { fetchCtx with id := 1, root := 0 }
/-- A trigger; a value with a linkage; linkages of context 1. -/
def newS : State := demo 1 0 (some (tok 0 .i8 [1])) none none
def sendS : State := demo 1 0 (some (tok 0 .i8 [1])) (some (tok 1 .i64 [0])) none
def freeS : State := (demo 1 0 (some (tok 0 .i64 [1])) none none).plus [childCtx]
theorem findFrom_two (p : Nat → Bool) (m n k : Nat) (h : p (k % m) = true ∨ p ((k + 1) % m) = true) :
    ∃ c, findFrom p m (n + 2) k = some c := by
  simp only [findFrom]
  split
  · exact ⟨_, rfl⟩
  · rcases h with h | h
    · contradiction
    · exact ⟨_, if_pos h⟩
theorem newCtx_some {s u : State} {x : Ctx} {c : Nat} (hs : s.streamRoom x.part x.lsec = true)
    (hp : s.pickCtx x.part = (some c, u)) (hh : u.chainSlot x.part x.chain.home = true) :
    ∃ t, s.newCtx x = (some c, t) := by
  simp [State.newCtx, hs, hp, hh]
theorem newS_creates : ∃ c t, newS.newCtx fetchCtx = (some c, t) := by
  have hp : ∀ c, c ≠ 0 →
      (!(newS.ctxs.any fun x => x.part == 0 && x.id == c) && !State.ctxNamed { newS with run := { newS.run with fresh := 1 } } 0 c) = true := by
    intro c hc
    cases c with
    | zero => contradiction
    | succ c => rfl
  obtain ⟨c, hc⟩ : ∃ c, (newS.pickCtx 0).1 = some c := by
    show ∃ c, findFrom (fun c => !(newS.ctxs.any fun x => x.part == 0 && x.id == c)
      && !State.ctxNamed { newS with run := { newS.run with fresh := 1 } } 0 c) 4096 (4094 + 2) (newS.draw 4096).1 = some c
    refine findFrom_two _ 4096 4094 (newS.draw 4096).1 ?_
    by_cases h : (newS.draw 4096).1 % 4096 = 0
    · right; apply hp; omega
    · left; exact hp _ h
  have hk : newS.pickCtx fetchCtx.part = (some c, { newS with run := { newS.run with fresh := 1 } }) := Prod.ext hc rfl
  obtain ⟨t, ht⟩ := newCtx_some (x := fetchCtx) (by decide) hk (by decide)
  exact ⟨c, t, ht⟩
theorem witness_ContextWords_new : newS.ctx? 0 0 = some fetchCtx ∧ newS.run.cur.poisonOf fA false = false ∧ newS.run.cur.c = none ∧
    ∃ made t, newS.newCtxs fetchCtx 0 1 [] = (made, t) ∧ made.length = 1 := by
  obtain ⟨c, t, h⟩ := newS_creates
  exact ⟨by decide, by decide, by decide, [w64 (linkage 0 fetchCtx.id c)], t, by simp [State.newCtxs, h], rfl⟩
theorem witness_ContextWords_send : sendS.run.cur.port 0x40 = some (tok 0 .i8 [1]) ∧ sendS.run.cur.port 0x41 = some (tok 1 .i64 [0]) ∧
    sendS.leftBefore 0 0 = [] ∧ sendS.ctx? 0 (bits (tokEl (tok 1 .i64 [0]) 0) 11 0) = some fetchCtx ∧ fetchCtx.asid = sendS.asidOf 0 0 := by
  decide
theorem witness_ContextWords_free : freeS.run.cur.port 0x40 = some (tok 0 .i64 [1]) ∧ freeS.ctx? 0 1 = some childCtx ∧
    childCtx.root = fetchCtx.root ∧ childCtx.id ≠ childCtx.root ∧ freeS.quiet 0 1 = true := by decide
theorem witness_CreatedContext : fetchCtx.live = true ∧ ∃ c t, newS.newCtx fetchCtx = (some c, t) := ⟨by decide, newS_creates⟩
/-- A predicate that fails at element 1, and a context under BRK. -/
def assertS : State := demo 2 0 (some (tok 0 .p [1, 0])) none none
def breakS : State := { newS with ctxs := [{ fetchCtx with brk := true }] }
theorem witness_ReportWords : newS.run.cur.port 0x40 = some (tok 0 .i8 [1]) ∧ (tok 0 .i8 [1]).data.length = newS.run.cur.run ∧
    newS.ctx? 0 0 = some fetchCtx ∧ fetchCtx.brk = false := by decide
theorem witness_ReportWords_break : breakS.ctx? 0 0 = some { fetchCtx with brk := true } := by decide
theorem witness_ReportWords_assert : assertS.run.cur.port 0x40 = some (tok 0 .p [1, 0]) ∧ (tokEl (tok 0 .p [1, 0]) 1).toNat % 2 = 0 ∧
    ∀ j, j < 1 → (tokEl (tok 0 .p [1, 0]) j).toNat % 2 = 1 := by decide
theorem test_assert_record : raisedBy (exec (.assert fA) assertS) = [0x0F01] := by decide
theorem test_halt_record : raisedBy (exec (.halt ⟨0, 0x40, 0x7F, 0, 0⟩) newS) = [0x1000] := by decide
theorem test_trap_record : raisedBy (exec (.trap fA) newS) = [0x0D00] := by decide
theorem witness_TaskWords : workS.run.cur.port 0x40 = some (tok 0 .i64 [16]) ∧ workS.run.cur.poisonOf fA false = false ∧
    workS.ctx? 0 0 = some fetchCtx ∧ fetchCtx.root = fetchCtx.id ∧ sendS.run.cur.port 0x41 = some (tok 1 .i64 [0]) := by decide
theorem witness_TaskWords_child : ({ freeS with run := { freeS.run with cur := { freeS.run.cur with ctx := 1 } } } : State).ctx? 0 1 = some childCtx ∧
    childCtx.root ≠ childCtx.id := by decide
theorem test_taskdone_in_child_traps : raisedBy (exec (.taskdone ⟨0, 0x40, 0x7F, 0, 0⟩)
    { freeS with run := { freeS.run with cur := { freeS.run.cur with ctx := 1 } } }) = [0x0107] := by decide
/-- A privileged context writes a range register and a keep register. -/
def writeS (sel : W64) : State := { demo 1 sel (some (tok 0 .i64 [0x1234])) none none with ctxs := [{ fetchCtx with priv := true }] }
theorem witness_SystemRegisterWords : (writeS 0x10).ctx? 0 0 = some { fetchCtx with priv := true } ∧ readRight 1 = .u ∧ readRight 3 = .u ∧
    (writeS 0x10).run.cur.port 0x40 = some (tok 0 .i64 [0x1234]) ∧ (writeS 0x20).run.cur.poisonOf fA false = false ∧
    ((writeS 0x81).xlatInv 0 0).isSome = true := by decide
theorem test_wrsys_keep : (match exec (.wrsys fA) (writeS 0x23) with
    | .next t => (ctx0 t).keep 0 0 3
    | _ => 0) = 0x1234 := by decide
theorem test_rdsys_flagsrc_clears : flagsOf (exec (.rdsys fA)
    { demo 1 3 (some (tok 0 .i8 [1])) none none with ctxs := [{ fetchCtx with flags := 0x11 }] }) = [0] := by decide
theorem witness_PrivilegeTraps : readRight 0x85 = .m ∧ writeRight 0x10 = .p ∧ fetchCtx.priv = false ∧
    (demo 1 0x10 (some (tok 0 .i64 [1])) none none).run.cur.poisonOf fA false = false := by decide
theorem test_wrsys_privilege : raisedBy (exec (.wrsys fA) (demo 1 0x10 (some (tok 0 .i64 [1])) none none)) = [0x0202] := by decide
theorem test_fdiv_sets_dz : flagsOf (exec (.fdiv fAB) (demo 1 0 (some (tok 0 .f32 [0x3F800000])) (some (tok 1 .f32 [0])) none)) = [8] := by decide
theorem test_fsqrt_sets_nv : flagsOf (exec (.fsqrt fA) (demo 1 0 (some (tok 0 .f32 [0xBF800000])) none none)) = [16] := by decide
theorem test_fmul_overflow_flags : flagsOf (exec (.fmul fAB)
    (demo 1 0 (some (tok 0 .f16 [0x7BFF])) (some (tok 1 .f16 [0x7BFF])) none)) = [5] := by decide

/-! ### Witnesses: words that present operations -/

/-- A load, a store and an atomic at offset 16 of element scratch. -/
def ldS : State := demo 1 litEs (some (tok 0 .a [16])) none none
def stS : State := demo 1 litEs (some (tok 0 .a [16])) (some (tok 1 .i32 [7])) none
def casS : State := demo 1 litEs (some (tok 0 .a [16])) (some (tok 1 .i32 [7])) (some (tok 2 .i32 [9]))
def ctrS : State := demo 1 0xFD00FD3800000000 (some (tok 0 .a [16])) (some (tok 1 .i64 [7])) none
theorem addressedLd : Addressed ldS fA false (tok 0 .a [16]) := ⟨by decide, by decide, by decide⟩
theorem addressedSt : Addressed stS fAB false (tok 0 .a [16]) := ⟨by decide, by decide, by decide⟩
theorem addressedCas : Addressed casS fAB true (tok 0 .a [16]) := ⟨by decide, by decide, by decide⟩
theorem addressedCtr : Addressed ctrS fAB false (tok 0 .a [16]) := ⟨by decide, by decide, by decide⟩
theorem witness_PresentedOperations : ∃ os t, ldS.present ldS.run.cur fA 0x40 [{ kind := .load, fmt := .i32 }] = (os, t) ∧ os.length = 1 :=
  ⟨_, _, rfl, by decide⟩
theorem witness_LaunchedOperations : ({ blankOp with this := 0xFE } : Op).waitsBefore = false ∧
    ldS.unflushed { blankOp with this := 0xFE } = false ∧ blankOp.this ≠ 0xFE := by decide
/-- A write of context 0 is on its way to the host, and a release at SY follows. -/
def postedS : State := { ldS with dev := { ldS.dev with posted := [⟨0, 0, 1, 0, [some 1], false⟩] } }
theorem witness_LaunchedOperations_posted : postedS.unflushed { blankOp with this := 0xFE, kind := .store, ord := true, scope := 3 } = true := by
  decide
theorem checked0 {s : State} {t : Token} {w : Nat} {n : Need} {ia : Nat → Nat}
    (h : s.issueCheck s.run.cur ((levelOf (litLevel s.run.cur.slot.lit)).getD .l1) (vaOf s t 0) (2 ^ w) n = .ok (ia 0)) :
    Checked s t w n [0] ia := by
  intro j hj
  rw [List.mem_singleton.mp hj]
  exact h
theorem witness_LoadsAndStores : Addressed ldS fA false (tok 0 .a [16]) ∧ litWidth ldS.run.cur.slot.lit = 2 ∧
    Checked ldS (tok 0 .a [16]) 2 { rd := true } [0] (fun _ => 16) ∧ Fmt.ofCode (2 % 16) = some .i32 ∧
    Checked stS (tok 0 .a [16]) 2 { w := true } [0] (fun _ => 16) ∧ stS.storeData stS.run.cur fAB 2 = some [7] ∧
    Checked ctrS (tok 0 .a [16]) 3 { rd := true } [0] (fun _ => 16) :=
  ⟨addressedLd, by decide, checked0 (by decide), by decide, checked0 (by decide), by decide, checked0 (by decide)⟩
theorem witness_AtomicsAndCounters : Addressed stS fAB false (tok 0 .a [16]) ∧
    Checked stS (tok 0 .a [16]) 2 { rd := true, w := true } [0] (fun _ => 16) ∧
    stS.amoB stS.run.cur fAB .add 2 = some (.i32, [7]) ∧ casS.amoB casS.run.cur fAB .cas 2 = some (.i32, [7]) ∧
    casS.source casS.run.cur 0x42 .i32 = some [9] ∧ Addressed casS fAB true (tok 0 .a [16]) ∧
    ctrS.i64B ctrS.run.cur fAB = some [7] ∧ Checked ctrS (tok 0 .a [16]) 3 { w := true } [0] (fun _ => 16) ∧
    (∀ j, j < 1 → 0 ≤ toS 64 (at! [7] j 0)) :=
  ⟨addressedSt, checked0 (by decide), by decide, by decide, by decide, addressedCas, by decide, checked0 (by decide), by decide⟩
theorem witness_AtomicsAndCounters_decrease :
    (demo 1 0xFD00FD3800000000 (some (tok 0 .a [16])) (some (tok 1 .i64 [0xFFFFFFFFFFFFFFFF])) none).i64B
      (demo 1 0xFD00FD3800000000 (some (tok 0 .a [16])) (some (tok 1 .i64 [0xFFFFFFFFFFFFFFFF])) none).run.cur fAB
      = some [0xFFFFFFFFFFFFFFFF] ∧ toS 64 0xFFFFFFFFFFFFFFFF < 0 := by decide

/-- A context with a range of one gigabyte from address 0, which it may read and write (R34). -/
def rangeCtx : Ctx := { fetchCtx with ranges := [(0x1E07, 0)] }
/-- A firing of run 1 under it. -/
def ranged (lit : W64) (a b : Option Token) : State := { demo 1 lit a b none with ctxs := [rangeCtx] }
def flushS : State := ranged 0xFD00FD0000000000 (some (tok 0 .a [64])) (some (tok 1 .i64 [64]))
def leaseS : State := ranged 0xFD00FD0000000000 (some (tok 0 .a [64])) none
theorem witness_ChainRangeAndLeaseWords : poisonedTok (flushS.run.cur.port fAB.sa.toNat) = false ∧
    flushS.i64B flushS.run.cur fAB = some [64] ∧ rangeCheck (flushS.rangesOf 0 0) (vaOf flushS (tok 0 .a [64]) 0) 64 { rd := true } = some 64 ∧
    leaseS.ctx? 0 0 = some rangeCtx ∧ 1 ≤ min rangeCtx.leaseMax (leaseS.part 0).leasecap := by decide
theorem witness_ChainRangeAndLeaseWords_addresses : Addressed flushS fAB false (tok 0 .a [64]) ∧ Addressed leaseS fA false (tok 0 .a [64]) ∧
    Checked leaseS (tok 0 .a [64]) 0 { w := true } [0] (fun _ => 64) ∧ Checked leaseS (tok 0 .a [64]) 0 {} [0] (fun _ => 64) :=
  ⟨⟨by decide, by decide, by decide⟩, ⟨by decide, by decide, by decide⟩, checked0 (by decide), checked0 (by decide)⟩
theorem witness_StoppedAccesses : (demo 1 litEs (some { tok 0 .a [0] with poison := true }) none none).run.cur.poisonOf fA false = true ∧
    (demo 1 litEs (some (tok 0 .i8 [0])) none none).run.cur.poisonOf fA false = false ∧ (tok 0 .i8 [0]).fmt ≠ .a := by decide
theorem witness_StoppedAccesses_checks : Addressed stS fAB false (tok 0 .a [16]) ∧ (stS.storeData stS.run.cur fAB 2).isSome = true ∧
    18 % 2 ^ 2 ≠ 0 ∧ rangeCheck ((demo 1 0 none none none).rangesOf 0 0) 16 4 { rd := true } = none ∧
    rangeCheck ((demo 1 0 none none none).rangesOf 0 0) 16 4 { w := true } = none ∧ 4096 < 4096 + 2 ^ 2 :=
  ⟨addressedSt, by decide, by decide, by decide, by decide, by decide⟩
theorem test_misaligned_record : raisedBy (exec (.ld ⟨0, 0x40, 2, 1, 0⟩) (demo 1 litEs (some (tok 0 .a [18])) none none)) = [0x0507] := by decide
theorem test_scratch_end_record : raisedBy (exec (.ld ⟨0, 0x40, 2, 1, 0⟩) (demo 1 litEs (some (tok 0 .a [4096])) none none)) = [0x0506] := by decide
theorem test_range_record : raisedBy (exec (.ld ⟨0, 0x40, 2, 1, 0⟩) (demo 1 0xFD00FD2000000000 (some (tok 0 .a [16])) none none)) = [0x0503] := by decide

/-! ### Witnesses: engines, rings, tiles and streams -/

/-- A copy of 16 bytes from element scratch to element scratch: S and D in [39:37] and [36:34], the length in [23:0] (R256). -/
def copyS1 : State := demo 1 0xFD00FD9000000010 (some (tok 0 .a [0])) (some (tok 1 .a [64])) none
def shadowS : State := ranged 0xFD00FD0000000001 (some (tok 0 .a [0])) (some (tok 1 .a [0x10000]))
def feS : State := demo 1 0xFD00FD0800000000 (some (tok 0 .a [16])) (some (tok 1 .i64 [32])) none
theorem witness_EngineCommands : copyS1.run.cur.port 0x40 = some (tok 0 .a [0]) ∧ copyS1.run.cur.port 0x41 = some (tok 1 .a [64]) ∧
    copyS1.run.cur.poisonOf fAB false = false ∧ (copyRows false 0xFD00FD9000000010 0).1 = 16 ∧ copyCV 0xFD00FD9000000010 = false ∧
    (copyS1.checkRows copyS1.run.cur (.es, 0) (some (.es, 64)) 16 (copyRows false 0xFD00FD9000000010 0).2).isOk = true := by decide
theorem witness_EngineCommands_ranges : rangeCheck (shadowS.rangesOf 0 0) 0 0x10000 { rd := true, w := true } = some 0 ∧
    rangeCheck (shadowS.rangesOf 0 0) 0x10000 0x10000 { rd := true, w := true } = some 0x10000 ∧
    feS.i64B feS.run.cur fAB = some [32] ∧ feS.scratchValid 0 0 .es 16 32 = true ∧
    newS.privOf 0 0 = false ∧ (writeS 0).privOf 0 0 = true ∧ (newS.copySlots 0).length ≤ 128 := by decide
/-- A SHADOW that drops its pair, with an operand H in no range. -/
def dropS : State := ranged 0xFD00FD0100000001 (some (tok 0 .a [0])) (some (tok 1 .a [0x40000000]))
theorem witness_EngineCommands_drop : bit dropS.run.cur.slot.lit 32 = true ∧
    rangeCheck (dropS.rangesOf 0 0) 0 0x10000 { rd := true, w := true } = some 0 ∧
    rangeCheck (dropS.rangesOf 0 0) 0x40000000 0x10000 { rd := true, w := true } = none := by decide
def ringS : State := demo 1 0xFD00FD0000000000 (some (tok 0 .i64 [0])) (some (tok 1 .a [64])) none
def mackS : State := demo 1 0xFD00FD0000000000 (some (tok 0 .i64 [0])) (some (tok 1 .i64 [1])) none
theorem witness_RingWords : ringS.run.cur.port 0x40 = some (tok 0 .i64 [0]) ∧ ringS.run.cur.port 0x41 = some (tok 1 .a [64]) ∧
    ringS.run.cur.poisonOf fAB false = false ∧ mackS.i64B mackS.run.cur fAB = some [1] ∧ ringS.run.cur.port 0x7F = none := by decide
/-- A reference to a packet at address 64 of element scratch, by an address token. -/
def tileS : State := demo 1 0xFDFEFD0000000000 (some (tok 0 .a [0x40])) (some (tok 1 .a [0x80])) none
theorem witness_TileElementWords : tileS.run.cur.port 0x40 = some (tok 0 .a [0x40]) ∧ tileS.run.cur.poisonOf fAB false = false ∧
    (tileRef .a 0x40 false).isOk = true ∧ (tileRef .a 0x80 false).isOk = true ∧
    (tok 0 .a [0x40]).data.all (fun v => v.toNat % 64 == 0) = true ∧
    stS.ownSource stS.run.cur 0x41 = some ([7], 32) ∧ bits 0x6000000000000000 63 61 = 3 := by decide

/-! ### Witnesses: islands and streams -/

/-- A firing of a node of an island, of a stream port with one context. -/
def islandS (word : W32) (a b : Option Token) : State :=
  let s := demo 1 0 a b none
  let r : Slot := ⟨word, 0x40002000, 0, 0⟩
  let c : Firing := { s.run.cur with names := ⟨0, 0, true, 0, 0⟩, slot := r }
  { s with ldr := { s.ldr with channels := [fetchChannel true r] }, run := { s.run with cur := c } }
/-- References of format T: operand slot 1 and accumulators 0 and 2 (R305). -/
def refSlot : Token := tok 0 .t [0x6000000000000041]
def refAcc (port k : Nat) : Token := tok port .t [w64 (0x6000000000000000 + k)]
def refMem : Token := tok 1 .t [0x40]
theorem witness_IslandWords : TileTok (islandS 0xA0000000 (some refSlot) none) 0x40 refSlot ∧
    (islandS 0xA0000000 (some refSlot) none).run.cur.port 0x7F = none ∧
    TileTok (islandS 0xA1000000 (some (refAcc 0 0)) (some refMem)) 0x41 refMem ∧
    TileTok (islandS 0xA6000000 (some (refAcc 0 0)) (some (refAcc 1 2))) 0x41 (refAcc 1 2) :=
  ⟨⟨by decide, by decide, by decide⟩, by decide, ⟨by decide, by decide, by decide⟩, ⟨by decide, by decide, by decide⟩⟩
theorem witness_IslandWords_references : tileRef .t (tokEl refSlot 0) true = .ok (.slot 1) ∧
    tileRef .t (tokEl (refAcc 0 0) 0) true = .ok (.acc 0) ∧ tileRef .t (tokEl (refAcc 1 2) 0) true = .ok (.acc 2) ∧
    tileRef .t (tokEl refMem 0) true = .ok (.mem .l1 0x40) := by decide
theorem witness_IslandWords_packet : ∃ ps, PacketReads { islandS 0xA0000000 (some refMem) none with ctxs := [rangeCtx] } refMem 0 false 1 ps ∧ ps ≠ [] :=
  ⟨_, Or.inr ⟨.l1, 0x40, 0x40, by decide, by decide, rfl⟩, by decide⟩
/-- TFILL of the constant 1 into accumulator 0 (R328). -/
def fFill : Fields := ⟨0, 0x01, 0x7F, 1, 0⟩
theorem witness_IslandFill : (islandS (wordOf 0xAB fFill) none none).run.cur.slot.word = wordOf 0xAB fFill ∧
    (bit (islandS (wordOf 0xAB fFill) none none).run.cur.slot.lit 3) = false ∧ constIn .f32 fFill.sa.toNat = some 0x3F800000 := by decide

def streamCtx : StreamCtx := ⟨0, none, [], [], [], [], [], [], []⟩
/-- A stream port whose node fires on the two tokens. -/
def streamS (st : StreamCtx) (word : W32) (lit : W64) (a b : Option Token) : State :=
  let s := demo 1 lit a b none
  let r : Slot := ⟨word, 0x40002000, 0, lit⟩
  let c : Firing := { s.run.cur with names := ⟨0, 0, true, 0, 0⟩, slot := r }
  { s with ctxs := [rangeCtx], ldr := { s.ldr with channels := [{ fetchChannel false r with sctx := [st] }] },
           run := { s.run with cur := c } }
/-- The hypotheses of `Consumes`, as a check of a state. -/
def consumesHere (s : State) (f : Fields) (one : State → Node → List SElem → List SElem → Option Taken) : Bool :=
  let u := s.enqueue s.run.cur f
  match u.node? s.run.cur.names s.run.cur.ctx with
  | none => false
  | some n => decide (0 < n.queueA.length + n.queueB.length) && match one u n n.queueA n.queueB with
    | none => false
    | some tk =>
      let v := tk.s.modStream s.run.cur.names s.run.cur.ctx fun st =>
        { st with headA := st.headA.set s.run.cur.names.idx tk.a, headB := st.headB.set s.run.cur.names.idx tk.b }
      match v.node? s.run.cur.names s.run.cur.ctx with
      | none => false
      | some m => (one v m m.queueA m.queueB).isNone
def fPort : Fields := ⟨0, 0x40, 0x7F, 1, 0⟩
/-- An open stream that is read, one that is written, a stop of level 1. -/
def openRead : StreamCtx := { streamCtx with stream := some ⟨.open_, [0x100000000 + 0x20, 0, 0, 4], 0, 0, 0, 0⟩ }
def openWrite : StreamCtx := { streamCtx with stream := some ⟨.open_, [0x22, 0, 0, 4], 0, 0, 0, 0⟩ }
def stopTok (port : Nat) : Token := { tok port .i64 [0] with stop := 1 }
theorem witness_StreamWords :
    consumesHere (streamS streamCtx (wordOf 0xB0 fPort) 0 (some (tok 0 .a [64])) none) fPort takeSopen = true ∧
    consumesHere (streamS openRead (wordOf 0xB1 fPort) 0 (some (tok 0 .i64 [0])) none) fPort takeSread = true ∧
    consumesHere (streamS openWrite (wordOf 0xB2 fPort) 0 (some (tok 0 .i32 [5])) none) fPort takeSwrite = true ∧
    consumesHere (streamS openRead (wordOf 0xB3 fPort) 0 (some (stopTok 0)) none) fPort takeSclose = true := by decide
theorem witness_StreamWords_nodes :
    consumesHere (streamS streamCtx (wordOf 0xB4 fAB) 0 (some (tok 0 .i64 [3])) (some (tok 1 .i64 [3]))) fAB (takePair false) = true ∧
    consumesHere (streamS streamCtx (wordOf 0xB5 fAB) 0 (some (tok 0 .i64 [3])) (some (tok 1 .i64 [4]))) fAB (takePair true) = true ∧
    consumesHere (streamS streamCtx (wordOf 0xB6 fPort) 1 (some (tok 0 .f32 [0x3F800000])) none) fPort takeSpaacc = true ∧
    consumesHere (streamS streamCtx (wordOf 0xB7 fPort) 0 (some (stopTok 0)) none) fPort takeSpaflush = true ∧
    consumesHere (streamS streamCtx (wordOf 0xB8 fPort) 1 (some (stopTok 0)) none) fPort takeStoplvl = true ∧
    consumesHere (streamS streamCtx (wordOf 0xB9 fPort) 0 (some (tok 0 .i64 [3])) none) fPort takeScount = true := by decide
/-- Elements of columns 3 and 4, a stop of level 7. -/
def col3 : SElem := dataElem .i64 3
def col4 : SElem := dataElem .i64 4
def nodeS : Node := ⟨⟨0, 0, true, 0, 0⟩, 0, 0, ⟨0, 0, 0, 1⟩, streamCtx⟩
theorem witness_StreamNodes : col3.stop = 0 ∧ col3.poison = false ∧ col3.fmt = .i64 ∧
    col3.val.toNat % 2 ^ 32 < col4.val.toNat % 2 ^ 32 ∧ (stopElem .i64 7 false).stop = 7 ∧
    (7 : Int) < (stopElem .i64 7 false).stop + toS 4 (bits nodeS.slot.lit 3 0) ∧
    (stopElem .i64 6 false).stop + toS 4 (bits nodeS.slot.lit 3 0) = 7 ∧
    (stopElem .i64 1 false).stop + toS 4 (bits (0xF : W64) 3 0) = 0 := by decide

/-! ### Witnesses: the control plane -/

/-- Reset with other fields of the device, with other registers of partition 0. -/
def withDev (f : Dev → Dev) : State := { State.reset with dev := f State.reset.dev }
def withPart (f : Part → Part) : State := State.reset.modPart 0 f
theorem witness_ResetsAndBoot : State.reset.dev.reduced = some 0 ∧ MemForm State.reset ∧ State.reset.dev.bridge = true ∧
    State.reset.dev.lsdUp = false ∧ (withDev fun d => { d with lsdUp := true }).dev.lsdUp = true ∧
    (withDev fun d => { d with layoutreq := 0x8000000000000000 }).dev.layout = none ∧
    bit (withDev fun d => { d with layoutreq := 0x8000000000000000 }).dev.layoutreq 63 = true :=
  ⟨by decide, ⟨by decide, by decide, by decide, by decide⟩, by decide, by decide, by decide, by decide, by decide⟩
/-- The fuses of an N960-14 (R26, R27): strips 7 and 8 are not present. -/
def fusedS : State := withDev fun d => { d with devid := setBits d.devid 63 48 0xFE7F }
theorem witness_ResetsAndBoot_fused : stripPresent fusedS.dev.devid 7 = false ∧ stripPresent fusedS.dev.devid 0 = true := by decide
theorem test_cold_reset_fuses : ((upto 16).map (nextOf State.reset (exec (.coldReset true false) fusedS)).stripState)
    = [3, 0, 0, 0, 0, 0, 0, 6, 6, 0, 0, 0, 0, 0, 0, 0] := by decide
theorem test_cold_reset_without_image : (nextOf State.reset (exec (.coldReset false false) State.reset)).dev.mbstat = 0x0F := by decide
theorem test_reduced_service_ends : (nextOf State.reset (exec (.reducedServiceEnd [] true) State.reset)).dev.mbstat = 1 := by decide

theorem witness_RegisterWrites : (State.reset.part 0).hasStrip 0 = true ∧ writeRight 0x43 ≠ .none_ ∧ startsMore 0x43 32 = false ∧
    writeRight 0 = .none_ ∧ (State.reset.part 0).live = true ∧ (newS.ctx? 0 0).isSome = true ∧
    (State.reset.xlatInv 0 0).isSome = true ∧ (State.reset.part 0).hasCluster 0 = true ∧ State.reset.mem.ways = [] ∧
    State.reset.mem.leases = [] ∧ maskOk (bits 0 11 0) = true ∧ maskOk (bits 1 11 0) = true := by decide
theorem witness_RegisterWrites_ways : waysOf (State.reset.mask 0) ≤ waysOf (bits 1 11 0) ∧
    waysOf (bits 0 11 0) < waysOf ((State.reset.setMask 0 1).mask 0) ∧
    (State.reset.setMask 0 1).shrinkRefused 0 0 = false ∧ (State.reset.part 0).mode ≠ bit 1 0 ∧
    (State.reset.part 0).modeWait = none ∧ State.reset.dev.layout = none ∧ State.reset.partFree 0 = true := by decide
theorem witness_RegisterFields : (State.reset.part 0).tenants.length = 64 := by decide
theorem test_leasecap_keeps_other_values : ((State.reset.part 0).setReg 0x43 20).leasecap = 16 ∧
    ((State.reset.part 0).setReg 0x43 32).leasecap = 32 := by decide
/-- HEAD 0xFFFFFFFF and TAIL 1: two records are unread. -/
theorem witness_TrapHeadWrites : (bits (0x1FFFFFFFF : W64) 63 32 + 2 ^ 32 - bits (0x1FFFFFFFF : W64) 31 0) % 2 ^ 32 = 2 := by decide
theorem test_trap_head_wraps : trapHead 0x1FFFFFFFF 0 = 0x100000000 ∧ trapHead 0x1FFFFFFFF 2 = 0x1FFFFFFFF := by decide

/-- Context 0 is halted; an operation that waits for a page of it; a SYSCALL of it that waits. -/
def haltS : State := { newS with ctxs := [{ fetchCtx with halted := true }] }
def parkedS (k : OpKind) (ph : OpPhase) (ps : List Nat) : State :=
  let o := { blankOp with kind := k, phase := ph, params := ps }
  { newS with work := { newS.work with ops := [o] } }
def parkedOp (k : OpKind) (ph : OpPhase) (ps : List Nat) : Op := { blankOp with kind := k, phase := ph, params := ps }
theorem witness_ResumesAndReplies : State.reset.fresumeDue 0 (bits 0 63 52) (bits 0 51 16) true = false ∧
    (State.reset.part 0).fresumes = [] ∧ (State.reset.part 0).gated = false ∧
    (parkedS .load .faulted []).op? 2 = some (parkedOp .load .faulted []) ∧
    (parkedS .load .faulted []).members (parkedOp .load .faulted []) = [parkedOp .load .faulted []] ∧
    haltS.ctx? 0 (bits 0x4000000000000000 11 0) = some { fetchCtx with halted := true } ∧ bits 0x4000000000000000 63 62 = 1 ∧
    bits 0x8000000000000000 63 62 = 2 ∧ bits 0 15 10 ≠ 16 := by decide
/-- A wait of operation 2 for granule 0 of ASID 0, to be aborted or not. -/
def wait0 (aborts : Bool) : Waiting := ⟨0, 0, 0, .op 2, aborts⟩
theorem witness_ResumesAndReplies_due : ({ State.reset with work := { State.reset.work with waits := [wait0 true] } } : State).fresumeDue 0 0 0 false
    = true ∧ (wait0 false).who = .op 2 := by decide
theorem witness_ResumesAndReplies_syscall :
    ((parkedS .syscall .parked []).work.ops.find? fun o => o.kind = .syscall && o.phase = .parked && o.names.part == 0 && o.ctx == bits 0 11 0)
      = some (parkedOp .syscall .parked []) ∧ ((parkedS .syscall .parked []).part 0).hasStrip 0 = true := by decide
def gatedS : State := withPart fun x => { x with gated := true }
theorem witness_ResumesAndReplies_gated : (gatedS.part 0).gated = true ∧ (gatedS.part 0).hasStrip 0 = true := by decide
/-- HBM with the tables of ASID 1 from 0x10000 on, whose page 0 is mapped to 0x1000000 (R37, R40); full service. -/
def tablesS : Memory :=
  [(8, 0x10001), (0x10000, 0x20003), (0x20000, 0x30003), (0x30000, 0x40003), (0x40000, 0x1000019)].foldl
    (fun m x => Memory.write m x.1 (leBytes 8 x.2)) State.reset.mem.hbm
def mappedS : State := { newS with dev := { newS.dev with reduced := none }, mem := { newS.mem with hbm := tablesS } }
theorem witness_ResumesAndReplies_scrub : ∃ t, mappedS.scrub 0 0x10000000004000 = .done t := ⟨_, rfl⟩

/-! ### Witnesses: moves, saves, layout changes, launches and tasks -/

def mv (k : Nat) : Move := ⟨0, 0, false, ⟨0, 0, 0⟩, ⟨0, 1, 0⟩, k, false⟩
def moveS (k : Nat) : State := (newS.modPart 0 fun x => { x with move := some (mv k) }).about 0 0 0
/-- BLKMOVE of block 0 to element 1 of cluster 0; to a cluster that the partition does not have. -/
def goMove : W64 := 0x8000000004000000
def goAway : W64 := 0x8000002004000000
theorem witness_MovesAndSaves : (newS.part 0).live = true ∧ bit goMove 63 = true ∧ bit (newS.part 0).blkmove 63 = false ∧
    (newS.part 0).move = none ∧ newS.moveStatus 0 (bits goMove 58 53) (bits goMove 52 41) (bit goMove 59)
      ⟨bits goMove 40 30, bits goMove 29 26, bits goMove 25 25⟩ = 0 ∧
    newS.moveStatus 0 (bits goAway 58 53) (bits goAway 52 41) (bit goAway 59)
      ⟨bits goAway 40 30, bits goAway 29 26, bits goAway 25 25⟩ ≠ 0 ∧
    ((moveS 1).part 0).move = some (mv 1) ∧ ((moveS 3).part 0).move = some (mv 3) ∧ (moveS 4).onOldRoute 0 (mv 4) = false := by decide
/-- The same move, asked for by BLKMOVE. -/
theorem witness_MovesAndSaves_waits : (newS.part 0).hasCluster (bits goAway 40 30) = false ∧ ((moveS 1).part 0).move ≠ none ∧
    (gatedS.part 0).gated = true ∧ (mv 4).asked = false ∧ ({ mv 4 with asked := true } : Move).asked = true := by decide
def goSave : W64 := 0xA000000000000000
def goRestore : W64 := 0xC000000000000000
theorem witness_MovesAndSaves_save : bits goSave 62 61 = 1 ∧ bit goSave 63 = true ∧ State.reset.layoutHolds 0 = false ∧
    bit (State.reset.part 0).pctl 63 = false ∧ (State.reset.part 0).gated = false ∧ (State.reset.part 0).bank0 = none ∧
    bits goRestore 62 61 = 2 ∧ (gatedS.part 0).gated = true := by decide
def savingS : State := (withPart fun x => { x with gated := true, saving := true, pctl := goSave }).about 0 0 0
theorem witness_MovesAndSaves_round : (savingS.part 0).saving = true ∧ savingS.settleRound 0 = savingS ∧ savingS.unsettled 0 = false :=
  ⟨rfl, rfl, rfl⟩
/-- Partition 0 is gated and bank 0 holds what a SAVE of it holds. -/
def bankS : State := gatedS.modPart 0 fun x => { x with bank0 := some (gatedS.saved 0) }
theorem witness_MovesAndSaves_restore : (bankS.part 0).bank0.isSome = true ∧ (bankS.part 0).gated = true ∧
    bit (bankS.part 0).pctl 63 = false ∧ bankS.layoutHolds 0 = false := ⟨rfl, rfl, rfl, rfl⟩

/-- GROW to strips 0-1, SHRINK to strip 0, DEFRAG to strip 1, RESERVE and RELEASE of strip 1 for partition 0 (R418). -/
def reqGrow : W64 := 0x9000100000000000
def reqShrink : W64 := 0xA000000000000000
def reqDefrag : W64 := 0xB001100000000000
def reqReserve : W64 := 0xC001100000000000
def reqRelease : W64 := 0xD001100000000000
/-- Strip 1 is partition 0's as well; strip 1 is reserved for it. -/
def twoS : State := { State.reset with dev := { State.reset.dev with strips := [stripWord 3 0, stripWord 3 0] ++ List.replicate 14 (stripWord 0 0) },
                                       parts := (Part.formed Part.free 0 2) :: List.replicate 15 Part.free }
def keptS : State := withDev fun d => { d with strips := [stripWord 3 0, stripWord 2 0] ++ List.replicate 14 (stripWord 0 0) }
theorem witness_LayoutChanges : bit State.reset.dev.layoutreq 63 = false ∧ bit reqGrow 63 = true ∧ bits reqGrow 62 60 = 1 ∧
    bits reqShrink 62 60 = 2 ∧ bits reqDefrag 62 60 = 3 ∧ bits reqReserve 62 60 = 4 ∧ bits reqRelease 62 60 = 5 := by decide
theorem witness_LayoutChanges_accepted : State.reset.layoutStatus reqGrow = 0 ∧ twoS.layoutStatus reqShrink = 0 ∧
    keptS.layoutStatus reqDefrag = 0 ∧ State.reset.layoutStatus reqReserve = 0 ∧ keptS.layoutStatus reqRelease = 0 := by decide
theorem witness_LayoutChanges_refused : twoS.layoutStatus reqGrow = 3 ∧ State.reset.layoutStatus reqShrink = 3 ∧
    State.reset.layoutStatus reqDefrag = 4 ∧ keptS.layoutStatus reqReserve = 4 ∧ State.reset.layoutStatus reqRelease = 4 := by decide
/-- A change of partition 0 in a state; strips 1 and 2 still join. -/
def changing (op state : Nat) (left : List Nat) : State :=
  { twoS with dev := { twoS.dev with layout := some ⟨op, 0, 0, 1, 0, 2, 1, state, left, none⟩ }, run := { twoS.run with subj := ⟨1, 0, 0⟩ } }
theorem witness_LayoutChanges_steps : (changing 1 2 [1, 2]).dev.layout = some ⟨1, 0, 0, 1, 0, 2, 1, 2, [1, 2], none⟩ ∧ (1 : Nat) ∈ [1, 2] ∧
    [1, 2].filter (fun y => y ≠ 1) ≠ [] ∧ [1].filter (fun y => y ≠ 1) = [] ∧
    ((changing 1 5 []).part 0).hasStrip (sliceStrip 1) = true ∧ (changing 1 5 []).walked 0 = true := by decide
def dirtyS : State := (withDev fun d => { d with strips := [stripWord 3 0, stripWord 1 0] ++ List.replicate 14 (stripWord 0 0) }).about 1 0 0
theorem witness_LayoutChanges_zero : dirtyS.run.subj.a = 1 ∧ dirtyS.dev.strips.length = 16 ∧ dirtyS.stripState 1 = 1 ∧ MemForm dirtyS :=
  ⟨by decide, by decide, by decide, by decide, by decide, by decide, by decide⟩

/-- A launch of section 0 in mode 0 from queue 0, held in its queue; the same launch in a launch slot. -/
def launch0 : LaunchRec := ⟨0, 0, false, 0, 0, 1, [], 0, 0, 0, [], [], []⟩
def held0 : HeldLaunch := ⟨0, 0, launch0, false, false, none, false⟩
def run0 (sec tile : Nat) (loaded : Bool) : Running := ⟨0, 0, 1, launch0, sec, loaded, [0], tile, [], 0, 0, 1, false, 0, []⟩
def heldS : State := (withPart fun x => { x with held := [held0], qcfg := List.replicate 64 1 }).about 0 0 0
def runS (sec tile : Nat) (loaded : Bool) : State := ((({ demo 1 0 none none none with ctxs := [] } : State)).modPart 0 fun x =>
  { x with running := [run0 sec tile loaded], qcfg := List.replicate 64 1 }).about 0 0 0
theorem witness_LaunchesAndTasks_submit : (State.reset.part 0).live = true ∧ bits (0x0001000000000000 : W64) 63 48 ≠ 0 ∧
    bits (0x4000 : W64) 63 48 = 0 ∧ bits (0x4000 : W64) 7 0 = 0 ∧ paLocal 0x4000 = true ∧ paHost 0x4000 = false := by decide
theorem witness_LaunchesAndTasks_start : (heldS.part 0).works = true ∧ (heldS.part 0).running.length < 16 ∧ held0.launch.tcb = 0 ∧
    (heldS.part 0).nextStart [held0] = some held0 := by decide
theorem witness_LaunchesAndTasks_startable : ∃ u, (((upto 64).filterMap fun q => (heldS.part 0).head q).foldl (fun s h => s.markHead 0 h) heldS).startable 0 (upto 64) [] = ([held0], u) := ⟨_, rfl⟩
theorem witness_LaunchesAndTasks_run : ((runS 0 0 false).part 0).works = true ∧ ((runS 0 0 false).part 0).running[0]? = some (run0 0 0 false) ∧
    (run0 0 0 false).sec < (run0 0 0 false).launch.secEnd ∧ (run0 0 0 false).emptySpace = false ∧
    (run0 0 1 true).sec < (run0 0 1 true).launch.secEnd ∧ (runS 0 1 true).sectionOver 0 (run0 0 1 true) = true ∧
    (runS 1 0 false).launchBusy 0 (run0 1 0 false) = false ∧ (run0 1 0 false).launch.secEnd ≤ (run0 1 0 false).sec := by decide
theorem runS_picks : ∃ c u, (runS 0 0 true).pickCtx 0 = (some c, u) := by
  obtain ⟨c, hc⟩ : ∃ c, ((runS 0 0 true).pickCtx 0).1 = some c := by
    simp only [State.pickCtx]
    exact findFrom_two _ 4096 4094 _ (Or.inl rfl)
  exact ⟨c, _, Prod.ext hc rfl⟩
theorem witness_LaunchesAndTasks_dispatch : ∃ k t id u, (runS 0 0 true).dispatchPick 0 = some (run0 0 0 true) ∧
    (runS 0 0 true).runSection 0 (run0 0 0 true) = some k ∧ (runS 0 0 true).taskHome 0 k = (some 0, t) ∧
    (run0 0 0 true).nextId = some 0 ∧ t.dispatchTask 0 (run0 0 0 true) k.lsec 0 0 = some (id, u) := by
  obtain ⟨c, u, h⟩ := runS_picks
  have hs : (runS 0 0 true).section? 0 demoSection.lsec = some demoSection := rfl
  have hd : ((runS 0 0 true).dispatchTask 0 (run0 0 0 true) demoSection.lsec 0 0).isSome = true := by
    simp only [State.dispatchTask, h, hs]
    rfl
  obtain ⟨x, hx⟩ := Option.isSome_iff_exists.mp hd
  refine ⟨demoSection, runS 0 0 true, x.1, x.2, ?_, rfl, rfl, rfl, hx⟩
  · have hc : (runS 0 0 true).canDispatch 0 (run0 0 0 true) = true := by
      have hs : (runS 0 0 true).runSection 0 (run0 0 0 true) = some demoSection := rfl
      have ht : ((runS 0 0 true).taskHome 0 demoSection).1 = some 0 := rfl
      have hr : (runS 0 0 true).streamRoom 0 demoSection.lsec = true := rfl
      simp only [State.canDispatch, hs, h, ht, hr]
      rfl
    have hl : ((runS 0 0 true).part 0).running = [run0 0 0 true] := rfl
    simp only [State.dispatchPick, hl, List.filter_cons, hc]
    rfl
/-- A context whose task is done; a task that an abort has emptied; a load of it that waits for a page. -/
def doneS : State := { (demo 1 0 none none none).about 0 0 0 with ctxs := [{ fetchCtx with done := true }] }
def abortS : State := ({ (demo 1 0 none none none).about 0 0 0 with ctxs := [{ fetchCtx with aborted := true }] } : State).modPart 0 fun x =>
  { x with tasks := [⟨1, 0, 0, 0, 0, false, 0⟩] }
theorem witness_LaunchesAndTasks_retire : doneS.ctx? 0 0 = some { fetchCtx with done := true } ∧ doneS.taskCtxs 0 0 = [0] ∧
    doneS.quiet 0 0 = true ∧ doneS.islandWaits 0 0 = false ∧ doneS.work.rings = [] ∧ fetchCtx.done = false := by decide
theorem witness_LaunchesAndTasks_requeue : abortS.ctx? 0 0 = some { fetchCtx with aborted := true } ∧ abortS.taskQuiet 0 0 = true ∧
    ((((abortS.closeTask 0 0).freeTask 0 0).part 0).tasks.find? fun t => t.ctx == 0 && !t.ready) = some ⟨1, 0, 0, 0, 0, false, 0⟩ := by decide
theorem witness_LaunchesAndTasks_abort : ((parkedS .load .faulted []).about 2 0 0).op? 2 = some (parkedOp .load .faulted []) ∧
    (parkedS .load .faulted []).rootOf 0 0 = 0 ∧ (parkedS .load .faulted []).ctx? 0 0 = some fetchCtx ∧
    (wait0 true).who = .op (parkedOp .load .faulted []).id ∧ (wait0 true).aborts = true ∧ ((parkedS .load .faulted []).part 0).aborts.getD (0, 0, 0) 0 + 1 < 64 := by decide
/-- Block 0 of section 0 stands where block 0 of section 1 was loaded, and a token waits for that one (R393, R394). -/
def wantTok : Token := { tok 0 .i8 [1] with dest := ⟨0, 1, false, 0, 0⟩ }
def evictS (moving : Bool) : State :=
  let s := demo 1 0 none none none
  { s with ctxs := [], fab := { s.fab with held := [wantTok] },
           ldr := { s.ldr with sections := [{ demoSection with table := [(0, PlEntry.word ⟨true, moving, false, ⟨0, 0, 0⟩⟩), (1, PlEntry.word ⟨true, false, false, ⟨0, 0, 1⟩⟩)] },
             { demoSection with lsec := 1, table := [(0, PlEntry.word ⟨false, false, false, ⟨0, 0, 0⟩⟩)] }] } }
theorem witness_LaunchesAndTasks_evict : (evictS false).entry? ⟨0, 0, false, 0, 0⟩ = some ⟨true, false, false, ⟨0, 0, 0⟩⟩ ∧
    (evictS true).entry? ⟨0, 0, false, 0, 0⟩ = some ⟨true, true, false, ⟨0, 0, 0⟩⟩ ∧
    (evictS false).evictable 0 0 0 ⟨true, false, false, ⟨0, 0, 0⟩⟩ = true ∧ (evictS true).evictable 0 0 0 ⟨true, true, false, ⟨0, 0, 0⟩⟩ = true := by decide
/-- The launch of section 1 is being loaded. -/
def roomS : State := (evictS false).modPart 0 fun x => { x with running := [{ run0 0 0 false with lsecs := [1] }] }
theorem witness_LaunchesAndTasks_room : roomS.roomWanted 0 0 0 0 = true ∧ roomS.olderOther 0 ⟨0, 0, 0⟩ = false ∧
    roomS.evictable 0 0 0 ⟨true, false, false, ⟨0, 0, 0⟩⟩ = true := by decide
/-- The block's entry is marked MOVING; its V is 0 then. -/
def leavingS (valid : Bool) : State := ((evictS true).modEntry 0 0 0 fun e => { e with valid := valid }).about 0 0 0
theorem witness_LaunchesAndTasks_leaving : (leavingS false).entry? ⟨0, 0, false, 0, 0⟩ = some ⟨false, true, false, ⟨0, 0, 0⟩⟩ ∧
    ((leavingS false).forgetPlace 0 0 0).boundFor 0 0 0 ⟨0, 0, 0⟩ = false ∧ ((leavingS false).part 0).works = true ∧
    (evictS true).roomWanted 0 0 0 0 = false := by decide
/-- The same with nothing loaded in the way. -/
def reloadS : State :=
  { roomS with ldr := { roomS.ldr with sections := roomS.ldr.sections.drop 1 } }
def reloadRun : Running := { run0 0 0 false with lsecs := [1] }
def reloadSec : Section := at! reloadS.ldr.sections 0 demoSection
theorem witness_LaunchesAndTasks_reload : (1, 0) ∈ reloadS.neededBlocks 0 ∧ reloadS.section? 0 1 = some reloadSec ∧
    (reloadS.part 0).running.find? (fun r => r.lsecs.contains 1) = some reloadRun ∧ reloadS.reloadPlace 0 reloadSec 0 = some ⟨0, 0, 0⟩ ∧
    ∃ t, reloadS.fetchSlots 0 reloadRun reloadSec 0 = .inl t := ⟨by decide, by decide, by decide, by decide, _, rfl⟩
/-- The same with the code object's handle and pages in place. -/
def fetchRun : Running := { reloadRun with launch := { launch0 with ranges := [(0x100F, 0)] } }
def fetchS : State :=
  let s := reloadS.modPart 0 fun x => { x with handles := x.handles.set 0 ⟨0x10100, 0x100, 0, 0⟩, running := [fetchRun],
                                               qcfg := List.replicate 64 0x0010000000000001 }
  { s with dev := { s.dev with reduced := none }, mem := { s.mem with hbm := tablesS.write 0x40000 (leBytes 8 0x1000079) } }
set_option maxRecDepth 10000 in
theorem witness_LaunchesAndTasks_reload_read : ∃ x t, fetchS.fetchSlots 0 fetchRun reloadSec 0 = .inr (x, t) := ⟨_, _, rfl⟩
/-- A launch of mode 1 whose table holds one entry for cluster 0. -/
def tableRun : Running := { run0 0 0 true with launch := { launch0 with mode := true }, cursors := [⟨0, [(7, 0)], none⟩] }
theorem witness_LaunchesAndTasks_table : tableRun.cursors.find? (fun c => c.cluster == 0) = some ⟨0, [(7, 0)], none⟩ ∧
    tableRun.lsecs[0]? = some 0 ∧ (runS 0 0 true).streamRoom 0 0 = true ∧
    (runS 0 0 true).chainSlot 0 (inRun ((runS 0 0 true).loadRun 0) 0) = true := by decide

/-! ### Witnesses: memory, engines and the fabric -/

/-- Accesses of four bytes from outside. -/
def extRead : ExtAccess := ⟨.read, 2, 0x40, 0, 0, .i32⟩
def extAdd : ExtAccess := ⟨.amo .add, 2, 0x40, 5, 0, .i32⟩
theorem witness_OutsideAccesses_core : (mappedS.part 0).live = true ∧ extAligned extRead = true ∧ extRead.addr < 2 ^ 52 := by decide
/-- The access is performed at its place. -/
def Now.isReady : Now → Bool
  | .ready _ _ => true
  | _ => false
theorem witness_OutsideAccesses_home : (mappedS.homeNow 0 1 extRead.addr none (extNeed extRead.kind) .any).isReady = true := by decide
def aperS : State := withPart fun x => { x with hostaper := 0x0010000000010000 }
theorem witness_OutsideAccesses_aperture : bits (aperS.part 0).hostaper 63 52 = 1 ∧ (aperS.part 0).live = true := by decide
/-- 64 KiB from address 0 are exported as a reduction window that peers may write (R145, R148). -/
def exportS : State := withDev fun d => { d with lsdUp := true, reduced := none, exports := List.replicate 16 0x4103 }
theorem witness_OutsideAccesses_peer : exportS.admits extRead = true ∧ exportS.dev.reduced = none ∧ MemForm exportS ∧
    exportS.admits extAdd = true ∧ exportS.reduces extAdd.addr = true ∧ AmoOp.merges .add = true ∧ State.reset.admits extRead = false :=
  ⟨by decide, by decide, ⟨by decide, by decide, by decide, by decide⟩, by decide, by decide, by decide, by decide⟩
theorem witness_OutsideAccesses_answers : (parkedS .load .parked [6]).op? 2 = some (parkedOp .load .parked [6]) ∧
    (parkedS .load .parked [5]).hostFill? 2 = none ∧ (parkedOp .load .parked [5]).phase = .parked ∧
    (parkedS (.amo .add) .parked [7, 0x40]).dev.locks.contains (lockIndex 0x40) = false := by decide
theorem witness_OutsideAccesses_splice : (∃ x, mappedS.findLeaf 0 1 (0 * 2 ^ 16) = .ok x) ∧
    (let m := { mappedS with mem := { mappedS.mem with hbm := mappedS.mem.hbm.write 0x40000 (leBytes 8 0x1000219) } }
     ∃ e q, m.findLeaf 0 1 (0 * 2 ^ 16) = .ok (e, q, 16) ∧ leafPin e = false ∧ leafMig e = true ∧ m.rangeFree 1 0 (2 ^ 16) = true) :=
  ⟨⟨_, rfl⟩, _, _, rfl, rfl, rfl, rfl⟩
/-- An engine operation of `n` pieces. -/
def eng (kind : EngKind) (ps : List Piece) : EngOp :=
  { id := 3, starter := 3, chained := false, kind := kind, names := ⟨0, 0, true, 0, 0⟩, ctx := 0, asid := 1, wave := 0, cluster := 0, scope := 0,
    pieces := ps, bad := false, ctr := none, gather := none, word := 0xA0000000, lit := 0, args := [w64 0x6000000000000041, 0], params := [], info := 0, flush := none }
def engS (e : EngOp) : State := ({ newS with work := { newS.work with engs := [e] } } : State).about 3 1 0
/-- The line of an access is busy; it is mapped to the host, to a peer; an access to a peer awaits its answer. -/
def busyS : State := { mappedS with mem := { mappedS.mem with reqs := [⟨5, 0, 0, 1, 1, 0, .l2, 0, .op 2, false⟩] } }
def farS (leaf : Nat) : State := { mappedS with dev := { mappedS.dev with lsdcfg := 0x100, lsdUp := true }, mem := { mappedS.mem with hbm := mappedS.mem.hbm.write 0x40000 (leBytes 8 leaf) } }
def Now.at_ : Now → Option Nat
  | .ready (.pa _ pa) _ => some pa
  | _ => none
def awaiting (pa : Nat) : State := { mappedS with work := { mappedS.work with outs := [⟨8, 0, 1, .core, extRead, true, pa, none⟩] } }
theorem witness_OutsideAccesses_queued : busyS.lineQueued 1 (extRead.addr / 64) = true ∧ mappedS.lineQueued 1 (extRead.addr / 64) = false := by decide
theorem witness_OutsideAccesses_windows :
    (match Now.at_ ((farS 0x410000000009).homeNow 0 1 extRead.addr none (extNeed extRead.kind) .any) with
      | some pa => paPeer pa
      | none => false) = true ∧
    (match Now.at_ (({ farS 0x800000000009 with parts := setAt (farS 0).parts 0 { (farS 0).part 0 with hostwin := 1 } } : State).homeNow 0 1
        extRead.addr none (extNeed extRead.kind) .any) with
      | some pa => paHost pa
      | none => false) = true := by decide
theorem witness_OutsideAccesses_answers_out : (awaiting peerBase).op? 8 = none ∧ (awaiting peerBase).eng? 8 = none ∧
    (awaiting peerBase).out? 8 = some ⟨8, 0, 1, .core, extRead, true, peerBase, none⟩ ∧ paPeer peerBase = true ∧ paHost hostBase = true := by decide
theorem witness_OutsideAccesses_emulated : ((parkedS (.amo .add) .parked [7, 0x40]).lock 0x40).dev.locks.contains (lockIndex 0x40) = true ∧
    (parkedOp (.amo .add) .parked [9, 0x40, 5]).params = [9, 0x40, 5] := by decide
theorem witness_OutsideAccesses_engine : (engS (eng .copy [])).op? 3 = none ∧ (engS (eng .copy [])).eng? 3 = some (eng .copy []) := by decide

/-- A request of cluster 0 for line 1 of ASID 1 at slice 0. -/
def req0 (k : ReqKind) : HReq := ⟨5, 0, 0, 1, 1, 0, k, 0, .op 2, false⟩
def line0 (st : Mesi) (putting : Bool) (next : Nat) : L1Line := ⟨0, 1, 1, st, 0x7FF, next, 0, List.replicate 64 0, 1, putting, []⟩
def l2Line (d : Dir) : L2Line := ⟨0, 1, 1, d, 0, List.replicate 64 0, false, 0, 1, false, []⟩
def reqS (k : ReqKind) (l1 : List L1Line) (d : Dir) : State :=
  ({ newS with mem := { newS.mem with reqs := [req0 k], l1 := l1, l2 := [l2Line d] } } : State).about 5 0 0
theorem witness_DirectoryEvents : (reqS .getS [] .di).homeTurn (req0 .getS) = true ∧ (reqS .getS [] .di).req? 5 .getS = some (req0 .getS) ∧
    (reqS .getM [] .di).homeTurn (req0 .getM) = true ∧ (reqS .getM [] .di).req? 5 .getM = some (req0 .getM) ∧
    (reqS .l2 [] .di).homeTurn (req0 .l2) = true ∧ (reqS .mem [] .di).homeTurn (req0 .mem) = true ∧
    (reqS .upgrade [] .ds).homeTurn (req0 .upgrade) = true ∧ (reqS .upgrade [] .ds).req? 5 .upgrade = some (req0 .upgrade) := by decide
theorem witness_DirectoryEvents_puts : (reqS .putS [line0 .s true 0x7FF] .ds).putting? (req0 .putS) = some (line0 .s true 0x7FF) ∧
    (reqS .putS [line0 .s true 0x7FF] .ds).listed ((reqS .putS [line0 .s true 0x7FF] .ds).putHome (req0 .putS)) (line0 .s true 0x7FF) = true ∧
    (reqS .putS [line0 .i true 0x7FF] .di).putting? (req0 .putS) = some (line0 .i true 0x7FF) ∧
    (reqS .putO [line0 .m true 0x7FF] .do_).putting? (req0 .putO) = some (line0 .m true 0x7FF) ∧
    (reqS .putO [line0 .m true 0x7FF] .do_).listed ((reqS .putO [line0 .m true 0x7FF] .do_).putHome (req0 .putO)) (line0 .m true 0x7FF) = true ∧
    (reqS .putO [line0 .e true 0x7FF] .do_).listed ((reqS .putO [line0 .e true 0x7FF] .do_).putHome (req0 .putO)) (line0 .e true 0x7FF) = true := by
  decide
/-- An operation of context 0. -/
def waitOp (k : OpKind) : Op := { blankOp with kind := k, ia := 0x40 }
/-- An access of a control core has its turn; a partition that Sage has stopped. -/
def outsideReq : HReq := { req0 .l2 with from_ := .outside 8 }
theorem witness_DirectoryEvents_outside : (reqS .l2 [] .di).homeTurn outsideReq = true ∧ ((reqS .l2 [] .di).part 0).stopped = false ∧
    outsideReq.from_ = .outside 8 := by decide
def stoppedS : State := newS.modPart 0 fun x => { x with stopped := true }
theorem witness_ChainEvents_stopped : (stoppedS.part (waitOp .store).names.part).stopped = true ∧
    (({ stoppedS with work := { stoppedS.work with ops := [waitOp .store] } } : State).about 2 0 0).op? 2 = some (waitOp .store) := by decide
def msgS (k : CMsgKind) (next : Nat) (ls : List Lease) : State :=
  ({ reqS .getM [line0 .s false next] .ds with
      mem := { (reqS .getM [line0 .s false next] .ds).mem with
        txns := [⟨req0 .getM, .walk⟩], cmsgs := [⟨7, k, 0, 0, 1, 1, 5, false⟩], leases := ls } } : State).about 7 0 0
def lease0 : Lease := ⟨0, 0, 0, 0, 1, 1, 10, ⟨0, 0, false, 0, 0⟩⟩
theorem witness_DirectoryEvents_messages : (msgS .inv 0x7FF []).cmsg? 7 = some ⟨7, .inv, 0, 0, 1, 1, 5, false⟩ ∧
    (msgS .inv 0x7FF []).txn? 5 = some ⟨req0 .getM, .walk⟩ ∧ (msgS .inv 3 []).l1Any? 0 1 1 = some (line0 .s false 3) ∧
    (msgS .inv 0x7FF []).l1Any? 0 1 1 = some (line0 .s false 0x7FF) ∧ (msgS .probe 0x7FF []).leaseOn 0 1 1 = none ∧
    (msgS .probe 0x7FF [lease0]).leaseOn 0 1 1 = some lease0 := by decide

/-- An operation of context 0 waits in the buffer of its element. -/
def chainS (o : Op) (y : Ctx) : State := ({ newS with ctxs := [y], work := { newS.work with ops := [o] } } : State).about 2 0 0
theorem witness_ChainEvents : MayPerform storeS storeS (op0 storeS) (ctx0 storeS) := witness_MayPerform
theorem witness_ChainEvents_stale : (chainS (waitOp .store) { fetchCtx with chain := { fetchCtx.chain with wave := 1 } }).op? 2 = some (waitOp .store) ∧
    (waitOp .store).chained = true ∧ ({ fetchCtx.chain with wave := 1 } : Chain).stale (waitOp .store) = true := by decide
theorem witness_ChainEvents_halted : (chainS (waitOp .load) { fetchCtx with halted := true }).ctx? 0 0 = some { fetchCtx with halted := true } := by decide
/-- The same with line 1 of ASID 1 in the L1 of its cluster. -/
def hitS (k : OpKind) : State :=
  let s := chainS (waitOp k) fetchCtx
  { s with dev := mappedS.dev, mem := { mappedS.mem with hbm := tablesS.write 0x40000 (leBytes 8 0x1000059), l1 := [line0 .e false 0x7FF] } }
theorem witness_ChainEvents_line : MayPerform (hitS .store) (hitS .store) (waitOp .store) fetchCtx ∧ (hitS .store).members (waitOp .store) = [waitOp .store] ∧
    (hitS .store).leaseOn 0 1 1 = none ∧ (hitS .store).l1? 0 1 1 = some (line0 .e false 0x7FF) ∧
    (hitS .store).leafAdmits 0 1 (waitOp .store) = true :=
  ⟨⟨⟨waitOp .store, by decide, rfl, rfl⟩, by decide, by decide, by decide, by decide, by decide, by decide, by decide, by decide⟩,
    by decide, by decide, by decide, by decide⟩
theorem witness_ChainEvents_lease : (chainS (waitOp .lease) fetchCtx).op? 2 = some (waitOp .lease) ∧ fetchCtx.takes (waitOp .lease) = true ∧
    ((chainS (waitOp .lease) fetchCtx).part 0).gated = false ∧ (waitOp .lease).phase = .buffered := by decide
theorem witness_ChainEvents_expiry : ((({ newS with mem := { newS.mem with leases := [lease0] } } : State).about 0 0 0).mem.leases.find? fun e =>
    e.cluster == 0 && e.entry == 0) = some lease0 ∧ newS.dev.clock < lease0.end_ := by decide
def turnedOp : Op := { waitOp .ctrWait with phase := .turned, level := .cs }
theorem witness_ChainEvents_turned : ((chainS turnedOp fetchCtx).work.ops.find? fun q =>
      q.phase = .turned && q.waitTable (chainS turnedOp fetchCtx) = turnedOp.waitTable (chainS turnedOp fetchCtx)) = some turnedOp ∧
    (chainS turnedOp fetchCtx).tableRoom (turnedOp.waitTable (chainS turnedOp fetchCtx)) = true := by decide
/-- A PUBLISH of the pair that maps page 0 and page 1 of ASID 1. -/
def pubOp : Op := { blankOp with kind := .publish, phase := .parked, ia := 0 }
def pubS : State :=
  let s := (chainS pubOp fetchCtx).modPart 0 fun x => { x with shadows := [⟨1, 0, 0x10000, 0x10000⟩] }
  { s with dev := mappedS.dev, mem := { mappedS.mem with hbm := mappedS.mem.hbm.write 0x40008 (leBytes 8 0x1010019) } }
theorem witness_ChainEvents_publish : ((pubS.part 0).shadows.find? fun r => r.asid == 1 && r.s == 0) = some ⟨1, 0, 0x10000, 0x10000⟩ ∧
    pubS.rangeFree 1 0 0x10000 = true ∧ pubS.leavesOf 0 1 0 0x10000 1 0 = some [(0, 0x1000019, 0x40000, 16)] ∧
    pubS.leavesOf 0 1 0x10000 0x10000 1 0 = some [(0, 0x1010019, 0x40008, 16)] := by decide

/-- A piece that reads 16 bytes of cluster scratch; a completion counter at offset 64. -/
def piece1 : Piece := ⟨1, false, ⟨.cs, 0, 16, 0, 0⟩, 0, [], false, false, false⟩
def ctrEng : EngOp := { eng .copy [] with ctr := some (.cs, 64, 1), names := ⟨0, 0, false, 0, 0⟩ }
theorem witness_EngineAndRingEvents : (engS (eng .copy [piece1])).eng? 3 = some (eng .copy [piece1]) ∧
    (eng .copy [piece1]).pieces.find? (fun x => x.id == 1) = some piece1 ∧ (engS ctrEng).mayAdd ctrEng = true ∧
    (engS ctrEng).eng? 3 = some ctrEng := by decide
def Done : AddNow → Bool
  | .ok _ => true
  | _ => false
def roomyS : State := (engS ctrEng).setMask 0 0xFFF
theorem witness_EngineAndRingEvents_counter : Done (roomyS.ctrAddNow 0 1 (some 0) ctrEng.site 0 .cs 64 1) = true := by decide
def islandEngS : State := { engS (eng .tile []) with ldr := { newS.ldr with channels := [fetchChannel true Slot.zero] } }
theorem witness_EngineAndRingEvents_island : islandEngS.eng? 3 = some (eng .tile []) ∧ islandEngS.channel? (eng .tile []).names = some (fetchChannel true Slot.zero) ∧
    islandEngS.nodeReady (eng .tile []) = true ∧ (eng .tile []).bad = false ∧ (eng .tile []).word.toNat / 2 ^ 24 = 0xA0 := by decide
/-- A message for ring 0 of cluster 0 and a ring of 4 entries there. -/
def ring0 (rtail : Nat) : Ring := ⟨0, 0, 0, 0, 1, 0, 4, 0, .cs, 0x1000, rtail, 0, 0, none⟩
def msg0 (st : MsgState) : Msg := ⟨9, blankOp, 0, 0, 1, List.replicate 64 0, 0, st, 0, 0⟩
def ringMsgS (st : MsgState) (rs : List Ring) (es : List EngOp) : State :=
  ({ newS with work := { newS.work with rings := rs, msgs := [msg0 st], engs := es } } : State).about 9 0 0
theorem witness_EngineAndRingEvents_receive : ((ringMsgS .flying [ring0 0] []).work.msgs.find? fun m => m.id == 9) = some (msg0 .flying) ∧
    (ringMsgS .flying [ring0 0] []).headArrived (msg0 .flying) = true ∧ (ringMsgS .flying [ring0 0] []).ringOf (msg0 .flying) = some (ring0 0) ∧
    (ringMsgS .flying [] []).ringOf (msg0 .flying) = none ∧ (ring0 0).tag = bits (msg0 .flying).ring 15 8 ∧
    (ring0 4).n ≤ (ring0 4).rtail - (ring0 4).head ∧ (ring0 0).rtail - (ring0 0).head < (ring0 0).n ∧
    (ringMsgS .flying [ring0 0] []).msgFirst (msg0 .flying) = true := by decide
def entryEng : EngOp := { eng .msend [] with params := [1, 9], ctr := some (.cs, 0x1000, 1) }
def entryS : State := (ringMsgS .reserved [ring0 1] [entryEng]).setMask 0 0xFFF
def entryDoneS : State := (((entryS.modRing 0 0 fun x => { x with wtail := 1 }).modEng entryEng.id fun x =>
  { x with params := [2, 9] }).wakeRing 0 0).drainRing 0 0
theorem witness_EngineAndRingEvents_complete : entryS.ringOf (msg0 .reserved) = some (ring0 1) ∧
    entryS.entryEng 9 = some entryEng ∧ (msg0 .reserved).flits = 0 ∧ (ring0 1).wtail = (msg0 .reserved).n ∧
    entryS.pieceWaits entryEng 0 = false ∧ entryS.chainDone 0 blankOp.ctx 9 blankOp.id (blankOp.scope = 0) = true ∧
    Done (entryDoneS.ctrAddNow 0 1 ((entryDoneS.ctx? 0 entryEng.ctx).map fun x => x.seed) (blankOp.site entryDoneS) 0 .cs 0x1000 1) = true := by
  decide

/-- A token on its way; a hop; a record and a ring for it in HBM; a Thyme event; statistics records of one tree. -/
def hop0 : Hop := ⟨0, 0, 0, 0, 1, 0, [], none, none, 1, false, false⟩
def record0 : TrapRec := ⟨0, 0, 0, 0x0D00000000000000, 0, 0, 0⟩
def thyme0 : ThymeEvt := ⟨0, 1, 2, 3⟩
def stat0 (taps : Nat) : StatRec := ⟨0, 0, 0, 1, 0x40, some 0x40, 0, 0, 0, 0, 0, 0, taps, 0⟩
def fabS : State := ({ newS.modPart 0 (fun x => { x with trapcfg := [0x100024, 4] }) with
  fab := { newS.fab with net := [{ tok 0 .i8 [1] with id := 4 }, { tok 0 .i8 [1] with id := 5, flits := 1 }], hops := [hop0] }
  dev := { newS.dev with traps := [record0], thyme := List.replicate 16 ⟨[], 0, 0, [thyme0]⟩ }
  ldr := { newS.ldr with stats := [stat0 1, stat0 2] } } : State).about 0 1 0
theorem witness_FabricAndRecordEvents : (fabS.fab.net.find? fun t => t.id == 4) = some { tok 0 .i8 [1] with id := 4 } ∧
    (fabS.fab.net.find? fun t => t.id == 5) = some { tok 0 .i8 [1] with id := 5, flits := 1 } ∧ fabS.fab.hops[0]? = some hop0 ∧
    fabS.dev.thyme[0]? = some ⟨[], 0, 0, [thyme0]⟩ ∧ (fabS.part 0).live = true ∧ (List.replicate 16 8).length = 16 ∧ fabS.run.subj.b ≠ 0 := by decide
theorem witness_FabricAndRecordEvents_trap : (fabS.dev.traps.find? fun r => r.part == 0 && ((fabS.part 0).trapSlot r.ring).isSome) = some record0 ∧
    (fabS.part 0).trapSlot record0.ring = some 0x100000 := by decide
theorem witness_FabricAndRecordEvents_stats : fabS.ldr.stats = fabS.ldr.stats.take 0 ++ stat0 1 :: ([] ++ stat0 2 :: []) ∧
    (stat0 1).joins (stat0 2) = true ∧ ((stat0 1).merge (stat0 2)).isSome = true ∧ (stat0 1).va % 64 = 0 := by decide
/-- The memory that a statistics record adds to. -/
def statS : State := { fabS with dev := mappedS.dev, mem := mappedS.mem }
theorem witness_FabricAndRecordEvents_apply : (statS.statAdds (stat0 1) 0x40 (statS.homeFor 0 1 1 (some 0)) (some 0) ((stat0 1).adds 0)).isSome = true := by decide

/-! ### Witnesses: tags, pieces and the chain -/

theorem witness_TagActions : 0 < (tok 0 .i8 [1, 2]).data.length ∧ (tok 0 .i8 [1, 2]).wave + 2 * 2 - 1 ≤ 2 ^ 32 - 1 ∧
    2 ^ 32 - 1 < ({ tok 0 .i8 [1, 2] with wave := 2 ^ 32 - 2 } : Token).wave + 2 ∧
    ({ tok 0 .i8 [1, 2] with stop := 7 } : Token).stop = 7 ∧ (tok 0 .i8 [1, 2]).stop = 0 := by decide
theorem witness_SteeredPieces : runs [true, true, false] = [(0, 2, true), (2, 1, false)] ∧ 1 + 2 ≤ (tok 0 .i8 [1, 2, 3]).data.length ∧
    ((tok 0 .i8 [1, 2, 3]).slice 1 2).data = [2, 3] ∧ (tok 2 .p [1, 1, 0]).poison = false ∧
    (((tok 2 .p [1, 1, 0]).data.take 3).map fun b => b.toNat % 2 == 1) = [true, true, false] := by decide
theorem witness_ChainOrder : fetchCtx.chain.isNext { blankOp with pred := 0xFD } = true ∧
    ({ fetchCtx.chain with last := 4, lastSucc := 9 } : Chain).isNext { blankOp with pred := 0xFF, this := 9 } = true ∧
    (chainS { waitOp .store with pred := 3 } fetchCtx).op? 2 = some { waitOp .store with pred := 3 } ∧
    fetchCtx.chain.isNext { waitOp .store with pred := 3 } = false ∧ fetchCtx.chain.stale { waitOp .store with pred := 3 } = false := by decide

/-- 192 operations hold the shared entries of cluster 0's home store buffer. -/
def fullS : State := { newS with work := { newS.work with ops := List.replicate 192 blankOp } }
theorem witness_ChainOrder_entries : 192 ≤ fullS.sharedUse (fullS.homeCluster { blankOp with entry := .outside }) := by decide +kernel

/-! ### Witnesses: warm resets, waits and words that pass poison on -/

/-- The state that a warm reset leaves; partition 0 waits for the end of reduced service. -/
def warmedS : State := nextOf State.reset (exec (.warmReset true false) State.reset)
def freeStripsS : State := withDev fun d => { d with strips := List.replicate 16 (stripWord 0 0) }
theorem witness_ResetsAndBoot_warm : State.reset.parts.length = 16 ∧ State.reset.dev.kept = [] ∧ warmedS.dev.kept ≠ [] ∧ warmedS.dev.reduced = some 0 ∧
    freeStripsS.dev.strips.length = 16 ∧ freeStripsS.stripState (bootStripOf freeStripsS.dev.devid) = 0 ∧
    State.reset.stripState (bootStripOf State.reset.dev.devid) ≠ 0 := by decide
theorem witness_LayoutChanges_waits : warmedS.dev.kept ≠ [] ∧ State.reset.dev.kept = [] ∧ keptS.dev.kept = [] ∧
    (changing 1 2 [1, 2]).dev.kept = [] ∧ dirtyS.dev.kept = [] := by decide
/-- The place of selector 0x43 for a control core (R409); an address that names no register. -/
theorem witness_RegisterWrites_address : (agentRegister (.monitor 0) 0x3FF000000218).isSome = true ∧ agentRegister (.monitor 0) 0 = none := by decide
theorem witness_ResumesAndReplies_ignored : newS.syscallWaits 0 (bits 0 11 0) = false ∧
    ((parkedS .syscall .parked []).modPart 0 fun x => { x with gated := true }).syscallWaits 0 (bits 0 11 0) = true := by decide
theorem witness_MovesAndSaves_goes : ((moveS 1).part 0).stopped = false ∧ ((moveS 3).part 0).stopped = false ∧ ((moveS 4).part 0).stopped = false := by decide
theorem witness_LaunchesAndTasks_goes : doneS.streamWaits 0 0 = false ∧ (doneS.closeTask 0 0).noRings 0 0 = true ∧ (doneS.part 0).stopped = false ∧
    (abortS.closeTask 0 0).noRings 0 0 = true ∧ ((runS 0 0 true).part 0).queueFree tableRun (heldMark 0) = true := by decide
/-- The page of an access lies in a host window that is closed; one of ASID 0. -/
theorem witness_OutsideAccesses_aperture_fails : bits (State.reset.part 0).hostaper 63 52 = 0 ∧ (match (farS 0x800000000009).homeNow 0 1 0x40 none
      (extNeed .read) .plain with
    | .fault _ _ _ => true
    | _ => false) = true ∧ (farS 0x800000000009).lineQueued 1 1 = false := by decide
theorem witness_OutsideAccesses_local : (match mappedS.homeNow 0 1 0x40 none (extNeed .read) .any with
    | .ready pl t => pl.far.isNone && !t.spoiledAt pl 1 0x40 4
    | _ => false) = true := by decide
theorem witness_OutsideAccesses_splice_free : mappedS.splicing 0 1 0 = false := by decide
theorem witness_FabricAndRecordEvents_stopped : (fabS.packet? 5).isNone = true ∧ (∀ h, fabS.fab.hops[0]? = some h → (fabS.part h.part).stopped = false) ∧
    ((fabS.modPart 0 fun x => { x with stopped := true }).part 0).stopped = true := by decide
/-- A FENCE whose ports differ in format; one with a poisoned port. -/
theorem witness_ChainRangeAndLeaseWords_clash : steers fAB = false ∧ triggerS.run.cur.poisonOf fAB false = false ∧
    triggerS.run.cur.formatsDiffer fAB = true ∧ poisonedS.run.cur.poisonOf fAB false = true := by decide
/-- A read of the port waits in place at a fault. -/
def stuckS : State :=
  let s := streamS openRead (wordOf 0xB4 fAB) 0 (some (tok 0 .i64 [3])) (some (tok 1 .i64 [3]))
  { s with work := { s.work with engs := [{ eng .sread [piece1] with names := ⟨0, 0, true, 0, 1⟩ }], waits := [⟨0, 0, 0, .piece 3 1, false⟩] } }
theorem witness_StreamWords_stuck : (stuckS.enqueue stuckS.run.cur fAB).portStuck stuckS.run.cur.names stuckS.run.cur.ctx = true := by decide
theorem witness_ChainEvents_parked : (chainS { waitOp .store with phase := .parked } fetchCtx).op? 2 = some { waitOp .store with phase := .parked } := by
  decide
theorem witness_EngineAndRingEvents_goes : (islandEngS.part 0).stopped = false ∧ (eng .tile []).sources.all (fun k => !(fetchChannel true Slot.zero).bad.contains k) = true ∧
    (ringMsgS .flying [ring0 0] []).msgFirst (msg0 .flying) = true ∧ ((engS (eng .copy [piece1])).part 0).stopped = false := by decide
/-- Words under poison: a third operand, a memory word, a report, and two joined operands (R190, R401). -/
def poisonC : State := demo 1 0 (some (tok 0 .f32 [1])) (some (tok 1 .f32 [1])) (some { tok 2 .f32 [1] with poison := true })
def poisonLd : State := demo 1 litEs (some { tok 0 .a [16] with poison := true }) none none
theorem witness_PoisonPasses_words : poisonC.run.cur.poisonOf fAB true = true ∧ poisonedTok (poisonedS.run.cur.port 0x41) = false ∧
    poisonedS.scalarOf poisonedS.run.cur 0x43 = some (0, 64) ∧ poisonedS.run.cur.port 0x40 = some { tok 0 .f32 [0] with poison := true } ∧
    poisonedS.brkOf 0 0 = false ∧ poisonedS.ctx? 0 0 = some fetchCtx ∧ fetchCtx.root = fetchCtx.id ∧
    mergeTok poisonedS.run.cur = some { tok 0 .f32 [0] with poison := true } ∧ litFmt 0x400 = some .f16 := by decide
theorem witness_PoisonPasses_predicates : (demo 1 0 (some { tok 0 .i8 [1] with poison := true }) none (some (tok 2 .i8 [1]))).run.cur.predOk ⟨0, 0x40, 0x7F, 4, 0⟩ = false ∧
    (demo 1 0 (some { tok 0 .i8 [1] with poison := true }) (some (tok 1 .p [1])) (some (tok 2 .p [1]))).run.cur.pred = some [true] ∧
    (demo 1 0 (some { tok 0 .i8 [1] with poison := true }) (some (tok 1 .p [1])) none).run.cur.predOn 0x41 = some [true] := by decide
/-- R190: with a predicate that is not P, a poisoned result under DA = 4 goes on both links; R401: a poisoned address has a POISON record. -/
theorem test_poison_without_predicate : sentBy (exec (.mov ⟨0, 0x40, 0x7F, 4, 0⟩)
    (demo 1 0 (some { tok 0 .i8 [1] with poison := true }) none (some (tok 2 .i8 [1])))) = [[0], [0]] := by decide
theorem test_poisoned_load_record : raisedBy (exec (.ld ⟨0, 0x40, 2, 1, 0⟩) poisonLd) = [0x0C01] := by decide
/-- Operands that no table takes: a predicate that is not P, two formats, a shift amount of F32, an address that is none. -/
theorem witness_MismatchTraps_words : (demo 1 0 (some (tok 0 .i8 [1])) none (some (tok 2 .i8 [1]))).run.cur.predOk ⟨0, 0x40, 0x7F, 4, 0⟩ = false ∧
    triggerS.run.cur.formatsDiffer fAB = true ∧ floatS.ownSource floatS.run.cur 0x41 = none ∧ triggerS.run.cur.poisonOf fAB true = false ∧
    triggerS.source triggerS.run.cur 0x42 .i8 = none ∧ triggerS.run.cur.pred = none ∧ byteS.wsetWave byteS.run.cur 0x41 = none ∧
    byteS.run.cur.predOn 0x41 = none ∧ byteS.run.cur.fmtOf fAB ≠ .a ∧ byteS.run.cur.twoAddr fAB = false ∧
    stS.storeData stS.run.cur fAB 3 = none ∧ byteS.i64B byteS.run.cur fAB = none ∧ byteS.amoB byteS.run.cur fAB .add 2 = none ∧
    byteS.run.cur.portIs 0x40 (· = .a) = false ∧ byteS.run.cur.portIs 0x40 (· = .i64) = false ∧ byteS.run.cur.portIs 0x40 refFmt = false ∧
    (writeS 0x10).privOf 0 0 = true ∧ writeRight 0x10 = .p ∧ wordFmt .i8 = false := by decide
theorem test_fence_formats_record : raisedBy (exec (.fence ⟨0, 0x40, 0x41, 0, 0⟩) triggerS) = [0x0301] := by decide

/-! ### Sealing (R433 to R435) -/

/-- The image that the kernel of EXP2X64 seals into, as the spec writes it: the header, with the CRC-32 of bytes 64 to 847 as another tool
gives it, the section, its entry and fan-out list, and the block with its sixteen words. -/
def exp2Tail : List Nat :=
  [192, 0, 0, 0, 1, 0, 1]
    ++ List.replicate 17 0
    ++ [160, 0, 0, 0, 1, 0, 0, 0, 0, 0, 0, 0, 0, 0, 0, 0, 128]
    ++ List.replicate 56 0
    ++ [160, 0, 64, 0, 0, 1, 64, 0, 32, 1, 64, 0, 64, 1, 64, 0, 128, 1, 64]
    ++ List.replicate 28 0
    ++ [136, 0, 8, 37, 0, 32]
    ++ List.replicate 14 0
    ++ [88, 2, 8, 61, 0, 64, 0, 0, 0, 96, 0, 0, 0, 0, 0, 0, 0, 0, 0, 0, 8, 18, 8, 16, 0, 128]
    ++ List.replicate 14 0
    ++ [72, 18, 8, 16, 0, 192, 1]
    ++ List.replicate 13 0
    ++ [136, 1, 8, 64, 0, 0, 0, 192, 0, 0, 0, 0, 0, 0, 0, 64, 32, 1, 0, 253, 202, 31, 8, 124, 0, 232, 0, 0, 0, 192, 0, 0, 0, 0, 0, 0, 0, 0, 0, 0, 200, 31, 8, 128, 0, 224]
    ++ List.replicate 14 0
    ++ [72, 16, 8, 121, 0, 136, 1]
    ++ List.replicate 13 0
    ++ [8, 16, 8, 115, 0, 96, 1]
    ++ List.replicate 13 0
    ++ [200, 16, 8, 112, 0, 104, 1, 0, 0, 0, 0, 0, 0, 0, 128, 127, 0, 0, 0, 0, 200, 16, 8, 112, 0, 176, 1, 0, 0, 0, 0, 0, 0, 0, 128, 255, 0, 0, 0, 0, 72, 16, 8, 33, 0, 144, 1]
    ++ List.replicate 13 0
    ++ [72, 16, 8, 4, 0, 168, 1]
    ++ List.replicate 13 0
    ++ [72, 16, 0, 4, 0, 200, 1]
    ++ List.replicate 13 0
    ++ [72, 16, 8, 65, 0, 224, 1, 64, 0, 0, 0, 0, 0, 0, 0, 64, 32, 253, 1, 0, 192, 31, 8, 230]
    ++ List.replicate 336 0
def imageWith (magic : Nat) (crc : List Nat) : List Byte :=
  ([0x4B, 0x4E, 0x39, magic, 1, 0, 0, 0] ++ List.replicate 8 0 ++ [0x50, 3, 0, 0, 0, 0, 0, 0] ++ crc ++ List.replicate 36 0 ++ exp2Tail).map
    (BitVec.ofNat 8)
set_option maxRecDepth 100000 in
theorem test_exp2x64_seals : (match sealObject (imageWith 0x36 [0x42, 0x32, 0xCB, 0x06]) with
    | .ok is => is.length
    | .error _ => 0) = 1 := by decide +kernel
set_option maxRecDepth 100000 in
theorem test_wrong_crc_refused : (match sealObject (imageWith 0x36 [0, 0, 0, 0]) with
    | .ok _ => none
    | .error e => some e) = some (SealFault.of 0 433) := by decide +kernel
/-- R437: generation 255 is followed by 1. R441: number 15 names no call, and the device may not call KLOAD. R440: STRICT. -/
theorem test_generation_passes_zero : nextGen 0xFF = 1 ∧ nextGen 0 = 1 ∧ nextGen 7 = 8 := by decide
theorem test_calls_refused : callRefused true 15 = some (-6) ∧ callRefused true 1 = some (-4) ∧ callRefused false 13 = some (-4) ∧
    callRefused true 3 = none := by decide
theorem test_strict_function : kcyLevel true [0x10, 0x12] = some 0x12 ∧ kcyLevel false [0x11, 0x12] = some 0x11 := by decide
/-- R439: a file of one record of KIND 0x99, passed over with SKIP = 1 and refused without it. -/
def kcyFile (skip : Nat) : List Byte :=
  ([0x4B, 0x52, 0x4B, 0x59, 1, 0, 0, 0, 1] ++ List.replicate 23 0 ++ [0x99, 0, skip, 0, 0, 0, 0, 0]).map fun n => BitVec.ofNat 8 n
theorem test_container_skips : kcyRead (kcyFile 1) = some [] ∧ kcyRead (kcyFile 0) = none := by decide
set_option maxRecDepth 100000 in
theorem witness_RejectedWordTraps_sealed : ∃ is i v x, sealObject (imageWith 0x36 [0x42, 0x32, 0xCB, 0x06]) = .ok is ∧ i ∈ is ∧ (v, x) ∈ i.insts := by
  have h : (match sealObject (imageWith 0x36 [0x42, 0x32, 0xCB, 0x06]) with
    | .ok is => is.any fun i => !i.insts.isEmpty
    | .error _ => false) = true := by decide +kernel
  split at h
  · rename_i is hs
    obtain ⟨i, hi, hn⟩ := List.any_eq_true.mp h
    obtain ⟨⟨v, x⟩, r, hr⟩ := List.exists_cons_of_ne_nil (by simpa using hn : i.insts ≠ [])
    exact ⟨is, i, v, x, hs, hi, hr ▸ List.mem_cons_self⟩
  · cases h

/-! ### Errors of the storage (R403) -/

/-- A granule of the element store is struck before the load; before the store. -/
def struckLoad : State := loadS.strike (.granule 0 0x17)
def struckStore : State := storeS.strike (.granule 0 0x17)
theorem witness_ScratchAccesses_poison : MayPerform struckLoad struckLoad (op0 struckLoad) (ctx0 struckLoad) ∧ (op0 struckLoad).kind = .load ∧
    struckLoad.spotSpoiled ((op0 struckLoad).spot struckLoad) 4 = true :=
  ⟨⟨⟨op0 struckLoad, by decide, rfl, rfl⟩, by decide, by decide, by decide, by decide, by decide, by decide, by decide, by decide⟩,
    by decide, by decide⟩
theorem test_poisoned_granule_poisons_load :
    (nextOf struckLoad (exec .chainPerform struckLoad)).fab.net.map (fun t => t.poison) = [true] := by decide
theorem test_store_covers_its_bytes :
    (nextOf struckStore (exec .chainPerform struckStore)).mem.marks = [((.es, 1), [4, 5, 6, 7, 8, 9, 10, 11, 12, 13, 14, 15])] := by decide
/-- A block of HBM of which one byte still awaits a store: of the frame of page 0, or of its table. -/
def markedS (pa : Nat) : State := { mappedS with mem := { mappedS.mem with marks := [((.mem, pa / 64), [0])] } }
def struckPage : State := markedS 0x1000040
theorem witness_OutsideAccesses_poison : (match struckPage.homeNow 0 1 extRead.addr none (extNeed extRead.kind) .any with
    | .ready pl t => t.spoiledAt pl 1 extRead.addr 4
    | _ => false) = true := by decide
theorem test_poisoned_table_ends_walk : (match (markedS 0x40000).findLeaf 0 1 0 with
    | .error x => x == (0x0B, 1)
    | .ok _ => false) = true := by decide
/-- A dirty poisoned line of page 0. -/
def dirtyPage : State := { mappedS with mem := { mappedS.mem with l2 := [{ l2Line .di with dirty := true, bad := [0, 1], data := [1, 2] }] } }
theorem test_poisoned_line_written_back : (dirtyPage.flushLine 0 1 1).mem.marks = [((.mem, 0x40001), [0, 1])] := by decide
theorem test_poisoned_line_has_its_record : ((dirtyPage.flushLine 0 1 1).dev.traps.map fun r => bits r.w0 63 48) = [0x0B02] := by decide
theorem test_poisoned_keep_poisons_operand : ((({ newS with ctxs := [{ fetchCtx with badKeeps := [(0, 0, 2)] }] } : State).setSlot 0 0 0
    ⟨0x10094A08, 0, 0, 0⟩).latch ⟨⟨0, 0, false, 0, 0⟩, 0, 0, 0, Slot.zero, 0, 0, 1, some (tok 0 .i32 [1]), none, none⟩).run.cur.a.map
      (fun t => t.poison) = some true := by decide

end Sys2Proof.Machine
end

section
/-! PROOFS. Writes of registers from outside a context (O48). -/

namespace Sys2Proof.Machine

/-- R436: an entry of the handle table has the words 0 to 3 (32 bytes), so a write that names another one is ignored,
whoever makes it. -/
theorem exec_registerWrite_handle_above (s : State) (p : Nat) (w : Agent) (i : Nat) (v : W64) {j : Nat} (hj : 4 ≤ j) :
    exec (.registerWrite p w (.handle i j) v) s = .next s := by
  have hword : ¬ j < 4 := Nat.not_lt.mpr hj
  cases w with
  | monitor k => simp [exec, execRegisterWrite, namedRegister, State.writeNamed, hword]
  | thedom _ | hostVf | hostPf | sage => rfl

/-- Refutes O48: its clause of the handle table binds the index by 65536 and the word by nothing. At reset the monitor of
partition 0 writes word 4 of entry 0. The model ignores it, as no entry has a fifth word (R436), while the clause has the
empty table gain entry 0. -/
theorem not_registerWrites : ¬ Obligations.RegisterWrites := by
  unfold Obligations.RegisterWrites
  intro h
  obtain ⟨-, -, -, handleWrite, -⟩ := h State.reset 0 0 0 (.monitor 0) (State.reset.part 0) rfl rfl (by decide)
  have hignored := exec_registerWrite_handle_above State.reset 0 (.monitor 0) 0 0 (Nat.le_refl 4)
  have hstate := Host.Outcome.next.inj (hignored.symm.trans (handleWrite 0 4 (by decide)))
  have hhandles := congrArg (fun t : State => (t.part 0).handles) hstate
  exact absurd hhandles (by decide)

end Sys2Proof.Machine
end

section
/-! PROOFS. Facts about the list updates, the bit fields and byte memory that resets and boot rest on. -/

namespace Sys2Proof.Machine

/-! ### Lists -/

theorem at!_setAt_same {α : Type} {xs : List α} {i : Nat} (hi : i < xs.length) (v d : α) : at! (setAt xs i v) i d = v := by
  induction xs generalizing i with
  | nil => simp at hi
  | cons x xs ih =>
    cases i with
    | zero => rfl
    | succ i => exact ih (Nat.lt_of_succ_lt_succ hi)

theorem at!_setAt_ne {α : Type} (xs : List α) {i j : Nat} (hne : j ≠ i) (v d : α) : at! (setAt xs i v) j d = at! xs j d := by
  induction xs generalizing i j with
  | nil => rfl
  | cons x xs ih =>
    cases i <;> cases j
    case zero.zero => exact absurd rfl hne
    case zero.succ => rfl
    case succ.zero => rfl
    case succ.succ i j => exact ih fun h => hne (congrArg _ h)

theorem at!_map {α β : Type} (g : α → β) (xs : List α) (i : Nat) (d : α) : at! (xs.map g) i (g d) = g (at! xs i d) := by
  simp [at!_eq_getD, List.getD_eq_getElem?_getD, Option.getD_map]

/-! ### Bit fields (R6) -/

theorem bits_lt (w : W64) (hi lo : Nat) : bits w hi lo < 2 ^ (hi - lo + 1) := Nat.mod_lt _ (Nat.two_pow_pos _)

theorem testBit_bits (w : W64) (hi lo i : Nat) :
    (bits w hi lo).testBit i = (decide (i < hi - lo + 1) && bit w (lo + i)) := by
  simp [bits, bit, Nat.testBit_mod_two_pow]

theorem bit_setBits (w : W64) {hi lo : Nat} (hfield : lo ≤ hi) (v : Nat) {i : Nat} (hi64 : i < 64) :
    bit (setBits w hi lo v) i = if lo ≤ i ∧ i ≤ hi then v.testBit (i - lo) else bit w i := by
  have hinside : (lo ≤ i ∧ i ≤ hi) ↔ (lo ≤ i ∧ i - lo < hi - lo + 1) := by omega
  by_cases hlo : lo ≤ i <;> by_cases hk : i - lo < hi - lo + 1 <;>
    simp only [hinside, bit, setBits, BitVec.toNat_ofNat, Nat.testBit_mod_two_pow, Nat.testBit_or, Nat.testBit_and,
      Nat.testBit_xor, Nat.testBit_shiftLeft, Nat.testBit_two_pow_sub_one] <;>
    simp [hi64, hlo, hk]

/-- The field that was set reads as the low bits of what it was set to. -/
theorem bits_setBits_same (w : W64) {hi lo : Nat} (hfield : lo ≤ hi) (hhi : hi < 64) (v : Nat) :
    bits (setBits w hi lo v) hi lo = v % 2 ^ (hi - lo + 1) := by
  apply Nat.eq_of_testBit_eq
  intro i
  rw [testBit_bits, Nat.testBit_mod_two_pow]
  by_cases hk : i < hi - lo + 1
  · rw [bit_setBits w hfield v (by omega), if_pos (by omega), Nat.add_sub_cancel_left]
  · simp [hk]

/-! ### Byte memory -/

/-- A filter by address keeps the bytes at the addresses that it admits. -/
theorem Memory.get_filter {m : Memory} (h : m.wf = true) (q : Nat → Bool) (x : Nat) :
    Memory.get (m.filter fun c => q c.1) x = if q x = true then m.get x else unwritten := by
  induction m with
  | nil => simp [Memory.get]
  | cons c r ih =>
    obtain ⟨-, habove, hr⟩ := (Memory.wf_cons c r).1 h
    have hfiltered : Memory.above (r.filter fun d => q d.1) c.1 := fun d hd => habove d (List.mem_filter.1 hd).1
    have hr := ih hr
    rcases Nat.lt_trichotomy x c.1 with hlt | heq | hgt
    · have habsent : Memory.get (r.filter fun d => q d.1) x = unwritten :=
        Memory.get_above fun d hd => Nat.lt_trans hlt (hfiltered d hd)
      have hne : c.1 ≠ x := Nat.ne_of_gt hlt
      by_cases hq : q c.1 = true <;> simp [Memory.get, hq, hne, hlt, habsent]
    · subst heq
      by_cases hq : q c.1 = true
      · simp [Memory.get, hq]
      · simp [hq, Memory.get_above hfiltered]
    · have hne : c.1 ≠ x := Nat.ne_of_lt hgt
      have hnlt : ¬ x < c.1 := Nat.lt_asymm hgt
      by_cases hq : q c.1 = true <;> simp [Memory.get, hq, hne, hnlt, hr]

theorem Memory.get_zero {m : Memory} (h : m.wf = true) (a n x : Nat) :
    (m.zero a n).get x = if a ≤ x ∧ x < a + n then unwritten else m.get x := by
  have hfilter := Memory.get_filter h (fun y => y < a || a + n ≤ y) x
  rw [Memory.zero, hfilter]
  by_cases hin : a ≤ x ∧ x < a + n
  · rw [if_pos hin, if_neg (by simp; omega)]
  · rw [if_neg hin, if_pos (by simp; omega)]

/-- A memory whose cells move from `lo` upward to `base` upward. -/
def Memory.rebase (m : Memory) (lo base : Nat) : Memory := m.map fun c => (c.1 - lo + base, c.2)

theorem Memory.above_rebase {m : Memory} {lo base a : Nat} (ha : lo ≤ a) (h : Memory.above m a) :
    Memory.above (m.rebase lo base) (a - lo + base) := by
  intro d hd
  obtain ⟨c, hc, rfl⟩ := List.mem_map.1 hd
  have := h c hc
  show a - lo + base < c.1 - lo + base
  omega

theorem Memory.wf_rebase {m : Memory} (h : m.wf = true) {lo : Nat} (hlo : ∀ c ∈ m, lo ≤ c.1) (base : Nat) :
    (m.rebase lo base).wf = true := by
  induction m with
  | nil => rfl
  | cons c r ih =>
    obtain ⟨hbyte, habove, hr⟩ := (Memory.wf_cons c r).1 h
    obtain ⟨hc, hlo⟩ := List.forall_mem_cons.1 hlo
    exact (Memory.wf_cons _ _).2 ⟨hbyte, Memory.above_rebase hc habove, ih hr hlo⟩

theorem Memory.get_rebase {m : Memory} {lo : Nat} (hlo : ∀ c ∈ m, lo ≤ c.1) (base o : Nat) :
    (m.rebase lo base).get (base + o) = m.get (lo + o) := by
  induction m with
  | nil => rfl
  | cons c r ih =>
    obtain ⟨hc, hlo⟩ := List.forall_mem_cons.1 hlo
    have heq : (c.1 - lo + base = base + o) ↔ (c.1 = lo + o) := by omega
    have hlt : (base + o < c.1 - lo + base) ↔ (lo + o < c.1) := by omega
    have hr : Memory.get (r.map fun c => (c.1 - lo + base, c.2)) (base + o) = Memory.get r (lo + o) := ih hlo
    simp only [Memory.rebase, List.map_cons, Memory.get, heq, hlt, hr]

/-- A memory written cell by cell over another one shows through where it has no cell. -/
theorem Memory.get_foldl_put {m w : Memory} (hm : m.wf = true) (hw : w.wf = true) (x : Nat) :
    Memory.get (w.foldl (fun m c => Memory.put m c.1 c.2) m) x = if w.get x = unwritten then m.get x else w.get x := by
  induction w generalizing m with
  | nil => simp [Memory.get]
  | cons c r ih =>
    obtain ⟨hbyte, habove, hr⟩ := (Memory.wf_cons c r).1 hw
    rw [List.foldl_cons, ih (Memory.wf_put hm c.1 c.2) hr, Memory.get_put hm]
    rcases Nat.lt_trichotomy x c.1 with hlt | heq | hgt
    · have habsent : Memory.get r x = unwritten := Memory.get_above fun d hd => Nat.lt_trans hlt (habove d hd)
      simp [Memory.get, Nat.ne_of_lt hlt, Nat.ne_of_gt hlt, hlt, habsent]
    · subst heq
      simp [Memory.get, Memory.get_above habove, hbyte]
    · simp [Memory.get, Nat.ne_of_lt hgt, Nat.ne_of_gt hgt, Nat.lt_asymm hgt]

end Sys2Proof.Machine
end

section
/-! PROOFS. Resets, boot, the end of reduced service, the die bridge and LSDCFG (O47). -/

namespace Sys2Proof.Machine

/-! ### Strips and the boot strip (R26, R416, R445) -/

theorem state_stripWord {x p : Nat} (hx : x < 8) (hp : p < 32) : bits (stripWord x p) 7 5 = x := by
  simp only [bits, stripWord, w64, BitVec.toNat_ofNat, Nat.shiftRight_eq_div_pow]
  omega

theorem State.stripState_eq {s t : State} {k l : Nat} (h : at! t.dev.strips k 0 = at! s.dev.strips l 0) :
    t.stripState k = s.stripState l := by
  rw [State.stripState, h, State.stripState]

theorem bootStripOf_lt (d : W64) : bootStripOf d < 16 := by
  unfold bootStripOf
  cases hfind : (upto 16).find? (stripPresent d) with
  | none => decide
  | some b => exact List.mem_range.1 (List.mem_of_find?_eq_some hfind)

theorem bootStripOf_eq {d : W64} {b : Nat} (hb : b < 16) (hpresent : stripPresent d b = true)
    (hlowest : ∀ k, k < b → stripPresent d k = false) : bootStripOf d = b := by
  have hfind : (upto 16).find? (stripPresent d) = some b :=
    List.find?_range_eq_some.2 ⟨hpresent, List.mem_range.2 hb, fun k hk => by simp [hlowest k hk]⟩
  simp [bootStripOf, hfind]

/-- The strips of a device at the end of boot step 3. -/
theorem state_bootStrips (d : W64) {k : Nat} (hk : k < 16) : bits (at! (bootStrips d) k 0) 7 5
    = if stripPresent d k = false then 6 else if k = bootStripOf d then 3 else 0 := by
  rw [bootStrips, at!_map_upto _ _ _ _ hk]
  cases stripPresent d k
  · simp [state_stripWord]
  · by_cases hboot : k = bootStripOf d <;> simp [hboot, state_stripWord]

/-- The strips of a device at whose boot no image is valid. -/
theorem state_resetStrips (d : W64) {k : Nat} (hk : k < 16) :
    bits (at! (resetStrips d) k 0) 7 5 = if stripPresent d k then 0 else 6 := by
  rw [resetStrips, at!_map_upto _ _ _ _ hk]
  cases stripPresent d k <;> simp [state_stripWord]

/-! ### Cold reset (R444, R445) -/

/-- The machine right after a cold reset with a valid image: the reset state of its fuses, with LSDCFG from the board record and
what the model counts. -/
def State.coldBoot (s : State) : State :=
  { State.cold s.dev.devid s.dev.board with
    dev := { Dev.cold s.dev.devid s.dev.board with lsdcfg := lsdcfgFields s.dev.board }
    run := { State.reset.run with agenda := s.run.agenda, steps := s.run.steps, fresh := s.run.fresh } }

theorem exec_coldReset_valid (s : State) {a b : Bool} (hvalid : a = true ∨ b = true) :
    exec (.coldReset a b) s = .next s.coldBoot := by
  show execColdReset a b s = _
  simp only [execColdReset, Bool.or_eq_true, hvalid, if_true]
  rfl

/-- A cold reset leaves a strip FUSED exactly where DEVID does not name it (R26). -/
theorem stripState_coldBoot (s : State) {k : Nat} (hk : k < 16) : s.coldBoot.stripState k
    = if stripPresent s.dev.devid k = false then 6 else if k = bootStripOf s.dev.devid then 3 else 0 :=
  state_bootStrips s.dev.devid hk

theorem stripState_coldBoot_fused (s : State) {k : Nat} (hk : k < 16) :
    s.coldBoot.stripState k = 6 ↔ stripPresent s.dev.devid k = false := by
  rw [stripState_coldBoot s hk]
  cases stripPresent s.dev.devid k
  · simp
  · by_cases hboot : k = bootStripOf s.dev.devid <;> simp [hboot]

/-- After a cold reset the lowest strip present runs in reduced service and every other one present is FREE. -/
theorem coldBoot_lowest (s : State) {b : Nat} (hb : b < 16) (hpresent : stripPresent s.dev.devid b = true)
    (hlowest : ∀ k, k < b → stripPresent s.dev.devid k = false) :
    s.coldBoot.dev.reduced = some b ∧ s.coldBoot.stripState b = 3 ∧
      ∀ k, k < 16 → b < k → stripPresent s.dev.devid k = true → s.coldBoot.stripState k = 0 := by
  have hboot := bootStripOf_eq hb hpresent hlowest
  refine ⟨congrArg some hboot, ?_, fun k hk hbk hkpresent => ?_⟩
  · simp [stripState_coldBoot s hb, hpresent, hboot]
  · simp [stripState_coldBoot s hk, hkpresent, hboot, Nat.ne_of_gt hbk]

/-- Without a valid image boot stops at step 1 (R445). -/
theorem exec_coldReset_invalid (s : State) : ∃ t, exec (.coldReset false false) s = .next t ∧ t.dev.mbstat = 0x0F ∧
    t.dev.devid = s.dev.devid ∧ ∀ k, k < 16 → t.stripState k = if stripPresent s.dev.devid k then 0 else 6 :=
  ⟨_, rfl, rfl, rfl, fun _ hk => state_resetStrips s.dev.devid hk⟩

/-! ### Warm reset (R444, R446) -/

theorem exec_warmReset_valid (s : State) {a b : Bool} (hvalid : a = true ∨ b = true) :
    exec (.warmReset a b) s = .next (s.warmBoot true) := by
  show Host.Outcome.next (s.warmBoot (a || b)) = _
  rw [Bool.or_eq_true_iff.2 hvalid]

/-- The one value of RESETCTL raises a warm reset (R449). -/
theorem exec_registerWrite_resetctl (s : State) (p : Nat) : exec (.registerWrite p .hostPf (.mailbox 8) 0x5741524D) s
    = exec (.warmReset (Config.imageValid s.run.steps) false) s := by
  show Host.Outcome.next (s.writeReset 0x5741524D) = .next (s.warmBoot (Config.imageValid s.run.steps || false))
  rw [State.writeReset, if_pos rfl, Bool.or_false]

theorem exec_registerWrite_resetctl_ignored (s : State) (p : Nat) {v : W64} (hv : v ≠ 0x5741524D) :
    exec (.registerWrite p .hostPf (.mailbox 8) v) s = .next s := by
  show Host.Outcome.next (s.writeReset v) = _
  rw [State.writeReset, if_neg hv]

/-- The strip words with strip `b` a MEMBER of partition 0 where it was FREE (log 109). -/
def State.bootedStrips (s : State) (b : Nat) : List W64 :=
  if s.stripState b = 0 then setAt s.dev.strips b (stripWord 3 0) else s.dev.strips

/-- Boot on a strip changes its strip word and the run of partition 0, and nothing else. -/
theorem State.bootOn_eq (s : State) (b : Nat) : s.bootOn b
    = { s with dev := { s.dev with strips := s.bootedStrips b }, parts := setAt s.parts 0 ((s.part 0).formed b 1) } := by
  unfold State.bootOn State.bootedStrips
  by_cases hfree : s.stripState b = 0
  · rw [if_pos hfree, if_pos hfree]
    rfl
  · rw [if_neg hfree, if_neg hfree]
    rfl

/-- What a warm reset and its boot leave: the warm machine with strip `b` booted and the event in its Thyme. -/
theorem State.warmBoot_eq (s : State) : ∃ ths : List Thyme, s.warmBoot true
    = { s.warm with dev := { s.warm.dev with strips := s.bootedStrips (bootStripOf s.dev.devid), thyme := ths }
                    parts := setAt s.warm.parts 0 ((s.warm.part 0).formed (bootStripOf s.dev.devid) 1) } := by
  refine ⟨(s.warmBoot true).dev.thyme, ?_⟩
  rw [State.warmBoot, if_pos rfl, State.bootOn_eq]
  rfl

/-- What a warm reset keeps of memory, the tables and the device, what it empties, and the strip on which it boots. -/
theorem State.warmBoot_keeps (s : State) :
    (s.warmBoot true).mem.hbm = s.mem.hbm ∧ (s.warmBoot true).mem.cs = s.mem.cs ∧
    (s.warmBoot true).mem.clways = s.mem.clways ∧ (s.warmBoot true).mem.l1 = [] ∧ (s.warmBoot true).mem.l2 = [] ∧
    (s.warmBoot true).mem.xlat = [] ∧ (s.warmBoot true).ctxs = [] ∧ (s.warmBoot true).work.ops = [] ∧
    (s.warmBoot true).work.engs = [] ∧ (s.warmBoot true).work.rings = [] ∧ (s.warmBoot true).fab.slots = s.fab.slots ∧
    (s.warmBoot true).dev.pwrcap = s.dev.pwrcap ∧ (s.warmBoot true).dev.journal = s.dev.journal ∧
    (s.warmBoot true).dev.reduced = some (bootStripOf s.dev.devid) := by
  obtain ⟨ths, hboot⟩ := s.warmBoot_eq
  rw [hboot]
  exact ⟨rfl, rfl, rfl, rfl, rfl, rfl, rfl, rfl, rfl, rfl, rfl, rfl, rfl, rfl⟩

theorem State.warmBoot_strips (s : State) : (s.warmBoot true).dev.strips = s.bootedStrips (bootStripOf s.dev.devid) := by
  obtain ⟨ths, hboot⟩ := s.warmBoot_eq
  rw [hboot]

theorem State.warmBoot_strips_kept (s : State) (hheld : s.stripState (bootStripOf s.dev.devid) ≠ 0) :
    (s.warmBoot true).dev.strips = s.dev.strips := by
  rw [s.warmBoot_strips, State.bootedStrips, if_neg hheld]

theorem State.stripState_warmBoot_ne (s : State) {k : Nat} (hk : k ≠ bootStripOf s.dev.devid) :
    (s.warmBoot true).stripState k = s.stripState k := by
  apply State.stripState_eq
  rw [s.warmBoot_strips, State.bootedStrips]
  split
  · exact at!_setAt_ne _ hk _ _
  · rfl

theorem State.stripState_warmBoot_free (s : State) (hlen : s.dev.strips.length = 16)
    (hfree : s.stripState (bootStripOf s.dev.devid) = 0) : (s.warmBoot true).stripState (bootStripOf s.dev.devid) = 3 := by
  have hb : bootStripOf s.dev.devid < s.dev.strips.length := hlen ▸ bootStripOf_lt s.dev.devid
  rw [State.stripState, s.warmBoot_strips, State.bootedStrips, if_pos hfree, at!_setAt_same hb]
  exact state_stripWord (by decide) (by decide)

/-- No partition runs in the warm machine before boot. -/
theorem State.part_warm_live (s : State) (p : Nat) : (s.warm.part p).live = false := by
  have hmap := at!_map (fun x : Part => { x with live := false }) s.keptParts p Part.free
  show Part.live (at! (s.keptParts.map fun x => { x with live := false }) p { Part.free with live := false }) = false
  rw [hmap]

theorem State.warmBoot_part_zero (s : State) (hparts : s.keptParts ≠ []) :
    (s.warmBoot true).part 0 = (s.warm.part 0).formed (bootStripOf s.dev.devid) 1 := by
  obtain ⟨ths, hboot⟩ := s.warmBoot_eq
  have hlen : 0 < s.warm.parts.length := by
    show 0 < (s.keptParts.map _).length
    simpa [List.length_pos_iff] using hparts
  rw [hboot]
  exact at!_setAt_same hlen _ _

theorem State.warmBoot_part_ne (s : State) {p : Nat} (hp : p ≠ 0) : (s.warmBoot true).part p = s.warm.part p := by
  obtain ⟨ths, hboot⟩ := s.warmBoot_eq
  rw [hboot]
  exact at!_setAt_ne _ hp _ _

theorem State.keptParts_first (s : State) (hkept : s.dev.kept = []) : s.keptParts = s.parts.map Part.warm := by
  simp [State.keptParts, hkept]

/-- A warm reset with a valid image runs partition 0 alone, on the strip that boots (R446). -/
theorem State.warmBoot_zero_alone (s : State) (hlen : s.parts.length = 16) (hkept : s.dev.kept = []) :
    ((s.warmBoot true).part 0).live = true ∧ ((s.warmBoot true).part 0).first = bootStripOf s.dev.devid ∧
      ((s.warmBoot true).part 0).count = 1 ∧ (∀ p, 0 < p → p < 16 → ((s.warmBoot true).part p).live = false) ∧
      (s.warmBoot true).dev.kept = s.parts.map Part.warm := by
  have hparts : s.keptParts ≠ [] := by
    rw [s.keptParts_first hkept]
    intro hnil
    simp [List.map_eq_nil_iff.1 hnil] at hlen
  rw [s.warmBoot_part_zero hparts]
  refine ⟨rfl, rfl, rfl, fun p hp _ => ?_, ?_⟩
  · rw [s.warmBoot_part_ne (Nat.ne_of_gt hp)]
    exact s.part_warm_live p
  · obtain ⟨ths, hboot⟩ := s.warmBoot_eq
    rw [hboot, ← s.keptParts_first hkept]
    rfl

/-! ### The end of reduced service (R447) -/

/-- An address of the slice scratches of strip `b`, which serve the window of reduced service (R446). -/
def servesWindow (b a : Nat) : Bool := 16 * b * 2 ^ 19 ≤ a && a < 16 * b * 2 ^ 19 + 0x600000

theorem State.windowBytes_eq (s : State) (b : Nat) : s.windowBytes b
    = Memory.rebase (s.mem.ss.filter fun c => servesWindow b c.1) (16 * b * 2 ^ 19) (stripWindow * b) := rfl

theorem State.windowCells_ge (s : State) (b : Nat) :
    ∀ c ∈ s.mem.ss.filter (fun c => servesWindow b c.1), 16 * b * 2 ^ 19 ≤ c.1 := by
  intro c hc
  have hserves := (List.mem_filter.1 hc).2
  rw [servesWindow, Bool.and_eq_true] at hserves
  exact of_decide_eq_true hserves.1

theorem State.wf_windowBytes (s : State) (hwf : s.mem.ss.wf = true) (b : Nat) : (s.windowBytes b).wf = true :=
  Memory.wf_rebase (Memory.wf_filter hwf _) (s.windowCells_ge b) _

/-- The window of reduced service holds the bytes of the slice scratches of strip `b`, and nothing above them (R446). -/
theorem State.get_windowBytes (s : State) (hwf : s.mem.ss.wf = true) (b o : Nat) : (s.windowBytes b).get (stripWindow * b + o)
    = if o < 0x600000 then s.mem.ss.get (16 * b * 2 ^ 19 + o) else unwritten := by
  rw [s.windowBytes_eq, Memory.get_rebase (s.windowCells_ge b), Memory.get_filter hwf]
  simp [servesWindow]

theorem State.get_windowBytes_below (s : State) {b x : Nat} (hx : x < stripWindow * b) : (s.windowBytes b).get x = unwritten := by
  apply Memory.get_above
  intro d hd
  obtain ⟨c, -, rfl⟩ := List.mem_map.1 hd
  exact Nat.lt_of_lt_of_le hx (Nat.le_add_left _ _)

theorem State.copyWindow_hbm (s : State) (b : Nat) : (s.copyWindow b).mem.hbm
    = (s.windowBytes b).foldl (fun m c => Memory.put m c.1 c.2) (s.mem.hbm.zero (stripWindow * b) 0x600000) := rfl

/-- The copy leaves the window of HBM with the bytes of the slice scratches that stood for it. -/
theorem State.copyWindow_inside (s : State) (hform : MemForm s) (b : Nat) {o : Nat} (ho : o < 0x600000) :
    (s.copyWindow b).mem.hbm.get (stripWindow * b + o) = s.mem.ss.get (16 * b * 2 ^ 19 + o) := by
  obtain ⟨hhbm, -, -, hss⟩ := hform
  have hzeroed : (s.mem.hbm.zero (stripWindow * b) 0x600000).get (stripWindow * b + o) = unwritten := by
    rw [Memory.get_zero hhbm, if_pos ⟨Nat.le_add_right _ _, Nat.add_lt_add_left ho _⟩]
  rw [s.copyWindow_hbm, Memory.get_foldl_put (Memory.wf_zero hhbm _ _) (s.wf_windowBytes hss b), hzeroed,
    s.get_windowBytes hss, if_pos ho]
  split
  · exact Eq.symm ‹_›
  · rfl

/-- The copy leaves every byte of HBM outside the window as it was. -/
theorem State.copyWindow_outside (s : State) (hform : MemForm s) (b : Nat) {x : Nat}
    (hx : ¬ (stripWindow * b ≤ x ∧ x < stripWindow * b + 0x600000)) : (s.copyWindow b).mem.hbm.get x = s.mem.hbm.get x := by
  obtain ⟨hhbm, -, -, hss⟩ := hform
  have habsent : (s.windowBytes b).get x = unwritten := by
    rcases Nat.lt_or_ge x (stripWindow * b) with hlt | hge
    · exact s.get_windowBytes_below hlt
    · obtain ⟨o, rfl⟩ := Nat.exists_eq_add_of_le hge
      rw [s.get_windowBytes hss, if_neg (by omega)]
  rw [s.copyWindow_hbm, Memory.get_foldl_put (Memory.wf_zero hhbm _ _) (s.wf_windowBytes hss b), habsent, if_pos rfl,
    Memory.get_zero hhbm, if_neg hx]

theorem State.setStrips_eq (s : State) (sts : List Nat) (x p : Nat) : s.setStrips sts x p
    = { s with dev := { s.dev with strips := sts.foldl (fun ws st => setAt ws st (stripWord x p)) s.dev.strips } } := by
  induction sts generalizing s with
  | nil => rfl
  | cons st sts ih => exact ih (s.setStrip st x p)

/-- The monitor's plan writes strip words and partitions: memory and the rest of the device stay. -/
structure FormedOnly (s t : State) : Prop where
  mem : t.mem = s.mem
  dev : { t.dev with strips := s.dev.strips } = s.dev

theorem State.form_formedOnly (s : State) (x : Nat × Nat × Nat) : FormedOnly s (s.form x) := by
  unfold State.form
  split
  · rw [State.setStrips_eq]
    exact ⟨rfl, rfl⟩
  · exact ⟨rfl, rfl⟩

theorem State.plan_formedOnly (s : State) (plan : List (Nat × Nat × Nat)) :
    FormedOnly s (plan.foldl (fun u x => u.form x) s) := by
  induction plan generalizing s with
  | nil => exact ⟨rfl, rfl⟩
  | cons x plan ih =>
    obtain ⟨hmem, hdev⟩ := s.form_formedOnly x
    obtain ⟨hmem', hdev'⟩ := ih (s.form x)
    exact ⟨hmem'.trans hmem, (congrArg (fun d : Dev => { d with strips := s.dev.strips }) hdev').trans hdev⟩

/-- The machine with the window copied, the clock raised and the links trained (R447). -/
def State.fullService (s : State) (b : Nat) (link : Bool) : State :=
  { s.copyWindow b with dev := { (s.copyWindow b).dev with
      reduced := none, fast := true, mbstat := 1, lsoUp := true, lsdUp := link && (s.copyWindow b).dev.mayTrain } }

theorem exec_reducedServiceEnd (s : State) {b : Nat} (hreduced : s.dev.reduced = some b) (plan : List (Nat × Nat × Nat))
    (link : Bool) : exec (.reducedServiceEnd plan link) s
      = .next (plan.foldl (fun u x => u.form x) ((s.fullService b link).resumeParts b)) := by
  show execReducedServiceEnd plan link s = _
  simp only [execReducedServiceEnd, hreduced]
  rfl

theorem State.resumeParts_of_kept_nil {s : State} (hkept : s.dev.kept = []) (b : Nat) : s.resumeParts b = s := by
  simp [State.resumeParts, hkept]

/-- After a cold reset no partition waits: the end of reduced service leaves the window in HBM and the links trained. -/
theorem exec_reducedServiceEnd_cold (s : State) {b : Nat} (hreduced : s.dev.reduced = some b) (hkept : s.dev.kept = [])
    (plan : List (Nat × Nat × Nat)) (link : Bool) :
    ∃ t, exec (.reducedServiceEnd plan link) s = .next t ∧ t.dev.reduced = none ∧ t.dev.fast = true ∧ t.dev.mbstat = 1 ∧
      t.dev.lsoUp = true ∧
      t.mem.ss = s.mem.ss ∧ (plan = [] → t.parts = s.parts) ∧ (link = true → s.dev.mayTrain = true → t.dev.lsdUp = true) ∧
      (MemForm s → ∀ o, o < 0x600000 → t.mem.hbm.get (stripWindow * b + o) = s.mem.ss.get (16 * b * 2 ^ 19 + o)) ∧
      (MemForm s → ∀ x, ¬ (stripWindow * b ≤ x ∧ x < stripWindow * b + 0x600000) → t.mem.hbm.get x = s.mem.hbm.get x) := by
  have hresume : (s.fullService b link).resumeParts b = s.fullService b link :=
    State.resumeParts_of_kept_nil (s := s.fullService b link) hkept b
  have hexec := exec_reducedServiceEnd s hreduced plan link
  rw [hresume] at hexec
  obtain ⟨hmem, hdev⟩ := (s.fullService b link).plan_formedOnly plan
  refine ⟨_, hexec, congrArg Dev.reduced hdev, congrArg Dev.fast hdev, congrArg Dev.mbstat hdev, congrArg Dev.lsoUp hdev,
    (congrArg MemSys.ss hmem).trans rfl, ?_, fun hlink htrain => ?_, fun hform o ho => ?_, fun hform x hx => ?_⟩
  · rintro rfl
    rfl
  · have hup : (s.fullService b link).dev.lsdUp = true := Bool.and_eq_true_iff.2 ⟨hlink, htrain⟩
    exact (congrArg Dev.lsdUp hdev).trans hup
  · rw [hmem]
    exact s.copyWindow_inside hform b ho
  · rw [hmem]
    exact s.copyWindow_outside hform b hx

/-! ### The die bridge (R142), the recovery of Sage (R421) and LSDCFG (R143) -/

theorem Part.stopIfSpans (x : Part) :
    (if x.spans then { x with stopped := true } else x) = { x with stopped := x.stopped || x.spans } := by
  cases hspans : x.spans <;> simp

theorem exec_dieBridgeDown_up (s : State) (hup : s.dev.bridge = true) : ∃ t, exec .dieBridgeDown s = .next t ∧
    t.dev.bridge = false ∧ t.parts = s.parts.map (fun x => { x with stopped := x.stopped || x.spans }) ∧
    t.mem = s.mem ∧ t.ctxs = s.ctxs := by
  have hexec : exec .dieBridgeDown s = execDieBridgeDown s := rfl
  simp only [execDieBridgeDown, hup, Bool.not_true, Bool.false_eq_true, if_false, Part.stopIfSpans] at hexec
  exact ⟨_, hexec, rfl, rfl, rfl, rfl⟩

theorem exec_sageWatchdogRecovery_requested (s : State) (hnone : s.dev.layout = none) (hgo : bit s.dev.layoutreq 63 = true) :
    ∃ t, exec .sageWatchdogRecovery s = .next t ∧ bit t.dev.layoutreq 63 = false ∧ bits t.dev.layoutstat 63 56 = 9 ∧
      t.mem = s.mem ∧ t.parts = s.parts := by
  have hexec : exec .sageWatchdogRecovery s = execSageWatchdogRecovery s := rfl
  simp only [execSageWatchdogRecovery, hnone, hgo, if_true] at hexec
  refine ⟨_, hexec, ?_, bits_setBits_same _ (by decide) (by decide) 9, rfl, rfl⟩
  exact (bit_setBits _ (by decide) 0 (by decide)).trans (by simp)

/-- LSDCFG holds its two fields, and its reserved bits read zero (R3, R143). -/
theorem bits_lsdcfgFields (v : W64) : bits (lsdcfgFields v) 5 0 = bits v 5 0 ∧ bits (lsdcfgFields v) 13 8 = bits v 13 8 ∧
    bits (lsdcfgFields v) 63 14 = 0 ∧ bits (lsdcfgFields v) 7 6 = 0 := by
  have hcount := bits_lt v 13 8
  have hnumber := bits_lt v 5 0
  unfold lsdcfgFields
  generalize bits v 13 8 = count at *
  generalize bits v 5 0 = number at *
  simp only [bits, w64, BitVec.toNat_ofNat, Nat.shiftRight_eq_div_pow]
  omega

theorem exec_hostLsdcfgWrite_down (s : State) (hdown : s.dev.lsdUp = false) (v : W64) :
    exec (.hostLsdcfgWrite v) s = .next { s with dev := { s.dev with lsdcfg := lsdcfgFields v } } := by
  show execHostLsdcfgWrite v s = _
  simp [execHostLsdcfgWrite, hdown]

theorem exec_hostLsdcfgWrite_up (s : State) (hup : s.dev.lsdUp = true) (v : W64) : exec (.hostLsdcfgWrite v) s = .next s := by
  show execHostLsdcfgWrite v s = _
  simp [execHostLsdcfgWrite, hup]

/-- Settles O47: each clause is what one row leaves, by the equations of cold boot, warm boot and the end of reduced service. -/
theorem resetsAndBoot : Obligations.ResetsAndBoot := by
  unfold Obligations.ResetsAndBoot
  rintro s a b d w rfl rfl
  refine ⟨fun hvalid => ?cold, ?coldStops, exec_registerWrite_resetctl s, fun p _ hv => exec_registerWrite_resetctl_ignored s p hv,
    fun hvalid => ?warm, ?serviceEndWarm, fun _ link plan hreduced hkept => exec_reducedServiceEnd_cold s hreduced hkept plan link,
    exec_dieBridgeDown_up s, exec_sageWatchdogRecovery_requested s, fun v hdown => ?lsdcfg,
    fun v hup => exec_hostLsdcfgWrite_up s hup v⟩
  case cold =>
    exact ⟨_, exec_coldReset_valid s hvalid, rfl, rfl, rfl, rfl, rfl, rfl, rfl, fun _ hk => stripState_coldBoot_fused s hk,
      fun _ hb hpresent hlowest => coldBoot_lowest s hb hpresent hlowest⟩
  case coldStops =>
    rintro rfl rfl
    exact exec_coldReset_invalid s
  case warm =>
    obtain ⟨hhbm, hcs, hclways, hl1, hl2, hxlat, hctxs, hops, hengs, hrings, hslots, hpwrcap, hjournal, hreduced⟩ :=
      s.warmBoot_keeps
    exact ⟨_, exec_warmReset_valid s hvalid, hhbm, hcs, hclways, hl1, hl2, hxlat, hctxs, hops, hengs, hrings, hslots, hpwrcap,
      hjournal, hreduced, s.warmBoot_strips_kept, fun _ => s.stripState_warmBoot_ne, s.stripState_warmBoot_free,
      s.warmBoot_zero_alone⟩
  case serviceEndWarm =>
    rintro b link plan hreduced - u c rfl rfl
    exact exec_reducedServiceEnd s hreduced plan link
  case lsdcfg =>
    obtain ⟨hnumber, hcount, hhigh, hmid⟩ := bits_lsdcfgFields v
    exact ⟨_, exec_hostLsdcfgWrite_down s hdown v, hnumber, hcount, hhigh, hmid, rfl⟩

end Sys2Proof.Machine
end

section
/-! PROOFS. The fields that a plain write leaves in a register (O49). -/

namespace Sys2Proof.Machine

theorem bits_w64 (x hi lo : Nat) : bits (w64 x) hi lo = x % 2 ^ 64 / 2 ^ lo % 2 ^ (hi - lo + 1) := by
  rw [bits, w64, BitVec.toNat_ofNat, Nat.shiftRight_eq_div_pow]

theorem bits_bit (v : W64) (i : Nat) : bits v i i = if bit v i then 1 else 0 := by
  simp only [bits, bit, Nat.sub_self, Nat.testBit_eq_decide_div_mod_eq, Nat.shiftRight_eq_div_pow]
  split <;> simp_all

theorem Part.setReg_leasecap (x : Part) (v : W64) :
    (x.setReg 0x43 v).leasecap = if bits v 5 0 = 16 ∨ bits v 5 0 = 32 then bits v 5 0 else x.leasecap := by
  by_cases hcap : bits v 5 0 = 16 ∨ bits v 5 0 = 32 <;> simp [Part.setReg, hcap]

/-- HOSTWIN keeps its base [63:47] and its bit [0] (R150). -/
theorem Part.setReg_hostwin (x : Part) (v : W64) :
    bits (x.setReg 0x85 v).hostwin 63 47 = bits v 63 47 ∧ bits (x.setReg 0x85 v).hostwin 0 0 = bits v 0 0 := by
  have hword : (x.setReg 0x85 v).hostwin = w64 (bits v 63 47 * 2 ^ 47 + bits v 2 2 * 4 + bits v 0 0) := by
    rw [bits_bit v 2, bits_bit v 0, ite_mul, Nat.one_mul, Nat.zero_mul]
    rfl
  have hbase := bits_lt v 63 47
  have hns := bits_lt v 2 2
  have hen := bits_lt v 0 0
  simp only [hword, bits_w64]
  omega

/-- HOSTAPER keeps its base [63:16] (R150). -/
theorem Part.setReg_hostaper (x : Part) (v : W64) :
    bits (x.setReg 0x8E v).hostaper 63 16 = bits v 63 16 ∧ bits (x.setReg 0x8E v).hostaper 15 0 = 0 := by
  have hword : (x.setReg 0x8E v).hostaper = w64 (bits v 63 16 * 2 ^ 16) := rfl
  have hbase := bits_lt v 63 16
  simp only [hword, bits_w64]
  omega

theorem Part.setReg_tenant (x : Part) (v : W64) {k : Nat} (hk : k < 64) :
    (x.setReg (0xC0 + k) v).tenants = setAt x.tenants k (w64 (bits v 63 16 * 2 ^ 16 + bits v 1 0)) := by
  unfold Part.setReg
  split
  case h_10 =>
    rw [if_pos (by simp; omega), Nat.add_sub_cancel_left]
  all_goals omega

/-- TENANTQOSn keeps its fields [63:16] and [1:0] (R71). -/
theorem Part.setReg_tenant_fields (x : Part) (v : W64) (hlen : x.tenants.length = 64) {k : Nat} (hk : k < 64) :
    bits (at! (x.setReg (0xC0 + k) v).tenants k 0) 63 16 = bits v 63 16 ∧
      bits (at! (x.setReg (0xC0 + k) v).tenants k 0) 15 2 = 0 ∧
      bits (at! (x.setReg (0xC0 + k) v).tenants k 0) 1 0 = bits v 1 0 := by
  have hword : at! (x.setReg (0xC0 + k) v).tenants k 0 = w64 (bits v 63 16 * 2 ^ 16 + bits v 1 0) := by
    rw [x.setReg_tenant v hk, at!_setAt_same (by omega)]
  have hshare := bits_lt v 63 16
  have hclass := bits_lt v 1 0
  simp only [hword, bits_w64]
  omega

/-- Word 0 of a handle keeps its fields [43:16] and [8:0] (R436). -/
theorem Handle.setWord_zero (h : Handle) (v : W64) :
    bits (h.setWord 0 v).w0 43 16 = bits v 43 16 ∧ bits (h.setWord 0 v).w0 8 0 = bits v 8 0 ∧
      bits (h.setWord 0 v).w0 63 44 = 0 ∧ bits (h.setWord 0 v).w0 15 9 = 0 := by
  have hword : (h.setWord 0 v).w0 = w64 (bits v 43 16 * 2 ^ 16 + bits v 8 0) := rfl
  have hpage := bits_lt v 43 16
  have hlow := bits_lt v 8 0
  simp only [hword, bits_w64]
  omega

/-- Word 2 of a handle keeps its field [31:0] (R436). -/
theorem Handle.setWord_two (h : Handle) (v : W64) :
    bits (h.setWord 2 v).w2 31 0 = bits v 31 0 ∧ bits (h.setWord 2 v).w2 63 32 = 0 := by
  have hword : (h.setWord 2 v).w2 = w64 (bits v 31 0) := rfl
  have hlow := bits_lt v 31 0
  simp only [hword, bits_w64]
  omega

theorem Ctx.setReg_flags (y : Ctx) (cap : Nat) (v : W64) : (y.setReg cap 2 v).flags.toNat = bits v 4 0 := by
  show (BitVec.ofNat 5 (bits v 4 0)).toNat = _
  rw [BitVec.toNat_ofNat, Nat.mod_eq_of_lt (bits_lt v 4 0)]

/-- The range registers as a write of pair `k` finds them: with a pair `k` (R34). -/
def Ctx.rangesTo (y : Ctx) (k : Nat) : List (W64 × W64) :=
  if y.ranges.length ≤ k then y.ranges ++ List.replicate (k + 1 - y.ranges.length) (0, 0) else y.ranges

theorem Ctx.lt_length_rangesTo (y : Ctx) (k : Nat) : k < (y.rangesTo k).length := by
  unfold Ctx.rangesTo
  split
  · rw [List.length_append, List.length_replicate]
    omega
  · omega

theorem Ctx.setReg_range (y : Ctx) (cap : Nat) (v : W64) {n k : Nat} (hn : 0x10 ≤ n ∧ n < 0x20) (hk : (n - 0x10) / 2 = k) :
    at! (y.setReg cap n v).ranges k (0, 0)
      = if n % 2 = 0 then (rangeVa v, (at! y.ranges k (0, 0)).2) else ((at! y.ranges k (0, 0)).1, rangeIa v) := by
  have hranges : (y.setReg cap n v).ranges = setAt (y.rangesTo k) k
      (if n % 2 = 0 then (rangeVa v, (at! y.ranges k (0, 0)).2) else ((at! y.ranges k (0, 0)).1, rangeIa v)) := by
    subst hk
    unfold Ctx.setReg
    split
    case h_6 => rw [if_pos (by simp [hn])]; rfl
    all_goals omega
  rw [hranges, at!_setAt_same (y.lt_length_rangesTo k)]

/-- Settles O49: register by register, the word that the write composes is read back field by field. -/
theorem registerFields : Obligations.RegisterFields := by
  unfold Obligations.RegisterFields
  intro x y v
  refine ⟨x.setReg_leasecap v, x.setReg_hostwin v, x.setReg_hostaper v, fun hlen k hk => x.setReg_tenant_fields v hlen hk,
    fun cap => ⟨rfl, rfl⟩, fun h => ?handle, fun cap => ⟨y.setReg_flags cap v, rfl, rfl⟩, fun cap k hk => ?range⟩
  case handle =>
    obtain ⟨hpage, hlow, hhigh, hmid⟩ := h.setWord_zero v
    obtain ⟨hword, htop⟩ := h.setWord_two v
    exact ⟨⟨hpage, hlow, hhigh, hmid, rfl⟩, rfl, hword, htop, rfl⟩
  case range =>
    rw [y.setReg_range cap v (n := 0x10 + 2 * k) (k := k) (by omega) (by omega), if_pos (by omega),
      y.setReg_range cap v (n := 0x11 + 2 * k) (k := k) (by omega) (by omega), if_neg (by omega)]
    exact ⟨rfl, rfl⟩

end Sys2Proof.Machine
end

section
/-! PROOFS. What a memory word presents, and which of its accesses the issuer stops (O37, O39). -/

namespace Sys2Proof.Machine

/-! ### The operands of a memory word (R190, R244, R245) -/

theorem Firing.fmtOf_port {fr : Firing} {f : Fields} {t : Token} (hport : fr.port f.sa.toNat = some t) : fr.fmtOf f = t.fmt := by
  simp only [Firing.fmtOf, hport]

theorem Firing.addrAt_port {s : State} {f : Fields} {t : Token} (hport : s.run.cur.port f.sa.toNat = some t) (j : Nat) :
    s.run.cur.addrAt f j = vaOf s t j := by
  simp only [Firing.addrAt, hport, vaOf]

theorem Addressed.addressed {s : State} {f : Fields} {rc : Bool} {t : Token} (ha : Addressed s f rc t) :
    s.run.cur.addressed f = true := by
  simp only [Firing.addressed, Firing.fmtOf_port ha.port, ha.fmt, decide_true]

/-! ### What a memory word answers (R82, R192, R247, R401) -/

section
variable {s : State} {f : Fields} {op : Nat} {rc : Bool} {records : List Nat} {need : Need} {shape : Nat → Ask}
  {piece : List Op → List Op}

/-- The operations of a firing are presented, and the unchained of them leave. -/
def State.presentAndLaunch (s0 : State) (fr : Firing) (f : Fields) (op : Nat) (piece : List Op → List Op) (as : List Ask) :
    State :=
  (s0.present fr f op as piece).2.launchOps (s0.present fr f op as piece).1

/-- What the word's elements ask for where none of their accesses is made. -/
def deadAsks (s : State) (shape : Nat → Ask) : List Ask :=
  (upto s.run.cur.run).map fun j => { shape j with dead := true }

theorem memWord_poisoned (fill : Option (Nat → Ask → Ask)) (hpoison : s.run.cur.poisonOf f rc = true) :
    s.memWord f op rc records need shape fill piece
      = (s.poisonRecords s.run.cur records).presentAndLaunch s.run.cur f op piece (deadAsks s shape) := by
  simp only [State.memWord, hpoison, if_true, List.map_map]
  rfl

theorem memWord_mismatch (fill : Option (Nat → Ask → Ask)) (hgood : s.run.cur.poisonOf f rc = false)
    (hfmt : s.run.cur.addressed f = false) :
    s.memWord f op rc records need shape fill piece
      = (s.formatRecord s.run.cur f).presentAndLaunch s.run.cur f op piece (deadAsks s shape) := by
  simp only [State.memWord, hgood, hfmt, Bool.false_eq_true, Bool.not_false, if_true, if_false, List.map_map]
  rfl

/-- The operands taken, the word presents what the issuer's checks leave of its asks. -/
theorem memWord_filled {s0 : State} (fill : Nat → Ask → Ask) {as : List Ask} (hgood : s.run.cur.poisonOf f rc = false)
    (hfmt : s.run.cur.addressed f = true)
    (hchecks : s.checkAsks s.run.cur need 0 ((upto s.run.cur.run).map fun j => fill j (shape j)) = (as, s0)) :
    s.memWord f op rc records need shape (some fill) piece = s0.presentAndLaunch s.run.cur f op piece as := by
  simp only [State.memWord, hgood, hfmt, Bool.false_eq_true, Bool.not_true, if_false, hchecks]
  rfl

/-- The ask makes an access of `2 ^ w` bytes at `va`. -/
structure Ask.Accesses (a : Ask) (va w : Nat) : Prop where
  live : a.dead = false
  kind : a.kind ≠ .nop
  addr : a.va = va
  size : a.width = w

/-- Asks of a firing's elements that pass every check of the issuer get their addresses. -/
theorem checkAsks_checked {t : Token} {w : Nat} {ask : Nat → Ask} {ia : Nat → Nat}
    (hask : ∀ j, (ask j).Accesses (vaOf s t j) w)
    (hchecked : Checked s t w need (upto s.run.cur.run) ia) :
    s.checkAsks s.run.cur need 0 ((upto s.run.cur.run).map ask)
      = ((upto s.run.cur.run).map fun j => { ask j with ia := ia j }, s) := by
  rw [checkAsks_ok s s.run.cur need _ ia 0]
  · congr 1
    apply List.ext_getElem <;> simp [upto]
  · intro k hk
    have hlt : k < s.run.cur.run := by simpa [upto] using hk
    obtain ⟨hdead, hkind, hva, hwidth⟩ := hask k
    have hcheck := hchecked k (by simpa [upto] using hlt)
    simp only [upto, List.getElem_map, List.getElem_range, Nat.zero_add, hva, hwidth]
    exact ⟨hdead, hkind, hcheck⟩

/-- A memory word whose accesses all pass the issuer's check presents each of them with its address. -/
theorem memWord_checked {t : Token} {w : Nat} {ia : Nat → Nat} (fill : Nat → Ask → Ask) (ha : Addressed s f rc t)
    (hask : ∀ j, (fill j (shape j)).Accesses (vaOf s t j) w)
    (hchecked : Checked s t w need (upto s.run.cur.run) ia) :
    s.memWord f op rc records need shape (some fill) piece
      = s.presentAndLaunch s.run.cur f op piece ((upto s.run.cur.run).map fun j => { fill j (shape j) with ia := ia j }) :=
  memWord_filled fill ha.good ha.addressed (checkAsks_checked hask hchecked)

/-- Operand B filled in. -/
def fillData (vs : List Nat) (j : Nat) (a : Ask) : Ask := { a with data := w64 (at! vs j 0) }

/-! ### Atomics (R138) -/

/-- Operands B and C filled in. -/
def fillBoth (bs cs : List Nat) (j : Nat) (a : Ask) : Ask := { a with data := w64 (at! bs j 0), data2 := w64 (at! cs j 0) }

/-- What element `j` of an atomic word asks for before its operands. -/
def amoAsk (s : State) (f : Fields) (o : AmoOp) (fm : Fmt) (j : Nat) : Ask :=
  { kind := .amo o, width := litWidth s.run.cur.slot.lit, va := s.run.cur.addrAt f j, fmt := fm }

theorem amoWord_eq {o : AmoOp} (hcas : o ≠ .cas) {fm : Fmt} {bs : List Nat}
    (hb : s.amoB s.run.cur f o (litWidth s.run.cur.slot.lit) = some (fm, bs)) :
    s.amoWord f op o = s.memWord f op false (upto s.run.cur.run) { rd := true, w := true } (amoAsk s f o fm)
      (some (fillData bs)) asIs := by
  simp only [State.amoWord, hb, hcas, if_false, decide_false]
  rfl

theorem amoWord_cas_eq {fm : Fmt} {bs cs : List Nat} (hb : s.amoB s.run.cur f .cas (litWidth s.run.cur.slot.lit) = some (fm, bs))
    (hc : s.source s.run.cur 0x42 fm = some cs) :
    s.amoWord f op .cas = s.memWord f op true (upto s.run.cur.run) { rd := true, w := true } (amoAsk s f .cas fm)
      (some (fillBoth bs cs)) asIs := by
  simp only [State.amoWord, hb, hc, if_true, decide_true, Option.map_some]
  rfl

/-- An atomic word other than AMOCAS presents one operation for each wave. -/
theorem amoPresents_of_exec {t : Token} {ia : Nat → Nat} {i : Instr} {o : AmoOp} (hcas : o ≠ .cas)
    (hexec : exec i s = .next (s.amoWord f op o)) (ha : Addressed s f false t)
    (hchecked : Checked s t (litWidth s.run.cur.slot.lit) { rd := true, w := true } (upto s.run.cur.run) ia) :
    AmoPresents s f t ia i op o := by
  intro fm bs hb
  rw [Presents, PresentsFrom, hexec, amoWord_eq hcas hb,
    memWord_checked (shape := amoAsk s f o fm) (fillData bs) ha (fun j => ⟨rfl, nofun, Firing.addrAt_port ha.port j, rfl⟩) hchecked]
  simp only [fillData, amoAsk, Firing.addrAt_port ha.port]
  rfl

/-- AMOCAS presents one operation for each wave, with c from port C. -/
theorem exec_amocas_presents {t : Token} {ia : Nat → Nat} {fm : Fmt} {bs cs : List Nat} (ha : Addressed s f true t)
    (hchecked : Checked s t (litWidth s.run.cur.slot.lit) { rd := true, w := true } (upto s.run.cur.run) ia)
    (hb : s.amoB s.run.cur f .cas (litWidth s.run.cur.slot.lit) = some (fm, bs)) (hc : s.source s.run.cur 0x42 fm = some cs) :
    Presents s (.amocas f) f 0x59 asIs ((upto s.run.cur.run).map fun j =>
      { kind := .amo .cas, width := litWidth s.run.cur.slot.lit, va := vaOf s t j, ia := ia j, data := w64 (at! bs j 0),
        data2 := w64 (at! cs j 0), fmt := fm }) := by
  have hexec : exec (.amocas f) s = .next (s.amoWord f 0x59 .cas) := rfl
  rw [Presents, PresentsFrom, hexec, amoWord_cas_eq hb hc,
    memWord_checked (shape := amoAsk s f .cas fm) (fillBoth bs cs) ha (fun j => ⟨rfl, nofun, Firing.addrAt_port ha.port j, rfl⟩) hchecked]
  simp only [fillBoth, amoAsk, Firing.addrAt_port ha.port]
  rfl

/-! ### Counters (R132 to R134) -/

/-- What element `j` of a counter word asks for before its operand. -/
def ctrAsk (s : State) (f : Fields) (kind : OpKind) (j : Nat) : Ask :=
  { kind := kind, width := 3, va := s.run.cur.addrAt f j, fmt := .i64 }

/-- The amount of a CTRADD filled in: a negative one is not sent (R133). -/
def fillAmount (vs : List Nat) (j : Nat) (a : Ask) : Ask :=
  { a with data := w64 (at! vs j 0), dead := toS 64 (at! vs j 0) < 0 }

theorem exec_ctradd_eq {vs : List Nat} (hvs : s.i64B s.run.cur f = some vs) :
    exec (.ctradd f) s = .next ((s.decreases s.run.cur f).memWord f 0x5B false (upto s.run.cur.run) { w := true }
      (ctrAsk s f (.amo .ctradd)) (some (fillAmount vs)) asIs) := by
  show execCtradd f s = _
  simp only [execCtradd, hvs, Option.map_some]
  rfl

theorem exec_ctrwait_eq {vs : List Nat} (hvs : s.i64B s.run.cur f = some vs) :
    exec (.ctrwait f) s = .next (s.memWord f 0x5C false (upto s.run.cur.run) { rd := true }
      (ctrAsk s f .ctrWait) (some (fillData vs)) asIs) := by
  show execCtrwait f s = _
  simp only [execCtrwait, hvs, Option.map_some]
  rfl

/-- The record of a CTRADD whose amount is negative (R133). -/
def State.decrease (s : State) (f : Fields) (vs : List Nat) (j : Nat) : State :=
  s.raise (s.run.cur.siteAt s j) { cause := 8, sub := 1, addr := s.run.cur.addrAt f j, info := at! vs j 0 }

theorem decreases_eq {t : Token} {vs : List Nat} (ha : Addressed s f false t) (hvs : s.i64B s.run.cur f = some vs) :
    s.decreases s.run.cur f
      = (upto s.run.cur.run).foldl (fun u j => if toS 64 (at! vs j 0) < 0 then u.raise (s.run.cur.siteAt u j)
          { cause := 8, sub := 1, addr := s.run.cur.addrAt f j, info := at! vs j 0 } else u) s := by
  simp only [State.decreases, ha.good, ha.addressed, hvs, Bool.not_true, Bool.or_self, Bool.false_eq_true, if_false]

theorem decreases_of_nonneg {t : Token} {vs : List Nat} (ha : Addressed s f false t) (hvs : s.i64B s.run.cur f = some vs)
    (hnonneg : ∀ j, 0 ≤ toS 64 (at! vs j 0)) : s.decreases s.run.cur f = s := by
  have hkept (js : List Nat) : js.foldl (fun u j => if toS 64 (at! vs j 0) < 0 then u.raise (s.run.cur.siteAt u j)
      { cause := 8, sub := 1, addr := s.run.cur.addrAt f j, info := at! vs j 0 } else u) s = s := by
    induction js with
    | nil => rfl
    | cons j js ih => rw [List.foldl_cons, if_neg (Int.not_lt.2 (hnonneg j)), ih]
  rw [decreases_eq ha hvs, hkept]

theorem decreases_of_neg {t : Token} {vs : List Nat} (ha : Addressed s f false t) (hvs : s.i64B s.run.cur f = some vs)
    (hrun : s.run.cur.run = 1) (hneg : toS 64 (at! vs 0 0) < 0) : s.decreases s.run.cur f
      = s.raise (s.run.cur.siteAt s 0) { cause := 8, sub := 1, addr := vaOf s t 0, info := at! vs 0 0 } := by
  rw [decreases_eq ha hvs, hrun]
  show (if toS 64 (at! vs 0 0) < 0 then _ else s) = _
  rw [if_pos hneg, Firing.addrAt_port ha.port]

/-- A CTRADD of amounts that are not negative presents one add for each wave. -/
theorem exec_ctradd_presents {t : Token} {ia : Nat → Nat} {vs : List Nat} (ha : Addressed s f false t)
    (hvs : s.i64B s.run.cur f = some vs) (hchecked : Checked s t 3 { w := true } (upto s.run.cur.run) ia)
    (hnonneg : ∀ j, 0 ≤ toS 64 (at! vs j 0)) :
    Presents s (.ctradd f) f 0x5B asIs ((upto s.run.cur.run).map fun j =>
      { kind := .amo .ctradd, width := 3, va := vaOf s t j, ia := ia j, data := w64 (at! vs j 0), fmt := .i64 }) := by
  have hlive (j : Nat) : decide (toS 64 (at! vs j 0) < 0) = false := decide_eq_false (Int.not_lt.2 (hnonneg j))
  rw [Presents, PresentsFrom, exec_ctradd_eq hvs, decreases_of_nonneg ha hvs hnonneg,
    memWord_checked (shape := ctrAsk s f (.amo .ctradd)) (fillAmount vs) ha (fun j => ⟨hlive j, nofun, Firing.addrAt_port ha.port j, rfl⟩) hchecked]
  simp only [fillAmount, ctrAsk, Firing.addrAt_port ha.port, hlive]
  rfl

/-- A CTRADD of a negative amount, in a run of 1, raises DECREASE and is not sent. -/
theorem exec_ctradd_decrease {t : Token} {vs : List Nat} (ha : Addressed s f false t) (hvs : s.i64B s.run.cur f = some vs)
    (hrun : s.run.cur.run = 1) (hneg : toS 64 (at! vs 0 0) < 0) :
    PresentsFrom (s.raise (s.run.cur.siteAt s 0) { cause := 8, sub := 1, addr := vaOf s t 0, info := at! vs 0 0 }) s
      (.ctradd f) f 0x5B asIs
      [{ kind := .amo .ctradd, width := 3, va := vaOf s t 0, data := w64 (at! vs 0 0), fmt := .i64, dead := true }] := by
  rw [PresentsFrom, exec_ctradd_eq hvs, decreases_of_neg ha hvs hrun hneg]
  refine congrArg Host.Outcome.next (memWord_filled (fillAmount vs) ha.good ha.addressed ?_)
  rw [State.raise_run, hrun, ← Firing.addrAt_port ha.port]
  simp [upto, fillAmount, ctrAsk, hneg, State.checkAsks, State.checkAsk]

theorem exec_ctrwait_presents {t : Token} {ia : Nat → Nat} {vs : List Nat} (ha : Addressed s f false t)
    (hvs : s.i64B s.run.cur f = some vs) (hchecked : Checked s t 3 { rd := true } (upto s.run.cur.run) ia) :
    Presents s (.ctrwait f) f 0x5C asIs ((upto s.run.cur.run).map fun j =>
      { kind := .ctrWait, width := 3, va := vaOf s t j, ia := ia j, data := w64 (at! vs j 0), fmt := .i64 }) := by
  rw [Presents, PresentsFrom, exec_ctrwait_eq hvs,
    memWord_checked (shape := ctrAsk s f .ctrWait) (fillData vs) ha (fun j => ⟨rfl, nofun, Firing.addrAt_port ha.port j, rfl⟩) hchecked]
  simp only [fillData, ctrAsk, Firing.addrAt_port ha.port]
  rfl

/-! ### Accesses that the issuer stops (R35, R55, R192, R247, R401) -/

theorem exec_ld_eq (s : State) (f : Fields) : exec (.ld f) s
    = .next (s.memWord f 0x40 false (upto s.run.cur.run) { rd := true } (loadAsk s.run.cur f .load []) noFill asIs) := rfl

theorem exec_st_eq (s : State) (f : Fields) : exec (.st f) s
    = .next (s.memWord f 0x41 false (upto s.run.cur.run) { w := true } (storeAsk s.run.cur f .store) (s.fillStore f) asIs) := rfl

theorem fillStore_eq {vs : List Nat} (hvs : s.storeData s.run.cur f (litWidth s.run.cur.slot.lit) = some vs) :
    s.fillStore f = some (fillData vs) := by
  simp only [State.fillStore, hvs, Option.map_some]
  rfl

/-- In a firing of run 1 whose access the issuer's check refuses, the record is raised and the access is not made. -/
theorem memWord_stopped {fill : Nat → Ask → Ask} {t : Token} {w sub : Nat} (ha : Addressed s f rc t) (hrun : s.run.cur.run = 1)
    (hask : (fill 0 (shape 0)).Accesses (vaOf s t 0) w)
    (herror : s.issueCheck s.run.cur ((levelOf (litLevel s.run.cur.slot.lit)).getD .l1) (vaOf s t 0) (2 ^ w) need = .error sub) :
    s.memWord f op rc records need shape (some fill) piece
      = (s.raise (s.run.cur.siteAt s 0) { cause := 5, sub := sub, addr := vaOf s t 0 }).presentAndLaunch s.run.cur f op piece
          [{ fill 0 (shape 0) with dead := true }] := by
  refine memWord_filled fill ha.good ha.addressed ?_
  obtain ⟨hlive, hkind, haddr, hsize⟩ := hask
  simp [hrun, upto, State.checkAsks, State.checkAsk, hlive, hkind, haddr, hsize, herror]

theorem deadAsks_of_run_one (hrun : s.run.cur.run = 1) : deadAsks s shape = [{ shape 0 with dead := true }] := by
  rw [deadAsks, hrun]
  rfl

/-- In a firing of run 1, LD and ST have made no access at the first address of `t`, and their results will be poisoned, once
`s0` has been reached. -/
def StopsBoth (s0 s : State) (f : Fields) (t : Token) : Prop :=
  (∃ a : Ask, (a.kind = .load ∧ a.width = litWidth s.run.cur.slot.lit ∧ a.va = vaOf s t 0 ∧ a.dead = true) ∧
    PresentsFrom s0 s (.ld f) f 0x40 asIs [a]) ∧
  (∃ a : Ask, (a.kind = .store ∧ a.width = litWidth s.run.cur.slot.lit ∧ a.va = vaOf s t 0 ∧ a.dead = true) ∧
    PresentsFrom s0 s (.st f) f 0x41 asIs [a])

theorem stopsBoth_of_poison {t : Token} (hport : s.run.cur.port f.sa.toNat = some t) (hrun : s.run.cur.run = 1)
    (hpoison : s.run.cur.poisonOf f false = true) :
    StopsBoth (s.raise (s.run.cur.siteAt s 0) { cause := 0x0C, sub := 1 }) s f t := by
  have hrecords : s.poisonRecords s.run.cur (upto s.run.cur.run) = s.raise (s.run.cur.siteAt s 0) { cause := 0x0C, sub := 1 } := by
    rw [hrun]
    rfl
  have hva := Firing.addrAt_port hport 0
  refine ⟨⟨{ loadAsk s.run.cur f .load [] 0 with dead := true }, ⟨rfl, rfl, hva, rfl⟩, ?_⟩,
    ⟨{ storeAsk s.run.cur f .store 0 with dead := true }, ⟨rfl, rfl, hva, rfl⟩, ?_⟩⟩
  · rw [PresentsFrom, exec_ld_eq, memWord_poisoned _ hpoison, hrecords, deadAsks_of_run_one hrun]
    rfl
  · rw [PresentsFrom, exec_st_eq, memWord_poisoned _ hpoison, hrecords, deadAsks_of_run_one hrun]
    rfl

theorem stopsBoth_of_format {t : Token} (hport : s.run.cur.port f.sa.toNat = some t) (hrun : s.run.cur.run = 1)
    (hgood : s.run.cur.poisonOf f false = false) (hfmt : t.fmt ≠ .a) : StopsBoth (s.formatRecord s.run.cur f) s f t := by
  have haddressed : s.run.cur.addressed f = false := by
    rw [Firing.addressed, Firing.fmtOf_port hport, decide_eq_false hfmt]
  have hva := Firing.addrAt_port hport 0
  refine ⟨⟨{ loadAsk s.run.cur f .load [] 0 with dead := true }, ⟨rfl, rfl, hva, rfl⟩, ?_⟩,
    ⟨{ storeAsk s.run.cur f .store 0 with dead := true }, ⟨rfl, rfl, hva, rfl⟩, ?_⟩⟩
  · rw [PresentsFrom, exec_ld_eq, memWord_mismatch _ hgood haddressed, deadAsks_of_run_one hrun]
    rfl
  · rw [PresentsFrom, exec_st_eq, memWord_mismatch _ hgood haddressed, deadAsks_of_run_one hrun]
    rfl

theorem stopsBoth_of_check {t : Token} {sub : Nat} (ha : Addressed s f false t) (hrun : s.run.cur.run = 1)
    (hdata : (s.storeData s.run.cur f (litWidth s.run.cur.slot.lit)).isSome)
    (herror : ∀ need, need = { rd := true } ∨ need = { w := true } →
      s.issueCheck s.run.cur ((levelOf (litLevel s.run.cur.slot.lit)).getD .l1) (vaOf s t 0)
        (2 ^ litWidth s.run.cur.slot.lit) need = .error sub) :
    StopsBoth (s.raise (s.run.cur.siteAt s 0) { cause := 5, sub := sub, addr := vaOf s t 0 }) s f t := by
  obtain ⟨vs, hvs⟩ := Option.isSome_iff_exists.1 hdata
  have hva := Firing.addrAt_port ha.port 0
  refine ⟨⟨{ loadAsk s.run.cur f .load [] 0 with dead := true }, ⟨rfl, rfl, hva, rfl⟩, ?_⟩,
    ⟨{ storeAsk s.run.cur f .store 0 with data := w64 (at! vs 0 0), dead := true }, ⟨rfl, rfl, hva, rfl⟩, ?_⟩⟩
  · rw [PresentsFrom, exec_ld_eq, noFill, memWord_stopped (fill := fun _ a => a) (shape := loadAsk s.run.cur f .load []) ha hrun
      ⟨rfl, nofun, hva, rfl⟩ (herror _ (.inl rfl))]
    rfl
  · rw [PresentsFrom, exec_st_eq, fillStore_eq hvs, memWord_stopped (fill := fillData vs)
      (shape := storeAsk s.run.cur f .store) ha hrun ⟨rfl, nofun, hva, rfl⟩ (herror _ (.inr rfl))]
    rfl

theorem issueCheck_misaligned {fr : Firing} {lv : Level} {va n : Nat} {need : Need} (halign : va % n ≠ 0) :
    s.issueCheck fr lv va n need = .error 7 := by
  rw [State.issueCheck, if_pos halign]

theorem issueCheck_range {fr : Firing} {lv : Level} {va n : Nat} {need : Need} (halign : va % n = 0) (hcached : lv.cached = true)
    (hrange : rangeCheck (s.rangesOf fr.names.part fr.ctx) va n need = none) : s.issueCheck fr lv va n need = .error 3 := by
  rw [State.issueCheck, if_neg (not_not_intro halign), if_pos hcached, hrange]

/-- No change of scratch ways concerns an element store, whose valid offsets end at 4096 (R54, R58). -/
theorem issueCheck_es {fr : Firing} {va n : Nat} {need : Need} (halign : va % n = 0) (hbeyond : 4096 < va + n) :
    s.issueCheck fr .es va n need = .error 6 := by
  simp [State.issueCheck, halign, Level.cached, State.rangeBlocked, csTouched, State.scratchValid, hbeyond]

theorem Level.cached_of {lv : Level} (hlevel : lv = .l1 ∨ lv = .l2 ∨ lv = .mem) : lv.cached = true := by
  rcases hlevel with rfl | rfl | rfl <;> rfl

end

/-- Settles O37: every word reaches `memWord` with its operands filled in, whose accesses pass the issuer's check. -/
theorem atomicsAndCounters : Obligations.AtomicsAndCounters := by
  unfold Obligations.AtomicsAndCounters
  rintro s f t ia w js rfl rfl
  refine ⟨fun ha hchecked => ?atomics, fun ha hchecked fm bs cs hb hc => exec_amocas_presents ha hchecked hb hc,
    fun ha vs hvs => ⟨fun hchecked hnonneg => exec_ctradd_presents ha hvs hchecked hnonneg,
      fun hrun hneg => exec_ctradd_decrease ha hvs hrun hneg, fun hchecked => exec_ctrwait_presents ha hvs hchecked⟩⟩
  case atomics =>
    have presents {i : Instr} {op : Nat} {o : AmoOp} (hcas : o ≠ .cas) (hexec : exec i s = .next (s.amoWord f op o)) :
        AmoPresents s f t ia i op o := amoPresents_of_exec hcas hexec ha hchecked
    exact ⟨presents nofun rfl, presents nofun rfl, presents nofun rfl, presents nofun rfl, presents nofun rfl,
      presents nofun rfl, presents nofun rfl, presents nofun rfl, presents nofun rfl, presents nofun rfl,
      presents nofun rfl, presents nofun rfl⟩

/-- Settles O39: each stop is a branch of `memWord` before the operations are presented, the same for LD and ST. -/
theorem stoppedAccesses : Obligations.StoppedAccesses := by
  unfold Obligations.StoppedAccesses
  rintro s f t w fr lv rfl hrun rfl hport hlv load store stops
  refine ⟨fun hpoison => stopsBoth_of_poison hport hrun hpoison, fun hgood hfmt => stopsBoth_of_format hport hrun hgood hfmt,
    fun ha hdata => ⟨fun halign => ?align, fun halign hlevel hread hwrite => ?range, fun halign hes hbeyond => ?scratch⟩⟩
  case align => exact stopsBoth_of_check ha hrun hdata fun _ _ => issueCheck_misaligned halign
  case range =>
    refine stopsBoth_of_check ha hrun hdata fun need hneed => ?_
    rw [← hlv]
    rcases hneed with rfl | rfl
    · exact issueCheck_range halign (Level.cached_of hlevel) hread
    · exact issueCheck_range halign (Level.cached_of hlevel) hwrite
  case scratch =>
    refine stopsBoth_of_check ha hrun hdata fun need _ => ?_
    rw [← hlv, hes]
    exact issueCheck_es halign hbeyond

end Sys2Proof.Machine
end

section
/-! PROOFS. The memories keep their canonical form (O8, O9).

One lemma for each function of the model that gives a state: started on memories in form, it gives memories in form. A memory
is only ever written with `put`, `write`, `zero`, `filter` or a fold of `put`, and each of these keeps the form; every other
function composes such writes and updates of other fields, and its lemma follows its definition: a term where it composes, a
`split` where it branches. A lemma bears the name of its function, and the functions stand in the model's order. -/

namespace Sys2Proof.Machine

variable {s : State}

/-! ### Memories -/

theorem Memory.wf_foldl_put {β : Type} {f : β → Nat} {g : β → Byte} {l : List β} {m : Memory} (h : m.wf = true) :
    Memory.wf (l.foldl (fun m x => Memory.put m (f x) (g x)) m) = true := by
  induction l generalizing m with
  | nil => exact h
  | cons x l ih => exact ih (Memory.wf_put h _ _)

/-! ### Answers that hold a state -/

/-! Each predicate asks the form of every state that an answer of its type holds. -/

def OptionForm : Option State → Prop
  | some s => MemForm s
  | none => True

def OptionSndForm {α : Type} : Option (α × State) → Prop
  | some x => MemForm x.2
  | none => True

def TakenForm : Option Taken → Prop
  | some t => MemForm t.s
  | none => True

/-- Of a line brought in: both the state in which the request goes on and the one in which it waits. -/
def BroughtForm (x : Option State × State) : Prop := OptionForm x.1 ∧ MemForm x.2

def FetchAllForm {α : Type} : State ⊕ (Bool × State × α) → Prop
  | .inl s => MemForm s
  | .inr x => MemForm x.2.1

def FetchSlotsForm {α : Type} : State ⊕ (α × State) → Prop
  | .inl s => MemForm s
  | .inr x => MemForm x.2

def ResultForm : Result → Prop
  | .next s => MemForm s
  | _ => True

def Filled.Form : Filled → Prop
  | .done s => MemForm s
  | .recall _ => True

def WayOutcome.Form : WayOutcome → Prop
  | .done s | .begun s => MemForm s
  | .refused | .busy => True

def Now.Form : Now → Prop
  | .fault _ _ s | .ready _ s => MemForm s
  | .busy => True

def Far.Form : Far → Prop
  | .wait s => MemForm s
  | .refused _ | .ok _ => True

def ReadNow.Form : ReadNow → Prop
  | .busy s | .fault _ _ s | .ok _ s => MemForm s

def AddNow.Form : AddNow → Prop
  | .busy s | .fault _ _ s | .ok s => MemForm s

def Scrub.Form : Scrub → Prop
  | .done s => MemForm s
  | .refused | .busy => True

def Seq.Form {α : Type} : Seq α → Prop
  | .wait s | .skip s | .ok _ s => MemForm s

def Fetch.Form : Fetch → Prop
  | .wait s | .failed s | .ok _ s => MemForm s

def Fetched.Form : Fetched → Prop
  | .wait s | .failed s | .ok _ _ s => MemForm s

def TableRead.Form : TableRead → Prop
  | .wait s | .ok _ _ s => MemForm s

def NextMove.Form : NextMove → Prop
  | .issue s | .event _ s | .idle s => MemForm s
  | .stopped => True

/-! What an answer's form gives once the answer is known to be `r'`. -/

theorem OptionForm.at {r r' : Option State} (h : OptionForm r) (e : r = r') : OptionForm r' := e ▸ h

theorem OptionSndForm.at {α : Type} {r r' : Option (α × State)} (h : OptionSndForm r) (e : r = r') :
    OptionSndForm r' := e ▸ h

theorem TakenForm.at {r r' : Option Taken} (h : TakenForm r) (e : r = r') : TakenForm r' := e ▸ h

theorem FetchAllForm.at {α : Type} {r r' : State ⊕ (Bool × State × α)} (h : FetchAllForm r) (e : r = r') :
    FetchAllForm r' := e ▸ h

theorem FetchSlotsForm.at {α : Type} {r r' : State ⊕ (α × State)} (h : FetchSlotsForm r) (e : r = r') :
    FetchSlotsForm r' := e ▸ h

theorem ResultForm.at {r r' : Result} (h : ResultForm r) (e : r = r') : ResultForm r' := e ▸ h

theorem Filled.Form.at {r r' : Filled} (h : Filled.Form r) (e : r = r') : Filled.Form r' := e ▸ h

theorem WayOutcome.Form.at {r r' : WayOutcome} (h : WayOutcome.Form r) (e : r = r') : WayOutcome.Form r' := e ▸ h

theorem Now.Form.at {r r' : Now} (h : Now.Form r) (e : r = r') : Now.Form r' := e ▸ h

theorem Far.Form.at {r r' : Far} (h : Far.Form r) (e : r = r') : Far.Form r' := e ▸ h

theorem ReadNow.Form.at {r r' : ReadNow} (h : ReadNow.Form r) (e : r = r') : ReadNow.Form r' := e ▸ h

theorem AddNow.Form.at {r r' : AddNow} (h : AddNow.Form r) (e : r = r') : AddNow.Form r' := e ▸ h

theorem Scrub.Form.at {r r' : Scrub} (h : Scrub.Form r) (e : r = r') : Scrub.Form r' := e ▸ h

theorem Seq.Form.at {α : Type} {r r' : Seq α} (h : Seq.Form r) (e : r = r') : Seq.Form r' := e ▸ h

theorem Fetch.Form.at {r r' : Fetch} (h : Fetch.Form r) (e : r = r') : Fetch.Form r' := e ▸ h

theorem Fetched.Form.at {r r' : Fetched} (h : Fetched.Form r) (e : r = r') : Fetched.Form r' := e ▸ h

theorem TableRead.Form.at {r r' : TableRead} (h : TableRead.Form r) (e : r = r') : TableRead.Form r' := e ▸ h

theorem NextMove.Form.at {r r' : NextMove} (h : NextMove.Form r) (e : r = r') : NextMove.Form r' := e ▸ h

theorem memForm_snd {α : Type} {p : α × State} {a : α} {t : State} (h : MemForm p.2) (e : p = (a, t)) :
    MemForm t := by
  rw [e] at h
  exact h

/-! ### The four memories of a state in form -/

theorem MemForm.hbm (hs : MemForm s) : s.mem.hbm.wf = true := hs.1

theorem MemForm.es (hs : MemForm s) : s.mem.es.wf = true := hs.2.1

theorem MemForm.cs (hs : MemForm s) : s.mem.cs.wf = true := hs.2.2.1

theorem MemForm.ss (hs : MemForm s) : s.mem.ss.wf = true := hs.2.2.2

/-! ### Updates that leave the four memories, branches and folds -/

theorem memForm_state {d p c f w l r} (hs : MemForm s) : MemForm (State.mk d p c f s.mem w l r) := hs

theorem memForm_memSys {d p c f w l r x1 x2 x3 x4 x5 x6 x7 x8 x9 x10 x11 x12 x13} (hs : MemForm s) :
    MemForm (State.mk d p c f
      (MemSys.mk s.mem.hbm s.mem.es s.mem.cs s.mem.ss x1 x2 x3 x4 x5 x6 x7 x8 x9 x10 x11 x12 x13) w l r) := hs

theorem memForm_hbm {m d p c f w l r x1 x2 x3 x4 x5 x6 x7 x8 x9 x10 x11 x12 x13} (hs : MemForm s)
    (hm : Memory.wf m = true) : MemForm (State.mk d p c f
      (MemSys.mk m s.mem.es s.mem.cs s.mem.ss x1 x2 x3 x4 x5 x6 x7 x8 x9 x10 x11 x12 x13) w l r) :=
  ⟨hm, hs.es, hs.cs, hs.ss⟩

theorem memForm_es {m d p c f w l r x1 x2 x3 x4 x5 x6 x7 x8 x9 x10 x11 x12 x13} (hs : MemForm s)
    (hm : Memory.wf m = true) : MemForm (State.mk d p c f
      (MemSys.mk s.mem.hbm m s.mem.cs s.mem.ss x1 x2 x3 x4 x5 x6 x7 x8 x9 x10 x11 x12 x13) w l r) :=
  ⟨hs.hbm, hm, hs.cs, hs.ss⟩

theorem memForm_cs {m d p c f w l r x1 x2 x3 x4 x5 x6 x7 x8 x9 x10 x11 x12 x13} (hs : MemForm s)
    (hm : Memory.wf m = true) : MemForm (State.mk d p c f
      (MemSys.mk s.mem.hbm s.mem.es m s.mem.ss x1 x2 x3 x4 x5 x6 x7 x8 x9 x10 x11 x12 x13) w l r) :=
  ⟨hs.hbm, hs.es, hm, hs.ss⟩

theorem memForm_ss {m d p c f w l r x1 x2 x3 x4 x5 x6 x7 x8 x9 x10 x11 x12 x13} (hs : MemForm s)
    (hm : Memory.wf m = true) : MemForm (State.mk d p c f
      (MemSys.mk s.mem.hbm s.mem.es s.mem.cs m x1 x2 x3 x4 x5 x6 x7 x8 x9 x10 x11 x12 x13) w l r) :=
  ⟨hs.hbm, hs.es, hs.cs, hm⟩

theorem memForm_ite {c : Prop} [Decidable c] {s t : State} (hs : MemForm s) (ht : MemForm t) :
    MemForm (if c then s else t) := by
  split
  · exact hs
  · exact ht

theorem memForm_ite_fst {α : Type} {c : Prop} [Decidable c] {p q : State × α} (hp : MemForm p.1) (hq : MemForm q.1) :
    MemForm (if c then p else q).1 := by
  split
  · exact hp
  · exact hq

theorem memForm_ite_snd {α : Type} {c : Prop} [Decidable c] {p q : α × State} (hp : MemForm p.2) (hq : MemForm q.2) :
    MemForm (if c then p else q).2 := by
  split
  · exact hp
  · exact hq

theorem memForm_foldl {β : Type} {f : State → β → State} {l : List β} (hf : ∀ {s b}, MemForm s → MemForm (f s b))
    (hs : MemForm s) : MemForm (l.foldl f s) := by
  induction l generalizing s with
  | nil => exact hs
  | cons b l ih => exact ih (hf hs)

theorem memForm_foldl_fst {α β : Type} {f : State × α → β → State × α} {l : List β} {p : State × α}
    (hf : ∀ {p b}, MemForm p.1 → MemForm (f p b).1) (hp : MemForm p.1) : MemForm (l.foldl f p).1 := by
  induction l generalizing p with
  | nil => exact hp
  | cons b l ih => exact ih (hf hp)

theorem memForm_foldl_snd {α β : Type} {f : α × State → β → α × State} {l : List β} {p : α × State}
    (hf : ∀ {p b}, MemForm p.2 → MemForm (f p b).2) (hp : MemForm p.2) : MemForm (l.foldl f p).2 := by
  induction l generalizing p with
  | nil => exact hp
  | cons b l ih => exact ih (hf hp)

/-- The check of a command, where it has one, keeps the form. -/
def CheckKeeps (check : Option (State → Nat → Ask → Ask × State)) : Prop :=
  ∀ g ∈ check, ∀ {t j a}, MemForm t → MemForm (g t j a).2

theorem checkKeeps_some {g : State → Nat → Ask → Ask × State} (hg : ∀ {t j a}, MemForm t → MemForm (g t j a).2) :
    CheckKeeps (some g) := by
  intro f hf
  rw [Option.mem_some] at hf
  subst hf
  exact hg

theorem checkKeeps_map {β : Type} {o : Option β} {g : β → State → Nat → Ask → Ask × State}
    (hg : ∀ {b t j a}, MemForm t → MemForm (g b t j a).2) : CheckKeeps (o.map g) := by
  intro f hf
  obtain ⟨b, -, rfl⟩ := Option.mem_map.mp hf
  exact hg

theorem checkKeeps_noCheck : CheckKeeps noCheck := checkKeeps_some fun hs => hs

theorem memForm_cold {d b} : MemForm (State.cold d b) := ⟨rfl, rfl, rfl, rfl⟩

/-! ### Partitions and contexts -/

theorem memForm_setPart (hs : MemForm s) {p x} : MemForm (s.setPart p x) := hs

theorem memForm_modPart (hs : MemForm s) {p f} : MemForm (s.modPart p f) :=
  memForm_setPart hs

theorem memForm_modCtx (hs : MemForm s) {p c f} : MemForm (s.modCtx p c f) := hs

theorem memForm_newId (hs : MemForm s) : MemForm (s.newId).2 := hs

theorem memForm_draw (hs : MemForm s) {n} : MemForm (s.draw n).2 := hs

/-! ### Slots, keep registers and counters of elements -/

theorem memForm_setSlot (hs : MemForm s) {cl el i v} : MemForm (s.setSlot cl el i v) := hs

theorem memForm_modElem (hs : MemForm s) {cl el f} : MemForm (s.modElem cl el f) := hs

theorem memForm_modCtr (hs : MemForm s) {cl f} : MemForm (s.modCtr cl f) := hs

/-! ### Trap records: taking an exception (R398 to R400) -/

theorem memForm_pushTrap (hs : MemForm s) {r} : MemForm (s.pushTrap r) := hs

theorem memForm_raise (hs : MemForm s) {w t} : MemForm (s.raise w t) :=
  memForm_pushTrap hs

theorem memForm_halt (hs : MemForm s) {p c} : MemForm (s.halt p c) :=
  memForm_modCtx hs

/-! ### Placement and sending (R201 to R203, R355, R356, R369) -/

theorem memForm_modSection (hs : MemForm s) {p l f} : MemForm (s.modSection p l f) := hs

theorem memForm_resolve (hs : MemForm s) {from' n} : MemForm (s.resolve from' n).2 := by
  dsimp only [State.resolve]
  split
  · exact memForm_state hs
  · split
    · exact hs
    · split
      · exact memForm_ite_snd (memForm_state hs) hs
      · exact hs

theorem memForm_hopIndex (hs : MemForm s) {route pos h} : MemForm (s.hopIndex route pos h).2 := by
  dsimp only [State.hopIndex]
  split
  · exact hs
  · exact memForm_state hs

theorem memForm_hopIndices (hs : MemForm s) {route x} : MemForm (s.hopIndices route x).2 := by
  induction x generalizing s with
  | nil => exact hs
  | cons x r ih =>
    obtain ⟨pos, h⟩ := x
    dsimp only [State.hopIndices]
    exact ih (memForm_hopIndex hs)

theorem memForm_injectPacket (hs : MemForm s) {route id n isMsg path dateline} :
    MemForm (s.injectPacket route id n isMsg path dateline) :=
  memForm_state (memForm_hopIndices hs)

theorem memForm_dispatchToken (hs : MemForm s) {from' route t} : MemForm (s.dispatchToken from' route t) := by
  dsimp only [State.dispatchToken]
  split
  · exact memForm_newId hs
  · split
    · exact memForm_state (memForm_resolve (memForm_newId hs))
    · split
      · exact memForm_injectPacket (memForm_state (memForm_resolve (memForm_newId hs)))
      · exact memForm_state (memForm_resolve (memForm_newId hs))

theorem memForm_sendPlain (hs : MemForm s) {w from' l t} : MemForm (s.sendPlain w from' l t) := by
  dsimp only [State.sendPlain]
  split
  · exact hs
  · split
    · exact memForm_raise hs
    · exact memForm_dispatchToken hs

theorem memForm_sendList (hs : MemForm s) {w from' t x} : MemForm (s.sendList w from' t x) := by
  induction x generalizing s with
  | nil => exact hs
  | cons l ls ih =>
    dsimp only [State.sendList]
    exact memForm_ite hs (ih (memForm_sendPlain hs))

theorem memForm_sendLink (hs : MemForm s) {w from' l t} : MemForm (s.sendLink w from' l t) := by
  dsimp only [State.sendLink]
  refine memForm_ite ?_ (memForm_sendPlain hs)
  split
  · exact hs
  · exact memForm_sendList hs

theorem memForm_out (hs : MemForm s) {f ta lk1 t} : MemForm (s.out f ta lk1 t) := by
  dsimp only [State.out]
  exact memForm_sendLink (by
    split
    · exact memForm_ite hs (memForm_raise hs)
    · exact hs)

theorem memForm_sendPieces (hs : MemForm s) {f ta sel t x} : MemForm (s.sendPieces f ta sel t x) := by
  induction x generalizing s with
  | nil => exact hs
  | cons x r ih =>
    obtain ⟨lo, n, p⟩ := x
    dsimp only [State.sendPieces]
    exact ih (memForm_ite (memForm_out hs) (memForm_ite (memForm_out hs) hs))

/-! ### Statistics (R198, R307, R309) -/

theorem memForm_sendStat (hs : MemForm s) {names ctx tree r} : MemForm (s.sendStat names ctx tree r) := by
  dsimp only [State.sendStat]
  split
  · split
    · exact memForm_ite (memForm_state hs) hs
    · exact hs
  · exact hs

theorem memForm_tapCount (hs : MemForm s) {f n} : MemForm (s.tapCount f n) :=
  memForm_sendStat (memForm_modElem hs)

/-! ### Sending a result (R195, R196) -/

theorem memForm_sendTo (hs : MemForm s) {f ta d r} : MemForm (s.sendTo f ta d r) := by
  dsimp only [State.sendTo]
  split
  · exact hs
  · exact memForm_out hs
  · exact memForm_out hs
  · exact memForm_out (memForm_out hs)
  · exact memForm_tapCount hs
  · split
    · exact hs
    · exact memForm_ite (memForm_ite (memForm_out (memForm_out hs)) (memForm_out hs)) (memForm_sendPieces hs)

/-! ### Resume (R405) -/

theorem memForm_sendHeld (hs : MemForm s) {h} : MemForm (s.sendHeld h) :=
  memForm_ite (memForm_out (memForm_ite (memForm_out hs) hs)) (memForm_ite (memForm_out hs) hs)

theorem memForm_resume (hs : MemForm s) {p c} : MemForm (s.resume p c) := by
  dsimp only [State.resume]
  split
  · exact hs
  · exact memForm_ite (memForm_foldl (fun ht => memForm_sendHeld ht) (memForm_modCtx hs)) hs

theorem memForm_orFlags (hs : MemForm s) {p c f} : MemForm (s.orFlags p c f) :=
  memForm_modCtx hs

/-! ### Where a word stands -/

theorem memForm_cover (hs : MemForm s) {lv a n} : MemForm (s.cover lv a n) := hs

theorem memForm_spoil (hs : MemForm s) {lv a offs} : MemForm (s.spoil lv a offs) := hs

/-! ### The translation cache (R41, R44, R45) -/

theorem memForm_walkFill (hs : MemForm s) {p slice asid ia need who} :
    MemForm (s.walkFill p slice asid ia need who).2 := by
  dsimp only [State.walkFill]
  split
  · exact hs
  · exact memForm_memSys (memForm_newId hs)

theorem memForm_translate (hs : MemForm s) {p slice asid ia need who} :
    MemForm (s.translate p slice asid ia need who).2 := by
  dsimp only [State.translate]
  refine memForm_ite_snd hs (memForm_ite_snd hs ?_)
  split
  · exact memForm_walkFill hs
  · refine memForm_ite_snd (memForm_memSys hs) ?_
    split
    · exact memForm_walkFill hs
    · exact memForm_memSys (memForm_newId hs)

theorem memForm_modBank (hs : MemForm s) {x f} (hf : ∀ m : Memory, m.wf = true → (f m).wf = true) :
    MemForm (s.modBank x f) := by
  cases x with
  | es _ _ => exact ⟨hs.hbm, hf _ hs.es, hs.cs, hs.ss⟩
  | cs _ _ => exact ⟨hs.hbm, hs.es, hf _ hs.cs, hs.ss⟩
  | ss _ _ => exact ⟨hs.hbm, hs.es, hs.cs, hf _ hs.ss⟩

/-! ### Guards (R63, R64) -/

theorem memForm_setGuards (hs : MemForm s) {l} : MemForm (s.setGuards l) := hs

theorem memForm_clearGuards (hs : MemForm s) {r} : MemForm (s.clearGuards r) := hs

theorem memForm_noteGuard (hs : MemForm s) {p c r} : MemForm (s.noteGuard p c r) :=
  memForm_modCtx hs

theorem memForm_flushGuard (hs : MemForm s) {p c} : MemForm (s.flushGuard p c) := by
  dsimp only [State.flushGuard]
  split
  · exact hs
  · split
    · exact hs
    · exact memForm_modCtx (memForm_pushTrap hs)

theorem memForm_noteGuards (hs : MemForm s) {w lv x n} : MemForm (s.noteGuards w lv x n) :=
  memForm_foldl (fun ht => memForm_noteGuard ht) hs

theorem memForm_writeSpot (hs : MemForm s) {x bs} : MemForm (s.writeSpot x bs) := by
  induction bs generalizing s x with
  | nil => exact hs
  | cons b bs ih => exact ih (memForm_ite hs (memForm_cover (memForm_modBank hs fun _ h => Memory.wf_put h _ _)))

/-! ### Full-empty bits (R60) -/

theorem memForm_setFull (hs : MemForm s) {x v} : MemForm (s.setFull x v) := hs

theorem memForm_wipeSpot (hs : MemForm s) {x n} : MemForm (s.wipeSpot x n) :=
  memForm_memSys (memForm_cover (memForm_modBank hs fun _ h => Memory.wf_zero h _ _))

/-! ### Results -/

theorem memForm_issuerPort (hs : MemForm s) {g w} : MemForm (s.issuerPort g w).2 := by
  dsimp only [State.issuerPort]
  refine memForm_ite_snd hs ?_
  split
  next t ht => exact memForm_snd (memForm_resolve hs) ht
  next t ht => exact memForm_snd (memForm_resolve hs) ht

theorem memForm_sendResult (hs : MemForm s) {g w l t} : MemForm (s.sendResult g w l t) := by
  dsimp only [State.sendResult]
  split
  · exact hs
  · exact memForm_foldl (fun ht => memForm_ite (memForm_sendPlain ht) (memForm_sendPlain (memForm_issuerPort ht))) hs

theorem memForm_sendPiece (hs : MemForm s) {g x} : MemForm (s.sendPiece g x) :=
  memForm_ite (memForm_sendResult (memForm_ite (memForm_sendResult hs) hs)) (memForm_ite (memForm_sendResult hs) hs)

theorem memForm_sendGather (hs : MemForm s) {g} : MemForm (s.sendGather g) :=
  memForm_foldl (fun ht => memForm_sendPiece ht) hs

theorem memForm_deliver (hs : MemForm s) {gid j r w} : MemForm (s.deliver gid j r w) := by
  dsimp only [State.deliver]
  split
  · exact hs
  · exact memForm_ite (memForm_sendGather (memForm_state hs)) (memForm_state hs)

theorem memForm_deliverAll (hs : MemForm s) {gid r w} : MemForm (s.deliverAll gid r w) := by
  dsimp only [State.deliverAll]
  split
  · exact hs
  · exact memForm_sendGather (memForm_state hs)

/-! ### Tasks (R93, R226) -/

theorem memForm_modTask (hs : MemForm s) {p root f} : MemForm (s.modTask p root f) := hs

/-! ### The chain (R81) -/

theorem memForm_modOp (hs : MemForm s) {id f} : MemForm (s.modOp id f) := hs

theorem memForm_dropOp (hs : MemForm s) {id} : MemForm (s.dropOp id) := hs

theorem memForm_endOp (hs : MemForm s) {o} : MemForm (s.endOp o) :=
  memForm_ite (memForm_modCtx (memForm_dropOp hs)) (memForm_dropOp hs)

theorem memForm_finishAt (hs : MemForm s) {o r w} : MemForm (s.finishAt o r w) := by
  dsimp only [State.finishAt]
  exact memForm_ite (memForm_endOp hs) (memForm_ite (memForm_deliverAll (memForm_endOp hs))
      (memForm_deliver (memForm_endOp hs)))

theorem memForm_finish (hs : MemForm s) {o r} : MemForm (s.finish o r) :=
  memForm_finishAt hs

theorem memForm_refuse (hs : MemForm s) {o t} : MemForm (s.refuse o t) :=
  memForm_finish (memForm_raise hs)

theorem memForm_spoilOp (hs : MemForm s) {o w at'} : MemForm (s.spoilOp o w at') := by
  dsimp only [State.spoilOp]
  split
  · exact memForm_finishAt (memForm_raise hs)
  · exact memForm_finishAt (memForm_raise hs)
  · exact memForm_finishAt (memForm_raise hs)
  · exact memForm_finishAt hs

theorem memForm_finishWait (hs : MemForm s) {o v at'} : MemForm (s.finishWait o v at') :=
  memForm_finishAt (memForm_flushGuard hs)

/-! ### Waits at scratch (R61, R135) -/

theorem memForm_wakeSpot (hs : MemForm s) {x n} : MemForm (s.wakeSpot x n) :=
  memForm_foldl (fun ht => memForm_ite (memForm_spoilOp ht) (memForm_ite (memForm_finishWait ht) ht)) hs

theorem memForm_serveLdfe (hs : MemForm s) {o clr} : MemForm (s.serveLdfe o clr) :=
  memForm_finish (memForm_ite (memForm_setFull (memForm_noteGuards hs)) (memForm_noteGuards hs))

theorem memForm_releaseFull (hs : MemForm s) {x} : MemForm (s.releaseFull x) := by
  dsimp only [State.releaseFull]
  split
  · exact memForm_serveLdfe (memForm_foldl (fun ht => memForm_serveLdfe ht) hs)
  · exact memForm_foldl (fun ht => memForm_serveLdfe ht) hs

theorem memForm_fillSpot (hs : MemForm s) {x bs} : MemForm (s.fillSpot x bs) :=
  memForm_ite hs (memForm_releaseFull (memForm_wakeSpot (memForm_setFull (memForm_writeSpot hs))))

/-! ### L1 -/

theorem memForm_modL1 (hs : MemForm s) {c asid line f} : MemForm (s.modL1 c asid line f) := hs

theorem memForm_dropL1 (hs : MemForm s) {c asid line} : MemForm (s.dropL1 c asid line) := hs

/-! ### Memory behind the caches -/

theorem memForm_writePa (hs : MemForm s) {pa bs} : MemForm (s.writePa pa bs) := by
  dsimp only [State.writePa]
  refine memForm_ite hs ?_
  split
  · exact memForm_cover (memForm_hbm hs (Memory.wf_write hs.hbm _ _))
  · exact memForm_ite (memForm_cover (memForm_ss hs (Memory.wf_write hs.ss _ _))) hs

theorem memForm_writePaBad (hs : MemForm s) {pa bs bad} : MemForm (s.writePaBad pa bs bad) :=
  memForm_ite (memForm_spoil (memForm_writePa hs)) (memForm_writePa hs)

theorem memForm_askAt (hs : MemForm s) {p id pa} : MemForm (s.askAt p id pa) := hs

theorem memForm_answered (hs : MemForm s) {id} : MemForm (s.answered id) := hs

theorem memForm_post (hs : MemForm s) {p c pa bs} : MemForm (s.post p c pa bs) :=
  memForm_state (memForm_newId hs)

theorem memForm_writeBack (hs : MemForm s) {p slice asid line d spoiled c} :
    MemForm (s.writeBack p slice asid line d spoiled c) := by
  dsimp only [State.writeBack]
  split
  · exact memForm_pushTrap hs
  · exact memForm_ite (memForm_pushTrap hs) (memForm_ite (memForm_ite (memForm_post hs) (memForm_pushTrap hs))
        (memForm_ite (memForm_writePa hs) (memForm_writePaBad (memForm_pushTrap hs))))

/-! ### L2 -/

theorem memForm_modL2 (hs : MemForm s) {sl asid line f} : MemForm (s.modL2 sl asid line f) := hs

theorem memForm_dropL2 (hs : MemForm s) {sl asid line} : MemForm (s.dropL2 sl asid line) := hs

theorem memForm_fillL2 (hs : MemForm s) {p sl asid line seed d bad strm replica} :
    Filled.Form (s.fillL2 p sl asid line seed d bad strm replica) := by
  dsimp only [State.fillL2]
  split
  · exact memForm_memSys (memForm_newId hs)
  · split
    · trivial
    · exact memForm_memSys (memForm_newId (memForm_ite (memForm_writeBack (memForm_dropL2 hs)) (memForm_dropL2 hs)))

theorem memForm_intoL2 (hs : MemForm s) {p sl asid line d bad} : MemForm (s.intoL2 p sl asid line d bad) := by
  dsimp only [State.intoL2]
  split
  · exact memForm_modL2 hs
  · exact memForm_writeBack hs

theorem memForm_touchL2 (hs : MemForm s) {sl asid line strm} : MemForm (s.touchL2 sl asid line strm) :=
  memForm_ite hs (memForm_modL2 (memForm_newId hs))

theorem memForm_touchL1 (hs : MemForm s) {c asid line strm} : MemForm (s.touchL1 c asid line strm) :=
  memForm_ite hs (memForm_modL1 (memForm_newId hs))

/-! ### Installing a line in an L1 (R65, R113, R115, R123) -/

theorem memForm_evictL1 (hs : MemForm s) {p x} : MemForm (s.evictL1 p x) :=
  memForm_memSys (memForm_newId hs)

theorem memForm_fillL1 (hs : MemForm s) {p x strm} : MemForm (s.fillL1 p x strm) := by
  dsimp only [State.fillL1]
  exact memForm_memSys (memForm_newId (memForm_ite hs (by
    split
    · exact memForm_evictL1 hs
    · exact hs)))

/-! ### The sharer list (R111, R113) -/

theorem memForm_unlink (hs : MemForm s) {sl x} : MemForm (s.unlink sl x) := by
  dsimp only [State.unlink]
  refine memForm_ite (memForm_ite (memForm_modL2 hs) (memForm_modL1 hs)) ?_
  exact memForm_modL1 (memForm_ite (memForm_modL2 hs) (memForm_modL1 hs))

/-! ### Recalling every copy at once -/

theorem memForm_takeDirty (hs : MemForm s) {p asid line sl} : MemForm (s.takeDirty p asid line sl) :=
  memForm_foldl (fun ht => memForm_intoL2 ht) hs

theorem memForm_recallL1 (hs : MemForm s) {p asid line sl} : MemForm (s.recallL1 p asid line sl) :=
  memForm_memSys (memForm_takeDirty hs)

theorem memForm_demoteL1 (hs : MemForm s) {p asid line sl} : MemForm (s.demoteL1 p asid line sl) :=
  memForm_memSys (memForm_takeDirty hs)

theorem memForm_flushLine (hs : MemForm s) {p asid line c} : MemForm (s.flushLine p asid line c) :=
  memForm_memSys (memForm_foldl (fun ht => memForm_writeBack ht) (memForm_recallL1 hs))

theorem memForm_discardLine (hs : MemForm s) {asid line} : MemForm (s.discardLine asid line) := hs

/-! ### The current value of device memory (R97) -/

theorem memForm_wakeIa (hs : MemForm s) {p asid ia n} : MemForm (s.wakeIa p asid ia n) :=
  memForm_foldl (fun ht => memForm_ite (memForm_spoilOp ht) (memForm_ite (memForm_finishWait ht) ht)) hs

theorem memForm_retestTcbs (hs : MemForm s) {pl asid ia n home} : MemForm (s.retestTcbs pl asid ia n home) :=
  memForm_ite hs (memForm_state hs)

theorem memForm_wakeAt (hs : MemForm s) {pl asid ia n} : MemForm (s.wakeAt pl asid ia n) := by
  dsimp only [State.wakeAt]
  exact memForm_foldl (fun ht => memForm_ite (memForm_spoilOp ht) (memForm_ite (memForm_finishWait ht) ht))
      (memForm_retestTcbs hs)

theorem memForm_writeAt (hs : MemForm s) {pl asid ia bs bad} : MemForm (s.writeAt pl asid ia bs bad) := by
  dsimp only [State.writeAt]
  split
  · exact memForm_modL1 hs
  · exact memForm_modL2 hs
  · exact memForm_writePaBad hs

theorem memForm_park (hs : MemForm s) {o params} : MemForm (s.park o params) := hs

theorem memForm_register (hs : MemForm s) {o room params} : MemForm (s.register o room params) :=
  memForm_ite (memForm_park hs) (memForm_state hs)

theorem memForm_noteOvf (hs : MemForm s) {o b} : MemForm (s.noteOvf o b) :=
  memForm_ite (memForm_raise hs) hs

theorem memForm_performOne (hs : MemForm s) {pl o} : MemForm (s.performOne pl o) := by
  dsimp only [State.performOne]
  refine memForm_ite (memForm_endOp hs) (memForm_ite (memForm_spoilOp hs)
      (memForm_ite (memForm_register hs) (memForm_ite (memForm_finishAt (memForm_flushGuard hs)) ?_)))
  exact memForm_finishAt (memForm_noteOvf (memForm_orFlags (by
    split
    · exact memForm_writeAt hs
    · exact hs)))

theorem memForm_performAt (hs : MemForm s) {pl o} : MemForm (s.performAt pl o) :=
  memForm_foldl (fun ht => memForm_wakeAt ht) (memForm_foldl (fun ht => memForm_performOne ht) hs)

theorem memForm_performL1 (hs : MemForm s) {c o} : MemForm (s.performL1 c o) :=
  memForm_performAt (memForm_touchL1 hs)

/-! ### Scratch (R54 to R64) -/

theorem memForm_performScratch (hs : MemForm s) {o} : MemForm (s.performScratch o) := by
  dsimp only [State.performScratch]
  refine memForm_ite hs (memForm_ite (memForm_finish (memForm_raise hs)) ?_)
  split
  · exact memForm_ite (memForm_finish (memForm_noteGuards hs)) (memForm_ite (memForm_serveLdfe hs) (memForm_park hs))
  · exact memForm_ite (memForm_spoilOp (memForm_noteGuards hs)) (memForm_ite
        (memForm_finishWait (memForm_noteGuards hs)) (memForm_register (memForm_noteGuards hs)))
  · exact memForm_finish (memForm_fillSpot (memForm_noteGuards hs))
  · refine memForm_ite (memForm_spoilOp (memForm_noteGuards hs)) ?_
    exact memForm_finish (memForm_noteOvf (memForm_orFlags (by
      split
      · exact memForm_writeSpot (memForm_noteGuards hs)
      · exact memForm_noteGuards hs)))

/-! ### Leaving for the home (R66, R74, R113) -/

theorem memForm_sendReq (hs : MemForm s) {o k} : MemForm (s.sendReq o k) :=
  memForm_modOp (memForm_memSys (memForm_newId hs))

theorem memForm_startCached (hs : MemForm s) {o} : MemForm (s.startCached o) := by
  dsimp only [State.startCached]
  split
  · exact memForm_ite (memForm_sendReq hs) (memForm_ite (memForm_performL1 hs) hs)
  · split
    · split
      · exact memForm_ite (memForm_performL1 hs) (memForm_sendReq hs)
      · exact memForm_sendReq hs
    · refine memForm_ite (memForm_sendReq hs) ?_
      split
      · exact memForm_ite (memForm_sendReq hs) (memForm_ite (memForm_performL1 hs) (memForm_sendReq hs))
      · exact memForm_ite (memForm_sendReq (memForm_modCtr hs)) (memForm_sendReq hs)

theorem memForm_startAccess (hs : MemForm s) {o} : MemForm (s.startAccess o) := by
  dsimp only [State.startAccess]
  exact memForm_ite (memForm_finish hs) (memForm_ite (memForm_finish hs)
      (memForm_ite (memForm_startCached hs) (memForm_performScratch hs)))

/-! ### Faults found at a home (R45, R46) -/

theorem memForm_opFault (hs : MemForm s) {o sl cause sub} : MemForm (s.opFault o sl cause sub) := by
  dsimp only [State.opFault]
  refine memForm_ite (memForm_endOp hs) (memForm_ite (memForm_foldl (fun ht => memForm_dropOp ht) (memForm_raise hs))
      (memForm_ite (memForm_foldl (fun ht => memForm_modOp ht) (memForm_memSys (memForm_raise hs))) ?_))
  exact memForm_foldl (fun ht => memForm_finishAt ht) (memForm_raise hs)

/-! ### The memory side (R74, R144, R151, R154, R155) -/

theorem memForm_noteLatency (hs : MemForm s) {p asid} : MemForm (s.noteLatency p asid) :=
  memForm_modPart (memForm_state hs)

theorem memForm_performMem (hs : MemForm s) {o sl pa} : MemForm (s.performMem o sl pa) := by
  dsimp only [State.performMem]
  refine memForm_ite (memForm_foldl (fun ht => memForm_park ht) hs)
      (memForm_ite ?_ (memForm_performAt (memForm_ite (memForm_noteLatency hs) hs)))
  exact memForm_foldl (fun ht => by
    split
    · exact memForm_finishAt (memForm_post ht)
    · exact memForm_ite (memForm_park (memForm_askAt ht)) (memForm_park (memForm_raise ht))
    · exact memForm_park (memForm_askAt ht)) hs

/-! ### Leases (R121, R122) -/

theorem memForm_grantLease (hs : MemForm s) {o} : MemForm (s.grantLease o) :=
  memForm_finish (memForm_modL1 (memForm_touchL1 (memForm_modCtx (memForm_memSys hs))))

theorem memForm_performM (hs : MemForm s) {c o} : MemForm (s.performM c o) :=
  memForm_ite (memForm_grantLease hs) (memForm_performL1 hs)

/-! ### Grants to a cluster (R113) -/

theorem memForm_dropReq (hs : MemForm s) {id} : MemForm (s.dropReq id) := hs

theorem memForm_modReq (hs : MemForm s) {id f} : MemForm (s.modReq id f) := hs

theorem memForm_passReq (hs : MemForm s) {r k sl} : MemForm (s.passReq r k sl) :=
  memForm_ite (memForm_modReq hs) (memForm_memSys hs)

theorem memForm_grantS (hs : MemForm s) {sl r nxt strm} : MemForm (s.grantS sl r nxt strm) :=
  memForm_fillL1 (memForm_modL2 (memForm_ite hs (memForm_modL1 hs)))

theorem memForm_grantOwner (hs : MemForm s) {sl r st strm} : MemForm (s.grantOwner sl r st strm) := by
  dsimp only [State.grantOwner]
  split
  · exact memForm_modL1 (memForm_modL2 hs)
  · exact memForm_fillL1 (memForm_modL2 hs)

/-! ### Transactions (R112 to R116) -/

theorem memForm_openTxn (hs : MemForm s) {sl r w k c} : MemForm (s.openTxn sl r w k c) :=
  memForm_memSys (memForm_dropReq (memForm_newId hs))

theorem memForm_recallVictim (hs : MemForm s) {p v} : MemForm (s.recallVictim p v) :=
  memForm_ite hs (memForm_ite (memForm_openTxn (memForm_newId hs)) (memForm_openTxn (memForm_newId hs)))

theorem memForm_askHost (hs : MemForm s) {sl r pa} : MemForm (s.askHost sl r pa) := by
  dsimp only [State.askHost]
  exact memForm_memSys (by
    split
    · exact memForm_askAt (memForm_dropReq hs)
    · exact memForm_dropReq hs)

theorem brought_ensureL2 (hs : MemForm s) {sl r pa strm replica} : BroughtForm (s.ensureL2 sl r pa strm replica) := by
  dsimp only [State.ensureL2]
  split
  · exact ⟨memForm_touchL2 hs, hs⟩
  · split
    · exact ⟨trivial, hs⟩
    · split
      · exact ⟨trivial, memForm_askHost hs⟩
      · split
        next t ht =>
          have h := (memForm_fillL2 (memForm_noteLatency hs)).at ht
          exact ⟨h, h⟩
        · exact ⟨trivial, memForm_recallVictim hs⟩

theorem brought_copyNear (hs : MemForm s) {near home r strm} : BroughtForm (s.copyNear near home r strm) := by
  dsimp only [State.copyNear]
  split
  · exact ⟨trivial, memForm_demoteL1 hs⟩
  · split
    next t ht =>
      have h := (memForm_fillL2 (memForm_demoteL1 hs)).at ht
      exact ⟨h, h⟩
    · exact ⟨trivial, memForm_recallVictim (memForm_demoteL1 hs)⟩

theorem brought_bringIn (hs : MemForm s) {sl home r pa strm} : BroughtForm (s.bringIn sl home r pa strm) := by
  dsimp only [State.bringIn]
  split
  · exact brought_ensureL2 hs
  · split
    · exact ⟨trivial, hs⟩
    · have h := brought_ensureL2 hs (sl := home) (r := r) (pa := pa) (strm := strm) (replica := false)
      split
      next t ht => exact ⟨trivial, memForm_snd h.2 ht⟩
      next t _ ht => exact brought_copyNear (h.1.at (congrArg Prod.fst ht))

theorem memForm_serveGetS (hs : MemForm s) {sl r o shared} : MemForm (s.serveGetS sl r o shared) := by
  dsimp only [State.serveGetS]
  split
  · exact memForm_performL1 (memForm_dropReq hs)
  · refine memForm_ite (memForm_modReq hs) ?_
    split
    · exact hs
    · split
      · exact memForm_performL1 (memForm_ite (memForm_grantS (memForm_dropReq hs))
            (memForm_grantOwner (memForm_dropReq hs)))
      · exact memForm_performL1 (memForm_grantS (memForm_dropReq hs))
      · exact memForm_openTxn hs

theorem memForm_serveGetM (hs : MemForm s) {sl r o} : MemForm (s.serveGetM sl r o) := by
  dsimp only [State.serveGetM]
  refine memForm_ite (memForm_performM (memForm_dropReq hs)) (memForm_ite (memForm_modReq hs) ?_)
  split
  · exact hs
  · split
    · exact memForm_performM (memForm_grantOwner (memForm_dropReq hs))
    · exact memForm_openTxn hs
    · exact memForm_openTxn hs

theorem memForm_serveL2 (hs : MemForm s) {sl r o} : MemForm (s.serveL2 sl r o) := by
  dsimp only [State.serveL2]
  split
  · exact hs
  · refine memForm_ite (memForm_endOp (memForm_dropReq hs)) (memForm_ite ?_
        (memForm_ite (memForm_openTxn hs) (memForm_performAt (memForm_dropReq hs))))
    split
    · exact memForm_performAt (memForm_dropReq hs)
    · exact memForm_openTxn hs
    · exact memForm_openTxn hs

theorem memForm_serveMem (hs : MemForm s) {sl r o pa} : MemForm (s.serveMem sl r o pa) := by
  dsimp only [State.serveMem]
  split
  · exact memForm_ite (memForm_memSys hs) (memForm_performMem (memForm_flushLine (memForm_dropReq hs)))
  · split
    · exact memForm_ite (memForm_memSys hs) (memForm_performMem (memForm_flushLine (memForm_dropReq hs)))
    · exact memForm_openTxn hs
    · exact memForm_openTxn hs

theorem memForm_serveLeaf (hs : MemForm s) {r o e pa} : MemForm (s.serveLeaf r o e pa) := by
  dsimp only [State.serveLeaf]
  refine memForm_ite (memForm_opFault hs) (memForm_ite (memForm_modReq hs)
      (memForm_ite (memForm_endOp (memForm_dropReq hs))
    (memForm_ite (memForm_passReq hs) (memForm_ite (memForm_passReq hs) (memForm_ite (memForm_serveMem hs) ?_)))))
  generalize hb : s.bringIn _ _ _ _ _ = b
  have h : BroughtForm b := hb ▸ brought_bringIn hs
  obtain ⟨_ | t, u⟩ := b
  · exact h.2
  · dsimp only
    split
    · exact memForm_serveGetS h.1
    · exact memForm_serveGetM h.1
    · exact memForm_serveGetM h.1
    · exact memForm_serveL2 h.1

theorem memForm_serve (hs : MemForm s) {r} : MemForm (s.serve r) := by
  dsimp only [State.serve]
  split
  · exact memForm_dropReq hs
  · split
    · split
      · exact memForm_opFault (memForm_translate hs)
      · exact memForm_serveLeaf (memForm_translate hs)
    · refine memForm_ite ?_ (memForm_ite (memForm_performL1 (memForm_dropReq hs)) hs)
      split
      · exact memForm_opFault (memForm_translate hs)
      · exact memForm_serveLeaf (memForm_translate hs)

/-! ### The end of a transaction -/

theorem memForm_setDI (hs : MemForm s) {sl asid line} : MemForm (s.setDI sl asid line) :=
  memForm_modL2 hs

theorem memForm_closeTxn (hs : MemForm s) {id} : MemForm (s.closeTxn id) := hs

theorem memForm_endWalk (hs : MemForm s) {r} : MemForm (s.endWalk r) := by
  dsimp only [State.endWalk]
  split
  · exact memForm_setDI (memForm_closeTxn hs)
  · split
    · refine memForm_ite (memForm_performM (memForm_grantOwner (memForm_closeTxn hs))) ?_
      exact memForm_performAt (memForm_setDI (memForm_closeTxn hs))
    · refine memForm_ite (memForm_performM (memForm_grantOwner (memForm_closeTxn hs))) ?_
      exact memForm_performAt (memForm_setDI (memForm_closeTxn hs))
    · split
      next t ht => exact memForm_serveMem (memForm_snd (memForm_translate (memForm_setDI (memForm_closeTxn hs))) ht)
      next t ht => exact memForm_opFault (memForm_snd (memForm_translate (memForm_setDI (memForm_closeTxn hs))) ht)
    · exact memForm_performAt (memForm_setDI (memForm_closeTxn hs))

/-! ### Probes at an owner (R113, R115) -/

theorem memForm_yieldCopy (hs : MemForm s) {sl r c keep} : MemForm (s.yieldCopy sl r c keep) := by
  dsimp only [State.yieldCopy]
  split
  · exact hs
  · refine memForm_ite (memForm_modL1 (memForm_ite (memForm_intoL2 hs) hs))
        (memForm_ite (memForm_modL1 (memForm_ite (memForm_intoL2 hs) hs)) ?_)
    exact memForm_dropL1 (memForm_ite (memForm_intoL2 hs) hs)

theorem memForm_serveProbe (hs : MemForm s) {m} : MemForm (s.serveProbe m) := by
  have hc {sl r c shared id} : MemForm ((({ s with mem := { s.mem with cmsgs := s.mem.cmsgs.filter fun x => x.id ≠ m.id
      } } :
      State).yieldCopy sl r c shared).closeTxn id) := memForm_closeTxn (memForm_yieldCopy (memForm_memSys hs))
  dsimp only [State.serveProbe]
  split
  · exact memForm_memSys hs
  · split
    · split
      · exact memForm_ite (memForm_modL2 (memForm_ite hc (memForm_setDI hc))) (memForm_ite hc (memForm_setDI hc))
      · refine memForm_ite (memForm_performL1 (memForm_grantS (memForm_ite hc (memForm_setDI hc)))) ?_
        exact memForm_performAt (memForm_ite (memForm_modL2 (memForm_ite hc (memForm_setDI hc)))
          (memForm_ite hc (memForm_setDI hc)))
    · split
      · exact memForm_ite (memForm_modL2 hc) (memForm_setDI hc)
      · exact memForm_performAt (memForm_ite (memForm_modL2 hc) (memForm_setDI hc))
    · exact memForm_endWalk (memForm_yieldCopy (memForm_memSys hs))

/-! ### Sources (R189, R192) -/

theorem memForm_sendFailed (hs : MemForm s) {fr f fmt} : MemForm (s.sendFailed fr f fmt) :=
  memForm_ite (memForm_out (memForm_ite (memForm_out hs) hs)) (memForm_ite (memForm_out hs) hs)

theorem memForm_mismatch (hs : MemForm s) {fr f fmt} : MemForm (s.mismatch fr f fmt) :=
  memForm_sendFailed (memForm_raise hs)

theorem memForm_sendPoisonTo (hs : MemForm s) {fr f d r} : MemForm (s.sendPoisonTo fr f d r) :=
  memForm_sendTo hs

theorem memForm_sendPoison (hs : MemForm s) {fr f r} : MemForm (s.sendPoison fr f r) :=
  memForm_sendPoisonTo hs

theorem memForm_badTag (hs : MemForm s) {fr f sub r} : MemForm (s.badTag fr f sub r) :=
  memForm_sendTo (memForm_raise hs)

theorem memForm_compute (hs : MemForm s) {f readsC out body} : MemForm (s.compute f readsC out body) := by
  dsimp only [State.compute]
  refine memForm_ite (memForm_sendPoison hs) (memForm_ite (memForm_mismatch hs) ?_)
  split
  · exact memForm_mismatch hs
  · split
    · exact memForm_mismatch hs
    · exact memForm_sendTo (memForm_orFlags hs)

theorem memForm_each1 (hs : MemForm s) {f out g} : MemForm (s.each1 f out g) :=
  memForm_compute hs

theorem memForm_each2 (hs : MemForm s) {f out g} : MemForm (s.each2 f out g) :=
  memForm_compute hs

theorem memForm_each3 (hs : MemForm s) {f out g} : MemForm (s.each3 f out g) :=
  memForm_compute hs

theorem memForm_eachOwn (hs : MemForm s) {f out g} : MemForm (s.eachOwn f out g) :=
  memForm_compute hs

theorem memForm_present (hs : MemForm s) {fr f op as piece} : MemForm (s.present fr f op as piece).2 := hs

/-! ### Releases (R104, R107, R153, R160) -/

theorem memForm_flushRead (hs : MemForm s) {o} : MemForm (s.flushRead o) :=
  memForm_modOp hs

theorem memForm_startPiece (hs : MemForm s) {o} : MemForm (s.startPiece o) := by
  dsimp only [State.startPiece]
  refine memForm_ite (memForm_foldl (fun ht => memForm_ite ht (memForm_modOp ht)) (memForm_startCached hs)) ?_
  exact memForm_foldl (fun ht => memForm_wakeSpot ht) (memForm_foldl (fun ht => memForm_startAccess ht) hs)

theorem memForm_launchOp (hs : MemForm s) {o} : MemForm (s.launchOp o) :=
  memForm_ite hs (memForm_ite hs (memForm_startPiece hs))

theorem memForm_launchOps (hs : MemForm s) {os} : MemForm (s.launchOps os) :=
  memForm_foldl (fun ht => memForm_launchOp ht) hs

/-! ### The issuer's checks (R35, R54, R192, R247, R401) -/

theorem memForm_poisonRecords (hs : MemForm s) {fr js} : MemForm (s.poisonRecords fr js) :=
  memForm_foldl (fun ht => memForm_raise ht) hs

theorem memForm_formatRecord (hs : MemForm s) {fr f} : MemForm (s.formatRecord fr f) :=
  memForm_raise hs

theorem memForm_checkAsk (hs : MemForm s) {fr j need a} : MemForm (s.checkAsk fr j need a).2 := by
  dsimp only [State.checkAsk]
  refine memForm_ite_snd hs ?_
  split
  · exact hs
  · exact memForm_raise hs

theorem memForm_checkAsks (hs : MemForm s) {fr need x2 x3} : MemForm (s.checkAsks fr need x2 x3).2 := by
  induction x3 generalizing s x2 with
  | nil => exact hs
  | cons a as ih =>
    dsimp only [State.checkAsks]
    exact ih (memForm_checkAsk hs)

/-! ### Lease bodies (R128) -/

theorem memForm_memWord (hs : MemForm s) {f op readsC records need shape fill piece} :
    MemForm (s.memWord f op readsC records need shape fill piece) := by
  dsimp only [State.memWord]
  exact memForm_launchOps (memForm_present (memForm_ite_snd (memForm_poisonRecords hs)
      (memForm_ite_snd (memForm_formatRecord hs) (by
    split
    · exact memForm_formatRecord hs
    · exact memForm_checkAsks hs))))

theorem memForm_execPref (hs : MemForm s) {f} : ResultForm (execPref f s) := by
  dsimp only [execPref]
  split
  · exact memForm_poisonRecords hs
  · split
    · exact memForm_formatRecord hs
    · exact memForm_launchOps (memForm_present hs)

/-! ### Atomics and counters (R132 to R141) -/

theorem memForm_amoWord (hs : MemForm s) {f op o} : MemForm (s.amoWord f op o) :=
  memForm_memWord hs

theorem memForm_decreases (hs : MemForm s) {fr f} : MemForm (s.decreases fr f) := by
  dsimp only [State.decreases]
  refine memForm_ite hs ?_
  split
  · exact hs
  · exact memForm_foldl (fun ht => memForm_ite (memForm_raise ht) ht) hs

/-! ### Places in the chain, ranges and leases (R83, R118 to R120, R249, R251, R253) -/

theorem memForm_triggerWord (hs : MemForm s) {f op kind mute} : MemForm (s.triggerWord f op kind mute) :=
  memForm_present (memForm_ite (memForm_formatRecord hs) hs)

theorem memForm_rangeWord (hs : MemForm s) {f op kind} : MemForm (s.rangeWord f op kind) := by
  dsimp only [State.rangeWord]
  exact memForm_present (memForm_ite_snd (memForm_poisonRecords hs) (memForm_ite_snd (memForm_formatRecord hs) (by
    split
    · exact memForm_formatRecord hs
    · exact memForm_foldl_snd (fun ht => memForm_ite_snd ht (by
        split
        · exact ht
        · exact memForm_raise ht)) hs)))

/-! ### Scratch ways (R58) -/

theorem memForm_evictWays (hs : MemForm s) {p c n} : MemForm (s.evictWays p c n) :=
  memForm_foldl (fun ht => memForm_evictL1 ht) hs

theorem memForm_setMask (hs : MemForm s) {c m} : MemForm (s.setMask c m) :=
  memForm_memSys (memForm_ite (memForm_wipeSpot hs) (memForm_wipeSpot hs))

theorem memForm_writeMask (hs : MemForm s) {p c v op} : WayOutcome.Form (s.writeMask p c v op) := by
  dsimp only [State.writeMask]
  split
  · trivial
  · split
    · trivial
    · split
      · exact hs
      · split
        · split
          · trivial
          · exact memForm_setMask hs
        · split
          · exact memForm_memSys (memForm_evictWays hs)
          · exact memForm_setMask (memForm_evictWays hs)

theorem memForm_finishMask (hs : MemForm s) {o ok} : MemForm (s.finishMask o ok) :=
  memForm_finish hs

theorem memForm_growOn (hs : MemForm s) {p c} : MemForm (s.growOn p c) := by
  dsimp only [State.growOn]
  split
  · exact hs
  · refine memForm_ite (memForm_evictWays hs) ?_
    split
    · exact memForm_finishMask (memForm_setMask (memForm_memSys (memForm_evictWays hs)))
    · exact memForm_setMask (memForm_memSys (memForm_evictWays hs))

/-! ### The end of a lease (R125, R130) -/

theorem memForm_endLease (hs : MemForm s) {e byExpiry} : MemForm (s.endLease e byExpiry) := by
  unfold State.endLease
  extract_lets _ s1 s2 _ s3 set s4
  have h1 : MemForm s1 := memForm_memSys hs
  have h2 : MemForm s2 := memForm_ite h1 (memForm_modCtx (memForm_modCtr h1))
  have h3 : MemForm s3 := by
    unfold s3
    split
    · exact memForm_ite (memForm_memSys h2) (memForm_serveProbe h2)
    · exact h2
  have h4 : MemForm s4 := by
    refine memForm_ite h3 ?_
    split
    · exact memForm_evictL1 h3
    · exact h3
  exact memForm_growOn h4

theorem memForm_leaseFault (hs : MemForm s) {o sub} : MemForm (s.leaseFault o sub) :=
  memForm_raise hs

theorem memForm_expiryRecord (hs : MemForm s) {o names} : MemForm (s.expiryRecord o names) :=
  memForm_raise hs

theorem memForm_unlease (hs : MemForm s) {o} : MemForm (s.unlease o) := by
  dsimp only [State.unlease]
  split
  · exact memForm_finish hs
  · refine memForm_ite (memForm_finish (memForm_leaseFault hs))
      (memForm_finish (memForm_ite (memForm_expiryRecord (memForm_modCtx ?_)) (memForm_modCtx ?_)))
    all_goals
      split
      · exact memForm_endLease hs
      · exact hs

/-! ### The grant (R121, R122, R129) -/

theorem memForm_tryLease (hs : MemForm s) {o} : MemForm (s.tryLease o) := by
  dsimp only [State.tryLease]
  split
  · exact hs
  · refine memForm_ite (memForm_finish hs) (memForm_ite (memForm_finish (memForm_leaseFault hs))
        (memForm_ite (memForm_finish (memForm_leaseFault hs)) (memForm_ite hs ?_)))
    split
    · exact memForm_ite (memForm_grantLease hs) (memForm_sendReq hs)
    · exact memForm_sendReq hs

/-! ### One access at a home, performed whole (R74, R113, R117) -/

theorem memForm_fillNow (hs : MemForm s) {p sl asid line seed pa} : OptionForm (s.fillNow p sl asid line seed pa) := by
  dsimp only [State.fillNow]
  split
  · exact memForm_touchL2 hs
  · split
    next t ht => exact (memForm_fillL2 (memForm_noteLatency hs)).at ht
    · split
      · trivial
      · split
        next t ht => exact (memForm_fillL2 (memForm_noteLatency (memForm_recallL1 hs))).at ht
        · trivial

theorem memForm_replicaNow (hs : MemForm s) {p near home asid line seed} :
    OptionForm (s.replicaNow p near home asid line seed) := by
  dsimp only [State.replicaNow]
  split
  · exact memForm_touchL2 hs
  · trivial
  · split
    next t ht => exact (memForm_fillL2 hs).at ht
    · split
      · trivial
      · split
        next t ht => exact (memForm_fillL2 (memForm_recallL1 hs)).at ht
        · trivial

theorem memForm_homeAt (hs : MemForm s) {p asid ia seed need who near} :
    Now.Form (s.homeAt p asid ia seed need who near) := by
  dsimp only [State.homeAt]
  split
  · trivial
  · split
    · exact memForm_translate hs
    · split
      · exact memForm_translate hs
      · split
        · trivial
        · split
          · trivial
          · split
            · refine memForm_ite (memForm_noteLatency (memForm_flushLine (memForm_translate hs))) ?_
              exact memForm_flushLine (memForm_translate hs)
            · split
              · trivial
              next t ht =>
                split
                · exact (memForm_fillNow (memForm_ite (memForm_recallL1 (memForm_translate hs))
                      (memForm_demoteL1 (memForm_translate hs)))).at ht
                · split
                  · split
                    next u hu =>
                      exact (memForm_replicaNow ((memForm_fillNow (memForm_ite (memForm_recallL1 (memForm_translate hs))
                          (memForm_demoteL1 (memForm_translate hs)))).at ht)).at hu
                    · trivial
                  · exact (memForm_fillNow (memForm_ite (memForm_recallL1 (memForm_translate hs))
                        (memForm_demoteL1 (memForm_translate hs)))).at ht

theorem memForm_homeNow (hs : MemForm s) {p asid ia seed need who near} :
    Now.Form (s.homeNow p asid ia seed need who near) := by
  dsimp only [State.homeNow]
  split
  · exact memForm_homeAt hs
  · split
    next t ht => exact memForm_snd (memForm_translate hs) ht
    next t ht =>
      split
      · exact memForm_touchL2 (memForm_snd (memForm_translate hs) ht)
      · exact memForm_homeAt (memForm_snd (memForm_translate hs) ht)

/-! ### Accesses that leave the device (R144, R151) -/

theorem memForm_sendOutside (hs : MemForm s) {p asid sl who x pa} : MemForm (s.sendOutside p asid sl who x pa) := by
  dsimp only [State.sendOutside]
  refine memForm_ite (memForm_post (memForm_newId hs)) ?_
  exact memForm_state (memForm_ite (memForm_raise (memForm_ite (memForm_askAt (memForm_newId hs)) (memForm_newId hs)))
      (memForm_ite (memForm_askAt (memForm_newId hs)) (memForm_newId hs)))

theorem memForm_dropAsks (hs : MemForm s) {k} : MemForm (s.dropAsks k) := hs

theorem memForm_farRead (hs : MemForm s) {p asid sl ia k pa n} : Far.Form (s.farRead p asid sl ia k pa n) := by
  dsimp only [State.farRead]
  split
  · exact memForm_foldl (fun ht => memForm_sendOutside ht) hs
  · split <;> trivial

theorem memForm_readLines (hs : MemForm s) {p asid seed need who k x6 x7} :
    ReadNow.Form (s.readLines p asid seed need who k x6 x7) := by
  induction x6 generalizing s x7 with
  | nil => exact hs
  | cons x r ih =>
    obtain ⟨a, n⟩ := x
    dsimp only [State.readLines]
    split
    · exact hs
    next t ht => exact (memForm_homeNow hs).at ht
    next t ht =>
      split
      · split
        next u hu => exact (memForm_farRead ((memForm_homeNow hs).at ht)).at hu
        · exact (memForm_homeNow hs).at ht
        · exact ih ((memForm_homeNow hs).at ht)
      · split
        · exact (memForm_homeNow hs).at ht
        · exact ih ((memForm_homeNow hs).at ht)

theorem memForm_readNow (hs : MemForm s) {p asid ia n seed need who k} :
    ReadNow.Form (s.readNow p asid ia n seed need who k) := by
  dsimp only [State.readNow]
  split
  next t ht => exact (memForm_readLines hs).at ht
  next t ht => exact memForm_dropAsks ((memForm_readLines hs).at ht)
  next t ht => exact memForm_dropAsks ((memForm_readLines hs).at ht)

theorem memForm_writeNow (hs : MemForm s) {pl asid ia bs bad} : MemForm (s.writeNow pl asid ia bs bad) :=
  memForm_wakeAt (memForm_writeAt hs)

/-! ### Turns for a line (R112) -/

theorem memForm_joinLine (hs : MemForm s) {p asid ia seed who write} : MemForm (s.joinLine p asid ia seed who write) :=
  memForm_ite (memForm_memSys hs) (memForm_memSys (memForm_newId hs))

theorem memForm_leaveLine (hs : MemForm s) {who} : MemForm (s.leaveLine who) := hs

/-! ### Operations and pieces -/

theorem memForm_modEng (hs : MemForm s) {id f} : MemForm (s.modEng id f) := hs

theorem memForm_dropEng (hs : MemForm s) {id} : MemForm (s.dropEng id) := hs

theorem memForm_pieceDone (hs : MemForm s) {e x d bad} : MemForm (s.pieceDone e x d bad) :=
  memForm_ite (memForm_modEng hs) (memForm_state hs)

theorem memForm_pieceFault (hs : MemForm s) {e x unit cause sub} : MemForm (s.pieceFault e x unit cause sub) :=
  memForm_ite (memForm_state (memForm_raise hs)) (memForm_pieceDone (memForm_modEng (memForm_raise hs)))

theorem memForm_addFault (hs : MemForm s) {e at' unit addr cause sub} :
    MemForm (s.addFault e at' unit addr cause sub) :=
  memForm_ite (memForm_state (memForm_raise hs)) (memForm_raise hs)

theorem memForm_pieceSpoiled (hs : MemForm s) {e x unit d} : MemForm (s.pieceSpoiled e x unit d) :=
  memForm_ite (memForm_pieceDone hs) (memForm_pieceDone (memForm_modEng (memForm_ite (memForm_raise hs) hs)))

theorem memForm_writeSome (hs : MemForm s) {x bs} : MemForm (s.writeSome x bs) := by
  induction bs generalizing s x with
  | nil => exact hs
  | cons b bs ih =>
    cases b with
    | none => exact ih hs
    | some v => exact ih (memForm_writeSpot hs)

theorem memForm_engFill (hs : MemForm s) {e x sp bs bad} : MemForm (s.engFill e x sp bs bad) := by
  dsimp only [State.engFill]
  refine memForm_ite hs (memForm_ite (memForm_noteGuards hs) ?_)
  exact memForm_releaseFull (memForm_wakeSpot (memForm_setFull (memForm_spoil (memForm_writeSome hs))))

theorem memForm_scratchPiece (hs : MemForm s) {e x} : MemForm (s.scratchPiece e x) := by
  dsimp only [State.scratchPiece]
  refine memForm_ite hs (memForm_ite (memForm_pieceFault hs) (memForm_ite (memForm_pieceDone (memForm_engFill hs))
      (memForm_ite (memForm_pieceSpoiled (memForm_noteGuards hs)) ?_)))
  exact memForm_pieceDone (memForm_noteGuards hs)

theorem memForm_pieceOut (hs : MemForm s) {e x pa} : MemForm (s.pieceOut e x pa) :=
  memForm_modEng (memForm_ite (memForm_askAt hs) hs)

theorem memForm_shadowPiece (hs : MemForm s) {e x h who} : MemForm (s.shadowPiece e x h who) := by
  dsimp only [State.shadowPiece]
  refine memForm_ite (memForm_pieceFault hs) ?_
  split
  · exact memForm_pieceFault hs
  · exact memForm_ite (memForm_pieceFault hs) (memForm_ite hs (memForm_ite (memForm_pieceOut hs)
        (memForm_ite (memForm_pieceDone (memForm_post hs)) (memForm_pieceDone (memForm_writePaBad hs)))))

theorem memForm_fork (hs : MemForm s) {e x d bad} : MemForm (s.fork e x d bad) :=
  memForm_ite hs (memForm_state hs)

theorem memForm_placedPiece (hs : MemForm s) {e x pl home} : MemForm (s.placedPiece e x pl home) := by
  dsimp only [State.placedPiece]
  split
  · exact memForm_ite (memForm_pieceDone (memForm_post hs)) (memForm_pieceOut hs)
  · exact memForm_ite (memForm_pieceDone (memForm_writeNow hs)) (memForm_ite (memForm_fork (memForm_pieceSpoiled hs))
        (memForm_fork (memForm_pieceDone hs)))

theorem memForm_devicePiece (hs : MemForm s) {e x who} : MemForm (s.devicePiece e x who) := by
  dsimp only [State.devicePiece]
  refine memForm_ite (memForm_joinLine hs) ?_
  split
  · exact memForm_joinLine (memForm_ite (memForm_flushLine hs) hs)
  next t ht =>
    exact memForm_pieceFault (memForm_leaveLine ((memForm_homeNow (memForm_ite (memForm_flushLine hs) hs)).at ht))
  next t ht =>
    exact memForm_placedPiece (memForm_leaveLine ((memForm_homeNow (memForm_ite (memForm_flushLine hs) hs)).at ht))

theorem memForm_splicePiece (hs : MemForm s) {e x who} : MemForm (s.splicePiece e x who) := by
  dsimp only [State.splicePiece]
  exact memForm_ite (memForm_ite hs (memForm_devicePiece hs)) (memForm_ite (memForm_pieceOut hs)
      (memForm_ite (memForm_pieceDone (memForm_post hs)) (memForm_pieceDone (memForm_writePaBad hs))))

theorem memForm_bankPiece (hs : MemForm s) {e x} : MemForm (s.bankPiece e x) := by
  dsimp only [State.bankPiece]
  split
  next t ht => exact memForm_pieceFault (memForm_snd (memForm_translate hs) ht)
  next t ht =>
    refine memForm_ite (memForm_pieceFault (memForm_snd (memForm_translate hs) ht))
        (memForm_ite (memForm_pieceSpoiled (memForm_snd (memForm_translate hs) ht)) ?_)
    exact memForm_pieceDone (memForm_snd (memForm_translate hs) ht)

theorem memForm_performPiece (hs : MemForm s) {e x who} : MemForm (s.performPiece e x who) := by
  dsimp only [State.performPiece]
  refine memForm_ite hs (memForm_ite (memForm_splicePiece hs) (memForm_ite (memForm_bankPiece hs)
      (memForm_ite (memForm_scratchPiece hs) ?_)))
  split
  · exact memForm_shadowPiece hs
  · exact memForm_devicePiece hs

theorem memForm_answerPiece (hs : MemForm s) {e v refused} : MemForm (s.answerPiece e v refused) := by
  dsimp only [State.answerPiece]
  split
  · exact hs
  · split
    · exact memForm_pieceFault hs
    · exact memForm_ite (memForm_pieceDone hs) (memForm_ite (memForm_pieceDone (memForm_modEng hs)) (memForm_modEng hs))

/-! ### The completion add (R133, R161, R170) -/

theorem memForm_ctrAddNow (hs : MemForm s) {p asid seed w cluster lv addr n who} :
    AddNow.Form (s.ctrAddNow p asid seed w cluster lv addr n who) := by
  dsimp only [State.ctrAddNow]
  split
  · split
    · exact memForm_ite (memForm_joinLine hs) hs
    · split
      · exact memForm_ite (memForm_joinLine hs) hs
      next t ht =>
        have h := (memForm_homeNow hs).at ht
        exact memForm_ite (memForm_leaveLine h) h
      next pl t ht =>
        have h := (memForm_homeNow hs).at ht
        have hl : MemForm (if who.isSome then t.leaveLine (who.getD (.piece 0 0)) else t) := memForm_ite
            (memForm_leaveLine h) h
        generalize (if who.isSome = true then t.leaveLine (who.getD (.piece 0 0)) else t) = u at hl ⊢
        split
        · exact memForm_sendOutside hl
        · split
          · exact hl
          · exact memForm_writeNow (memForm_ite (memForm_raise hl) hl)
  · split
    · exact hs
    · split
      · exact hs
      · split
        · exact hs
        · exact memForm_wakeSpot (memForm_writeSpot (memForm_ite (memForm_raise (memForm_noteGuards hs))
              (memForm_noteGuards hs)))

theorem memForm_answerPoison (hs : MemForm s) {a} : MemForm (s.answerPoison a) := hs

theorem memForm_complete (hs : MemForm s) {who c} : MemForm (s.complete who c) := by
  dsimp only [State.complete]
  split
  · exact memForm_state hs
  · exact hs

theorem memForm_answer (hs : MemForm s) {v} : MemForm (s.answer v) := hs

theorem memForm_outsideAt (hs : MemForm s) {p asid ia who x pl} : MemForm (s.outsideAt p asid ia who x pl) := by
  dsimp only [State.outsideAt]
  split
  · exact memForm_sendOutside hs
  · refine memForm_ite (memForm_complete (memForm_answerPoison hs)) ?_
    exact memForm_complete (memForm_answer (memForm_ite hs (memForm_writeNow hs)))

theorem memForm_queueOutside (hs : MemForm s) {p asid ia who x} : MemForm (s.queueOutside p asid ia who x) :=
  memForm_memSys (memForm_newId (memForm_newId hs))

theorem memForm_outsideAccess (hs : MemForm s) {p asid ia who x} : MemForm (s.outsideAccess p asid ia who x) := by
  dsimp only [State.outsideAccess]
  refine memForm_ite (memForm_queueOutside hs) ?_
  split
  · exact memForm_queueOutside hs
  next t ht => exact memForm_complete hs
  next t ht => exact memForm_outsideAt ((memForm_homeNow hs).at ht)

theorem memForm_dropOut (hs : MemForm s) {id} : MemForm (s.dropOut id) := hs

theorem memForm_serveOutside (hs : MemForm s) {r id} : MemForm (s.serveOutside r id) := by
  dsimp only [State.serveOutside]
  split
  · exact memForm_dropReq hs
  · split
    · exact hs
    next t ht => exact memForm_complete (memForm_dropOut (memForm_dropReq ((memForm_homeNow hs).at ht)))
    next t ht => exact memForm_outsideAt (memForm_dropOut (memForm_dropReq ((memForm_homeNow hs).at ht)))

theorem memForm_gotOut (hs : MemForm s) {id sub v} : MemForm (s.gotOut id sub v) := hs

theorem memForm_answerOut (hs : MemForm s) {q v} : MemForm (s.answerOut q v) := by
  dsimp only [State.answerOut]
  refine memForm_ite (memForm_gotOut hs) ?_
  split
  · exact memForm_complete (memForm_answer (memForm_dropOut hs))
  · exact memForm_ite (memForm_raise (memForm_dropOut hs)) (memForm_dropOut hs)

theorem memForm_refuseOut (hs : MemForm s) {q sub} : MemForm (s.refuseOut q sub) := by
  dsimp only [State.refuseOut]
  refine memForm_ite (memForm_gotOut hs) ?_
  split
  · exact memForm_complete (memForm_dropOut hs)
  · exact memForm_raise (memForm_dropOut hs)

/-! ### The mailbox and the handle table (R436, R449) -/

theorem memForm_submitted (hs : MemForm s) {p q code ws} : MemForm (s.submitted p q code ws).2 :=
  memForm_setPart hs

theorem memForm_recordAt (hs : MemForm s) {pa} : MemForm (s.recordAt pa).2 :=
  memForm_ite_snd (memForm_state hs) hs

theorem memForm_execLaunchSubmit (hs : MemForm s) {p q v} : ResultForm (execLaunchSubmit p q v s) := by
  dsimp only [execLaunchSubmit]
  split
  · exact hs
  · exact memForm_state (memForm_submitted (memForm_ite_snd hs (memForm_recordAt hs)))

theorem memForm_spawn (hs : MemForm s) {id x q va} : MemForm (s.spawn id x q va).2 := by
  dsimp only [State.spawn]
  refine memForm_ite_snd (memForm_submitted hs) ?_
  split
  · exact memForm_submitted hs
  · split
    next t ht => exact (memForm_readNow hs).at ht
    next t ht => exact memForm_submitted ((memForm_readNow hs).at ht)
    next t ht => exact memForm_submitted ((memForm_readNow hs).at ht)

theorem memForm_latch (hs : MemForm s) {f} : MemForm (s.latch f) :=
  memForm_ite (memForm_state hs) (memForm_modElem (memForm_state hs))

theorem memForm_illegalWord (hs : MemForm s) : MemForm (illegalWord s) :=
  memForm_raise hs

/-! ### The pool (R77, R177, R182) -/

theorem memForm_pickCtx (hs : MemForm s) {p} : MemForm (s.pickCtx p).2 := memForm_draw (n := 4096) hs

theorem memForm_takeStreams (hs : MemForm s) {p lsec c} : MemForm (s.takeStreams p lsec c) := hs

theorem memForm_pickHome (hs : MemForm s) {p cs} : MemForm (s.pickHome p cs).2 := by
  dsimp only [State.pickHome]
  split
  · exact hs
  · exact memForm_draw (n := (cs.filter fun c => s.chainSlot p c).length) hs

theorem memForm_keepGuard (hs : MemForm s) {p c} : MemForm (s.keepGuard p c) := by
  dsimp only [State.keepGuard]
  split
  · exact hs
  · split
    · exact hs
    · exact memForm_ite hs (memForm_modCtx hs)

theorem memForm_freeCtx (hs : MemForm s) {p c} : MemForm (s.freeCtx p c) :=
  memForm_state (memForm_keepGuard hs)

/-! ### CTXNEW (R226) -/

theorem memForm_waitFiring (hs : MemForm s) {fr} : MemForm (s.waitFiring fr) :=
  memForm_state (memForm_modElem hs)

theorem memForm_newCtx (hs : MemForm s) {x} : MemForm (s.newCtx x).2 := by
  dsimp only [State.newCtx]
  refine memForm_ite_snd hs ?_
  split
  next t ht => exact hs
  next t ht =>
    split
    · exact hs
    · exact memForm_takeStreams (memForm_modCtx (memForm_state (memForm_ite_snd (memForm_snd (memForm_pickCtx hs) ht)
          (memForm_pickHome (memForm_snd (memForm_pickCtx hs) ht)))))

theorem memForm_newCtxs (hs : MemForm s) {x0 wave x2 x3} : MemForm (s.newCtxs x0 wave x2 x3).2 := by
  induction x2 generalizing s x3 with
  | zero => exact hs
  | succ n ih =>
    dsimp only [State.newCtxs]
    split
    next t ht => exact memForm_snd (memForm_newCtx hs) ht
    next t ht => exact ih (memForm_snd (memForm_newCtx hs) ht)

theorem memForm_execCtxnew (hs : MemForm s) {f} : ResultForm (execCtxnew f s) := by
  dsimp only [execCtxnew]
  split
  · exact memForm_sendTo hs
  · split
    · exact hs
    · generalize hn : s.newCtxs _ _ _ _ = p
      have hp : MemForm p.2 := hn ▸ memForm_newCtxs hs
      split
      · exact memForm_waitFiring hp
      · exact memForm_sendTo hp

/-! ### CTXSEND and CTXRET (R227, R229, R230) -/

theorem memForm_sendAcross (hs : MemForm s) {w cluster da lk0 lk1 t} : MemForm (s.sendAcross w cluster da lk0 lk1 t) :=
  memForm_ite (memForm_sendLink (memForm_ite (memForm_sendLink hs) hs)) (memForm_ite (memForm_sendLink hs) hs)

theorem memForm_sendLater (hs : MemForm s) {fr da t} : MemForm (s.sendLater fr da t) :=
  memForm_state (memForm_newId hs)

theorem memForm_runSend (hs : MemForm s) {o} : MemForm (s.runSend o) := by
  dsimp only [State.runSend]
  split
  · exact memForm_sendAcross (memForm_endOp hs)
  · exact memForm_endOp hs

theorem memForm_acrossAll (hs : MemForm s) {fr da a b ret now x} : MemForm (s.acrossAll fr da a b ret now x) := by
  induction x generalizing s with
  | nil => exact hs
  | cons y r ih =>
    dsimp only [State.acrossAll]
    exact ih (by
      split
      · exact memForm_raise hs
      · exact memForm_ite (memForm_sendAcross hs) (memForm_sendLater hs))

theorem memForm_across (hs : MemForm s) {f ret} : MemForm (s.across f ret) := by
  dsimp only [State.across]
  split
  · exact memForm_ite hs (memForm_ite (memForm_ite (memForm_sendFailed hs) (memForm_mismatch hs))
        (memForm_acrossAll hs))
  · exact hs

/-! ### CTXFREE (R228, R229) -/

theorem memForm_freeAll (hs : MemForm s) {fr l} : MemForm (s.freeAll fr l) := by
  induction l generalizing s with
  | nil => exact hs
  | cons x l ih =>
    obtain ⟨j, c, e⟩ := x
    cases e with
    | none => exact ih (memForm_freeCtx hs)
    | some t => exact ih (memForm_raise hs)

theorem memForm_execCtxfree (hs : MemForm s) {f} : ResultForm (execCtxfree f s) := by
  dsimp only [execCtxfree]
  split
  · exact hs
  · split
    · exact memForm_sendTo hs
    · split
      · exact memForm_mismatch hs
      · split
        · exact memForm_sendAcross (memForm_freeAll hs)
        · exact memForm_waitFiring hs

/-! ### Presenting commands (R255) -/

theorem memForm_command (hs : MemForm s) {f op fmtOk shape check} (hcheck : CheckKeeps check) :
    MemForm (s.command f op fmtOk shape check) := by
  dsimp only [State.command]
  exact memForm_present (by
    split
    · exact memForm_poisonRecords hs
    · split
      · exact memForm_formatRecord hs
      · split
        · exact memForm_formatRecord hs
        next g => exact memForm_foldl_snd (fun ht => hcheck g rfl ht) hs)

theorem memForm_afterLate (hs : MemForm s) {o rs go} (hgo : MemForm go) : MemForm (s.afterLate o rs go) := by
  dsimp only [State.afterLate]
  split
  · exact hgo
  · exact hs
  · exact memForm_refuse hs

theorem memForm_stopAsk (hs : MemForm s) {fr j a t} : MemForm (s.stopAsk fr j a t).2 :=
  memForm_raise hs

/-! ### COPY, COPY2D and COPYM (R256 to R258) -/

theorem memForm_checkCopy (hs : MemForm s) {fr twoD j a} : MemForm (s.checkCopy fr twoD j a).2 := by
  dsimp only [State.checkCopy]
  split
  · exact hs
  · exact memForm_stopAsk hs

theorem memForm_checkCopym (hs : MemForm s) {fr j a} : MemForm (s.checkCopym fr j a).2 := by
  dsimp only [State.checkCopym]
  split
  · exact memForm_stopAsk hs
  · exact memForm_ite_snd (memForm_stopAsk hs) hs

theorem memForm_addEng (hs : MemForm s) {e} : MemForm (s.addEng e) :=
  memForm_ite hs (memForm_state hs)

theorem memForm_startCopy (hs : MemForm s) {o} : MemForm (s.startCopy o) := by
  dsimp only [State.startCopy]
  refine memForm_ite hs ?_
  split
  · exact memForm_afterLate hs (memForm_finish (memForm_addEng (memForm_newId hs)))
  · exact memForm_finish hs

theorem memForm_startPart (hs : MemForm s) {o k n src c} : MemForm (s.startPart o k n src c) := by
  dsimp only [State.startPart]
  exact memForm_ite (memForm_raise hs) (memForm_ite (memForm_raise hs)
      (memForm_ite (memForm_raise hs) (memForm_addEng (memForm_newId hs))))

theorem memForm_startCopym (hs : MemForm s) {o} : MemForm (s.startCopym o) := by
  dsimp only [State.startCopym]
  refine memForm_ite hs ?_
  split
  · exact memForm_ite hs (memForm_afterLate hs (memForm_finish (memForm_foldl (fun ht => memForm_startPart ht) hs)))
  · exact memForm_finish hs

/-! ### FESET and FECLR (R260) -/

theorem memForm_checkFe (hs : MemForm s) {fr ns j a} : MemForm (s.checkFe fr ns j a).2 :=
  memForm_ite_snd (memForm_stopAsk hs) (memForm_ite_snd (memForm_stopAsk hs) hs)

theorem memForm_feWord (hs : MemForm s) {f op kind} : MemForm (s.feWord f op kind) :=
  memForm_command hs (checkKeeps_map fun ht => memForm_checkFe ht)

theorem memForm_runFe (hs : MemForm s) {o v} : MemForm (s.runFe o v) :=
  memForm_afterLate hs (memForm_finish (memForm_foldl (fun ht => memForm_ite (memForm_noteGuard ht)
    (memForm_ite (memForm_releaseFull (memForm_setFull ht)) (memForm_setFull ht))) hs))

/-! ### SHADOW and PUBLISH (R165, R261, R262) -/

theorem memForm_execShadow (hs : MemForm s) {f} : ResultForm (execShadow f s) := by
  dsimp only [execShadow]
  exact memForm_command hs (checkKeeps_some fun ht => by
    split
    · exact ht
    · exact memForm_stopAsk ht
    · exact memForm_ite_snd ht (memForm_stopAsk ht))

theorem memForm_execPublish (hs : MemForm s) {f} : ResultForm (execPublish f s) := by
  dsimp only [execPublish]
  exact memForm_command hs (checkKeeps_some fun ht => by
    split
    · exact ht
    · exact memForm_stopAsk ht)

theorem memForm_flushRange (hs : MemForm s) {p asid ia n} : MemForm (s.flushRange p asid ia n) :=
  memForm_foldl (fun ht => memForm_flushLine ht) hs

theorem memForm_runShadow (hs : MemForm s) {o drop} : MemForm (s.runShadow o drop) := by
  dsimp only [State.runShadow]
  exact memForm_ite (memForm_finish hs) (memForm_ite hs (memForm_finish
      (memForm_modPart (memForm_flushRange (memForm_flushRange hs)))))

theorem memForm_runPublish (hs : MemForm s) {o} : MemForm (s.runPublish o) :=
  memForm_ite (memForm_park hs) (memForm_refuse hs)

theorem memForm_swapLeaves (hs : MemForm s) {x} : MemForm (s.swapLeaves x) := by
  induction x generalizing s with
  | nil => exact hs
  | cons x r ih =>
    obtain ⟨x'1, y⟩ := x
    dsimp only [State.swapLeaves]
    exact ih (memForm_writePa (memForm_writePa hs))

theorem memForm_dropXlat (hs : MemForm s) {asid ia n} : MemForm (s.dropXlat asid ia n) := hs

theorem memForm_execPublishPoint (hs : MemForm s) : ResultForm (execPublishPoint s) := by
  dsimp only [execPublishPoint]
  split
  · exact hs
  · split
    · exact hs
    · split
      · split
        · exact memForm_refuse hs
        · exact hs
      · split
        · exact hs
        · split
          · split
            · exact hs
            · exact memForm_finish (memForm_wakeIa (memForm_dropXlat
                  (memForm_dropXlat (memForm_swapLeaves (memForm_flushRange hs)))))
          · exact memForm_refuse hs

/-! ### WAYMASK, ALLOC and FREE (R263, R264) -/

theorem memForm_execWaymask (hs : MemForm s) {f} : ResultForm (execWaymask f s) :=
  memForm_command hs (checkKeeps_some fun ht => memForm_ite_snd ht (memForm_ite_snd (memForm_stopAsk ht) ht))

theorem memForm_runWaymask (hs : MemForm s) {o} : MemForm (s.runWaymask o) := by
  dsimp only [State.runWaymask]
  refine memForm_ite hs ?_
  split
  · exact hs
  · exact memForm_finishMask hs
  next t ht => exact memForm_finishMask ((memForm_writeMask hs).at ht)
  next t ht => exact memForm_modOp ((memForm_writeMask hs).at ht)

theorem memForm_runAlloc (hs : MemForm s) {o} : MemForm (s.runAlloc o) := by
  dsimp only [State.runAlloc]
  split
  · exact memForm_finish hs
  · refine memForm_ite (memForm_finish hs) ?_
    split
    · exact memForm_finish hs
    · exact memForm_finish (memForm_foldl (fun ht => memForm_setFull ht) (memForm_setGuards (memForm_memSys hs)))

theorem memForm_runFree (hs : MemForm s) {o} : MemForm (s.runFree o) := by
  dsimp only [State.runFree]
  split
  · exact memForm_finish hs
  · split
    · exact memForm_finish hs
    · exact memForm_ite (memForm_finish hs) (memForm_finish (memForm_clearGuards (memForm_memSys hs)))

/-! ### Reading in parts -/

theorem memForm_setEng (hs : MemForm s) {e} : MemForm (s.setEng e) :=
  memForm_modEng hs

theorem memForm_endTile (hs : MemForm s) {e r} : MemForm (s.endTile e r) := by
  dsimp only [State.endTile]
  split
  · exact memForm_finish (memForm_dropEng hs)
  · exact memForm_dropEng hs

theorem memForm_refuseTile (hs : MemForm s) {e t} : MemForm (s.refuseTile e t) :=
  memForm_endTile (memForm_raise hs)

/-! ### Presenting (R247, R310 to R331) -/

theorem memForm_tileWord (hs : MemForm s) {f op fmtOk b twoRefs shape} :
    MemForm (s.tileWord f op fmtOk b twoRefs shape).2 := by
  dsimp only [State.tileWord]
  refine memForm_present (memForm_ite_snd (memForm_poisonRecords hs) (memForm_ite_snd (memForm_formatRecord hs) ?_))
  split
  · exact memForm_formatRecord hs
  · refine memForm_foldl_snd (fun ht => ?_) hs
    dsimp only
    split
    · exact memForm_raise ht
    · refine memForm_ite_snd ?_ ht
      split
      · exact memForm_raise ht
      · exact ht

/-! ### Starting (R35, R157) -/

theorem memForm_readHead (hs : MemForm s) {o kind lv a n} : MemForm (s.readHead o kind lv a n) := by
  dsimp only [State.readHead]
  split
  · exact memForm_refuse hs
  · exact memForm_modOp (memForm_addEng (memForm_newId hs))

theorem memForm_startBuild (hs : MemForm s) {o} : MemForm (s.startBuild o) := by
  dsimp only [State.startBuild]
  split
  · exact memForm_refuse hs
  · exact memForm_modOp (memForm_addEng (memForm_newId hs))

theorem memForm_startGemvb (hs : MemForm s) {o} : MemForm (s.startGemvb o) := by
  dsimp only [State.startGemvb]
  split
  · exact memForm_refuse hs
  · exact memForm_endOp (memForm_addEng (memForm_newId hs))

theorem memForm_startTile (hs : MemForm s) {o} : MemForm (s.startTile o) := by
  dsimp only [State.startTile]
  refine memForm_ite (memForm_finish hs) ?_
  split
  · exact memForm_startBuild hs
  · exact memForm_startGemvb hs
  · exact memForm_readHead hs
  · exact memForm_readHead hs

theorem memForm_launchTiles (hs : MemForm s) {os} : MemForm (s.launchTiles os) :=
  memForm_foldl (fun ht => memForm_ite ht (memForm_startTile ht)) hs

theorem memForm_execTcvt (hs : MemForm s) {f} : ResultForm (execTcvt f s) := by
  dsimp only [execTcvt]
  exact memForm_launchTiles (memForm_tileWord hs)

theorem memForm_execTstat (hs : MemForm s) {f} : ResultForm (execTstat f s) := by
  dsimp only [execTstat]
  exact memForm_launchTiles (memForm_tileWord hs)

theorem memForm_execTslice (hs : MemForm s) {f} : ResultForm (execTslice f s) := by
  dsimp only [execTslice]
  exact memForm_launchTiles (memForm_tileWord hs)

theorem memForm_execTbuild (hs : MemForm s) {f} : ResultForm (execTbuild f s) := by
  dsimp only [execTbuild]
  exact memForm_launchTiles (memForm_tileWord hs)

theorem memForm_lineWord (hs : MemForm s) {f op kind fmt} : MemForm (s.lineWord f op kind fmt).2 := by
  dsimp only [State.lineWord]
  refine memForm_present (memForm_ite_snd (memForm_poisonRecords hs) (memForm_ite_snd (memForm_formatRecord hs) ?_))
  exact memForm_foldl_snd (fun ht => memForm_ite_snd (memForm_raise ht) ht) hs

/-! ### Going on when pieces are done -/

theorem memForm_tcvtOn (hs : MemForm s) {e h bs} : MemForm (s.tcvtOn e h bs) := by
  dsimp only [State.tcvtOn]
  split
  · exact memForm_refuseTile hs
  · split
    · exact memForm_refuseTile hs
    · exact memForm_refuseTile hs
    · exact memForm_ite (memForm_refuseTile hs) (memForm_setEng (memForm_ite (memForm_sendStat hs) hs))

theorem memForm_tstatOn (hs : MemForm s) {e h bs} : MemForm (s.tstatOn e h bs) :=
  memForm_endTile (memForm_ite (memForm_sendStat hs) hs)

theorem memForm_tileHead (hs : MemForm s) {e k bs} : MemForm (s.tileHead e k bs) := by
  dsimp only [State.tileHead]
  split
  · exact memForm_refuseTile hs
  · split
    · exact memForm_refuseTile hs
    · exact memForm_ite (memForm_ite (memForm_refuseTile hs) (memForm_setEng hs))
          (memForm_ite (memForm_refuseTile hs) (memForm_setEng hs))

theorem memForm_tileOn (hs : MemForm s) {e} : MemForm (s.tileOn e) := by
  dsimp only [State.tileOn]
  split
  · exact memForm_ite (memForm_dropEng hs) hs
  · split
    · refine memForm_ite hs ?_
      split
      · exact memForm_endTile hs
      · exact memForm_tileHead hs
    · refine memForm_ite hs ?_
      split
      · split
        · exact memForm_endTile hs
        · exact memForm_ite (memForm_endTile hs) (memForm_ite (memForm_tstatOn hs) (memForm_tcvtOn hs))
      · exact memForm_endTile hs
    · exact memForm_ite hs (memForm_ite (memForm_endTile hs) (memForm_endTile hs))

theorem memForm_cbloadOn (hs : MemForm s) {e} : MemForm (s.cbloadOn e) := by
  dsimp only [State.cbloadOn]
  refine memForm_ite hs ?_
  split
  · exact memForm_endTile hs
  · exact memForm_endTile (memForm_modPart hs)

/-! ### GEMVB (R332 to R334) -/

theorem memForm_gemvRecord (hs : MemForm s) {e} : MemForm (s.gemvRecord e) := by
  dsimp only [State.gemvRecord]
  split
  · exact memForm_sendStat hs
  · exact hs

theorem memForm_endGemv (hs : MemForm s) {e bad} : MemForm (s.endGemv e bad) := by
  dsimp only [State.endGemv]
  split
  · exact memForm_deliver (memForm_gemvRecord (memForm_dropEng hs))
  · exact memForm_gemvRecord (memForm_dropEng hs)

theorem memForm_gemvOver (hs : MemForm s) {e} : MemForm (s.gemvOver e) :=
  memForm_ite (memForm_ite (memForm_modEng hs) hs) (memForm_endGemv hs)

theorem memForm_gemvRelease (hs : MemForm s) {id} : MemForm (s.gemvRelease id) := by
  dsimp only [State.gemvRelease]
  split
  · exact hs
  · split
    · exact memForm_ite (memForm_deliver (memForm_modEng hs)) hs
    · exact hs

theorem memForm_gemvCompute (hs : MemForm s) {e d y} : MemForm (s.gemvCompute e d y) :=
  memForm_ite (memForm_gemvOver (memForm_setEng hs)) (memForm_gemvRelease (memForm_setEng hs))

theorem memForm_gemvOn (hs : MemForm s) {e} : MemForm (s.gemvOn e) := by
  dsimp only [State.gemvOn]
  split
  · refine memForm_ite hs ?_
    split
    · exact memForm_endGemv hs
    · split
      · exact memForm_endGemv (memForm_raise hs)
      · split
        · exact memForm_endGemv (memForm_raise hs)
        · exact memForm_setEng hs
  · refine memForm_ite hs ?_
    split
    · exact memForm_endGemv hs
    · split
      · exact memForm_endGemv (memForm_raise hs)
      · exact memForm_gemvCompute hs
  · exact memForm_ite (memForm_gemvOver hs) (memForm_gemvRelease hs)

/-! ### Island state (R315) -/

theorem memForm_modChannel (hs : MemForm s) {n f} : MemForm (s.modChannel n f) := hs

/-! ### Operations of a node (R318, R320, R321) -/

theorem memForm_nodePrep (hs : MemForm s) {e l} : MemForm (s.nodePrep e l).1 := by
  induction l generalizing e with
  | nil => exact hs
  | cons x l ih =>
    obtain ⟨b, rule, read⟩ := x
    dsimp only [State.nodePrep]
    split
    · exact ih
    · exact memForm_raise hs

theorem memForm_nodeWord (hs : MemForm s) {f memory prep} (hprep : ∀ {t a1}, MemForm t → MemForm (prep t a1).1) :
    MemForm (s.nodeWord f memory prep) := by
  dsimp only [State.nodeWord]
  exact memForm_foldl (fun ht => memForm_state (memForm_ite_fst (memForm_ite (memForm_raise (memForm_newId ht))
      (memForm_newId ht)) (hprep (memForm_newId ht)))) hs

/-! ### Going on when pieces are done (R321, R326) -/

theorem memForm_nodeHead (hs : MemForm s) {e b} : MemForm (s.nodeHead e b).1 := by
  dsimp only [State.nodeHead]
  refine memForm_ite_fst hs ?_
  split
  · split
    · exact memForm_raise hs
    · refine memForm_ite_fst (memForm_raise hs) ?_
      split
      · exact memForm_raise hs
      · exact hs
  · exact hs

theorem memForm_nodeSend (hs : MemForm s) {e v} : MemForm (s.nodeSend e v) := by
  dsimp only [State.nodeSend]
  split
  · exact memForm_dropEng hs
  · exact memForm_ite (memForm_sendLink (memForm_ite (memForm_sendLink (memForm_dropEng hs)) (memForm_dropEng hs)))
        (memForm_ite (memForm_sendLink (memForm_dropEng hs)) (memForm_dropEng hs))

theorem memForm_nodeOn (hs : MemForm s) {e} : MemForm (s.nodeOn e) :=
  memForm_ite (memForm_ite (memForm_nodeSend hs) hs) (memForm_setEng (memForm_nodeHead (memForm_nodeHead hs)))

/-! ### The step (R320, R322 to R329) -/

theorem memForm_nodeRefuse (hs : MemForm s) {e port seq} : MemForm (s.nodeRefuse e port seq) :=
  memForm_nodeSend (memForm_raise hs)

theorem memForm_nodeStat (hs : MemForm s) {e h rows} : MemForm (s.nodeStat e h rows) :=
  memForm_ite (memForm_sendStat hs) hs

theorem memForm_stepMma (hs : MemForm s) {e c zero} : MemForm (s.stepMma e c zero) := by
  dsimp only [State.stepMma]
  split
  · exact memForm_nodeRefuse hs
  · exact memForm_nodeRefuse hs
  · refine memForm_ite (memForm_nodeRefuse hs) ?_
    exact memForm_nodeSend (memForm_modChannel (memForm_nodeStat (memForm_nodeStat hs)))

theorem memForm_stepTld (hs : MemForm s) {e} : MemForm (s.stepTld e) := by
  dsimp only [State.stepTld]
  split
  · exact memForm_nodeSend hs
  · exact memForm_nodeSend (memForm_modChannel hs)

theorem memForm_stepTst (hs : MemForm s) {e c} : MemForm (s.stepTst e c) := by
  dsimp only [State.stepTst]
  split
  · split
    · exact memForm_nodeSend (memForm_raise hs)
    · exact memForm_setEng (by
        split
        · exact memForm_ite (memForm_sendStat hs) hs
        · exact hs)
  · exact memForm_nodeRefuse hs

theorem memForm_stepTfill (hs : MemForm s) {e} : MemForm (s.stepTfill e) :=
  memForm_nodeSend (memForm_modChannel hs)

theorem memForm_stepAcc (hs : MemForm s) {e c op} : MemForm (s.stepAcc e c op) := by
  dsimp only [State.stepAcc]
  split
  · exact memForm_nodeSend (memForm_modChannel hs)
  · exact memForm_ite (memForm_nodeRefuse hs) (memForm_nodeSend (memForm_modChannel hs))
  · split
    · exact memForm_nodeSend (memForm_raise hs)
    · exact memForm_nodeSend (memForm_modChannel hs)

theorem memForm_execIslandStep (hs : MemForm s) : ResultForm (execIslandStep s) := by
  dsimp only [execIslandStep]
  split
  · exact hs
  · split
    · exact hs
    · split
      · exact hs
      · split
        · exact memForm_nodeSend hs
        · split
          · exact memForm_stepTld hs
          · exact memForm_stepTst hs
          · exact memForm_stepMma hs
          · exact memForm_stepMma hs
          · exact memForm_stepTfill hs
          · exact memForm_stepAcc hs

/-! ### Nodes, their queues and their outputs (R339 to R341) -/

theorem memForm_modStream (hs : MemForm s) {n ctx f} : MemForm (s.modStream n ctx f) :=
  memForm_modChannel hs

theorem memForm_emitRun (hs : MemForm s) {n second xs} : MemForm (s.emitRun n second xs) := by
  dsimp only [State.emitRun]
  split
  · split
    · exact memForm_sendLink (memForm_ite (memForm_ite hs (memForm_raise hs)) (memForm_modStream hs))
    · exact memForm_sendLink (memForm_ite (memForm_ite hs (memForm_raise hs)) (memForm_modStream hs))
    · exact memForm_sendLink (memForm_sendLink (memForm_ite (memForm_ite hs (memForm_raise hs)) (memForm_modStream hs)))
    · exact memForm_sendStat (memForm_ite (memForm_ite hs (memForm_raise hs)) (memForm_modStream hs))
    · exact memForm_ite (memForm_ite hs (memForm_raise hs)) (memForm_modStream hs)
  · exact hs

theorem memForm_emit (hs : MemForm s) {n second xs} : MemForm (s.emit n second xs) :=
  memForm_foldl (fun ht => memForm_emitRun ht) hs

theorem memForm_enqueue (hs : MemForm s) {fr f} : MemForm (s.enqueue fr f) :=
  memForm_modStream hs

theorem memForm_takeAll (hs : MemForm s) {names ctx one k o1 o2}
    (hone : ∀ {t a1 a2 a3}, MemForm t → TakenForm (one t a1 a2 a3)) : MemForm (s.takeAll names ctx one k o1 o2) := by
  induction k generalizing s o1 o2 with
  | zero =>
    dsimp only [State.takeAll]
    split
    · exact memForm_emit (memForm_emit hs)
    · exact hs
  | succ k ih =>
    dsimp only [State.takeAll]
    split
    · exact hs
    · split
      · exact memForm_emit (memForm_emit hs)
      next t ht => exact ih (memForm_modStream ((hone hs).at ht))

theorem memForm_pump (hs : MemForm s) {names ctx one} (hone :
    ∀ {t a1 a2 a3}, MemForm t → TakenForm (one t a1 a2 a3)) : MemForm (s.pump names ctx one) := by
  dsimp only [State.pump]
  split
  · exact hs
  · exact memForm_takeAll hs hone

/-! ### The simple nodes: STOPLVL, SCOUNT, SPAACC, SPAFLUSH (R350 to R352) -/

theorem memForm_takeStoplvl (hs : MemForm s) {n a b} : TakenForm (takeStoplvl s n a b) := by
  dsimp only [takeStoplvl]
  split
  · trivial
  · split
    · exact hs
    · split
      · exact memForm_raise hs
      · split <;> exact hs

theorem memForm_takeScount (hs : MemForm s) {n a b} : TakenForm (takeScount s n a b) := by
  dsimp only [takeScount]
  split
  · trivial
  · split <;> exact memForm_modStream hs

theorem memForm_boundTrap (hs : MemForm s) {n wave} : MemForm (s.boundTrap n wave) :=
  memForm_raise hs

theorem memForm_formatTrap (hs : MemForm s) {n x} : MemForm (s.formatTrap n x) :=
  memForm_raise hs

theorem memForm_pairTrap (hs : MemForm s) {n x y} : MemForm (s.pairTrap n x y) :=
  memForm_raise hs

theorem memForm_takeSpaacc (hs : MemForm s) {n a b} : TakenForm (takeSpaacc s n a b) := by
  dsimp only [takeSpaacc]
  split
  · trivial
  · split
    · split
      · exact memForm_boundTrap (memForm_ite hs (memForm_formatTrap hs))
      · exact memForm_modStream (memForm_ite hs (memForm_formatTrap hs))
    · split
      · exact memForm_modStream hs
      · split
        · trivial
        · exact memForm_modStream hs

theorem memForm_takeSpaflush (hs : MemForm s) {n a b} : TakenForm (takeSpaflush s n a b) := by
  dsimp only [takeSpaflush]
  split
  · trivial
  · split
    · exact memForm_ite (memForm_raise hs) hs
    · exact memForm_modStream hs

/-! ### ISECT and UNION (R349) -/

theorem memForm_takePair (hs : MemForm s) {union n a b} : TakenForm (takePair union s n a b) := by
  dsimp only [takePair]
  split
  · split
    · exact memForm_pairTrap hs
    · split
      · exact memForm_pairTrap hs
      · split
        · exact memForm_pairTrap hs
        · split
          · exact hs
          · split
            · exact hs
            · split
              · exact hs
              · split
                · exact hs
                · exact memForm_raise hs
  · trivial

/-! ### Engine operations of a port -/

theorem memForm_addPort (hs : MemForm s) {n kind x phase ps} : MemForm (s.addPort n kind x phase ps) :=
  memForm_state (memForm_newId hs)

theorem memForm_portReads (hs : MemForm s) {n wave lv a k off id} : MemForm (s.portReads n wave lv a k off id).1 := by
  dsimp only [State.portReads]
  exact memForm_foldl_fst (fun ht => by
    split
    · exact ht
    · exact memForm_raise ht) hs

theorem memForm_request (hs : MemForm s) {n st x} : MemForm (s.request n st x) := by
  dsimp only [State.request]
  refine memForm_ite (memForm_addPort hs) (memForm_ite (memForm_addPort (memForm_formatTrap hs)) (memForm_ite ?_ ?_))
  · refine memForm_ite (memForm_addPort hs) ?_
    split
    · exact memForm_addPort (memForm_raise hs)
    · exact memForm_addPort hs
  · refine memForm_ite (memForm_addPort hs) ?_
    split
    · exact memForm_addPort (memForm_raise hs)
    · exact memForm_addPort hs

theorem memForm_takeSread (hs : MemForm s) {n a b} : TakenForm (takeSread s n a b) := by
  dsimp only [takeSread]
  split
  · split
    · exact memForm_request (memForm_ite (memForm_raise hs) hs)
    · trivial
  · trivial

theorem memForm_emitPlain (hs : MemForm s) {n st e} : MemForm (s.emitPlain n st e).1 := by
  dsimp only [State.emitPlain]
  exact memForm_ite_fst hs (memForm_ite_fst (memForm_ite_fst (memForm_ite_fst (memForm_raise hs) hs) hs)
      (memForm_ite_fst (memForm_ite_fst hs (memForm_foldl (fun ht => memForm_boundTrap ht) hs))
      (memForm_ite_fst hs (memForm_ite_fst hs (memForm_boundTrap hs)))))

theorem memForm_emitRead (hs : MemForm s) {n st e} : MemForm (s.emitRead n st e).1 := by
  dsimp only [State.emitRead]
  split
  · exact memForm_boundTrap hs
  · exact hs
  · exact memForm_ite_fst hs (memForm_ite_fst hs hs)

theorem memForm_countOut (hs : MemForm s) {n xs bytes} : MemForm (s.countOut n xs bytes) :=
  memForm_modStream hs

theorem memForm_nextOccasion (hs : MemForm s) {n st e} : MemForm (s.nextOccasion n st e) := by
  dsimp only [State.nextOccasion]
  refine memForm_ite (memForm_dropEng hs) ?_
  split
  · exact memForm_setEng hs
  · exact memForm_setEng (memForm_raise hs)

theorem memForm_flushReads (hs : MemForm s) {names ctx x} : MemForm (s.flushReads names ctx x) := by
  induction x generalizing s with
  | zero => exact hs
  | succ n'1 ih =>
    dsimp only [State.flushReads]
    split
    · split
      · exact hs
      · refine memForm_ite hs (memForm_ite (ih (memForm_countOut (memForm_emit
            (memForm_dropEng (memForm_emitPlain hs))))) (memForm_ite
            (ih (memForm_nextOccasion (memForm_countOut (memForm_emit (memForm_emitRead hs))))) ?_))
        exact memForm_modEng (memForm_countOut (memForm_emit (memForm_emitRead hs)))
    · exact hs

theorem memForm_sreadElems (hs : MemForm s) {n st e} : MemForm (s.sreadElems n st e) := by
  dsimp only [State.sreadElems]
  refine memForm_ite hs ?_
  split
  · exact memForm_ite (memForm_setEng hs) (memForm_ite (memForm_setEng hs) (memForm_setEng (memForm_portReads hs)))
  · exact memForm_setEng hs

/-! ### SOPEN (R346) -/

theorem memForm_openStream (hs : MemForm s) {n x bias} : MemForm (s.openStream n x bias).1 := by
  dsimp only [State.openStream]
  refine memForm_ite_fst hs (memForm_ite_fst (memForm_formatTrap hs) (memForm_ite_fst (memForm_raise hs)
    (memForm_ite_fst (memForm_raise (memForm_modStream hs)) ?_)))
  split
  · exact memForm_raise (memForm_modStream hs)
  · exact memForm_state (memForm_newId (memForm_modStream hs))

theorem memForm_takeSopen (hs : MemForm s) {n a b} : TakenForm (takeSopen s n a b) := by
  dsimp only [takeSopen]
  split
  · trivial
  · split
    · trivial
    · split
      · split
        · trivial
        · split
          · exact hs
          · split
            · exact memForm_pairTrap hs
            · exact memForm_openStream hs
      · exact memForm_openStream hs

theorem memForm_opened (hs : MemForm s) {n e} : MemForm (s.opened n e) := by
  dsimp only [State.opened]
  split
  · exact memForm_emit (memForm_ite (memForm_raise (memForm_modStream (memForm_dropEng hs)))
        (memForm_modStream (memForm_dropEng hs)))
  · refine memForm_ite (memForm_emit (memForm_modStream (memForm_dropEng hs))) ?_
    exact memForm_emit (memForm_ite (memForm_raise (memForm_modStream (memForm_dropEng hs)))
        (memForm_modStream (memForm_dropEng hs)))

/-! ### SWRITE (R353) -/

theorem memForm_writable (hs : MemForm s) {n st at' x} : MemForm (s.writable n st at' x).1 := by
  induction x generalizing s at' with
  | nil => exact hs
  | cons x'1 r ih =>
    dsimp only [State.writable]
    refine memForm_ite_fst (ih hs) (memForm_ite_fst (ih (memForm_formatTrap hs))
        (memForm_ite_fst (ih (memForm_boundTrap hs)) ?_))
    split
    · exact ih (memForm_raise hs)
    · exact ih hs

theorem memForm_writeToken (hs : MemForm s) {n st x xs} : MemForm (s.writeToken n st x xs) := by
  dsimp only [State.writeToken]
  refine memForm_ite (memForm_writable hs) ?_
  exact memForm_state (memForm_modStream (by
    split
    · exact memForm_newId (memForm_writable hs)
    · exact memForm_raise (memForm_newId (memForm_writable hs))))

theorem memForm_takeSwrite (hs : MemForm s) {n a b} : TakenForm (takeSwrite s n a b) := by
  dsimp only [takeSwrite]
  split
  · split
    · trivial
    · split
      · exact memForm_ite (memForm_raise hs) hs
      · split
        · exact memForm_ite (memForm_raise hs) hs
        · exact memForm_writeToken (memForm_ite (memForm_raise hs) hs)
  · trivial

/-! ### SCLOSE (R354) -/

theorem memForm_takeSclose (hs : MemForm s) {n a b} : TakenForm (takeSclose s n a b) := by
  dsimp only [takeSclose]
  split
  · split
    · trivial
    · split
      · trivial
      · split
        · exact memForm_addPort hs
        · exact memForm_modStream hs
    · exact memForm_raise hs
  · trivial

/-! ### Going on -/

theorem memForm_pumpNode (hs : MemForm s) {names ctx} : MemForm (s.pumpNode names ctx) := by
  dsimp only [State.pumpNode]
  split
  · exact hs
  next n _ =>
    refine memForm_ite hs ?_
    have h : MemForm (if n.op = 0xB1 then s.flushReads names ctx s.portTurns else s) := memForm_ite
        (memForm_flushReads hs) hs
    generalize (if n.op = 0xB1 then s.flushReads names ctx s.portTurns else s) = t at h ⊢
    refine memForm_ite h ?_
    split
    · exact memForm_pump h fun ht => memForm_takeSopen ht
    · exact memForm_flushReads (memForm_pump h fun ht => memForm_takeSread ht)
    · exact memForm_pump h fun ht => memForm_takeSwrite ht
    · exact memForm_pump h fun ht => memForm_takeSclose ht
    · exact memForm_pump h fun ht => memForm_takePair ht
    · exact memForm_pump h fun ht => memForm_takePair ht
    · exact memForm_pump h fun ht => memForm_takeSpaacc ht
    · exact memForm_pump h fun ht => memForm_takeSpaflush ht
    · exact memForm_pump h fun ht => memForm_takeStoplvl ht
    · exact memForm_pump h fun ht => memForm_takeScount ht
    · exact h

theorem memForm_pumpPort (hs : MemForm s) {names ctx} : MemForm (s.pumpPort names ctx) :=
  memForm_foldl (fun ht => memForm_pumpNode ht) hs

theorem memForm_pumpAll (hs : MemForm s) {p} : MemForm (s.pumpAll p) :=
  memForm_foldl (fun ht => memForm_pumpPort ht) hs

theorem memForm_portOn (hs : MemForm s) {e} : MemForm (s.portOn e) := by
  dsimp only [State.portOn]
  split
  · exact memForm_ite (memForm_dropEng hs) hs
  · refine memForm_ite (memForm_pumpPort (memForm_ite (memForm_dropEng hs) hs))
        (memForm_ite (memForm_ite (memForm_pumpPort (memForm_opened hs)) hs) ?_)
    split
    · exact hs
    · exact memForm_pumpPort (memForm_flushReads (memForm_sreadElems hs))

theorem memForm_streamWord (hs : MemForm s) {f one} (hone : ∀ {t a1 a2 a3}, MemForm t → TakenForm (one t a1 a2 a3)) :
    MemForm (s.streamWord f one) :=
  memForm_ite (memForm_enqueue hs) (memForm_pump (memForm_enqueue hs) hone)

theorem memForm_execSclose (hs : MemForm s) {f} : ResultForm (execSclose f s) :=
  have h : MemForm (s.streamWord f takeSclose) := memForm_streamWord hs fun ht => memForm_takeSclose ht
  memForm_pumpPort h

theorem memForm_execSpaflush (hs : MemForm s) {f} : ResultForm (execSpaflush f s) :=
  have h : MemForm (s.streamWord f takeSpaflush) := memForm_streamWord hs fun ht => memForm_takeSpaflush ht
  memForm_pumpPort h

/-! ### Matching (R183) -/

theorem memForm_fireSet (hs : MemForm s) {fr lo hi set} : MemForm (s.fireSet fr lo hi set) := hs

theorem memForm_fireJoin (hs : MemForm s) {fr a b} : MemForm (s.fireJoin fr a b) := hs

theorem memForm_matchAll (hs : MemForm s) {fr w x} : MemForm (s.matchAll fr w x) := by
  induction x generalizing s with
  | zero => exact hs
  | succ n'1 ih =>
    dsimp only [State.matchAll]
    split
    · exact hs
    · split
      · exact ih (memForm_fireJoin hs)
      · exact ih (memForm_fireSet hs)

theorem memForm_acceptToken (hs : MemForm s) {t fr w} : MemForm (s.acceptToken t fr w) :=
  memForm_matchAll (memForm_state hs)

/-! ### Arrival (R183, R187, R318, R341, R361) -/

theorem memForm_takeToken (hs : MemForm s) {id} : MemForm (s.takeToken id) := hs

theorem memForm_modEntry (hs : MemForm s) {p lsec num f} : MemForm (s.modEntry p lsec num f) :=
  memForm_modSection hs

theorem memForm_sendHeldFor (hs : MemForm s) {p lsec b pl} : MemForm (s.sendHeldFor p lsec b pl) := hs

theorem memForm_cancelEvict (hs : MemForm s) {p lsec b} : MemForm (s.cancelEvict p lsec b) := by
  dsimp only [State.cancelEvict]
  split
  · exact hs
  · exact memForm_ite hs (memForm_sendHeldFor (memForm_modEntry hs))

theorem memForm_arriveElem (hs : MemForm s) {t pl} : MemForm (s.arriveElem t pl) := by
  dsimp only [State.arriveElem]
  refine memForm_ite (memForm_raise (memForm_cancelEvict (memForm_takeToken hs))) ?_
  exact memForm_acceptToken (memForm_cancelEvict (memForm_takeToken hs))

theorem memForm_arriveMatch (hs : MemForm s) {t pl} : MemForm (s.arriveMatch t pl) := by
  dsimp only [State.arriveMatch]
  split
  · exact hs
  · exact memForm_ite (memForm_foldl (fun ht => memForm_arriveElem ht) hs) hs

theorem memForm_resend (hs : MemForm s) {t at'} : MemForm (s.resend t at') := by
  dsimp only [State.resend]
  split
  · exact memForm_state (memForm_takeToken (memForm_ite_snd hs (memForm_resolve hs)))
  · exact memForm_state (memForm_ite_snd hs (memForm_resolve hs))

theorem memForm_arriveIsland (hs : MemForm s) {t c} : MemForm (s.arriveIsland t c) :=
  memForm_ite hs (memForm_acceptToken (memForm_takeToken hs))

theorem memForm_waveTrap (hs : MemForm s) {c t} : MemForm (s.waveTrap c t) :=
  memForm_raise hs

theorem memForm_consume (hs : MemForm s) {c n ctx port x} : MemForm (s.consume c n ctx port x) := by
  induction x generalizing s with
  | zero => exact hs
  | succ n'2 ih =>
    dsimp only [State.consume]
    split
    · exact hs
    · split
      · exact hs
      · refine memForm_ite (ih (memForm_waveTrap (memForm_state hs))) ?_
        exact ih (memForm_state (memForm_modStream (memForm_state hs)))

theorem memForm_arriveStream (hs : MemForm s) {t c} : MemForm (s.arriveStream t c) := by
  dsimp only [State.arriveStream]
  split
  · exact memForm_takeToken hs
  · exact memForm_ite hs (memForm_ite hs (memForm_consume (memForm_state (memForm_takeToken hs))))

theorem memForm_arrive (hs : MemForm s) {t} : MemForm (s.arrive t) := by
  dsimp only [State.arrive]
  refine memForm_ite (memForm_takeToken hs) (memForm_ite ?_ ?_)
  · split
    · exact memForm_takeToken hs
    · exact memForm_ite (memForm_takeToken hs) (memForm_ite (memForm_arriveIsland hs) (memForm_arriveStream hs))
  · split
    · exact memForm_ite (memForm_ite (memForm_arriveElem hs) (memForm_arriveMatch hs)) (memForm_resend hs)
    · exact memForm_takeToken hs

theorem memForm_countEjected (hs : MemForm s) {cluster n} : MemForm (s.countEjected cluster n) :=
  memForm_modCtr hs

theorem memForm_ejectToken (hs : MemForm s) {t} : MemForm (s.ejectToken t) := by
  dsimp only [State.ejectToken]
  split
  · exact memForm_ite (memForm_state hs) (memForm_countEjected (memForm_state hs))
  · exact memForm_state hs

theorem memForm_execTokenArrival (hs : MemForm s) : ResultForm (execTokenArrival s) := by
  dsimp only [execTokenArrival]
  split
  · split
    · exact hs
    · split
      · exact memForm_arrive hs
      · split
        · exact hs
        · exact memForm_arrive (memForm_ejectToken hs)
  · exact hs

/-! ### Hops (R366 to R373) -/

theorem memForm_noteFull (hs : MemForm s) {f} : MemForm (s.noteFull f) := by
  dsimp only [State.noteFull]
  split
  · exact hs
  · exact memForm_ite hs (memForm_state hs)

theorem memForm_crossHop (hs : MemForm s) {h} : MemForm (s.crossHop h) := by
  dsimp only [State.crossHop]
  split
  · exact hs
  · split
    · exact hs
    · split
      · exact hs
      · exact memForm_state (memForm_newId (memForm_noteFull hs))

theorem memForm_ejectHop (hs : MemForm s) {h} : MemForm (s.ejectHop h) := by
  dsimp only [State.ejectHop]
  split
  · exact hs
  · split
    · exact hs
    · exact memForm_ite (memForm_state hs) (memForm_countEjected (memForm_state hs))

/-! ### Rings (R375, R376) -/

theorem memForm_modRing (hs : MemForm s) {c slot f} : MemForm (s.modRing c slot f) := hs

theorem memForm_ringFault (hs : MemForm s) {o sub id} : MemForm (s.ringFault o sub id) :=
  memForm_finish (memForm_raise hs)

theorem memForm_registerRing (hs : MemForm s) {o lv a t0} : MemForm (s.registerRing o lv a t0) :=
  memForm_finish (memForm_state hs)

theorem memForm_runRingreg (hs : MemForm s) {o} : MemForm (s.runRingreg o) := by
  dsimp only [State.runRingreg]
  refine memForm_ite hs ?_
  split
  · exact memForm_ringFault hs
  · refine memForm_ite ?_ (memForm_ite hs (memForm_ite (memForm_refuse hs)
        (memForm_registerRing (memForm_noteGuards hs))))
    split
    next t ht => exact (memForm_readNow hs).at ht
    next t ht => exact memForm_opFault ((memForm_readNow hs).at ht)
    next t ht => exact memForm_registerRing ((memForm_readNow hs).at ht)

/-! ### MSEND (R380) -/

theorem memForm_runMsend (hs : MemForm s) {o} : MemForm (s.runMsend o) := by
  dsimp only [State.runMsend]
  refine memForm_ite (memForm_ringFault hs) (memForm_ite (memForm_refuse hs)
      (memForm_ite (memForm_ringFault hs) (memForm_ite hs ?_)))
  split
  · exact memForm_refuse hs
  · exact memForm_endOp (memForm_state (memForm_newId (memForm_newId hs)))

theorem memForm_setMsg (hs : MemForm s) {id f} : MemForm (s.setMsg id f) := hs

theorem memForm_dropMsg (hs : MemForm s) {id} : MemForm (s.dropMsg id) := hs

theorem memForm_settleMsg (hs : MemForm s) {m f} : MemForm (s.settleMsg m f) :=
  memForm_setMsg (memForm_ite (memForm_countEjected hs) hs)

theorem memForm_injectMsg (hs : MemForm s) {m} : MemForm (s.injectMsg m) := by
  dsimp only [State.injectMsg]
  refine memForm_ite hs ?_
  split
  · exact memForm_injectPacket (memForm_setMsg hs)
  · exact memForm_setMsg hs

theorem memForm_injectMsgs (hs : MemForm s) : MemForm (s.injectMsgs) :=
  memForm_foldl (fun ht => memForm_injectMsg ht) hs

theorem memForm_msgResult (hs : MemForm s) {o r} : MemForm (s.msgResult o r) :=
  memForm_ite hs (memForm_deliver hs)

theorem memForm_msendOn (hs : MemForm s) {e} : MemForm (s.msendOn e) := by
  dsimp only [State.msendOn]
  refine memForm_ite hs ?_
  split
  · exact memForm_dropEng hs
  · split
    · exact memForm_injectMsgs (memForm_msgResult (memForm_dropMsg (memForm_dropEng hs)))
    · exact memForm_injectMsgs (memForm_setMsg (memForm_dropEng hs))

/-! ### Reception (R377, R381) -/

theorem memForm_execMessageReceive (hs : MemForm s) : ResultForm (execMessageReceive s) := by
  dsimp only [execMessageReceive]
  split
  · exact hs
  · split
    · exact hs
    · split
      · exact memForm_settleMsg hs
      · split
        · exact memForm_settleMsg hs
        · split
          · exact hs
          · exact memForm_state (memForm_settleMsg (memForm_newId (memForm_modRing hs)))

/-! ### MRECV (R382) -/

theorem memForm_copyEntry (hs : MemForm s) {o r} : MemForm (s.copyEntry o r) := by
  dsimp only [State.copyEntry]
  split
  · exact memForm_refuse hs
  · exact memForm_addEng (memForm_modOp (memForm_newId hs))

theorem memForm_runMrecv (hs : MemForm s) {o} : MemForm (s.runMrecv o) := by
  dsimp only [State.runMrecv]
  split
  · exact memForm_ringFault hs
  · exact memForm_ite (memForm_ringFault hs) (memForm_ite (memForm_copyEntry hs) (memForm_park hs))

theorem memForm_wakeRing (hs : MemForm s) {c slot} : MemForm (s.wakeRing c slot) := by
  dsimp only [State.wakeRing]
  split
  · exact hs
  · exact memForm_foldl (fun ht => memForm_copyEntry ht) hs

theorem memForm_mrecvOn (hs : MemForm s) {e} : MemForm (s.mrecvOn e) :=
  memForm_ite hs (memForm_endTile hs)

/-! ### MPEEK, MACK and RINGDEREG (R383, R384) -/

theorem memForm_runMpeek (hs : MemForm s) {o} : MemForm (s.runMpeek o) := by
  dsimp only [State.runMpeek]
  split
  · exact memForm_ringFault hs
  · exact memForm_finish hs

theorem memForm_runMack (hs : MemForm s) {o} : MemForm (s.runMack o) := by
  dsimp only [State.runMack]
  split
  · exact memForm_ringFault hs
  · exact memForm_ite (memForm_ringFault hs) (memForm_finish (memForm_wakeRing (memForm_modRing hs)))

theorem memForm_drainRing (hs : MemForm s) {c slot} : MemForm (s.drainRing c slot) := by
  dsimp only [State.drainRing]
  split
  · exact hs
  · split
    · exact hs
    · refine memForm_ite hs ?_
      split
      · exact memForm_finish (memForm_foldl (fun ht => memForm_settleMsg ht) (memForm_state hs))
      · exact memForm_foldl (fun ht => memForm_settleMsg ht) (memForm_state hs)

theorem memForm_runRingdereg (hs : MemForm s) {o} : MemForm (s.runRingdereg o) := by
  dsimp only [State.runRingdereg]
  split
  · exact memForm_ringFault hs
  · exact memForm_drainRing (memForm_modRing (memForm_park hs))

theorem memForm_closeRings (hs : MemForm s) {p c} : MemForm (s.closeRings p c) :=
  memForm_foldl (fun ht => memForm_drainRing (memForm_modRing ht)) hs

/-! ### Completion and acknowledgement (R380, R381, R385) -/

theorem memForm_completeEntry (hs : MemForm s) {m e} : OptionForm (s.completeEntry m e) := by
  dsimp only [State.completeEntry]
  split
  · exact hs
  · split
    · trivial
    · split
      · trivial
      · exact memForm_drainRing (memForm_wakeRing (memForm_modEng (memForm_modRing hs)))

theorem memForm_ackMsg (hs : MemForm s) {m e} : MemForm (s.ackMsg m e) :=
  memForm_setMsg (memForm_dropEng hs)

theorem memForm_execRingEntryComplete (hs : MemForm s) : ResultForm (execRingEntryComplete s) := by
  dsimp only [execRingEntryComplete]
  split
  · exact hs
  · split
    · exact hs
    · split
      · exact hs
      · split
        · exact hs
        next t ht =>
          split
          · exact memForm_ackMsg ((memForm_completeEntry hs).at ht)
          · split
            next u hu => exact (memForm_ctrAddNow ((memForm_completeEntry hs).at ht)).at hu
            next u hu =>
              split
              · exact memForm_addFault ((memForm_ctrAddNow ((memForm_completeEntry hs).at ht)).at hu)
              · exact memForm_ackMsg (memForm_addFault ((memForm_ctrAddNow ((memForm_completeEntry hs).at ht)).at hu))
            next u hu => exact memForm_ackMsg ((memForm_ctrAddNow ((memForm_completeEntry hs).at ht)).at hu)

theorem memForm_execMessageAck (hs : MemForm s) : ResultForm (execMessageAck s) := by
  dsimp only [execMessageAck]
  split
  · exact hs
  · split
    · exact hs
    · split
      · exact memForm_injectMsgs (memForm_msgResult (memForm_dropMsg hs))
      · exact memForm_injectMsgs (memForm_msgResult (memForm_dropMsg (memForm_raise hs)))
      · exact hs

/-! ### Operations that perform no access of their own (R93, R251, R253, R406, R410) -/

theorem memForm_runRegion (hs : MemForm s) {o} : MemForm (s.runRegion o) := by
  dsimp only [State.runRegion]
  exact memForm_finish (memForm_modTask (by
    split
    · exact memForm_modPart hs
    · exact hs))

theorem memForm_walkRange (hs : MemForm s) {o lines} : MemForm (s.walkRange o lines) := by
  dsimp only [State.walkRange]
  refine memForm_ite (memForm_finish (memForm_foldl (fun ht => memForm_ite (memForm_discardLine ht)
      (memForm_flushLine ht)) hs)) ?_
  exact memForm_modOp (memForm_foldl (fun ht => memForm_ite (memForm_discardLine ht) (memForm_flushLine ht)) hs)

theorem memForm_runSyscall (hs : MemForm s) {o} : MemForm (s.runSyscall o) :=
  memForm_park (memForm_raise hs)

theorem memForm_runSpawn (hs : MemForm s) {o} : MemForm (s.runSpawn o) := by
  dsimp only [State.runSpawn]
  split
  · exact hs
  · split
    next t ht => exact memForm_snd (memForm_spawn hs) ht
    next t ht => exact memForm_finish (memForm_snd (memForm_spawn hs) ht)

/-! ### An operation whose turn has come (R81) -/

theorem memForm_runOp (hs : MemForm s) {o} : MemForm (s.runOp o) := by
  dsimp only [State.runOp]
  split
  · exact memForm_runRegion hs
  · exact memForm_finish hs
  · exact hs
  · refine memForm_ite (memForm_finish hs) ?_
    split
    · exact memForm_unlease hs
    · exact memForm_walkRange hs
    · exact memForm_walkRange hs
    · exact memForm_startCopy hs
    · exact memForm_startCopym hs
    · exact memForm_runShadow hs
    · exact memForm_runPublish hs
    · exact memForm_runFe hs
    · exact memForm_runFe hs
    · exact memForm_runWaymask hs
    · exact memForm_runAlloc hs
    · exact memForm_runFree hs
    · exact memForm_runRingreg hs
    · exact memForm_runMsend hs
    · exact memForm_runMrecv hs
    · exact memForm_runMpeek hs
    · exact memForm_runMack hs
    · exact memForm_runRingdereg hs
    · exact memForm_runSyscall hs
    · exact memForm_runSpawn hs
    · exact memForm_runSend hs
    · exact memForm_startTile hs
    · exact memForm_startTile hs
    · exact memForm_startTile hs
    · exact memForm_startTile hs
    · exact memForm_startTile hs
    · exact memForm_startTile hs
    · exact memForm_startPiece hs

/-! ### Forwarding (R85, R98) -/

theorem memForm_tryForward (hs : MemForm s) {x o} : MemForm (s.tryForward x o) := by
  dsimp only [State.tryForward]
  refine memForm_ite hs ?_
  split
  · exact hs
  · refine memForm_ite hs ?_
    split
    · exact hs
    · exact memForm_ite (memForm_deliverAll (memForm_modOp hs)) (memForm_deliver (memForm_modOp hs))

/-! ### CHAIN_PERFORM -/

theorem memForm_turn (hs : MemForm s) {o} : MemForm (s.turn o) :=
  memForm_ite hs (memForm_ite (memForm_flushRead hs) (memForm_runOp hs))

theorem memForm_enter (hs : MemForm s) {o e} : MemForm (s.enter o e) :=
  memForm_ite hs (memForm_modOp hs)

theorem memForm_performBuffered (hs : MemForm s) {x o} : MemForm (s.performBuffered x o) := by
  dsimp only [State.performBuffered]
  exact memForm_ite hs (memForm_ite (memForm_dropOp (memForm_raise hs))
      (memForm_ite (memForm_turn (memForm_enter hs)) (memForm_tryForward (memForm_enter hs))))

theorem memForm_retest (hs : MemForm s) {o} : MemForm (s.retest o) := by
  dsimp only [State.retest]
  refine memForm_ite hs ?_
  split
  · exact memForm_ite (memForm_wakeIa hs) (memForm_wakeSpot hs)
  · exact memForm_ite (memForm_releaseFull hs) hs
  · exact hs

theorem memForm_execChainPerform (hs : MemForm s) : ResultForm (execChainPerform s) := by
  dsimp only [execChainPerform]
  split
  · exact hs
  · split
    · exact hs
    · split
      · exact hs
      · split
        · exact memForm_performBuffered hs
        · split
          · exact memForm_walkRange hs
          · exact hs
        · exact memForm_retest hs
        · exact hs

/-! ### Leases and waits -/

theorem memForm_execLeaseGrant (hs : MemForm s) : ResultForm (execLeaseGrant s) := by
  dsimp only [execLeaseGrant]
  split
  · exact hs
  · split
    · exact hs
    · split
      · exact memForm_tryLease (memForm_enter hs)
      · exact hs

theorem memForm_execLeaseExpiry (hs : MemForm s) : ResultForm (execLeaseExpiry s) := by
  dsimp only [execLeaseExpiry]
  split
  · exact hs
  · split
    · exact memForm_endLease hs
    · exact hs

theorem memForm_execCtrwaitRepresent (hs : MemForm s) : ResultForm (execCtrwaitRepresent s) := by
  dsimp only [execCtrwaitRepresent]
  split
  · exact hs
  · split
    · exact memForm_startAccess (memForm_modOp hs)
    · exact hs

/-! ### Launches and their tasks -/

theorem memForm_modRun (hs : MemForm s) {p q l f} : MemForm (s.modRun p q l f) :=
  memForm_modPart hs

theorem memForm_taskEnded (hs : MemForm s) {p q l t failed} : MemForm (s.taskEnded p q l t failed) :=
  memForm_modRun hs

/-! ### Abort and kill (R94, R405) -/

theorem memForm_cancelCtx (hs : MemForm s) {p c} : MemForm (s.cancelCtx p c) :=
  memForm_state (memForm_foldl (fun ht => memForm_dropOp ht) hs)

theorem memForm_cancelTask (hs : MemForm s) {p root} : MemForm (s.cancelTask p root) :=
  memForm_modTask (memForm_foldl (fun ht => memForm_cancelCtx ht) hs)

theorem memForm_putBack (hs : MemForm s) {p t} : MemForm (s.putBack p t) :=
  memForm_modPart (memForm_modRun hs)

/-! ### FRESUME (R46) -/

theorem memForm_retryOp (hs : MemForm s) {o} : MemForm (s.retryOp o) := by
  dsimp only [State.retryOp]
  refine memForm_ite (memForm_foldl (fun ht => memForm_modOp ht) (memForm_state hs))
      (memForm_ite (memForm_tryLease (memForm_foldl (fun ht => memForm_modOp ht) (memForm_state hs))) ?_)
  exact memForm_startPiece (memForm_foldl (fun ht => memForm_modOp ht) (memForm_state hs))

theorem memForm_killOp (hs : MemForm s) {o} : MemForm (s.killOp o) :=
  memForm_foldl (fun ht => memForm_finish ht) hs

theorem memForm_retryPiece (hs : MemForm s) {g k} : MemForm (s.retryPiece g k) := by
  dsimp only [State.retryPiece]
  split
  · exact memForm_performPiece hs
  · split
    · exact memForm_ite (memForm_joinLine hs) hs
    · exact hs

theorem memForm_resolveWait (hs : MemForm s) {p kill w} : MemForm (s.resolveWait p kill w) := by
  dsimp only [State.resolveWait]
  split
  · split
    · exact memForm_state hs
    · exact memForm_ite (memForm_killOp (memForm_state hs)) (memForm_retryOp (memForm_state hs))
  · split
    · exact memForm_state hs
    · refine memForm_ite (memForm_retryPiece (memForm_state hs)) ?_
      split
      · exact memForm_pieceDone (memForm_modEng (memForm_state hs))
      · exact memForm_modEng (memForm_state hs)
  · exact memForm_ite (memForm_modPart (memForm_state hs)) (memForm_state hs)

theorem memForm_fresume (hs : MemForm s) {p asid g kill} : MemForm (s.fresume p asid g kill) := by
  dsimp only [State.fresume]
  exact memForm_foldl (fun ht => memForm_resolveWait ht) (memForm_ite
      (memForm_foldl (fun ht => memForm_taskEnded ht) (memForm_modPart hs))
      (memForm_foldl (fun ht => memForm_putBack ht) (memForm_modPart hs)))

theorem memForm_runFresumes (hs : MemForm s) {p x} : MemForm (s.runFresumes p x) := by
  induction x generalizing s with
  | nil =>
    dsimp only [State.runFresumes]
    exact memForm_modPart hs
  | cons v r ih =>
    dsimp only [State.runFresumes]
    exact memForm_ite (memForm_modPart hs) (ih (memForm_fresume hs))

theorem memForm_pumpFresumes (hs : MemForm s) {p} : MemForm (s.pumpFresumes p) :=
  memForm_ite hs (memForm_runFresumes hs)

/-! ### Abort, requeueing and retirement -/

theorem memForm_abortTask (hs : MemForm s) {p c g w} : MemForm (s.abortTask p c g w) := by
  dsimp only [State.abortTask]
  split
  · exact hs
  · refine memForm_ite hs (memForm_ite (memForm_pumpFresumes (memForm_taskEnded
        (memForm_raise (memForm_modPart (memForm_cancelTask hs))))) ?_)
    exact memForm_pumpFresumes (memForm_modPart (memForm_cancelTask hs))

theorem memForm_execTaskAbort (hs : MemForm s) : ResultForm (execTaskAbort s) := by
  dsimp only [execTaskAbort]
  split
  · split
    · split
      · exact memForm_abortTask hs
      · exact hs
    · split
      · exact memForm_abortTask hs
      · exact hs
  · exact hs

theorem memForm_freeTask (hs : MemForm s) {p root} : MemForm (s.freeTask p root) :=
  memForm_foldl (fun ht => memForm_freeCtx ht) hs

theorem memForm_closeTask (hs : MemForm s) {p root} : MemForm (s.closeTask p root) :=
  memForm_foldl (fun ht => memForm_closeRings ht) hs

theorem memForm_execTaskRequeue (hs : MemForm s) : ResultForm (execTaskRequeue s) := by
  dsimp only [execTaskRequeue]
  split
  · exact hs
  · split
    · exact hs
    · split
      · exact memForm_closeTask hs
      · split
        · exact memForm_freeTask (memForm_closeTask hs)
        · exact memForm_pumpFresumes (memForm_modPart (memForm_modRun (memForm_freeTask (memForm_closeTask hs))))

theorem memForm_execTaskRetire (hs : MemForm s) : ResultForm (execTaskRetire s) := by
  dsimp only [execTaskRetire]
  split
  · exact hs
  · split
    · exact hs
    · split
      · exact memForm_closeTask hs
      · exact memForm_taskEnded (memForm_freeCtx (memForm_foldl (fun ht => memForm_pushTrap ht)
            (memForm_flushGuard (memForm_closeTask hs))))

theorem memForm_killTask (hs : MemForm s) {p root} : MemForm (s.killTask p root) := by
  dsimp only [State.killTask]
  split
  · exact hs
  · exact memForm_ite hs (memForm_taskEnded (memForm_cancelTask hs))

/-! ### FRESUME and CTXCTL (R46, R405) -/

theorem memForm_writeFresume (hs : MemForm s) {p v} : MemForm (s.writeFresume p v) :=
  memForm_pumpFresumes (memForm_modPart hs)

theorem memForm_execFresumeRetry (hs : MemForm s) {p v} : ResultForm (execFresumeRetry p v s) := by
  dsimp only [execFresumeRetry]
  split
  · exact hs
  · exact memForm_writeFresume hs

theorem memForm_execFresumeKill (hs : MemForm s) {p v} : ResultForm (execFresumeKill p v s) := by
  dsimp only [execFresumeKill]
  split
  · exact memForm_writeFresume hs
  · exact hs

theorem memForm_execCtxctlResume (hs : MemForm s) {p v} : ResultForm (execCtxctlResume p v s) := by
  dsimp only [execCtxctlResume]
  split
  · exact memForm_resume hs
  · exact hs

theorem memForm_execCtxctlKill (hs : MemForm s) {p v} : ResultForm (execCtxctlKill p v s) := by
  dsimp only [execCtxctlKill]
  split
  · exact memForm_killTask hs
  · exact hs

theorem memForm_countCopy (hs : MemForm s) {e} : MemForm (s.countCopy e) :=
  memForm_ite hs (memForm_modCtr hs)

theorem memForm_engOn (hs : MemForm s) {id} : MemForm (s.engOn id) := by
  dsimp only [State.engOn]
  split
  · exact hs
  · split
    · exact memForm_ite (memForm_dropEng (memForm_countCopy hs)) hs
    · exact memForm_ite (memForm_dropEng (memForm_countCopy hs)) hs
    · exact memForm_ite (memForm_nodeOn hs) (memForm_tileOn hs)
    · exact memForm_nodeOn hs
    · exact memForm_cbloadOn hs
    · exact memForm_gemvOn hs
    · exact memForm_portOn hs
    · exact memForm_portOn hs
    · exact memForm_msendOn hs
    · exact memForm_mrecvOn hs
    · exact memForm_ite (memForm_dropEng hs) hs

theorem memForm_execEnginePiece (hs : MemForm s) : ResultForm (execEnginePiece s) := by
  dsimp only [execEnginePiece]
  split
  · exact hs
  · split
    · exact hs
    · exact memForm_engOn (by
        split
        · exact memForm_performPiece hs
        · exact hs)

theorem memForm_addFlush (hs : MemForm s) {e} : MemForm (s.addFlush e) :=
  memForm_ite (memForm_modEng hs) hs

theorem memForm_endAdd (hs : MemForm s) {e} : MemForm (s.endAdd e) := by
  dsimp only [State.endAdd]
  refine memForm_ite (memForm_modEng hs) (memForm_ite (memForm_pumpPort (memForm_dropEng (memForm_countCopy hs))) ?_)
  exact memForm_dropEng (memForm_countCopy hs)

theorem memForm_execEngineCompletionAdd (hs : MemForm s) : ResultForm (execEngineCompletionAdd s) := by
  dsimp only [execEngineCompletionAdd]
  split
  · exact hs
  · split
    · exact hs
    · split
      · exact hs
      · split
        · exact memForm_addFlush hs
        · split
          next t ht => exact (memForm_ctrAddNow hs).at ht
          next t ht => exact memForm_endAdd ((memForm_ctrAddNow hs).at ht)
          next t ht =>
            split
            · exact memForm_addFault ((memForm_ctrAddNow hs).at ht)
            · exact memForm_endAdd (memForm_addFault ((memForm_ctrAddNow hs).at ht))

/-! ### The splice (R47 to R49) -/

theorem memForm_execSplice (hs : MemForm s) {p asid page frame} : ResultForm (execSplice p asid page frame s) := by
  dsimp only [execSplice]
  split
  · exact memForm_state hs
  · split
    · exact memForm_state hs
    · split
      · exact hs
      · exact memForm_state (memForm_newId hs)

/-! ### Trap rings (R399) -/

theorem memForm_writeTrap (hs : MemForm s) {r pa} : MemForm (s.writeTrap r pa) :=
  memForm_state (memForm_modPart (memForm_ite hs (memForm_writePa hs)))

theorem memForm_execTrapRecordWrite (hs : MemForm s) : ResultForm (execTrapRecordWrite s) := by
  dsimp only [execTrapRecordWrite]
  split
  · exact hs
  · split
    · exact hs
    · exact memForm_writeTrap hs

/-! ### Thyme (R452, R453) -/

theorem memForm_pushThyme (hs : MemForm s) {strip e} : MemForm (s.pushThyme strip e) := hs

/-! ### Statistics (R307 to R309) -/

theorem memForm_execStatRecordMerge (hs : MemForm s) : ResultForm (execStatRecordMerge s) := by
  dsimp only [execStatRecordMerge]
  split
  · split
    · exact hs
    · split
      · exact hs
      · exact memForm_state hs
  · exact hs

theorem memForm_statAdds (hs : MemForm s) {r ia sl seed x} : OptionForm (s.statAdds r ia sl seed x) := by
  induction x generalizing s with
  | nil => exact hs
  | cons x rest ih =>
    obtain ⟨o, n⟩ := x
    dsimp only [State.statAdds]
    split
    next t ht => trivial
    next t ht => exact ih ((memForm_ctrAddNow hs).at ht)
    next t ht => exact ih (memForm_raise ((memForm_ctrAddNow hs).at ht))

theorem memForm_execStatRecordApply (hs : MemForm s) : ResultForm (execStatRecordApply s) := by
  dsimp only [execStatRecordApply]
  split
  · exact hs
  · split
    · exact hs
    · split
      · exact memForm_state (memForm_raise hs)
      · split
        · exact memForm_state (memForm_foldl (fun ht => memForm_raise ht) hs)
        · split
          · exact hs
          next t ht => exact memForm_state ((memForm_statAdds hs).at ht)

/-! ### Best effort and the current budget (R73, R451) -/

theorem memForm_execPowerPeriod (hs : MemForm s) {grants} : ResultForm (execPowerPeriod grants s) := by
  dsimp only [execPowerPeriod]
  split
  · exact memForm_state hs
  · exact hs

/-! ### XLATINV (R42) -/

theorem memForm_purgeReplicas (hs : MemForm s) {r} : MemForm (s.purgeReplicas r) := hs

theorem memForm_dropEntries (hs : MemForm s) {r} : MemForm (s.dropEntries r) := hs

theorem memForm_admitRange (hs : MemForm s) {r} : MemForm (s.admitRange r) :=
  memForm_memSys (memForm_modPart hs)

theorem memForm_xlatInv (hs : MemForm s) {p v} : OptionForm (s.xlatInv p v) := by
  dsimp only [State.xlatInv]
  split
  · trivial
  · exact memForm_admitRange (memForm_purgeReplicas (memForm_foldl (fun ht => memForm_demoteL1 ht)
        (memForm_dropEntries hs)))

theorem memForm_execXlatinv (hs : MemForm s) {p v} : ResultForm (execXlatinv p v s) := by
  have h : OptionForm (if (s.part p).live then s.xlatInv p v else none) := by
    split
    · exact memForm_xlatInv hs
    · trivial
  dsimp only [execXlatinv]
  split
  next t ht => exact h.at ht
  · exact hs

/-! ### FRAMESCRUB (R51) -/

theorem memForm_zeroPa (hs : MemForm s) {pa n} : MemForm (s.zeroPa pa n) := by
  dsimp only [State.zeroPa]
  refine memForm_ite hs ?_
  split
  · exact memForm_cover (memForm_hbm hs (Memory.wf_zero hs.hbm _ _))
  · exact memForm_ite (memForm_cover (memForm_ss hs (Memory.wf_zero hs.ss _ _))) hs

theorem memForm_performWrites (hs : MemForm s) {p asid x} : OptionForm (s.performWrites p asid x) := by
  induction x generalizing s with
  | nil => exact hs
  | cons r rest ih =>
    dsimp only [State.performWrites]
    split
    · split
      · exact ih hs
      · split
        · trivial
        next t ht => exact ih (memForm_opFault ((memForm_homeNow hs).at ht))
        next t ht => exact ih (memForm_performAt (memForm_dropReq ((memForm_homeNow hs).at ht)))
    · split
      · exact ih hs
      · split
        · trivial
        next t ht => exact ih (memForm_complete (memForm_dropOut (memForm_dropReq ((memForm_homeNow hs).at ht))))
        next t ht => exact ih (memForm_outsideAt (memForm_dropOut (memForm_dropReq ((memForm_homeNow hs).at ht))))
    · trivial
    · exact ih hs

theorem memForm_scrub (hs : MemForm s) {p v} : Scrub.Form (s.scrub p v) := by
  dsimp only [State.scrub]
  split
  · trivial
  · split
    · trivial
    · split
      · trivial
      · split
        · trivial
        · split
          · trivial
          next t ht =>
            exact memForm_modPart (memForm_zeroPa (memForm_foldl (fun ht => memForm_discardLine ht)
                ((memForm_performWrites hs).at ht)))

theorem memForm_execFramescrub (hs : MemForm s) {p w v} : ResultForm (execFramescrub p w v s) := by
  dsimp only [execFramescrub]
  split
  · exact hs
  · split
    · exact memForm_modPart hs
    · exact hs
    next t ht => exact memForm_modPart ((memForm_scrub hs).at ht)

/-! ### ASIDBASE, CLWAYS and SLICECFG.MODE (R37, R58, R69) -/

theorem memForm_execClwaysWrite (hs : MemForm s) {p cluster v} : ResultForm (execClwaysWrite p cluster v s) := by
  dsimp only [execClwaysWrite]
  split
  · exact hs
  · split
    · exact hs
    · exact hs
    next t ht => exact (memForm_writeMask hs).at ht
    next t ht => exact (memForm_writeMask hs).at ht

theorem memForm_changeMode (hs : MemForm s) {p m} : MemForm (s.changeMode p m) :=
  memForm_modPart (memForm_foldl (fun ht => memForm_flushLine ht) hs)

theorem memForm_execSlicecfgModeWrite (hs : MemForm s) {p v} : ResultForm (execSlicecfgModeWrite p v s) := by
  dsimp only [execSlicecfgModeWrite]
  split
  · exact hs
  · split
    · exact hs
    · split
      · exact hs
      · split
        · exact memForm_modPart hs
        · exact memForm_changeMode hs

/-! ### SCVAL and SCDONE (R406, R414) -/

theorem memForm_execScvalWrite (hs : MemForm s) {p w v} : ResultForm (execScvalWrite p w v s) := by
  dsimp only [execScvalWrite]
  split
  · exact memForm_modPart hs
  · exact hs

theorem memForm_answerSyscall (hs : MemForm s) {p c v bad} : MemForm (s.answerSyscall p c v bad) := by
  dsimp only [State.answerSyscall]
  split
  · exact memForm_finish hs
  · exact hs

theorem memForm_execScdoneWrite (hs : MemForm s) {p w v} : ResultForm (execScdoneWrite p w v s) := by
  dsimp only [execScdoneWrite]
  split
  · exact hs
  · split
    · exact hs
    · split
      · exact memForm_modPart hs
      · exact memForm_answerSyscall hs

/-! ### Plain registers (R8, R143, R268, R408, R409, R449) -/

theorem memForm_execSysFlagsrcRead (hs : MemForm s) {p c} : ResultForm (execSysFlagsrcRead p c s) := by
  dsimp only [execSysFlagsrcRead]
  split
  · exact memForm_state hs
  · exact memForm_modCtx (memForm_state hs)

theorem memForm_execHostLsdcfgWrite (hs : MemForm s) {v} : ResultForm (execHostLsdcfgWrite v s) := by
  dsimp only [execHostLsdcfgWrite]
  split
  · exact hs
  · exact memForm_state hs

theorem memForm_badLayoutReq (hs : MemForm s) {v} : MemForm (s.badLayoutReq v) := memForm_state hs

theorem memForm_writeMailbox (hs : MemForm s) {o v} : MemForm (s.writeMailbox o v) :=
  memForm_ite (memForm_ite hs (memForm_ite (memForm_badLayoutReq hs) (memForm_state hs))) (memForm_state hs)

/-! ### Results -/

theorem memForm_forEach (hs : MemForm s) {fr g} (hg : ∀ {t a1}, MemForm t → MemForm (g t a1)) :
    MemForm (s.forEach fr g) :=
  memForm_foldl (fun hu => hg hu) hs

theorem memForm_passWord (hs : MemForm s) {f g} (hg : ∀ {t a1 a2}, MemForm t → MemForm (g t a1 a2)) :
    MemForm (s.passWord f g) := by
  dsimp only [State.passWord]
  split
  · exact hs
  · exact memForm_sendTo (hg hs)

theorem memForm_triggerValues (hs : MemForm s) {f g} (hg : ∀ {t a1}, MemForm t → MemForm (g t a1).2) :
    MemForm (s.triggerValues f g) :=
  memForm_ite (memForm_sendTo hs) (memForm_sendTo (hg hs))

/-! ### Words that report or stop (R405) -/

theorem memForm_raiseEach (hs : MemForm s) {fr a cause} : MemForm (s.raiseEach fr a cause) :=
  memForm_forEach hs (fun ht => memForm_raise ht)

theorem memForm_execBreak (hs : MemForm s) {f} : ResultForm (execBreak f s) := by
  dsimp only [execBreak]
  split
  · exact hs
  · split
    · exact memForm_modCtx (memForm_halt (memForm_raiseEach hs))
    · exact memForm_sendTo (memForm_raiseEach hs)

theorem memForm_assertRecord (hs : MemForm s) {fr a} : MemForm (s.assertRecord fr a) := by
  dsimp only [State.assertRecord]
  refine memForm_ite (memForm_raise hs) ?_
  split
  · exact hs
  · exact memForm_raise hs

theorem memForm_execAssert (hs : MemForm s) {f} : ResultForm (execAssert f s) := by
  dsimp only [execAssert]
  split
  · exact hs
  · split
    · exact memForm_mismatch hs
    · exact memForm_passWord hs (fun ht => memForm_assertRecord ht)

theorem memForm_execHalt (hs : MemForm s) {f} : ResultForm (execHalt f s) := by
  dsimp only [execHalt]
  split
  · exact hs
  · exact memForm_halt (memForm_raise hs)

/-! ### TASKDONE, SYSCALL and TASKSPAWN (R401, R406, R410) -/

theorem memForm_execTaskdone (hs : MemForm s) {f} : ResultForm (execTaskdone f s) := by
  dsimp only [execTaskdone]
  split
  · exact memForm_ite (memForm_raise hs) hs
  · split
    · exact memForm_raise (memForm_ite (memForm_raise hs) hs)
    · exact memForm_modCtx (memForm_ite (memForm_raise hs) hs)

theorem memForm_chainedWord (hs : MemForm s) {f op fmtOk shape} : MemForm (s.chainedWord f op fmtOk shape) :=
  memForm_present (memForm_ite (memForm_formatRecord hs) hs)

/-! ### Reads (R407, R411) -/

theorem memForm_privTrap (hs : MemForm s) {fr f sub sel} : MemForm (s.privTrap fr f sub sel) :=
  memForm_sendTo (memForm_raise hs)

theorem memForm_readSels (hs : MemForm s) {fr sel x2 x3} : MemForm (s.readSels fr sel x2 x3).2 := by
  induction x2 generalizing s x3 with
  | zero => exact hs
  | succ n ih =>
    dsimp only [State.readSels]
    exact ih (memForm_ite (memForm_modCtx hs) hs)

theorem memForm_execRdsys (hs : MemForm s) {f} : ResultForm (execRdsys f s) := by
  dsimp only [execRdsys]
  split
  · exact memForm_sendTo hs
  · split
    · exact memForm_privTrap hs
    · exact memForm_triggerValues hs (fun ht => memForm_readSels ht)

/-! ### WRSYS (R407) -/

theorem memForm_writeSel (hs : MemForm s) {fr sel v} : OptionForm (s.writeSel fr sel v) := by
  dsimp only [State.writeSel]
  split
  · exact memForm_xlatInv hs
  · split
    · exact memForm_writeFresume hs
    · split <;> exact memForm_modCtx hs

theorem memForm_writeSels (hs : MemForm s) {fr sel x2 x3} : OptionSndForm (s.writeSels fr sel x2 x3) := by
  induction x2 generalizing s x3 with
  | nil => exact hs
  | cons v vs ih =>
    dsimp only [State.writeSels]
    split
    · trivial
    next t ht => exact ih ((memForm_writeSel hs).at ht)

theorem memForm_writeWays (hs : MemForm s) {fr f vs} : MemForm (s.writeWays fr f vs) :=
  memForm_present hs

theorem memForm_execWrsys (hs : MemForm s) {f} : ResultForm (execWrsys f s) := by
  dsimp only [execWrsys]
  split
  · exact hs
  · split
    · exact memForm_sendTo hs
    · split
      · exact memForm_ite (memForm_privTrap hs) (memForm_privTrap hs)
      · split
        · exact memForm_privTrap hs
        · split
          · exact memForm_mismatch hs
          · split
            · exact memForm_writeWays hs
            · split
              · exact memForm_sendTo hs
              · split
                · exact memForm_waitFiring hs
                next t ht => exact memForm_sendTo ((memForm_writeSels hs).at ht)

/-! ### Accesses of the sequencer (R437, R462) -/

theorem memForm_seqWait (hs : MemForm s) {k what unit c u ia} : MemForm (s.seqWait k what unit c u ia) :=
  memForm_state (memForm_raise hs)

theorem memForm_seqPoison (hs : MemForm s) {k unit c u a} : MemForm (s.seqPoison k unit c u a) :=
  memForm_pushTrap hs

theorem memForm_seqSpoiled (hs : MemForm s) {k pl ia} : MemForm (s.seqSpoiled k pl ia) :=
  memForm_raise hs

theorem memForm_seqBytes (hs : MemForm s) {k what ia n pl} : Seq.Form (s.seqBytes k what ia n pl) := by
  dsimp only [State.seqBytes]
  split
  · split
    · exact memForm_seqSpoiled hs
    · exact hs
  · split
    next t ht => exact (memForm_farRead hs).at ht
    · exact memForm_seqPoison (memForm_dropAsks hs)
    · exact memForm_dropAsks hs

theorem memForm_seqPut (hs : MemForm s) {k ia pl v} : MemForm (s.seqPut k ia pl v) := by
  dsimp only [State.seqPut]
  split
  · exact memForm_writeNow hs
  · exact memForm_sendOutside hs

theorem memForm_seqPlace (hs : MemForm s) {k what va n need} : Seq.Form (s.seqPlace k what va n need) := by
  dsimp only [State.seqPlace]
  split
  · exact memForm_modPart hs
  · split
    · exact hs
    · split
      · exact memForm_seqPoison hs
      · split
        · exact memForm_seqPoison hs
        · split
          · exact hs
          next t ht => exact (memForm_homeNow hs).at ht
          next t ht =>
            split
            · exact memForm_seqWait ((memForm_homeNow hs).at ht)
            · exact memForm_seqPoison ((memForm_homeNow hs).at ht)

theorem memForm_seqRead (hs : MemForm s) {k what va n} : Seq.Form (s.seqRead k what va n) := by
  dsimp only [State.seqRead]
  split
  next t ht => exact (memForm_seqPlace hs).at ht
  next t ht => exact (memForm_seqPlace hs).at ht
  next t ht =>
    split
    next u hu => exact (memForm_seqBytes ((memForm_seqPlace hs).at ht)).at hu
    next u hu => exact (memForm_seqBytes ((memForm_seqPlace hs).at ht)).at hu
    next u hu => exact (memForm_seqBytes ((memForm_seqPlace hs).at ht)).at hu

theorem memForm_seqModify (hs : MemForm s) {k what va need f} : Seq.Form (s.seqModify k what va need f) := by
  dsimp only [State.seqModify]
  split
  next t ht => exact (memForm_seqPlace hs).at ht
  next t ht => exact (memForm_seqPlace hs).at ht
  next t ht =>
    split
    next u hu => exact (memForm_seqBytes ((memForm_seqPlace hs).at ht)).at hu
    next u hu => exact (memForm_seqBytes ((memForm_seqPlace hs).at ht)).at hu
    next u hu => exact memForm_seqPut ((memForm_seqBytes ((memForm_seqPlace hs).at ht)).at hu)

theorem memForm_seqAdd (hs : MemForm s) {k what va n} : Seq.Form (s.seqAdd k what va n) := by
  dsimp only [State.seqAdd]
  split
  next t ht => exact (memForm_seqPlace hs).at ht
  next t ht => exact (memForm_seqPlace hs).at ht
  next t ht =>
    split
    next u hu => exact (memForm_ctrAddNow hs).at hu
    next u hu => exact (memForm_ctrAddNow hs).at hu
    next u hu => exact memForm_seqPoison ((memForm_ctrAddNow hs).at hu)

/-! ### Fetches (R392, R437) -/

theorem memForm_fetchLines (hs : MemForm s) {k what need x3 x4} : Fetch.Form (s.fetchLines k what need x3 x4) := by
  induction x3 generalizing s x4 with
  | nil => exact hs
  | cons x r ih =>
    obtain ⟨a, n⟩ := x
    dsimp only [State.fetchLines]
    split
    · exact hs
    · split
      · exact hs
      next t ht => exact memForm_seqWait ((memForm_homeNow hs).at ht)
      next t ht =>
        split
        · split
          next u hu => exact (memForm_farRead ((memForm_homeNow hs).at ht)).at hu
          · exact memForm_seqPoison (memForm_dropAsks ((memForm_homeNow hs).at ht))
          · exact ih ((memForm_homeNow hs).at ht)
        · split
          · exact memForm_seqSpoiled ((memForm_homeNow hs).at ht)
          · exact ih ((memForm_homeNow hs).at ht)

theorem memForm_fetch (hs : MemForm s) {k what va n need} : Fetch.Form (s.fetch k what va n need) := by
  dsimp only [State.fetch]
  split
  · exact memForm_modPart hs
  · split
    · exact hs
    · exact memForm_fetchLines hs

theorem memForm_fetchAll (hs : MemForm s) {k what base l acc} : FetchAllForm (s.fetchAll k what base l acc) := by
  induction l generalizing s acc with
  | nil => exact memForm_dropAsks hs
  | cons x l ih =>
    dsimp only [State.fetchAll]
    split
    next t ht => exact (memForm_fetch hs).at ht
    next t ht => exact memForm_dropAsks ((memForm_fetch hs).at ht)
    next t ht => exact ih ((memForm_fetch hs).at ht)

/-! ### The image of a section (R433, R434) -/

theorem memForm_fetchSection (hs : MemForm s) {k base sec} : Fetched.Form (s.fetchSection k base sec) := by
  dsimp only [State.fetchSection]
  split
  next t ht => exact (memForm_fetchAll hs).at ht
  next t _ ht => exact (memForm_fetchAll hs).at ht
  next t _ ht =>
    split
    next u hu => exact (memForm_fetchAll ((memForm_fetchAll hs).at ht)).at hu
    next u _ hu => exact (memForm_fetchAll ((memForm_fetchAll hs).at ht)).at hu
    next u _ hu =>
      split
      next v hv => exact (memForm_fetchAll ((memForm_fetchAll ((memForm_fetchAll hs).at ht)).at hu)).at hv
      next v _ hv => exact (memForm_fetchAll ((memForm_fetchAll ((memForm_fetchAll hs).at ht)).at hu)).at hv
      next v _ hv => exact (memForm_fetchAll ((memForm_fetchAll ((memForm_fetchAll hs).at ht)).at hu)).at hv

/-! ### Where blocks stand (R178, R355, R357, R430) -/

theorem memForm_writeSlots (hs : MemForm s) {pl xs} : MemForm (s.writeSlots pl xs) :=
  memForm_foldl (fun ht => memForm_setSlot ht) hs

theorem memForm_forgetFired (hs : MemForm s) {pl} : MemForm (s.forgetFired pl) :=
  memForm_modElem hs

theorem memForm_forgetPlace (hs : MemForm s) {p lsec num} : MemForm (s.forgetPlace p lsec num) := hs

/-! ### Reload and eviction (R393, R394) -/

theorem memForm_carryKeeps (hs : MemForm s) {p lsec src dst} : MemForm (s.carryKeeps p lsec src dst) := hs

theorem memForm_restoreKeeps (hs : MemForm s) {p lsec b dst} : MemForm (s.restoreKeeps p lsec b dst) := hs

theorem memForm_dropSaved (hs : MemForm s) {p lsec b} : MemForm (s.dropSaved p lsec b) := hs

theorem memForm_standBlock (hs : MemForm s) {p lsec b pl xs} : MemForm (s.standBlock p lsec b pl xs) := by
  dsimp only [State.standBlock]
  exact memForm_sendHeldFor (memForm_dropSaved (memForm_restoreKeeps
      (memForm_forgetFired (memForm_modEntry (memForm_writeSlots hs)))))

theorem memForm_evictBlock (hs : MemForm s) {p lsec b pl} : MemForm (s.evictBlock p lsec b pl) := by
  dsimp only [State.evictBlock]
  exact memForm_forgetPlace (memForm_modEntry (memForm_forgetFired (memForm_writeSlots
      (memForm_ite hs (memForm_carryKeeps hs)))))

theorem memForm_tellCaches (hs : MemForm s) {p lsec b x} : MemForm (s.tellCaches p lsec b x) := by
  induction x generalizing s with
  | nil => exact hs
  | cons e r ih =>
    dsimp only [State.tellCaches]
    exact memForm_ite (ih (memForm_ite (memForm_draw hs) (memForm_state (memForm_draw hs)))) (ih hs)

theorem memForm_evictOn (hs : MemForm s) {p lsec b e wanted} : MemForm (s.evictOn p lsec b e wanted) := by
  dsimp only [State.evictOn]
  exact memForm_ite (memForm_ite (memForm_forgetPlace hs) (memForm_evictBlock (memForm_forgetPlace hs)))
      (memForm_ite (memForm_cancelEvict hs) (memForm_ite (memForm_tellCaches (memForm_modEntry hs))
      (memForm_modEntry hs)))

theorem memForm_execBlockEvict (hs : MemForm s) : ResultForm (execBlockEvict s) := by
  dsimp only [execBlockEvict]
  split
  · exact hs
  · split
    · exact hs
    · exact memForm_evictOn hs

/-! ### Load (R392, R395) -/

theorem memForm_giveUnits (hs : MemForm s) {p lsec} : OptionForm (s.giveUnits p lsec) := by
  dsimp only [State.giveUnits]
  split
  · trivial
  · split
    · exact hs
    · split
      · trivial
      · exact memForm_modSection (memForm_state hs)

theorem memForm_giveAll (hs : MemForm s) {p x} : OptionForm (s.giveAll p x) := by
  induction x generalizing s with
  | nil => exact hs
  | cons y r ih =>
    dsimp only [State.giveAll]
    split
    · trivial
    next t ht => exact ih ((memForm_giveUnits hs).at ht)

theorem memForm_newSection (hs : MemForm s) {p lsec index gen sec recs i} :
    MemForm (s.newSection p lsec index gen sec recs i) := hs

theorem memForm_failLaunch (hs : MemForm s) {p r sub} : MemForm (s.failLaunch p r sub) :=
  memForm_modRun (memForm_raise hs)

theorem memForm_acquire (hs : MemForm s) {p r sec} : MemForm (s.acquire p r sec) := by
  dsimp only [State.acquire]
  split
  · split
    · exact memForm_failLaunch hs
    · exact memForm_ite hs (memForm_modRun hs)
  · split
    · exact memForm_failLaunch hs
    · split
      · exact hs
      · split
        next t ht => exact (memForm_fetchSection hs).at ht
        next t ht => exact memForm_failLaunch ((memForm_fetchSection hs).at ht)
        next t ht =>
          split
          · exact memForm_failLaunch ((memForm_fetchSection hs).at ht)
          · refine memForm_ite ((memForm_fetchSection hs).at ht) ?_
            exact memForm_modRun (memForm_newSection ((memForm_fetchSection hs).at ht))

theorem memForm_fetchSlots (hs : MemForm s) {p r x b} : FetchSlotsForm (s.fetchSlots p r x b) := by
  dsimp only [State.fetchSlots]
  split
  · split
    next t ht => exact (memForm_fetch hs).at ht
    next t ht => exact memForm_failLaunch (memForm_dropAsks ((memForm_fetch hs).at ht))
    next t ht => exact memForm_dropAsks ((memForm_fetch hs).at ht)
  · exact memForm_failLaunch hs

theorem memForm_loadBlock (hs : MemForm s) {p r x b pl} : MemForm (s.loadBlock p r x b pl) := by
  dsimp only [State.loadBlock]
  split
  next t ht => exact (memForm_fetchSlots hs).at ht
  next t ht => exact memForm_standBlock ((memForm_fetchSlots hs).at ht)

theorem memForm_execBlockReload (hs : MemForm s) : ResultForm (execBlockReload s) := by
  dsimp only [execBlockReload]
  split
  · exact hs
  · split
    · split
      · exact hs
      · exact memForm_loadBlock hs
    · exact hs

theorem memForm_placeBlocks (hs : MemForm s) {p r lsec} : MemForm (s.placeBlocks p r lsec) := by
  dsimp only [State.placeBlocks]
  split
  · exact hs
  · exact memForm_foldl (fun ht => by
      split
      · exact ht
      · split
        · exact memForm_ite (memForm_loadBlock ht) ht
        · exact ht) hs

theorem memForm_rebase (hs : MemForm s) {p lsec} : MemForm (s.rebase p lsec) :=
  memForm_modSection hs

/-! ### Schedule tables (R178, R179) -/

theorem memForm_readTable (hs : MemForm s) {k base secCount x3 x4 x5} :
    TableRead.Form (s.readTable k base secCount x3 x4 x5) := by
  induction x3 generalizing s x4 x5 with
  | zero => exact hs
  | succ n ih =>
    dsimp only [State.readTable]
    split
    next t ht => exact (memForm_fetch hs).at ht
    next t ht => exact (memForm_fetch hs).at ht
    next t ht =>
      split
      · exact (memForm_fetch hs).at ht
      · split
        · exact (memForm_fetch hs).at ht
        · exact ih ((memForm_fetch hs).at ht)

theorem memForm_readTables (hs : MemForm s) {k base secCount first x4 x5 x6 x7} :
    MemForm (s.readTables k base secCount first x4 x5 x6 x7).2 := by
  induction x4 generalizing s x5 x6 x7 with
  | zero => exact hs
  | succ n ih =>
    dsimp only [State.readTables]
    split
    next t ht => exact (memForm_readTable hs).at ht
    next t ht => exact ih ((memForm_readTable hs).at ht)

theorem memForm_takeTables (hs : MemForm s) {p r take} : MemForm (s.takeTables p r take) := by
  dsimp only [State.takeTables]
  split
  next t ht => exact memForm_snd (memForm_readTables hs) ht
  next t ht =>
    exact memForm_modRun (memForm_foldl (fun ht => memForm_raise ht) (memForm_snd (memForm_readTables hs) ht))

theorem memForm_loadTables (hs : MemForm s) {p r} : MemForm (s.loadTables p r) :=
  memForm_takeTables hs

theorem memForm_countTables (hs : MemForm s) {p r} : MemForm (s.countTables p r) :=
  memForm_takeTables hs

theorem memForm_loadOn (hs : MemForm s) {p r} : MemForm (s.loadOn p r) := by
  dsimp only [State.loadOn]
  refine memForm_ite (memForm_acquire hs) (memForm_ite (memForm_ite hs (memForm_failLaunch hs)) ?_)
  split
  · exact memForm_ite hs (memForm_failLaunch hs)
  · split
    · exact hs
    next t ht =>
      have h : MemForm t := (memForm_giveAll hs).at ht
      have hl : MemForm (r.lsecs.foldl (fun t l => (t.rebase p l).placeBlocks p r l) t) :=
        memForm_foldl (fun hu => memForm_placeBlocks (memForm_rebase hu)) h
      exact memForm_ite h (memForm_ite hl (memForm_ite (memForm_loadTables hl) (memForm_modRun hl)))

theorem memForm_execSectionLoad (hs : MemForm s) : ResultForm (execSectionLoad s) := by
  dsimp only [execSectionLoad]
  split
  · exact hs
  · split
    · exact hs
    · exact memForm_loadOn hs

/-! ### Starting a launch (R181, R390) -/

theorem memForm_modHeld (hs : MemForm s) {p q l f} : MemForm (s.modHeld p q l f) :=
  memForm_modPart hs

theorem memForm_writeTcb (hs : MemForm s) {k what tcb v} : Seq.Form (s.writeTcb k what tcb v) :=
  memForm_seqModify hs

theorem memForm_markHead (hs : MemForm s) {p h} : MemForm (s.markHead p h) := by
  dsimp only [State.markHead]
  refine memForm_ite hs ?_
  split
  next t ht => exact (memForm_writeTcb hs).at ht
  next t ht => exact memForm_modHeld ((memForm_writeTcb hs).at ht)
  next t ht => exact memForm_modHeld ((memForm_writeTcb hs).at ht)

theorem memForm_testTcb (hs : MemForm s) {k tcb} : Seq.Form (s.testTcb k tcb) := by
  dsimp only [State.testTcb]
  split
  next t ht => exact (memForm_seqPlace hs).at ht
  next t ht => exact (memForm_seqPlace hs).at ht
  next t ht =>
    split
    next u hu => exact (memForm_seqBytes ((memForm_seqPlace hs).at ht)).at hu
    next u hu => exact (memForm_seqBytes ((memForm_seqPlace hs).at ht)).at hu
    next u hu => exact (memForm_seqBytes ((memForm_seqPlace hs).at ht)).at hu

theorem memForm_startable (hs : MemForm s) {p x1 x2} : MemForm (s.startable p x1 x2).2 := by
  induction x1 generalizing s x2 with
  | nil => exact hs
  | cons q r ih =>
    dsimp only [State.startable]
    split
    · exact ih hs
    · refine memForm_ite_snd (ih hs) (memForm_ite_snd (ih hs) (memForm_ite_snd (ih hs) (memForm_ite_snd (ih hs) ?_)))
      split
      next t ht => exact ih ((memForm_testTcb hs).at ht)
      next t ht => exact ih (memForm_modHeld ((memForm_testTcb hs).at ht))
      next t ht =>
        refine memForm_ite_snd (ih ((memForm_testTcb hs).at ht)) ?_
        exact ih (memForm_modHeld ((memForm_testTcb hs).at ht))

theorem memForm_startLaunch (hs : MemForm s) {p h} : MemForm (s.startLaunch p h) :=
  memForm_modPart hs

theorem memForm_execLaunchStart (hs : MemForm s) : ResultForm (execLaunchStart s) := by
  dsimp only [execLaunchStart]
  split
  · exact hs
  · generalize hm : List.foldl _ s _ = u
    have hu : MemForm u := hm ▸ memForm_foldl (fun ht => memForm_markHead ht) hs
    split
    · exact hu
    · split
      · exact memForm_startable hu
      · split
        · exact memForm_startLaunch (memForm_startable hu)
        · split
          next t ht => exact (memForm_writeTcb (memForm_startable hu)).at ht
          next t ht => exact memForm_startLaunch ((memForm_writeTcb (memForm_startable hu)).at ht)
          next t ht => exact memForm_startLaunch ((memForm_writeTcb (memForm_startable hu)).at ht)

/-! ### Homes (R77, R128, R358) -/

theorem memForm_taskHome (hs : MemForm s) {p x} : MemForm (s.taskHome p x).2 := by
  dsimp only [State.taskHome]
  split
  · exact hs
  · exact hs
  · exact memForm_pickHome hs

/-! ### Dispatch (R174, R176, R177, R391) -/

theorem memForm_startTokens (hs : MemForm s) {p lsec id wid} : MemForm (s.startTokens p lsec id wid) := by
  dsimp only [State.startTokens]
  split
  · exact hs
  · exact memForm_foldl (fun ht => by
      split
      · exact ht
      · exact memForm_dispatchToken ht) hs

theorem memForm_dispatchTask (hs : MemForm s) {p r lsec home wid} :
    OptionSndForm (s.dispatchTask p r lsec home wid) := by
  dsimp only [State.dispatchTask]
  split
  next id t _ hp _ =>
    exact memForm_startTokens (memForm_takeStreams (memForm_state (memForm_snd (memForm_pickCtx hs) hp)))
  · trivial

theorem memForm_passOver (hs : MemForm s) {p r could} : MemForm (s.passOver p r could) :=
  memForm_modPart hs

theorem memForm_execDispatch (hs : MemForm s) : ResultForm (execDispatch s) := by
  dsimp only [execDispatch]
  split
  · split
    · exact hs
    · split
      · split
        next t ht =>
          split
          next u hu => exact memForm_passOver ((memForm_dispatchTask (memForm_snd (memForm_taskHome hs) ht)).at hu)
          · exact hs
        next t ht => exact hs
      · exact hs
  · exact hs

theorem memForm_execSchedTableDispatch (hs : MemForm s) : ResultForm (execSchedTableDispatch s) := by
  dsimp only [execSchedTableDispatch]
  split
  · exact hs
  · split
    · exact hs
    · split
      · split
        · exact hs
        · split
          · exact hs
          · split
            · exact hs
            next t ht => exact memForm_modRun (memForm_modPart ((memForm_dispatchTask hs).at ht))
      · exact hs

/-! ### The end of a section (R176) -/

theorem memForm_releaseNodes (hs : MemForm s) {p lsec order} : MemForm (s.releaseNodes p lsec order) :=
  memForm_ite hs (memForm_modSection (memForm_foldl (fun ht => memForm_forgetPlace ht) (memForm_state hs)))

theorem memForm_execReleaseIslands (hs : MemForm s) : ResultForm (execReleaseIslands s) := by
  dsimp only [execReleaseIslands]
  split
  · exact hs
  · split
    · exact hs
    · exact memForm_modRun (memForm_foldl (fun ht => memForm_releaseNodes ht) hs)

/-! ### Complete (R182, R462) -/

theorem memForm_seqThen {r : Seq Nat} (hr : r.Form) {next : State → State} (hn : ∀ {t}, MemForm t → MemForm (next t)) :
    MemForm (seqThen r next) := by
  cases r with
  | wait t => exact hr
  | skip t => exact hn hr
  | ok v t => exact hn hr

theorem memForm_toStep (hs : MemForm s) {p r n} : MemForm (s.toStep p r n) :=
  memForm_modRun hs

theorem memForm_releaseSucc (hs : MemForm s) {p r i n} : MemForm (s.releaseSucc p r i n) := by
  dsimp only [State.releaseSucc]
  split
  next t ht => exact (memForm_seqRead hs).at ht
  next t ht => exact memForm_toStep ((memForm_seqRead hs).at ht)
  next t ht =>
    split
    next u hu => exact (memForm_seqModify ((memForm_seqRead hs).at ht)).at hu
    next u hu => exact memForm_toStep ((memForm_seqModify ((memForm_seqRead hs).at ht)).at hu)
    next u hu =>
      exact memForm_toStep (memForm_ite (memForm_pushThyme ((memForm_seqModify ((memForm_seqRead hs).at ht)).at hu))
          ((memForm_seqModify ((memForm_seqRead hs).at ht)).at hu))

theorem memForm_addDone (hs : MemForm s) {p r} : MemForm (s.addDone p r) := by
  dsimp only [State.addDone]
  split
  next t ht => exact (memForm_seqAdd hs).at ht
  next t ht => exact memForm_toStep ((memForm_seqAdd hs).at ht)
  next t ht => exact memForm_toStep ((memForm_seqAdd hs).at ht)

theorem memForm_completeStep (hs : MemForm s) {p r} : MemForm (s.completeStep p r) := by
  dsimp only [State.completeStep]
  split
  · exact memForm_ite (memForm_countTables hs) (memForm_ite (memForm_toStep hs)
      (memForm_seqThen (memForm_seqModify hs) fun ht => memForm_toStep ht))
  · exact memForm_seqThen (memForm_writeTcb hs) fun ht => memForm_toStep ht
  · split
    next t ht => exact (memForm_seqRead hs).at ht
    next t ht => exact memForm_toStep ((memForm_seqRead hs).at ht)
    next v t ht => exact memForm_toStep ((memForm_seqRead hs).at ht)
  · exact memForm_ite (memForm_toStep hs) (memForm_addDone hs)
  · exact memForm_modPart hs
  · exact memForm_ite (memForm_releaseSucc hs) (memForm_toStep hs)

theorem memForm_execLaunchComplete (hs : MemForm s) : ResultForm (execLaunchComplete s) := by
  dsimp only [execLaunchComplete]
  split
  · exact hs
  · split
    · exact hs
    · exact memForm_completeStep hs

/-! ### The steps (R361) -/

theorem memForm_beginMove (hs : MemForm s) {p lsec block pair dst asked} :
    MemForm (s.beginMove p lsec block pair dst asked) := by
  dsimp only [State.beginMove]
  split
  · exact hs
  · exact memForm_modPart (memForm_foldl (fun ht => memForm_modEntry ht) hs)

theorem memForm_askMove (hs : MemForm s) {p} : MemForm (s.askMove p) :=
  memForm_ite (memForm_modPart hs) (memForm_beginMove (memForm_modPart hs))

theorem memForm_pumpMove (hs : MemForm s) {p} : MemForm (s.pumpMove p) :=
  memForm_ite (memForm_askMove hs) hs

theorem memForm_execBlkmove (hs : MemForm s) {p v} : ResultForm (execBlkmove p v s) := by
  dsimp only [execBlkmove]
  split
  · exact hs
  · split
    · exact memForm_askMove (memForm_modPart hs)
    · exact memForm_modPart (memForm_modPart hs)

theorem memForm_carryStore (hs : MemForm s) {src dst} : MemForm (s.carryStore src dst) :=
  memForm_es hs (Memory.wf_foldl_put (Memory.wf_zero hs.es _ _))

theorem memForm_carryTokens (hs : MemForm s) {p lsec b dst} : MemForm (s.carryTokens p lsec b dst) := hs

theorem memForm_installBlock (hs : MemForm s) {p m b} : MemForm (s.installBlock p m b) := by
  dsimp only [State.installBlock]
  split
  · exact hs
  · exact memForm_modPart (memForm_modEntry (memForm_modElem (memForm_forgetFired
        (memForm_carryTokens (memForm_writeSlots (memForm_writeSlots hs))))))

theorem memForm_installMove (hs : MemForm s) {p m} : MemForm (s.installMove p m) := by
  dsimp only [State.installMove]
  exact memForm_modPart (memForm_foldl (fun ht => memForm_tellCaches ht)
      (memForm_foldl (fun ht => memForm_installBlock ht) (memForm_ite
      (memForm_carryStore (memForm_foldl (fun ht => memForm_carryKeeps ht) hs))
      (memForm_foldl (fun ht => memForm_carryKeeps ht) hs))))

theorem memForm_execMoveInstall (hs : MemForm s) : ResultForm (execMoveInstall s) := by
  dsimp only [execMoveInstall]
  split
  · split
    · exact memForm_installMove hs
    · exact hs
  · exact hs

theorem memForm_execMoveSweep (hs : MemForm s) : ResultForm (execMoveSweep s) := by
  dsimp only [execMoveSweep]
  split
  · split
    · exact hs
    · exact memForm_modPart (memForm_foldl (fun ht => memForm_forgetPlace ht) hs)
  · exact hs

theorem memForm_execMoveFree (hs : MemForm s) : ResultForm (execMoveFree s) := by
  dsimp only [execMoveFree]
  split
  · split
    · exact hs
    · exact memForm_pumpMove (memForm_modPart hs)
  · exact hs

/-! ### Settling (R413, step 2) -/

theorem memForm_dropPacket (hs : MemForm s) {id} : MemForm (s.dropPacket id) := hs

theorem memForm_land (hs : MemForm s) {t} : MemForm (s.land t) :=
  memForm_arrive (memForm_ejectToken (memForm_dropPacket hs))

theorem memForm_landMsg (hs : MemForm s) {m} : MemForm (s.landMsg m) :=
  memForm_state (memForm_countEjected (memForm_dropPacket hs))

theorem memForm_settleRound (hs : MemForm s) {p} : MemForm (s.settleRound p) :=
  memForm_foldl (fun ht => memForm_landMsg ht) (memForm_foldl (fun ht => memForm_land ht) hs)

theorem memForm_recallMsgs (hs : MemForm s) {p} : MemForm (s.recallMsgs p) :=
  memForm_foldl (fun ht => memForm_setMsg (memForm_dropPacket ht)) hs

theorem memForm_withdraw (hs : MemForm s) {p} : MemForm (s.withdraw p) :=
  memForm_recallMsgs (memForm_state hs)

/-! ### The gate -/

theorem memForm_gate (hs : MemForm s) {p} : MemForm (s.gate p) :=
  memForm_modPart hs

theorem memForm_ungate (hs : MemForm s) {p} : MemForm (s.ungate p) := by
  dsimp only [State.ungate]
  exact memForm_pumpMove (memForm_injectMsgs (memForm_pumpAll (memForm_pumpFresumes
      (memForm_foldl (fun ht => memForm_answerSyscall ht) (memForm_modPart hs)))))

/-! ### Save and restore (R413, step 3) -/

theorem memForm_unload (hs : MemForm s) {p} : MemForm (s.unload p) := by
  exact memForm_modPart (memForm_es hs (Memory.wf_filter hs.es _))

theorem memForm_restoreSpoiled (hs : MemForm s) {p} : MemForm (s.restoreSpoiled p) :=
  memForm_foldl (fun ht => memForm_foldl (fun hu => memForm_writeSlots hu) ht) (memForm_raise hs)

theorem memForm_reload (hs : MemForm s) {p v} : MemForm (s.reload p v) := by
  dsimp only [State.reload]
  refine memForm_ite (memForm_restoreSpoiled ?_) ?_ <;> exact memForm_modPart
      (memForm_es hs (Memory.wf_foldl_put hs.es))

/-! ### PCTL (R412) -/

theorem memForm_endPctl (hs : MemForm s) {p st} : MemForm (s.endPctl p st) :=
  memForm_modPart hs

theorem memForm_takePctl (hs : MemForm s) {p v} : MemForm (s.takePctl p v) :=
  memForm_modPart hs

theorem memForm_startPctl (hs : MemForm s) {p} : MemForm (s.startPctl p) := by
  dsimp only [State.startPctl]
  split
  · exact memForm_ite (memForm_endPctl hs) (memForm_gate hs)
  · refine memForm_ite (memForm_endPctl hs) ?_
    exact memForm_ungate (memForm_endPctl (memForm_reload (memForm_modPart hs)))
  · exact memForm_endPctl hs

theorem memForm_execPctlSave (hs : MemForm s) {p v} : ResultForm (execPctlSave p v s) := by
  dsimp only [execPctlSave]
  split
  · exact hs
  · exact memForm_ite (memForm_takePctl hs) (memForm_startPctl (memForm_takePctl hs))

theorem memForm_spill (hs : MemForm s) {pa x} : MemForm (s.spill pa x) := by
  induction x generalizing s with
  | zero => exact hs
  | succ n'1 ih =>
    dsimp only [State.spill]
    exact ih (memForm_writePa hs)

theorem memForm_endSave (hs : MemForm s) {p} : MemForm (s.endSave p) := by
  dsimp only [State.endSave]
  exact memForm_endPctl (memForm_spill (memForm_draw (n := 2 ^ 20) (memForm_modPart (memForm_unload hs))))

theorem memForm_execPctlRestore (hs : MemForm s) {p v} : ResultForm (execPctlRestore p v s) := by
  dsimp only [execPctlRestore]
  split
  · exact hs
  · exact memForm_ite (memForm_takePctl hs) (memForm_startPctl (memForm_takePctl hs))

/-! ### Strips and the journal (R416 to R421) -/

theorem memForm_setStrip (hs : MemForm s) {st state part} : MemForm (s.setStrip st state part) := hs

theorem memForm_setStrips (hs : MemForm s) {sts state part} : MemForm (s.setStrips sts state part) :=
  memForm_foldl (fun ht => memForm_setStrip ht) hs

theorem memForm_dirty (hs : MemForm s) {sts} : MemForm (s.dirty sts) :=
  memForm_foldl (fun ht => memForm_state ht) hs

theorem memForm_journal (hs : MemForm s) {l phase state} : MemForm (s.journal l phase state) :=
  memForm_pushThyme (memForm_state hs)

theorem memForm_setLayState (hs : MemForm s) {n} : MemForm (s.setLayState n) := hs

theorem memForm_enterState (hs : MemForm s) {l n} : MemForm (s.enterState l n).1 :=
  memForm_state (memForm_setLayState (memForm_journal hs))

/-! ### Requests (R418, R419) -/

theorem memForm_report (hs : MemForm s) {v st} : MemForm (s.report v st) := memForm_state hs

theorem memForm_afterLayout (hs : MemForm s) {p} : MemForm (s.afterLayout p) := by
  dsimp only [State.afterLayout]
  refine memForm_ite ?_ ?_
  · exact memForm_startPctl (by
      split
      · exact memForm_ite (memForm_changeMode hs) hs
      · exact hs)
  · split
    · exact memForm_ite (memForm_changeMode hs) hs
    · exact hs

theorem memForm_endLayout (hs : MemForm s) {l} : MemForm (s.endLayout l) :=
  memForm_foldl (fun ht => memForm_afterLayout ht) (memForm_state (memForm_journal hs))

theorem memForm_accept (hs : MemForm s) {v} : MemForm (s.accept v).1 :=
  memForm_enterState (memForm_state hs)

theorem memForm_request_ (hs : MemForm s) {op v go} (hgo : ∀ {x}, MemForm x.1 → MemForm (go x)) :
    MemForm (s.request_ op v go) :=
  memForm_ite hs (memForm_ite (memForm_report hs) (hgo (memForm_accept hs)))

theorem memForm_forgetAka (hs : MemForm s) {p} : MemForm (s.forgetAka p) :=
  memForm_modPart hs

theorem memForm_execShrink (hs : MemForm s) {v} : ResultForm (execShrink v s) :=
  memForm_request_ hs (fun ht => memForm_gate (memForm_enterState (memForm_setStrips (memForm_forgetAka ht))))

/-! ### The rehash window (R425, R426) -/

theorem memForm_reroute (hs : MemForm s) {p} : MemForm (s.reroute p) := hs

theorem memForm_moveSs (hs : MemForm s) {src dst} : MemForm (s.moveSs src dst) :=
  memForm_ss hs (Memory.wf_foldl_put (Memory.wf_zero hs.ss _ _))

theorem memForm_startRehash (hs : MemForm s) {l m ss} : MemForm (s.startRehash l m ss) := by
  dsimp only [State.startRehash]
  exact memForm_enterState (memForm_reroute (memForm_modPart (memForm_purgeReplicas
      (memForm_dropEntries (memForm_foldl (fun ht => memForm_moveSs ht) hs)))))

theorem memForm_roomAt (hs : MemForm s) {p sl asid line} : OptionForm (s.roomAt p sl asid line) := by
  dsimp only [State.roomAt]
  split
  · exact hs
  · split
    · trivial
    · refine memForm_ite (memForm_writeBack (memForm_dropL2 (memForm_ite (memForm_recallL1 hs) hs))) ?_
      exact memForm_dropL2 (memForm_ite (memForm_recallL1 hs) hs)

theorem memForm_moveLine (hs : MemForm s) {p o x} : MemForm (s.moveLine p o x) := by
  dsimp only [State.moveLine]
  refine memForm_ite hs ?_
  split
  · exact hs
  next t ht =>
    split
    · exact (memForm_roomAt hs).at ht
    · exact memForm_memSys ((memForm_roomAt hs).at ht)

theorem memForm_moveRegs (hs : MemForm s) {p o} : MemForm (s.moveRegs p o) := hs

theorem memForm_execRehashWalk (hs : MemForm s) : ResultForm (execRehashWalk s) := by
  dsimp only [execRehashWalk]
  split
  · exact hs
  · split
    · exact hs
    · exact memForm_moveRegs (memForm_foldl (fun ht => memForm_moveLine ht) hs)

/-! ### Joining (R422, R429) -/

theorem memForm_scrubStrip (hs : MemForm s) {st} : MemForm (s.scrubStrip st) :=
  ⟨hs.hbm, Memory.wf_zero hs.es _ _, Memory.wf_zero hs.cs _ _, Memory.wf_zero hs.ss _ _⟩

theorem memForm_join (hs : MemForm s) {l} : MemForm (s.join l) :=
  memForm_startRehash (memForm_modPart (memForm_setStrips (memForm_enterState hs)))

theorem memForm_execStripScrubDone (hs : MemForm s) : ResultForm (execStripScrubDone s) := by
  dsimp only [execStripScrubDone]
  split
  · exact hs
  · split
    · exact hs
    · split
      · exact memForm_join (memForm_scrubStrip hs)
      · exact memForm_state (memForm_scrubStrip hs)

theorem memForm_execStripZeroDone (hs : MemForm s) : ResultForm (execStripZeroDone s) := by
  have h := memForm_scrubStrip hs (st := s.run.subj.a)
  dsimp only [execStripZeroDone]
  split
  · exact hs
  · exact memForm_setStrip (memForm_cover (memForm_hbm h (Memory.wf_zero h.hbm _ _)))

/-! ### Leaving (R422, R424) -/

theorem memForm_handOne (hs : MemForm s) {p x} : MemForm (s.handOne p x) :=
  memForm_modCtx hs

theorem memForm_handover (hs : MemForm s) {p} : MemForm (s.handover p) :=
  memForm_state (memForm_foldl (fun ht => memForm_handOne ht) hs)

theorem memForm_moveChannel (hs : MemForm s) {c unit} : MemForm (s.moveChannel c unit) :=
  memForm_forgetPlace (memForm_modEntry (memForm_state hs))

theorem memForm_resite (hs : MemForm s) {p} : MemForm (s.resite p) := hs

theorem memForm_migrate (hs : MemForm s) {l} : MemForm (s.migrate l) := by
  dsimp only [State.migrate]
  refine memForm_ite hs ?_
  split
  · split
    · exact memForm_beginMove hs
    · exact memForm_evictOn hs
  · split
    · split
      · exact memForm_moveChannel hs
      · exact hs
    · exact memForm_ite (memForm_foldl (fun ht => memForm_evictL1 ht) hs)
          (memForm_ite hs (memForm_startRehash (memForm_resite hs)))

theorem memForm_commit (hs : MemForm s) {l} : MemForm (s.commit l) := by
  dsimp only [State.commit]
  exact memForm_endLayout (memForm_dirty (memForm_modPart (memForm_setLayState (memForm_journal hs))))

/-! ### Defragmentation (R431, R432) -/

theorem memForm_moveCs (hs : MemForm s) {src dst} : MemForm (s.moveCs src dst) :=
  memForm_cs hs (Memory.wf_foldl_put (Memory.wf_zero hs.cs _ _))

theorem memForm_defragCopy (hs : MemForm s) {l} : MemForm (s.defragCopy l) := by
  dsimp only [State.defragCopy]
  exact memForm_memSys (memForm_foldl (fun ht => memForm_flushLine ht)
      (memForm_foldl (fun ht => memForm_moveSs ht) (memForm_foldl (fun ht => memForm_moveCs ht) hs)))

theorem memForm_defragCommit (hs : MemForm s) {l} : MemForm (s.defragCommit l) := by
  dsimp only [State.defragCommit]
  exact memForm_state (memForm_modPart (memForm_setStrips (memForm_setStrips
      (memForm_dropEntries (memForm_setLayState (memForm_journal hs))))))

theorem memForm_defragRestore (hs : MemForm s) {l} : MemForm (s.defragRestore l) := by
  dsimp only [State.defragRestore]
  split
  · exact memForm_enterState hs
  · exact memForm_state (memForm_ungate (memForm_reload (memForm_enterState hs)))

/-! ### Sage's steps -/

theorem memForm_execLayoutCommit (hs : MemForm s) : ResultForm (execLayoutCommit s) := by
  dsimp only [execLayoutCommit]
  split
  · exact hs
  · split
    · exact hs
    · split
      · exact memForm_migrate hs
      · split
        · exact hs
        · split
          · exact memForm_commit hs
          · exact memForm_enterState hs
      · split
        · exact memForm_commit hs
        · exact hs
      · exact memForm_defragCommit (memForm_defragCopy hs)
      · exact memForm_defragRestore hs
      · exact memForm_endLayout (memForm_dirty hs)
      · exact hs

theorem memForm_settled (hs : MemForm s) {p} : MemForm (s.settled p) := by
  dsimp only [State.settled]
  split
  · refine memForm_ite (memForm_endSave (memForm_withdraw hs)) (memForm_ite
        (memForm_ungate (memForm_handover (memForm_withdraw hs))) ?_)
    exact memForm_enterState (memForm_modPart (memForm_unload (memForm_withdraw hs)))
  · exact memForm_endSave (memForm_withdraw hs)

theorem memForm_execSaveSettleRound (hs : MemForm s) : ResultForm (execSaveSettleRound s) := by
  dsimp only [execSaveSettleRound]
  split
  · exact hs
  · split
    · exact memForm_settleRound hs
    · exact memForm_settled (memForm_settleRound hs)

theorem memForm_execSageWatchdogRecovery (hs : MemForm s) : ResultForm (execSageWatchdogRecovery s) := by
  dsimp only [execSageWatchdogRecovery]
  split
  · split
    · exact memForm_state hs
    · exact hs
  · split
    · exact memForm_state hs
    · exact hs

/-! ### Resets (R444) -/

theorem memForm_noImage (hs : MemForm s) : MemForm (s.noImage) := hs

theorem memForm_execColdReset {a b} : ResultForm (execColdReset a b s) := by
  dsimp only [execColdReset]
  split
  · exact memForm_state (memForm_state (memForm_cold (d := s.dev.devid) (b := s.dev.board)))
  · exact memForm_state (memForm_noImage (memForm_state (memForm_cold (d := s.dev.devid) (b := s.dev.board))))

theorem memForm_rollForward (hs : MemForm s) : MemForm (s.rollForward) := by
  dsimp only [State.rollForward]
  split
  · exact hs
  · exact memForm_ite (memForm_gate (memForm_state hs)) (memForm_ite (memForm_modPart (memForm_state hs))
        (memForm_state hs))

theorem memForm_warm (hs : MemForm s) : MemForm (s.warm) := hs

theorem memForm_bootOn (hs : MemForm s) {b} : MemForm (s.bootOn b) :=
  memForm_modPart (memForm_ite (memForm_setStrips hs) hs)

theorem memForm_warmBoot (hs : MemForm s) {image} : MemForm (s.warmBoot image) :=
  memForm_ite (memForm_pushThyme (memForm_bootOn (memForm_warm hs))) (memForm_noImage (memForm_warm hs))

/-! ### The end of reduced service (R447) -/

theorem memForm_form (hs : MemForm s) {x} : MemForm (s.form x) :=
  memForm_ite (memForm_modPart (memForm_setStrips hs)) hs

theorem memForm_copyWindow (hs : MemForm s) {b} : MemForm (s.copyWindow b) := by
  exact memForm_spoil (memForm_cover (memForm_hbm hs (Memory.wf_foldl_put (Memory.wf_zero hs.hbm _ _))))

theorem memForm_resumeZero (hs : MemForm s) {b k} : MemForm (s.resumeZero b k) :=
  memForm_ite (memForm_modPart hs) (memForm_ite hs (memForm_modPart (memForm_unload hs)))

theorem memForm_resumeParts (hs : MemForm s) {b} : MemForm (s.resumeParts b) :=
  memForm_ite hs (memForm_rollForward (memForm_state (memForm_resumeZero hs)))

theorem memForm_execReducedServiceEnd (hs : MemForm s) {plan linkTrained} :
    ResultForm (execReducedServiceEnd plan linkTrained s) := by
  dsimp only [execReducedServiceEnd]
  split
  · exact hs
  · exact memForm_foldl (fun ht => memForm_form ht) (memForm_resumeParts (memForm_state (memForm_copyWindow hs)))

/-! ### The die bridge (R142) -/

theorem memForm_execDieBridgeDown (hs : MemForm s) : ResultForm (execDieBridgeDown s) := by
  dsimp only [execDieBridgeDown]
  split
  · exact hs
  · exact memForm_pushThyme (memForm_state hs)

/-! ### Writes of registers (R8, R185, R408, R409, R436, R449) -/

theorem memForm_writeReset (hs : MemForm s) {v} : MemForm (s.writeReset v) :=
  memForm_ite (memForm_warmBoot hs) hs

theorem memForm_writeNamed (hs : MemForm s) {p w r v} : MemForm (s.writeNamed p w r v) := by
  dsimp only [State.writeNamed]
  split
  · exact memForm_ite (memForm_modPart hs) hs
  · exact memForm_ite (memForm_modCtx hs) hs
  · exact hs
  · exact memForm_ite (memForm_setSlot hs) hs
  · split
    · exact memForm_ite hs (memForm_ite (memForm_writeReset hs) (memForm_writeMailbox hs))
    · exact memForm_ite (memForm_writeReset hs) hs
    · exact hs
  · split
    · exact memForm_ite (memForm_modPart hs) hs
    · exact hs
  · exact hs

theorem memForm_execRegisterWrite (hs : MemForm s) {p w r v} : ResultForm (execRegisterWrite p w r v s) := by
  dsimp only [execRegisterWrite]
  split
  · exact memForm_writeNamed hs
  · exact hs

theorem memForm_execGate (hs : MemForm s) {f} : ResultForm (execGate f s) := by
  dsimp only [execGate]
  split
  · exact memForm_sendTo hs
  · split
    · split
      · exact memForm_sendFailed hs
      · exact memForm_mismatch hs
    · split
      · exact memForm_sendTo hs
      · split
        · exact memForm_sendTo hs
        · exact memForm_mismatch hs

theorem memForm_execMerge (hs : MemForm s) {f} : ResultForm (execMerge f s) := by
  dsimp only [execMerge]
  split
  · exact memForm_sendTo hs
  · exact hs

theorem memForm_moveWave (hs : MemForm s) {fr f fm w bad} : MemForm (s.moveWave fr f fm w bad) := by
  dsimp only [State.moveWave]
  refine memForm_ite (memForm_sendPoison hs) (memForm_ite (memForm_mismatch hs) ?_)
  split
  · exact memForm_mismatch hs
  · exact memForm_ite (memForm_badTag hs) (memForm_sendTo hs)

theorem memForm_execWset (hs : MemForm s) {f} : ResultForm (execWset f s) := by
  dsimp only [execWset]
  split
  · exact memForm_moveWave hs
  · split
    · exact memForm_sendPoison hs
    · exact memForm_mismatch hs

theorem memForm_execStop (hs : MemForm s) {f} : ResultForm (execStop f s) := by
  dsimp only [execStop]
  split
  · exact memForm_sendPoison hs
  · split
    · exact memForm_mismatch hs
    · split
      · exact memForm_mismatch hs
      · split
        · exact memForm_sendTo hs
        · exact memForm_badTag hs

theorem memForm_changeWidth (hs : MemForm s) {f ok g} : MemForm (s.changeWidth f ok g) :=
  memForm_ite (memForm_sendPoison hs) (memForm_each1 hs)

theorem memForm_serveReq (hs : MemForm s) {k} : MemForm (s.serveReq k) := by
  dsimp only [State.serveReq]
  split
  · exact hs
  · refine memForm_ite hs ?_
    split
    · exact memForm_serveOutside hs
    · exact hs
    · exact memForm_serve hs

theorem memForm_endPut (hs : MemForm s) {r x} : MemForm (s.endPut r x) :=
  memForm_memSys (memForm_dropReq hs)

theorem memForm_servePut (hs : MemForm s) {k} : MemForm (s.servePut k) := by
  dsimp only [State.servePut]
  split
  · exact hs
  · refine memForm_ite hs ?_
    split
    · exact memForm_dropReq hs
    · refine memForm_ite (memForm_endPut hs) (memForm_ite (memForm_ite (memForm_endPut (memForm_unlink hs))
          (memForm_endPut hs)) ?_)
      exact memForm_endPut (memForm_setDI (memForm_ite (memForm_intoL2 hs) hs))

theorem memForm_modMsg (hs : MemForm s) {id f} : MemForm (s.modMsg id f) := hs

theorem memForm_invalidate (hs : MemForm s) {r c} : MemForm (s.invalidate r c) :=
  memForm_ite hs (memForm_memSys hs)

theorem memForm_execInv (hs : MemForm s) : ResultForm (execInv s) := by
  dsimp only [execInv]
  split
  · exact hs
  · split
    · split
      · exact hs
      · exact memForm_modMsg (memForm_invalidate hs)
    · exact hs

theorem memForm_execInvAck (hs : MemForm s) : ResultForm (execInvAck s) := by
  dsimp only [execInvAck]
  split
  · exact hs
  · split
    · split
      · exact hs
      · exact memForm_endWalk (memForm_memSys hs)
    · exact hs

theorem memForm_execForwardedProbe (hs : MemForm s) : ResultForm (execForwardedProbe s) := by
  dsimp only [execForwardedProbe]
  split
  · exact hs
  · split
    · exact hs
    · split
      · exact hs
      · split
        · exact memForm_modMsg hs
        · exact memForm_serveProbe hs

theorem memForm_fcompare (hs : MemForm s) {f op} : MemForm (s.fcompare f op) :=
  memForm_each2 hs

theorem memForm_convert (hs : MemForm s) {f src dst g} : MemForm (s.convert f src dst g) := by
  dsimp only [State.convert]
  split
  · exact memForm_ite (memForm_sendPoison hs) (memForm_each1 hs)
  · exact memForm_each1 hs

theorem memForm_execFsplit (hs : MemForm s) {f} : ResultForm (execFsplit f s) := by
  dsimp only [execFsplit]
  split
  · exact memForm_sendTo (memForm_sendPoison hs)
  · split
    · exact memForm_mismatch hs
    · split
      · exact memForm_mismatch hs
      · exact memForm_sendTo (memForm_sendTo (memForm_orFlags hs))

/-! ### Accesses that arrive -/

theorem memForm_execCoreMemoryAccess (hs : MemForm s) {p asid x} : ResultForm (execCoreMemoryAccess p asid x s) := by
  dsimp only [execCoreMemoryAccess]
  split
  · exact memForm_outsideAccess hs
  · exact hs

theorem memForm_execHostApertureAccess (hs : MemForm s) {p x} : ResultForm (execHostApertureAccess p x s) := by
  dsimp only [execHostApertureAccess]
  split
  · exact hs
  · split
    · exact memForm_complete hs
    · exact memForm_outsideAccess hs

theorem memForm_controllerAccess (hs : MemForm s) {x} : MemForm (s.controllerAccess x) :=
  memForm_ite (memForm_answerPoison hs) (memForm_state (memForm_ite hs (memForm_writePa hs)))

theorem memForm_execPeerAccess (hs : MemForm s) {x} : ResultForm (execPeerAccess x s) := by
  dsimp only [execPeerAccess]
  split
  · exact memForm_controllerAccess hs
  · exact hs

theorem memForm_execReductionMerge (hs : MemForm s) {x} : ResultForm (execReductionMerge x s) := by
  dsimp only [execReductionMerge]
  split
  · split
    · exact memForm_controllerAccess hs
    · exact hs
  · exact hs

/-! ### Answers to the device's own accesses -/

theorem memForm_lock (hs : MemForm s) {pa} : MemForm (s.lock pa) := hs

theorem memForm_unlock (hs : MemForm s) {pa} : MemForm (s.unlock pa) := hs

theorem memForm_endOutside (hs : MemForm s) {o v} : MemForm (s.endOutside o v) := by
  dsimp only [State.endOutside]
  split
  · exact memForm_finish (memForm_noteOvf (memForm_orFlags hs))
  · exact memForm_finish hs
  · exact memForm_finish hs

theorem memForm_flushed (hs : MemForm s) {p flush} : MemForm (s.flushed p flush) := hs

theorem memForm_fillFromHost (hs : MemForm s) {t o v} : MemForm (s.fillFromHost t o v) := by
  dsimp only [State.fillFromHost]
  split
  next t ht => exact memForm_serve ((memForm_fillL2 (memForm_memSys (memForm_closeTxn hs))).at ht)
  · exact memForm_recallVictim (memForm_memSys (memForm_closeTxn hs))

theorem memForm_flushLost (hs : MemForm s) {e} : MemForm (s.flushLost e) :=
  memForm_raise hs

theorem memForm_answerEng (hs : MemForm s) {e v refused} : MemForm (s.answerEng e v refused) := by
  dsimp only [State.answerEng]
  refine memForm_ite (memForm_engOn (memForm_answerPiece hs)) (memForm_ite
      (memForm_ite (memForm_dropEng (memForm_pumpPort (memForm_modEng
      (memForm_flushed (memForm_ite (memForm_flushLost hs) hs))))) (memForm_ite
      (memForm_engOn (memForm_flushed (memForm_ite (memForm_flushLost hs) hs)))
      (memForm_flushed (memForm_ite (memForm_flushLost hs) hs)))) ?_)
  exact hs

theorem memForm_execHostCompletion (hs : MemForm s) {op v} : ResultForm (execHostCompletion op v s) := by
  dsimp only [execHostCompletion]
  split
  · split
    · exact memForm_fillFromHost (memForm_answered hs)
    · split
      · exact memForm_answered hs
      · split
        · exact memForm_endOutside (memForm_answered hs)
        · exact memForm_modOp (memForm_flushed (memForm_answered hs))
        · exact memForm_answered hs
  · split
    · exact memForm_answerEng (memForm_answered hs)
    · split
      · exact memForm_answerOut (memForm_answered hs)
      · exact memForm_answered hs
    · exact memForm_answered hs

theorem memForm_execHostCompletionTimeout (hs : MemForm s) {op} : ResultForm (execHostCompletionTimeout op s) := by
  dsimp only [execHostCompletionTimeout]
  split
  · split
    · exact memForm_refuse (memForm_closeTxn (memForm_answered hs))
    · split
      · exact memForm_answered hs
      · split
        · exact memForm_refuse (memForm_answered hs)
        · exact memForm_refuse (memForm_answered hs)
        · exact memForm_refuse (memForm_unlock (memForm_answered hs))
        · exact memForm_refuse (memForm_answered hs)
        · exact memForm_answered hs
  · split
    · exact memForm_answerEng (memForm_answered hs)
    · split
      · exact memForm_refuseOut (memForm_answered hs)
      · exact memForm_answered hs
    · exact memForm_answered hs

theorem memForm_endMerged (hs : MemForm s) {o} : MemForm (s.endMerged o) :=
  memForm_finish hs

theorem memForm_execPeerAcknowledgement (hs : MemForm s) {op v refused} :
    ResultForm (execPeerAcknowledgement op v refused s) := by
  dsimp only [execPeerAcknowledgement]
  split
  · split
    · split
      · exact memForm_refuse hs
      · split
        · exact memForm_ite (memForm_endMerged hs) (memForm_endOutside hs)
        · exact memForm_endOutside hs
    · exact hs
  · split
    · exact memForm_answerEng hs
    · split
      · exact hs
      · split
        · exact memForm_refuseOut hs
        · split <;> exact memForm_answerOut hs
    · exact hs

/-! ### Emulated atomics (R155) -/

theorem memForm_beginEmulation (hs : MemForm s) {o pa old r} : MemForm (s.beginEmulation o pa old r) :=
  memForm_ite hs (memForm_park (memForm_lock hs))

theorem memForm_endEmulation (hs : MemForm s) {o pa old r} : MemForm (s.endEmulation o pa old r) :=
  memForm_answer (memForm_endOutside (memForm_unlock hs))

theorem memForm_emulateOut (hs : MemForm s) {q old} : MemForm (s.emulateOut q old) :=
  memForm_ite hs (memForm_answer (memForm_answerOut hs))

theorem memForm_execEmulate (hs : MemForm s) {op old} : ResultForm (execEmulate op old s) := by
  dsimp only [execEmulate]
  split
  · split
    · exact memForm_beginEmulation hs
    · exact memForm_endEmulation hs
    · exact hs
  · exact memForm_emulateOut hs
  · exact hs

/-! ### The value returned -/

theorem memForm_sendSome (hs : MemForm s) {fr ta d r} : MemForm (s.sendSome fr ta d r) :=
  memForm_ite hs (memForm_sendTo hs)

theorem memForm_execVsplit (hs : MemForm s) {f} : ResultForm (execVsplit f s) := by
  dsimp only [execVsplit]
  split
  · exact memForm_sendPoison hs
  · split
    · split
      · exact memForm_sendPoison hs
      · exact memForm_mismatch hs
    · split
      · exact memForm_sendSome (memForm_sendSome hs)
      · split
        · exact memForm_mismatch hs
        · split
          · exact memForm_sendSome (memForm_sendSome hs)
          · exact memForm_mismatch hs

theorem memForm_sendJoined (hs : MemForm s) {fr f r} : MemForm (s.sendJoined fr f r) :=
  memForm_ite (memForm_tapCount hs) (memForm_sendSome (memForm_sendSome hs))

theorem memForm_execVjoin (hs : MemForm s) {f} : ResultForm (execVjoin f s) := by
  dsimp only [execVjoin]
  split
  · split
    · exact memForm_sendJoined hs
    · split
      · split
        · exact memForm_raise hs
        · exact memForm_sendJoined (memForm_raise hs)
      · exact memForm_sendJoined hs
  · exact hs

theorem memForm_placing (hs : MemForm s) {f g} : MemForm (s.placing f g) :=
  memForm_compute hs

theorem memForm_execVcompact (hs : MemForm s) {f} : ResultForm (execVcompact f s) := by
  dsimp only [execVcompact]
  split
  · exact memForm_sendTo hs
  · split
    · split
      · exact memForm_sendTo hs
      · exact memForm_mismatch hs
    · split
      · exact memForm_sendSome hs
      · split
        · exact memForm_sendSome hs
        · exact memForm_mismatch hs

theorem memForm_reduce (hs : MemForm s) {f out g} : MemForm (s.reduce f out g) := by
  dsimp only [State.reduce]
  refine memForm_ite (memForm_sendPoison hs) (memForm_ite (memForm_mismatch hs) ?_)
  split
  · exact memForm_mismatch hs
  · split
    · exact memForm_mismatch hs
    · exact memForm_sendTo (memForm_orFlags hs)

theorem memForm_reduceA (hs : MemForm s) {f ok g} : MemForm (s.reduceA f ok g) :=
  memForm_reduce hs

theorem memForm_exec (hs : MemForm s) : ∀ {i}, ResultForm (exec i s)
  | .mov _ => memForm_compute hs
  | .steer _ => memForm_each1 hs
  | .merge _ => memForm_execMerge hs
  | .select _ => memForm_compute hs
  | .gate _ => memForm_execGate hs
  | .wadv _ => memForm_moveWave hs
  | .wset _ => memForm_execWset hs
  | .itag _ => memForm_compute hs
  | .ctxnew _ => memForm_execCtxnew hs
  | .ctxsend _ => memForm_across hs
  | .ctxret _ => memForm_across hs
  | .ctxfree _ => memForm_execCtxfree hs
  | .sink _ => hs
  | .stop _ => memForm_execStop hs
  | .add _ => memForm_each2 hs
  | .sub _ => memForm_each2 hs
  | .adds _ => memForm_each2 hs
  | .addsn _ => memForm_each2 hs
  | .subs _ => memForm_each2 hs
  | .subsn _ => memForm_each2 hs
  | .mul _ => memForm_each2 hs
  | .mulh _ => memForm_each2 hs
  | .mulhn _ => memForm_each2 hs
  | .div _ => memForm_each2 hs
  | .divn _ => memForm_each2 hs
  | .rem _ => memForm_each2 hs
  | .remn _ => memForm_each2 hs
  | .madd _ => memForm_each3 hs
  | .neg _ => memForm_each1 hs
  | .abs _ => memForm_each1 hs
  | .and_ _ => memForm_each2 hs
  | .or_ _ => memForm_each2 hs
  | .xor_ _ => memForm_each2 hs
  | .andn _ => memForm_each2 hs
  | .not_ _ => memForm_each1 hs
  | .shl _ => memForm_eachOwn hs
  | .shrl _ => memForm_eachOwn hs
  | .shra _ => memForm_eachOwn hs
  | .rotl _ => memForm_eachOwn hs
  | .clz _ => memForm_each1 hs
  | .ctz _ => memForm_each1 hs
  | .popc _ => memForm_each1 hs
  | .brev _ => memForm_each1 hs
  | .bfx _ => memForm_eachOwn hs
  | .bfi _ => memForm_compute hs
  | .byteperm _ => memForm_eachOwn hs
  | .ceq _ => memForm_each2 hs
  | .cne _ => memForm_each2 hs
  | .clt _ => memForm_each2 hs
  | .cle _ => memForm_each2 hs
  | .cltn _ => memForm_each2 hs
  | .clen _ => memForm_each2 hs
  | .min_ _ => memForm_each2 hs
  | .max_ _ => memForm_each2 hs
  | .minn _ => memForm_each2 hs
  | .maxn _ => memForm_each2 hs
  | .lea _ => memForm_eachOwn hs
  | .idx _ => memForm_compute hs
  | .sext _ => memForm_changeWidth hs
  | .zext _ => memForm_changeWidth hs
  | .narrow _ => memForm_changeWidth hs
  | .narrows _ => memForm_changeWidth hs
  | .ld _ => memForm_memWord hs
  | .st _ => memForm_memWord hs
  | .ldv _ => memForm_memWord hs
  | .stv _ => memForm_memWord hs
  | .ldg _ => memForm_memWord hs
  | .sts _ => memForm_memWord hs
  | .mnop _ => memForm_triggerWord (memForm_ite (memForm_poisonRecords hs) hs)
  | .ldfe _ => memForm_memWord hs
  | .stfe _ => memForm_memWord hs
  | .region _ => memForm_triggerWord (memForm_flushGuard hs)
  | .pref _ => memForm_execPref hs
  | .flushr _ => memForm_rangeWord hs
  | .invr _ => memForm_rangeWord hs
  | .amofmin _ => memForm_amoWord hs
  | .amofmax _ => memForm_amoWord hs
  | .ctrread _ => memForm_memWord hs
  | .amoadd _ => memForm_amoWord hs
  | .amoand _ => memForm_amoWord hs
  | .amoor _ => memForm_amoWord hs
  | .amoxor _ => memForm_amoWord hs
  | .amomin _ => memForm_amoWord hs
  | .amomax _ => memForm_amoWord hs
  | .amominn _ => memForm_amoWord hs
  | .amomaxn _ => memForm_amoWord hs
  | .amoswap _ => memForm_amoWord hs
  | .amocas _ => memForm_amoWord hs
  | .amofadd _ => memForm_amoWord hs
  | .ctradd _ => memForm_memWord (memForm_decreases hs)
  | .ctrwait _ => memForm_memWord hs
  | .lease _ => memForm_memWord hs
  | .unlease _ => memForm_memWord hs
  | .fence _ => memForm_triggerWord hs
  | .fadd _ => memForm_each2 hs
  | .fsub _ => memForm_each2 hs
  | .fmul _ => memForm_each2 hs
  | .ffma _ => memForm_each3 hs
  | .ffms _ => memForm_each3 hs
  | .fnfma _ => memForm_each3 hs
  | .fdiv _ => memForm_each2 hs
  | .fsqrt _ => memForm_each1 hs
  | .fmin _ => memForm_each2 hs
  | .fmax _ => memForm_each2 hs
  | .fminm _ => memForm_each2 hs
  | .fmaxm _ => memForm_each2 hs
  | .fabs _ => memForm_each1 hs
  | .fneg _ => memForm_each1 hs
  | .fcpys _ => memForm_each2 hs
  | .fclass _ => memForm_each1 hs
  | .fceq _ => memForm_fcompare hs
  | .fclt _ => memForm_fcompare hs
  | .fcle _ => memForm_fcompare hs
  | .fcun _ => memForm_fcompare hs
  | .fcvt _ => memForm_convert hs
  | .fcvti _ => memForm_convert hs
  | .icvtf _ => memForm_convert hs
  | .icvtfn _ => memForm_convert hs
  | .frint _ => memForm_each1 hs
  | .fscale _ => memForm_each2 hs
  | .fexpo _ => memForm_each1 hs
  | .fmant _ => memForm_each1 hs
  | .fsplit _ => memForm_execFsplit hs
  | .fexp2f _ => memForm_each1 hs
  | .flog2m _ => memForm_each1 hs
  | .frcp _ => memForm_each1 hs
  | .frsq _ => memForm_each1 hs
  | .fsin1 _ => memForm_each1 hs
  | .fcos1 _ => memForm_each1 hs
  | .ftanh _ => memForm_each1 hs
  | .fsigm _ => memForm_each1 hs
  | .ferf _ => memForm_each1 hs
  | .vsplit _ => memForm_execVsplit hs
  | .vjoin _ => memForm_execVjoin hs
  | .vbcast _ => memForm_placing hs
  | .vredadd _ => memForm_reduceA hs
  | .vredmax _ => memForm_reduceA hs
  | .vredmin _ => memForm_reduceA hs
  | .vscan _ => memForm_compute hs
  | .vperm _ => memForm_placing hs
  | .vslide _ => memForm_placing hs
  | .vcompact _ => memForm_execVcompact hs
  | .vexpand _ => memForm_compute hs
  | .viota _ => memForm_compute hs
  | .vfredadd _ => memForm_reduceA hs
  | .vlen _ => memForm_reduce hs
  | .vdot _ => memForm_reduce hs
  | .tld _ => memForm_nodeWord hs (fun ht => memForm_nodePrep ht)
  | .tst _ => memForm_nodeWord hs (fun ht => memForm_nodePrep ht)
  | .mma _ => memForm_nodeWord hs (fun ht => memForm_nodePrep ht)
  | .mmaz _ => memForm_nodeWord hs (fun ht => memForm_nodePrep ht)
  | .tcvt _ => memForm_execTcvt hs
  | .ttrans _ => memForm_nodeWord hs (fun ht => memForm_nodePrep ht)
  | .tadd _ => memForm_nodeWord hs (fun ht => memForm_nodePrep ht)
  | .tscale _ => memForm_nodeWord hs (fun ht => memForm_nodePrep ht)
  | .gemvb _ => memForm_launchTiles (memForm_lineWord hs)
  | .cbload _ => memForm_lineWord hs
  | .tstat _ => memForm_execTstat hs
  | .tfill _ => memForm_nodeWord hs (fun ht => memForm_ite_fst ht (memForm_ite_fst ht (memForm_raise ht)))
  | .tslice _ => memForm_execTslice hs
  | .tbuild _ => memForm_execTbuild hs
  | .sopen _ => memForm_streamWord hs (fun ht => memForm_takeSopen ht)
  | .sread _ => memForm_flushReads (memForm_streamWord hs (fun ht => memForm_takeSread ht))
  | .swrite _ => memForm_streamWord hs (fun ht => memForm_takeSwrite ht)
  | .sclose _ => memForm_execSclose hs
  | .isect _ => memForm_streamWord hs (fun ht => memForm_takePair ht)
  | .union _ => memForm_streamWord hs (fun ht => memForm_takePair ht)
  | .spaacc _ => memForm_streamWord hs (fun ht => memForm_takeSpaacc ht)
  | .spaflush _ => memForm_execSpaflush hs
  | .stoplvl _ => memForm_streamWord hs (fun ht => memForm_takeStoplvl ht)
  | .scount _ => memForm_streamWord hs (fun ht => memForm_takeScount ht)
  | .copy _ => memForm_command hs (checkKeeps_some fun ht => memForm_checkCopy ht)
  | .copym _ => memForm_command hs (checkKeeps_some fun ht => memForm_checkCopym ht)
  | .copy2d _ => memForm_command hs (checkKeeps_some fun ht => memForm_checkCopy ht)
  | .shadow _ => memForm_execShadow hs
  | .publish _ => memForm_execPublish hs
  | .feset _ => memForm_feWord hs
  | .feclr _ => memForm_feWord hs
  | .copystat _ => memForm_sendTo hs
  | .waymask _ => memForm_execWaymask hs
  | .alloc _ => memForm_command hs (checkKeeps_map fun ht => ht)
  | .free _ => memForm_command hs (checkKeeps_some fun ht => ht)
  | .ringreg _ => memForm_command hs checkKeeps_noCheck
  | .msend _ => memForm_command hs checkKeeps_noCheck
  | .mrecv _ => memForm_command hs checkKeeps_noCheck
  | .mpeek _ => memForm_command hs checkKeeps_noCheck
  | .mack _ => memForm_command hs (checkKeeps_map fun ht => ht)
  | .ringdereg _ => memForm_command hs checkKeeps_noCheck
  | .trap _ => memForm_passWord hs (fun ht => memForm_raiseEach ht)
  | .syscall _ => memForm_chainedWord hs
  | .rdsys _ => memForm_execRdsys hs
  | .wrsys _ => memForm_execWrsys hs
  | .yield _ => memForm_passWord hs (fun ht => memForm_modElem ht)
  | .halt _ => memForm_execHalt hs
  | .taskdone _ => memForm_execTaskdone hs
  | .taskspawn _ => memForm_chainedWord (memForm_ite (memForm_poisonRecords hs) hs)
  | .workid _ => memForm_triggerValues hs (fun ht => ht)
  | .perfrd _ => memForm_triggerValues hs (fun ht => ht)
  | .break _ => memForm_execBreak hs
  | .assert _ => memForm_execAssert hs
  | .elog _ => memForm_passWord hs (fun ht => memForm_forEach ht (fun hu => memForm_pushThyme hu))
  | .clock _ => memForm_triggerValues hs (fun ht => ht)
  | .coldReset _ _ => memForm_execColdReset
  | .warmReset _ _ => memForm_warmBoot hs
  | .reducedServiceEnd _ _ => memForm_execReducedServiceEnd hs
  | .sageWatchdogRecovery => memForm_execSageWatchdogRecovery hs
  | .dieBridgeDown => memForm_execDieBridgeDown hs
  | .hostLsdcfgWrite _ => memForm_execHostLsdcfgWrite hs
  | .registerWrite _ _ _ _ => memForm_execRegisterWrite hs
  | .sysFlagsrcRead _ _ => memForm_execSysFlagsrcRead hs
  | .xlatinv _ _ => memForm_execXlatinv hs
  | .fresumeRetry _ _ => memForm_execFresumeRetry hs
  | .fresumeKill _ _ => memForm_execFresumeKill hs
  | .framescrub _ _ _ => memForm_execFramescrub hs
  | .asidbaseWrite _ _ => memForm_modPart hs
  | .clwaysWrite _ _ _ => memForm_execClwaysWrite hs
  | .slicecfgModeWrite _ _ => memForm_execSlicecfgModeWrite hs
  | .blkmove _ _ => memForm_execBlkmove hs
  | .moveInstall => memForm_execMoveInstall hs
  | .moveSweep => memForm_execMoveSweep hs
  | .moveFree => memForm_execMoveFree hs
  | .pctlSave _ _ => memForm_execPctlSave hs
  | .saveSettleRound => memForm_execSaveSettleRound hs
  | .pctlRestore _ _ => memForm_execPctlRestore hs
  | .ctxctlResume _ _ => memForm_execCtxctlResume hs
  | .ctxctlKill _ _ => memForm_execCtxctlKill hs
  | .scvalWrite _ _ _ => memForm_execScvalWrite hs
  | .scdoneWrite _ _ _ => memForm_execScdoneWrite hs
  | .launchSubmit _ _ _ => memForm_execLaunchSubmit hs
  | .grow _ => memForm_request_ hs (fun ht => memForm_enterState (memForm_setStrips (memForm_forgetAka ht)))
  | .shrink _ => memForm_execShrink hs
  | .defrag _ => memForm_request_ hs (fun ht => memForm_gate (memForm_enterState (memForm_forgetAka ht)))
  | .reserve _ => memForm_request_ hs (fun ht => memForm_endLayout (memForm_setStrips ht))
  | .release _ => memForm_request_ hs (fun ht => memForm_endLayout (memForm_setStrips ht))
  | .stripScrubDone => memForm_execStripScrubDone hs
  | .rehashWalk => memForm_execRehashWalk hs
  | .layoutCommit => memForm_execLayoutCommit hs
  | .stripZeroDone => memForm_execStripZeroDone hs
  | .hostApertureAccess _ _ => memForm_execHostApertureAccess hs
  | .peerAccess _ => memForm_execPeerAccess hs
  | .reductionMerge _ => memForm_execReductionMerge hs
  | .hostCompletionTimeout _ => memForm_execHostCompletionTimeout hs
  | .emulate _ _ => memForm_execEmulate hs
  | .coreMemoryAccess _ _ _ => memForm_execCoreMemoryAccess hs
  | .getS => memForm_serveReq hs
  | .getM => memForm_serveReq hs
  | .upgrade => memForm_serveReq hs
  | .putS => memForm_servePut hs
  | .putO => memForm_servePut hs
  | .inv => memForm_execInv hs
  | .invAck => memForm_execInvAck hs
  | .forwardedProbe => memForm_execForwardedProbe hs
  | .l2Access => memForm_serveReq hs
  | .memAccess => memForm_serveReq hs
  | .chainPerform => memForm_execChainPerform hs
  | .leaseGrant => memForm_execLeaseGrant hs
  | .leaseExpiry => memForm_execLeaseExpiry hs
  | .ctrwaitRepresent => memForm_execCtrwaitRepresent hs
  | .enginePiece => memForm_execEnginePiece hs
  | .engineCompletionAdd => memForm_execEngineCompletionAdd hs
  | .publishPoint => memForm_execPublishPoint hs
  | .splice _ _ _ _ => memForm_execSplice hs
  | .islandStep => memForm_execIslandStep hs
  | .tokenArrival => memForm_execTokenArrival hs
  | .flitCross => memForm_ite hs (memForm_ite (memForm_crossHop hs) (memForm_ejectHop hs))
  | .creditReturn => memForm_state hs
  | .messageReceive => memForm_execMessageReceive hs
  | .ringEntryComplete => memForm_execRingEntryComplete hs
  | .messageAck => memForm_execMessageAck hs
  | .trapRecordWrite => memForm_execTrapRecordWrite hs
  | .thymeEventWrite => memForm_state hs
  | .qosWindowEnd => memForm_modPart hs
  | .powerPeriod _ => memForm_execPowerPeriod hs
  | .launchStart => memForm_execLaunchStart hs
  | .sectionLoad => memForm_execSectionLoad hs
  | .blockEvict => memForm_execBlockEvict hs
  | .blockReload => memForm_execBlockReload hs
  | .dispatch => memForm_execDispatch hs
  | .schedTableDispatch => memForm_execSchedTableDispatch hs
  | .releaseIslands => memForm_execReleaseIslands hs
  | .taskRetire => memForm_execTaskRetire hs
  | .launchComplete => memForm_execLaunchComplete hs
  | .taskAbort => memForm_execTaskAbort hs
  | .taskRequeue => memForm_execTaskRequeue hs
  | .statRecordMerge => memForm_execStatRecordMerge hs
  | .statRecordApply => memForm_execStatRecordApply hs
  | .hostCompletion _ _ => memForm_execHostCompletion hs
  | .peerAcknowledgement _ _ _ => memForm_execPeerAcknowledgement hs

theorem memForm_tableError (hs : MemForm s) {p cluster elem half} : MemForm (s.tableError p cluster elem half) := by
  dsimp only [State.tableError]
  split
  · exact hs
  · split
    · exact hs
    · exact memForm_ite hs (memForm_forgetPlace (memForm_writeSlots (memForm_raise hs)))

theorem memForm_nodeTableError (hs : MemForm s) {n} : MemForm (s.nodeTableError n) := by
  dsimp only [State.nodeTableError]
  split
  · exact memForm_ite hs (memForm_modChannel (memForm_raise hs))
  · exact hs

theorem memForm_strike (hs : MemForm s) {e} : MemForm (s.strike e) := by
  dsimp only [State.strike]
  split
  · exact memForm_pushThyme hs
  · exact memForm_ite (memForm_spoil hs) hs
  · exact memForm_spoil hs
  · exact memForm_modL1 hs
  · exact memForm_modL2 hs
  · exact memForm_state hs
  · exact memForm_modCtx hs
  · exact memForm_modOp hs
  · exact memForm_memSys hs
  · exact memForm_modChannel hs
  · exact memForm_modStream hs
  · exact memForm_modStream hs
  · exact memForm_tableError hs
  · exact memForm_nodeTableError hs
  · exact memForm_modPart hs

theorem memForm_suffer (hs : MemForm s) : MemForm (s.suffer) := by
  dsimp only [State.suffer]
  split
  · exact memForm_strike hs
  · exact hs

/-! ### The issue window of an element (R396, R397) -/

theorem memForm_issueSlot (hs : MemForm s) {p cluster elem} : OptionSndForm (s.issueSlot p cluster elem) := by
  dsimp only [State.issueSlot]
  split
  · trivial
  · split
    · trivial
    · exact memForm_state (memForm_modElem hs)

theorem memForm_issueNode (hs : MemForm s) {f} : OptionSndForm (s.issueNode f) := by
  dsimp only [State.issueNode]
  split
  · trivial
  · exact memForm_state hs

theorem memForm_nextFiring (hs : MemForm s) : OptionSndForm (s.nextFiring) := by
  dsimp only [State.nextFiring]
  split
  · trivial
  · split
    · exact memForm_issueNode hs
    · exact memForm_issueSlot hs

/-! ### Steps -/

theorem memForm_tick (hs : MemForm s) : MemForm (s.tick) := by
  dsimp only [State.tick]
  exact memForm_state (memForm_foldl (fun ht => memForm_countEjected ht)
      (memForm_foldl (fun ht => memForm_ite (memForm_modElem ht) ht) hs))

theorem memForm_begin_ (hs : MemForm s) {a} : NextMove.Form (begin_ a s) := by
  dsimp only [begin_]
  split
  · exact memForm_latch hs
  · exact memForm_state hs

theorem memForm_freeMove (hs : MemForm s) : OptionSndForm (freeMove s) := by
  dsimp only [freeMove]
  split
  · split
    · exact hs
    · trivial
  · have h := memForm_nextFiring hs
    generalize s.nextFiring = o at h ⊢
    cases o with
    | none => trivial
    | some x => exact h

theorem memForm_nextMove (hs : MemForm s) : NextMove.Form (nextMove s) := by
  cases hag : s.run.agenda with
  | nil =>
    simp only [nextMove, hag]
    split
    · split
      · trivial
      · exact memForm_tick (memForm_suffer hs)
    next a t ht =>
      split
      · trivial
      · exact memForm_begin_ (memForm_tick ((memForm_freeMove (memForm_suffer hs)).at ht))
  | cons a r =>
    simp only [nextMove, hag]
    split
    · trivial
    · exact memForm_begin_ (memForm_tick (memForm_state hs))

theorem memForm_orWait (hs : MemForm s) {r} (hr : ResultForm r) : ResultForm (orWait s r) := by
  cases r with
  | next t =>
    dsimp only [orWait]
    split
    · exact memForm_tick hs
    · exact hr
  | fault | refused => exact hr

theorem memForm_step (hs : MemForm s) : ResultForm (step s) := by
  dsimp only [step]
  split
  · trivial
  next t ht => exact (memForm_nextMove hs).at ht
  next i t ht => exact memForm_orWait hs (memForm_exec ((memForm_nextMove hs).at ht))
  next t ht =>
    have h : MemForm t := (memForm_nextMove hs).at ht
    split
    · exact memForm_orWait hs (memForm_exec h)
    · exact memForm_orWait hs (memForm_illegalWord h)

/-- Settles O8: every function that `step` composes keeps the form, hence `step` does. -/
theorem memoryFormKept : Obligations.MemoryFormKept := by
  unfold Obligations.MemoryFormKept
  intro s t hs ht
  exact (memForm_step hs).at ht

/-- Settles O9: at reset every memory is empty. -/
theorem resetMemoryForm : Obligations.ResetMemoryForm := by
  unfold Obligations.ResetMemoryForm
  exact ⟨rfl, rfl, rfl, rfl⟩

end Sys2Proof.Machine
end

section
/-! PROOFS. Resumes and replies (O51): FRESUME, waits that are given up, CTXCTL, SCDONE and FRAMESCRUB. -/

namespace Sys2Proof.Machine

variable {s : State} {p : Nat} {v : W64}

/-! ### Partitions that stand -/

/-- A partition number beyond the table reads as a free partition, which neither lives nor is gated. -/
theorem State.lt_parts_of_part_ne_free (h : s.part p ≠ Part.free) : p < s.parts.length := by
  by_contra hlen
  apply h
  show at! s.parts p Part.free = Part.free
  rw [at!_eq_getD, List.getD_eq_getElem?_getD, List.getElem?_eq_none (Nat.le_of_not_lt hlen), Option.getD_none]

theorem State.lt_parts_of_live (h : (s.part p).live = true) : p < s.parts.length := by
  refine State.lt_parts_of_part_ne_free fun hfree => ?_
  rw [hfree] at h
  cases h

theorem State.lt_parts_of_gated (h : (s.part p).gated = true) : p < s.parts.length := by
  refine State.lt_parts_of_part_ne_free fun hfree => ?_
  rw [hfree] at h
  cases h

theorem State.part_setPart (hp : p < s.parts.length) (x : Part) : (s.setPart p x).part p = x := at!_setAt_same hp x Part.free

theorem State.part_modPart (hp : p < s.parts.length) (g : Part → Part) : (s.modPart p g).part p = g (s.part p) :=
  State.part_setPart hp _

/-! ### FRESUME (R46, R414) -/

/-- The state in which a write of FRESUME stands at the end of the queue. -/
abbrev State.withFresume (s : State) (p : Nat) (v : W64) : State :=
  s.setPart p { s.part p with fresumes := (s.part p).fresumes ++ [v] }

/-- A write of FRESUME acts by the event of its KILL bit. -/
theorem exec_fresume {kill : Bool} (hkill : kill = bit v 0) :
    exec (if kill then .fresumeKill p v else .fresumeRetry p v) s = .next ((s.withFresume p v).pumpFresumes p) := by
  cases kill with
  | true => exact if_pos hkill.symm
  | false => exact if_neg (by simp [← hkill])

theorem pumpFresumes_of_gated {t : State} (h : (t.part p).gated = true) : t.pumpFresumes p = t := if_pos h

theorem pumpFresumes_of_one {t : State} (hg : (t.part p).gated = false) (hf : (t.part p).fresumes = [v]) :
    t.pumpFresumes p = t.runFresumes p [v] := by
  rw [State.pumpFresumes, hg, hf]
  rfl

theorem fresumeDue_withFresume (hp : p < s.parts.length) (a g : Nat) (kill : Bool) :
    (s.withFresume p v).fresumeDue p a g kill = s.fresumeDue p a g kill := by
  simp only [State.fresumeDue, State.setPart_work, State.part_setPart hp]

theorem exec_fresume_gated {kill : Bool} (hkill : kill = bit v 0) (hg : (s.part p).gated = true) :
    exec (if kill then .fresumeKill p v else .fresumeRetry p v) s = .next (s.withFresume p v) := by
  rw [exec_fresume hkill, pumpFresumes_of_gated]
  rw [State.part_setPart (State.lt_parts_of_gated hg)]
  exact hg

theorem exec_fresume_one {kill : Bool} (hkill : kill = bit v 0) (hlive : (s.part p).live = true)
    (hg : (s.part p).gated = false) (hf : (s.part p).fresumes = []) :
    exec (if kill then .fresumeKill p v else .fresumeRetry p v) s = .next ((s.withFresume p v).runFresumes p [v]) := by
  have hpart := State.part_setPart (State.lt_parts_of_live hlive) { s.part p with fresumes := (s.part p).fresumes ++ [v] }
  rw [exec_fresume hkill, pumpFresumes_of_one]
  · rw [hpart]
    exact hg
  · rw [hpart, hf]
    rfl

theorem runFresumes_due {t : State} (hdue : t.fresumeDue p (bits v 63 52) (bits v 51 16) (bit v 0) = true) :
    t.runFresumes p [v] = t.modPart p fun x => { x with fresumes := [v] } := if_pos hdue

theorem runFresumes_now {t : State} (hdue : t.fresumeDue p (bits v 63 52) (bits v 51 16) (bit v 0) = false) :
    t.runFresumes p [v] = (t.fresume p (bits v 63 52) (bits v 51 16) (bit v 0)).modPart p fun x => { x with fresumes := [] } :=
  if_neg (by simp [hdue])

theorem exec_fresume_now {kill : Bool} (hkill : kill = bit v 0) (hlive : (s.part p).live = true)
    (hg : (s.part p).gated = false) (hf : (s.part p).fresumes = [])
    (hdue : s.fresumeDue p (bits v 63 52) (bits v 51 16) kill = false) :
    exec (if kill then .fresumeKill p v else .fresumeRetry p v) s
      = .next (((s.withFresume p v).fresume p (bits v 63 52) (bits v 51 16) kill).modPart p fun y => { y with fresumes := [] }) := by
  rw [exec_fresume_one hkill hlive hg hf]
  subst hkill
  rw [runFresumes_now ((fresumeDue_withFresume (State.lt_parts_of_live hlive) _ _ _).trans hdue)]

theorem exec_fresume_early {kill : Bool} (hkill : kill = bit v 0) (hlive : (s.part p).live = true)
    (hg : (s.part p).gated = false) (hf : (s.part p).fresumes = [])
    (hdue : s.fresumeDue p (bits v 63 52) (bits v 51 16) kill = true) :
    exec (if kill then .fresumeKill p v else .fresumeRetry p v) s
      = .next ((s.withFresume p v).setPart p { s.part p with fresumes := [v] }) := by
  have hp := State.lt_parts_of_live hlive
  rw [exec_fresume_one hkill hlive hg hf]
  subst hkill
  rw [runFresumes_due ((fresumeDue_withFresume hp _ _ _).trans hdue), State.modPart, State.part_setPart hp]

/-! ### A wait given up -/

/-- An operation alone in its access ends with its poisoned result. -/
theorem resolveWait_kill {o : Op} {id : Nat} {w : Waiting} (hop : s.op? id = some o) (halone : s.members o = [o])
    (hwho : w.who = .op id) : s.resolveWait p true w
      = ({ s with work := { s.work with waits := s.work.waits.filter fun y => y ≠ w } } : State).finish o o.bad := by
  set t : State := { s with work := { s.work with waits := s.work.waits.filter fun y => y ≠ w } } with ht
  have hopt : t.op? id = some o := hop
  have hmem : t.members o = [o] := halone
  simp only [State.resolveWait, hwho, ← ht, hopt, State.killOp, hmem, List.foldl_cons, List.foldl_nil, if_true]

/-! ### CTXCTL (R405) -/

theorem haltedCtx_of {y : Ctx} (hctx : s.ctx? p (bits v 11 0) = some y) (hhalt : y.halted = true) : s.haltedCtx p v = true := by
  rw [State.haltedCtx, hctx]
  exact hhalt

theorem exec_ctxctlResume {y : Ctx} (hctx : s.ctx? p (bits v 11 0) = some y) (hhalt : y.halted = true) (hop : bits v 63 62 = 1) :
    exec (.ctxctlResume p v) s = .next (y.resume.foldl (fun s h => s.sendHeld h)
      (s.modCtx p (bits v 11 0) fun z => { z with halted := false, resume := [] })) := by
  show execCtxctlResume p v s = _
  simp only [execCtxctlResume, hop, haltedCtx_of hctx hhalt, State.resume, hctx, hhalt, decide_true, Bool.and_self, if_true]

theorem exec_ctxctlKill {y : Ctx} (hctx : s.ctx? p (bits v 11 0) = some y) (hhalt : y.halted = true) (hop : bits v 63 62 = 2) :
    exec (.ctxctlKill p v) s = .next (s.killTask p y.root) := by
  show execCtxctlKill p v s = _
  simp only [execCtxctlKill, hop, haltedCtx_of hctx hhalt, State.rootOf, hctx, decide_true, Bool.and_self, if_true]

/-! ### SCDONE and FRAMESCRUB of a monitor of the partition (R51, R406) -/

/-- A context whose SYSCALL is parked waits for its answer. -/
theorem syscallWaits_of_find {o : Op} {c : Nat} (hfind : s.work.ops.find?
    (fun o => o.kind = .syscall && o.phase = .parked && o.names.part == p && o.ctx == c) = some o) :
    s.syscallWaits p c = true := by
  have hmine := List.find?_some hfind
  have hany : s.work.ops.any (fun o => o.kind = .syscall && o.phase = .parked && o.names.part == p && o.ctx == c) = true :=
    List.any_eq_true.mpr ⟨o, List.mem_of_find?_eq_some hfind, hmine⟩
  simp only [State.syscallWaits, hany, Bool.true_or]

section
variable {k : Nat} (hstrip : (s.part p).hasStrip k = true)
include hstrip

/-- A monitor on a strip of the partition writes its registers of every class that an agent writes. -/
theorem monitorMay (r : Right) (hr : r ≠ .none_) :
    (!((s.part p).hasAgent (.monitor k) && r.agentHas (.monitor k))) = false := by
  simp [Part.hasAgent, Right.agentHas, hstrip, hr]

theorem exec_scdone_none (hwait : s.syscallWaits p (bits v 11 0) = false) :
    exec (.scdoneWrite p (.monitor k) v) s = .next s := by
  show execScdoneWrite p (.monitor k) v s = _
  simp only [execScdoneWrite, monitorMay hstrip .c (by decide), hwait, Bool.not_false, if_true, Bool.false_eq_true, if_false]

theorem exec_scdone_gated (hg : (s.part p).gated = true) (hwait : s.syscallWaits p (bits v 11 0) = true) :
    exec (.scdoneWrite p (.monitor k) v) s = .next (s.setPart p { s.part p with
      scheld := (s.part p).scheld ++ [(bits v 11 0, (s.part p).scval.getD (.monitor k) 0, bit v 12)] }) := by
  show execScdoneWrite p (.monitor k) v s = _
  simp only [execScdoneWrite, monitorMay hstrip .c (by decide), hwait, Bool.not_true, Bool.false_eq_true, if_false]
  exact if_pos hg

theorem exec_scdone_answers {o : Op} (hg : (s.part p).gated = false) (hfind : s.work.ops.find?
    (fun o => o.kind = .syscall && o.phase = .parked && o.names.part == p && o.ctx == bits v 11 0) = some o) :
    exec (.scdoneWrite p (.monitor k) v) s = .next (s.finish o
      ⟨if bit v 12 then 0 else (s.part p).scval.getD (.monitor k) 0, .i64, bit v 12⟩) := by
  show execScdoneWrite p (.monitor k) v s = _
  simp only [execScdoneWrite, monitorMay hstrip .c (by decide), syscallWaits_of_find hfind, hg, State.answerSyscall, hfind,
    Bool.not_true, Bool.false_eq_true, if_false, writerOf]

theorem exec_framescrub_done {t : State} (hscrub : s.scrub p v = .done t) :
    exec (.framescrub p (.monitor k) v) s = .next (t.modPart p fun y => y.setFail (.monitor k) false) := by
  show execFramescrub p (.monitor k) v s = _
  simp only [execFramescrub, monitorMay hstrip .m (by decide), hscrub, Bool.false_eq_true, if_false]

theorem exec_framescrub_size (h16 : bits v 15 10 ≠ 16) (h21 : bits v 15 10 ≠ 21) (h30 : bits v 15 10 ≠ 30) :
    exec (.framescrub p (.monitor k) v) s = .next (s.setPart p ((s.part p).setFail (.monitor k) true)) := by
  have hscrub : s.scrub p v = .refused := if_pos (by simp [h16, h21, h30])
  show execFramescrub p (.monitor k) v s = _
  simp only [execFramescrub, monitorMay hstrip .m (by decide), hscrub, Bool.false_eq_true, if_false]
  rfl

end

/-- Settles O51: one lemma for each clause. -/
theorem resumesAndReplies : Obligations.ResumesAndReplies := by
  unfold Obligations.ResumesAndReplies
  rintro s p v x rfl
  refine ⟨?_, ?_, ?_, ?_, ?_, ?_, ?_⟩
  · rintro kill t i hkill rfl rfl
    exact ⟨exec_fresume_gated hkill, exec_fresume_now hkill, exec_fresume_early hkill⟩
  · intro o id w hop halone hwho
    exact resolveWait_kill hop halone hwho
  · rintro c y rfl hctx hhalt
    exact ⟨exec_ctxctlResume hctx hhalt, exec_ctxctlKill hctx hhalt⟩
  · intro k hstrip hwait
    exact exec_scdone_none hstrip hwait
  · intro k o hstrip hg hfind
    exact exec_scdone_answers hstrip hg hfind
  · intro k hstrip hg hwait
    exact exec_scdone_gated hstrip hg hwait
  · intro k t hstrip
    exact ⟨exec_framescrub_done hstrip, exec_framescrub_size hstrip⟩

end Sys2Proof.Machine
end

section
/-! PROOFS. Launches and tasks (O54): the launch interface, the steps of a launch, eviction and reload of blocks, and the end of
tasks. -/

namespace Sys2Proof.Machine

variable {s : State} {p : Nat}

/-! ### The launch interface (R176, R388) -/

section
variable {q : Nat} {v : W64} (hlive : (s.part p).live = true) (hq : q < 64)
include hlive hq

/-- The interface of the queue stands. -/
theorem launchSubmit_stands : (!(s.part p).live || decide (64 ≤ q)) = false := by simp [hlive, hq]

/-- A record at an address that is not aligned or beyond 48 bits is not read. -/
theorem exec_launchSubmit_badAddr (hbad : bits v 63 48 ≠ 0 ∨ bits v 7 0 ≠ 0) {st : W64} {t : State}
    (hst : s.submitted p q ((s.part p).submitStatus q false true none) [] = (st, t)) :
    exec (.launchSubmit p q v) s = .next { t with run := { t.run with busRead := st } } := by
  show execLaunchSubmit p q v s = _
  have haddr : (decide (bits v 63 48 ≠ 0) || decide (bits v 7 0 ≠ 0)
      || !((paLocal (bits v 47 8 * 256) && !s.paReserved p (bits v 47 8 * 256)) || paHost (bits v 47 8 * 256))) = true := by
    rcases hbad with h | h <;> simp [h]
  simp only [execLaunchSubmit, launchSubmit_stands hlive hq, haddr, Bool.false_eq_true, if_false, if_true, ite_self,
    Option.getD_none, hst]

theorem exec_launchSubmit_read (hhi : bits v 63 48 = 0) (hlo : bits v 7 0 = 0)
    (hpa : (paLocal (bits v 47 8 * 256) = true ∧ s.paReserved p (bits v 47 8 * 256) = false) ∨ paHost (bits v 47 8 * 256) = true)
    {ws : Option (List W64)} {u : State} (hrec : s.recordAt (bits v 47 8 * 256) = (ws, u)) {st : W64} {t : State}
    (hst : u.submitted p q ((s.part p).submitStatus q false false
      (if (paHost (bits v 47 8 * 256) = true ∧ bit (s.part p).hostwin 0 = false) ∨ u.paSpoiled (bits v 47 8 * 256) 256 = true
        then none else ws)) (ws.getD []) = (st, t)) :
    exec (.launchSubmit p q v) s = .next { t with run := { t.run with busRead := st } } := by
  show execLaunchSubmit p q v s = _
  have haddr : (decide (bits v 63 48 ≠ 0) || decide (bits v 7 0 ≠ 0)
      || !((paLocal (bits v 47 8 * 256) && !s.paReserved p (bits v 47 8 * 256)) || paHost (bits v 47 8 * 256))) = false := by
    rcases hpa with ⟨hlocal, hfree⟩ | hhost
    · simp [hhi, hlo, hlocal, hfree]
    · simp [hhi, hlo, hhost]
  have hfail : ((paHost (bits v 47 8 * 256) && !bit (s.part p).hostwin 0 || u.paSpoiled (bits v 47 8 * 256) 256) = true)
      ↔ (paHost (bits v 47 8 * 256) = true ∧ bit (s.part p).hostwin 0 = false) ∨ u.paSpoiled (bits v 47 8 * 256) 256 = true := by
    simp
  simp only [execLaunchSubmit, launchSubmit_stands hlive hq, haddr, Bool.false_eq_true, if_false, hrec, hfail, hst]

end

/-! ### A launch: its start, its sections, its tasks, its end (R90, R389 to R392, R395) -/

section
variable (hworks : (s.part s.run.subj.a).works = true)
include hworks

theorem exec_launchStart {t u : State} {hs : List HeldLaunch} {h : HeldLaunch}
    (ht : t = ((upto 64).filterMap fun q => (s.part s.run.subj.a).head q).foldl (fun s' h => s'.markHead s.run.subj.a h) s)
    (hroom : (t.part s.run.subj.a).running.length < 16) (hstart : t.startable s.run.subj.a (upto 64) [] = (hs, u))
    (hnext : (u.part s.run.subj.a).nextStart hs = some h) (htcb : h.launch.tcb = 0) :
    exec .launchStart s = .next (u.startLaunch s.run.subj.a h) := by
  show execLaunchStart s = _
  simp only [execLaunchStart, hworks, ← ht, Nat.not_le.mpr hroom, hstart, hnext, htcb, Bool.not_true, Bool.false_eq_true, if_false,
    if_true]

variable {r : Running} (hr : (s.part s.run.subj.a).running[s.run.subj.b]? = some r)
include hr

theorem exec_sectionLoad (hloaded : r.loaded = false) (hstop : r.stopped = false) (hempty : r.emptySpace = false)
    (hsec : r.sec < r.launch.secEnd) : exec .sectionLoad s = .next (s.loadOn s.run.subj.a r) := by
  show execSectionLoad s = _
  simp only [execSectionLoad, hr, hworks, hloaded, hstop, hempty, Nat.not_le.mpr hsec, Bool.not_true, Bool.or_self, decide_false,
    Bool.false_eq_true, if_false]

theorem exec_dispatch {y : Running} {k : Section} {home id : Nat} {w : W64} {t u : State}
    (hpick : s.dispatchPick s.run.subj.a = some y) (horder : y.order = r.order) (hsec : s.runSection s.run.subj.a r = some k)
    (hid : r.nextId = some w) (hhome : s.taskHome s.run.subj.a k = (some home, t))
    (htask : t.dispatchTask s.run.subj.a r k.lsec home w = some (id, u)) :
    exec .dispatch s = .next (u.passOver s.run.subj.a r (s.couldDispatch s.run.subj.a)) := by
  show execDispatch s = _
  simp only [execDispatch, hr, hpick, hworks, horder, hsec, hid, hhome, htask, ne_eq, not_true_eq_false, decide_false,
    Bool.not_true, Bool.or_self, Bool.false_eq_true, if_false]

theorem exec_schedTableDispatch {c : Cursor} {w : W64} {sec l home id : Nat} {rest : List (W64 × Nat)} {t : State}
    (hcur : r.cursors.find? (fun c => c.cluster == s.run.subj.c) = some c) (hent : c.entries = (w, sec) :: rest)
    (htask : c.task = none) (hl : r.lsecs[sec]? = some l) (hhome : home = inRun (s.loadRun s.run.subj.a) c.cluster)
    (hloaded : r.loaded = true) (hstop : r.stopped = false)
    (hfree : (s.part s.run.subj.a).queueFree r (heldMark c.cluster) = true) (hroom : s.streamRoom s.run.subj.a l = true)
    (hslot : s.chainSlot s.run.subj.a home = true) (hdisp : s.dispatchTask s.run.subj.a r l home w = some (id, t)) :
    exec .schedTableDispatch s
      = .next ((t.modPart s.run.subj.a fun z => z.dropHead r (heldMark c.cluster)).modRun s.run.subj.a r.queue r.lseq fun y =>
        { y with cursors := modFirst (fun k => k.cluster == c.cluster) (fun k => { k with task := some id }) y.cursors }) := by
  show execSchedTableDispatch s = _
  subst hhome
  simp only [execSchedTableDispatch, hr, hcur, hent, htask, hl, hworks, hloaded, hstop, hfree, hroom, hslot, hdisp, Bool.not_true,
    Bool.or_self, Bool.false_eq_true, if_false]

theorem exec_releaseIslands (hsec : r.sec < r.launch.secEnd) (hover : s.sectionOver s.run.subj.a r = true) :
    exec .releaseIslands s
      = .next ((r.lsecs.foldl (fun s' l => s'.releaseNodes s.run.subj.a l r.order) s).modRun s.run.subj.a r.queue r.lseq fun y =>
        { y with loaded := false, lsecs := [], tile := 0,
                 sec := if y.launch.mode || y.stopped then y.launch.secEnd else y.sec + 1 }) := by
  show execReleaseIslands s = _
  simp only [execReleaseIslands, hr, hworks, hover, Nat.not_le.mpr hsec, decide_false, Bool.not_true, Bool.or_self,
    Bool.false_eq_true, if_false]

theorem exec_launchComplete (hbusy : s.launchBusy s.run.subj.a r = false) (hsec : r.launch.secEnd ≤ r.sec) :
    exec .launchComplete s = .next (s.completeStep s.run.subj.a r) := by
  show execLaunchComplete s = _
  simp only [execLaunchComplete, hr, hworks, hbusy, hsec, decide_true, Bool.true_or, Bool.not_true, Bool.or_self,
    Bool.false_eq_true, if_false]

end

/-! ### Eviction of a block, by step (R393) -/

section
variable {l b : Nat} {e : PlEntry}

theorem evictOn_begin (hev : s.evictable p l b e = true) (hmoving : e.moving = false) :
    s.evictOn p l b e true = s.modEntry p l b fun y => { y with moving := true } := by
  simp only [State.evictOn, hev, hmoving, Bool.false_and, Bool.not_true, Bool.or_self, Bool.false_eq_true, if_false]

theorem evictOn_leave (hev : s.evictable p l b e = true) (hmoving : e.moving = true) (hvalid : e.valid = true) :
    s.evictOn p l b e true = (s.modEntry p l b fun y => { y with valid := false }).tellCaches p l b s.fab.pcache := by
  simp only [State.evictOn, hev, hmoving, hvalid, Bool.not_true, Bool.and_false, Bool.or_self, Bool.false_eq_true, if_false, if_true]

theorem evictOn_cancel {wanted : Bool} (hnot : s.evictable p l b e = false ∨ wanted = false) (hvalid : e.valid = true) :
    s.evictOn p l b e wanted = s.cancelEvict p l b := by
  have hstay : (!wanted || !s.evictable p l b e) = true := by
    rcases hnot with h | h <;> simp [h]
  simp only [State.evictOn, hvalid, hstay, Bool.not_true, Bool.and_false, Bool.false_eq_true, if_false, if_true]

theorem evictOn_end (wanted : Bool) (hmoving : e.moving = true) (hvalid : e.valid = false) : s.evictOn p l b e wanted
    = if (s.forgetPlace p l b).boundFor p l b e.place then s.forgetPlace p l b
      else (s.forgetPlace p l b).evictBlock p l b e.place := by
  simp only [State.evictOn, hmoving, hvalid, Bool.not_false, Bool.and_self, if_true]

end

section
variable (hworks : (s.part s.run.subj.a).works = true)
include hworks

/-- BLOCK_EVICT acts on a block that moves already, and on one whose elder neighbour does not go first. -/
theorem exec_blockEvict {e : PlEntry} (hentry : s.entry? ⟨s.run.subj.a, s.run.subj.b, false, s.run.subj.c, 0⟩ = some e)
    (hturn : e.moving = true ∨ s.olderOther s.run.subj.a e.place = false) :
    exec .blockEvict s = .next (s.evictOn s.run.subj.a s.run.subj.b s.run.subj.c e
      (s.roomWanted s.run.subj.a s.run.subj.b e.place.cluster e.place.elem)) := by
  have hgo : (!(s.part s.run.subj.a).works || (!e.moving && s.olderOther s.run.subj.a e.place)) = false := by
    rcases hturn with h | h <;> simp [hworks, h]
  show execBlockEvict s = _
  simp only [execBlockEvict, hentry, hgo, Bool.false_eq_true, if_false]

theorem exec_blockReload {k : Section} {r : Running} {pl : Place}
    (hneed : (s.run.subj.b, s.run.subj.c) ∈ s.neededBlocks s.run.subj.a)
    (hsec : s.section? s.run.subj.a s.run.subj.b = some k)
    (hrun : (s.part s.run.subj.a).running.find? (fun r => r.lsecs.contains s.run.subj.b) = some r)
    (hplace : s.reloadPlace s.run.subj.a k s.run.subj.c = some pl) :
    exec .blockReload s = .next (s.loadBlock s.run.subj.a r k s.run.subj.c pl) := by
  have hgo : (!(s.part s.run.subj.a).works || !(s.neededBlocks s.run.subj.a).contains (s.run.subj.b, s.run.subj.c)) = false := by
    simp [hworks, hneed]
  show execBlockReload s = _
  simp only [execBlockReload, hgo, hsec, hrun, hplace, Bool.false_eq_true, if_false]

end

/-! ### The end of a task (R46, R94, R402) -/

section
variable {y : Ctx} (hctx : s.ctx? s.run.subj.a s.run.subj.b = some y)
include hctx

theorem exec_taskRetire_done (hroot : y.root = y.id) (hdone : y.done = true) (habort : y.aborted = false)
    (hone : s.taskCtxs s.run.subj.a s.run.subj.b = [s.run.subj.b]) (hlast : y.chain.last = 0xFD)
    (hquiet : s.quiet s.run.subj.a s.run.subj.b = true) (hisland : s.islandWaits s.run.subj.a s.run.subj.b = false)
    (hstream : s.streamWaits s.run.subj.a s.run.subj.b = false) (hstop : (s.part s.run.subj.a).stopped = false)
    (hrings : (s.closeTask s.run.subj.a s.run.subj.b).noRings s.run.subj.a s.run.subj.b = true) :
    exec .taskRetire s = .next (((y.orphans.foldl State.pushTrap
      ((s.closeTask s.run.subj.a s.run.subj.b).flushGuard s.run.subj.a s.run.subj.b)).freeCtx s.run.subj.a s.run.subj.b).taskEnded
        s.run.subj.a y.queue y.lseq s.run.subj.b false) := by
  show execTaskRetire s = _
  simp only [execTaskRetire, hctx, hroot, hdone, habort, hone, hlast, hquiet, hisland, hstream, hstop, hrings, ne_eq,
    not_true_eq_false, decide_false, Bool.not_true, Bool.or_self, Bool.false_eq_true, if_false]

theorem exec_taskRetire_held (hheld : y.done = false ∨ s.quiet s.run.subj.a s.run.subj.b = false ∨ y.chain.last ≠ 0xFD ∨
    s.islandWaits s.run.subj.a s.run.subj.b = true ∨ s.streamWaits s.run.subj.a s.run.subj.b = true ∨
    (s.part s.run.subj.a).stopped = true) : exec .taskRetire s = .next s := by
  have hstay : (!y.done || y.aborted || decide (y.root ≠ y.id) || (s.part s.run.subj.a).stopped
      || decide (s.taskCtxs s.run.subj.a s.run.subj.b ≠ [s.run.subj.b]) || decide (y.chain.last ≠ 0xFD)
      || !s.quiet s.run.subj.a s.run.subj.b || s.islandWaits s.run.subj.a s.run.subj.b
      || s.streamWaits s.run.subj.a s.run.subj.b) = true := by
    rcases hheld with h | h | h | h | h | h <;> simp [h]
  show execTaskRetire s = _
  simp only [execTaskRetire, hctx, hstay, if_true]

theorem exec_taskRequeue {t : State} {h : HeldTask} {mark : Nat} (hroot : y.root = y.id) (habort : y.aborted = true)
    (hquiet : s.taskQuiet s.run.subj.a s.run.subj.b = true) (hstop : (s.part s.run.subj.a).stopped = false)
    (hrings : (s.closeTask s.run.subj.a s.run.subj.b).noRings s.run.subj.a s.run.subj.b = true)
    (hmark : mark = ((((s.closeTask s.run.subj.a s.run.subj.b).part s.run.subj.a).run? y.queue y.lseq).map
      fun r => r.markOf s.run.subj.b).getD 0)
    (ht : t = ((s.closeTask s.run.subj.a s.run.subj.b).freeTask s.run.subj.a s.run.subj.b).modRun s.run.subj.a y.queue y.lseq
      (fun r => { r with cursors := r.cursors.map fun k => if k.task = some s.run.subj.b then { k with task := some mark } else k }))
    (htask : (((s.closeTask s.run.subj.a s.run.subj.b).freeTask s.run.subj.a s.run.subj.b).part s.run.subj.a).tasks.find?
      (fun t => t.ctx == s.run.subj.b && !t.ready) = some h) :
    exec .taskRequeue s = .next ((t.modPart s.run.subj.a fun z =>
      { z with tasks := modFirst (fun q => q = h) (fun _ => { h with ready := true, ctx := mark }) z.tasks }).pumpFresumes
        s.run.subj.a) := by
  show execTaskRequeue s = _
  subst hmark ht
  simp only [execTaskRequeue, hctx, hroot, habort, hquiet, hstop, hrings, htask, ne_eq, not_true_eq_false, decide_false,
    Bool.not_true, Bool.or_self, Bool.false_eq_true, if_false]

end

/-- TASK_ABORT acts on the task of a faulted operation whose wait aborts. -/
theorem exec_taskAbort {o : Op} {w : Waiting} (hop : s.op? s.run.subj.a = some o) (hphase : o.phase = .faulted)
    (hstop : (s.part o.names.part).stopped = false)
    (hwait : s.work.waits.find? (fun w => w.who = .op s.run.subj.a && w.aborts) = some w) :
    exec .taskAbort s = .next (s.abortTask o.names.part o.ctx w.granule (o.site s)) := by
  show execTaskAbort s = _
  simp only [execTaskAbort, hop, hwait, hphase, hstop, decide_true, Bool.not_false, Bool.and_self, if_true]

section
variable {y : Ctx} {c g n : Nat} {w : Site} (hctx : s.ctx? p (s.rootOf p c) = some y) (habort : y.aborted = false)
  (hn : n = (s.part p).aborts.getD (y.queue, y.lseq, y.workid.toNat) 0 + 1)
include hctx habort hn

theorem abortTask_again (hless : n < 64) : s.abortTask p c g w = ((s.cancelTask p (s.rootOf p c)).modPart p fun z =>
    { z with aborts := z.aborts.set (y.queue, y.lseq, y.workid.toNat) n,
             tasks := z.tasks ++ [⟨y.asid, g, y.queue, y.lseq, y.workid, false, s.rootOf p c⟩] }).pumpFresumes p := by
  subst hn
  simp only [State.abortTask, hctx, habort, Nat.not_le.mpr hless, Bool.false_eq_true, if_false]

theorem abortTask_last (hlast : 64 ≤ n) : s.abortTask p c g w = ((((s.cancelTask p (s.rootOf p c)).modPart p fun z =>
    { z with aborts := z.aborts.del (y.queue, y.lseq, y.workid.toNat) }).raise w { cause := 9, sub := 1, info := n }).taskEnded
      p y.queue y.lseq (s.rootOf p c) true).pumpFresumes p := by
  subst hn
  simp only [State.abortTask, hctx, habort, hlast, Bool.false_eq_true, if_false, if_true]

end

/-- Settles O54: one lemma for each clause. -/
theorem launchesAndTasks : Obligations.LaunchesAndTasks := by
  unfold Obligations.LaunchesAndTasks
  rintro s p x rfl
  refine ⟨?_, ?_, ?_, ?_, ?_⟩
  · intro q v hlive hq hbad st t hst
    exact exec_launchSubmit_badAddr hlive hq hbad hst
  · rintro q v pa ws u hlive hq rfl hhi hlo hpa hrec st t hst
    exact exec_launchSubmit_read hlive hq hhi hlo hpa hrec hst
  · rintro hworks rfl
    refine ⟨?_, ?_, ?_, ?_⟩
    · intro t u hs h ht hroom hstart hnext htcb
      exact exec_launchStart hworks ht hroom hstart hnext htcb
    · intro r hr
      refine ⟨exec_sectionLoad hworks hr, ?_, ?_, exec_releaseIslands hworks hr, exec_launchComplete hworks hr⟩
      · intro y k home id w t u hpick horder hsec hid hhome htask
        exact exec_dispatch hworks hr hpick horder hsec hid hhome htask
      · intro c w sec l home id rest t hcur hent htask hl hhome hloaded hstop hfree hroom hslot hdisp
        exact exec_schedTableDispatch hworks hr hcur hent htask hl hhome hloaded hstop hfree hroom hslot hdisp
    · rintro l b e rfl rfl hentry
      refine ⟨fun hev hwanted => ⟨fun hmoving holder => ?_, fun hmoving hvalid => ?_⟩, fun hnot hmoving hvalid => ?_,
        fun hmoving hvalid => ⟨fun hbound => ?_, fun hbound => ?_⟩⟩
      · rw [exec_blockEvict hworks hentry (.inr holder), hwanted, evictOn_begin hev hmoving]
      · rw [exec_blockEvict hworks hentry (.inl hmoving), hwanted, evictOn_leave hev hmoving hvalid]
      · rw [exec_blockEvict hworks hentry (.inl hmoving), evictOn_cancel hnot hvalid]
      · rw [exec_blockEvict hworks hentry (.inl hmoving), evictOn_end _ hmoving hvalid, hbound, if_neg Bool.false_ne_true]
      · rw [exec_blockEvict hworks hentry (.inl hmoving), evictOn_end _ hmoving hvalid, if_pos hbound]
    · rintro l b k r pl rfl rfl hneed hsec hrun hplace
      rw [exec_blockReload hworks hneed hsec hrun hplace, State.loadBlock]
      refine ⟨fun t hfetch => ?_, fun xs t hfetch => ?_⟩ <;> rw [hfetch]
  · rintro c y rfl rfl hctx hroot
    refine ⟨exec_taskRetire_done hctx hroot, exec_taskRetire_held hctx, ?_⟩
    intro t h habort hquiet hstop hrings mark hmark ht htask
    exact exec_taskRequeue hctx hroot habort hquiet hstop hrings hmark ht htask
  · rintro o y w root n key hop rfl hphase rfl hctx hstop hwait habort rfl hn
    rw [exec_taskAbort hop hphase hstop hwait]
    refine ⟨fun hless => ?_, fun hlast => ?_⟩
    · rw [abortTask_again hctx habort hn hless]
    · rw [abortTask_last hctx habort hn hlast]

end Sys2Proof.Machine
end

section
/-! SUPPORT. A buffered operation whose turn has come (R81, R84), and what an operation leaves of the memory system as it ends
(R135, R247): its results leave, the waits that it releases end, and no byte changes. -/

namespace Sys2Proof.Machine

variable {s t u : State} {o : Op}

/-! ### A buffered operation whose turn has come (R81, R84) -/

theorem exec_chainPerform_buffered {x : Ctx} (hop : s.op? s.run.subj.a = some o) (hctx : s.ctx? o.names.part o.ctx = some x)
    (hgoes : (s.part o.names.part).stopped = false) (hwaits : o.phase = .buffered) :
    exec .chainPerform s = .next (s.performBuffered x o) := by
  show execChainPerform s = _
  simp only [execChainPerform, hop, hctx, hgoes, Bool.false_eq_true, if_false]
  rw [hwaits]

theorem performBuffered_takes {x : Ctx} (hruns : o.chained = true → x.halted = false ∧ x.chain.stale o = false)
    (hnext : x.takes o = true) : s.performBuffered x o
      = (s.enter o (s.entryFor o true)).turn { o with entry := s.entryFor o true } := by
  have hhalted : (o.chained && x.halted) = false := by
    rw [Bool.and_eq_false_imp]
    exact fun hc => (hruns hc).1
  have hstale : (o.chained && x.chain.stale o) = false := by
    rw [Bool.and_eq_false_imp]
    exact fun hc => (hruns hc).2
  simp only [State.performBuffered, hhalted, hstale, hnext, Bool.false_eq_true, if_false, if_true]

theorem turn_runs (hleads : o.follows = false) (hbefore : o.waitsBefore = true → s.released o = true)
    (hflushed : s.unflushed o = false) : s.turn o = s.runOp o := by
  have hnow : (o.waitsBefore && !s.released o) = false := by
    rw [Bool.and_eq_false_imp]
    exact fun hw => by rw [hbefore hw, Bool.not_true]
  simp only [State.turn, hleads, hnow, hflushed, Bool.or_self, Bool.false_eq_true, if_false]

/-- An operation that its context may perform passes the checks of its chain and runs. -/
theorem exec_chainPerform_runs {i : State} {y : Ctx} (h : MayPerform i s o y) : exec .chainPerform i = .next (s.runOp o) := by
  obtain ⟨⟨q, hq, rfl, rfl⟩, hctx, hgoes, hwaits, hruns, hnext, hleads, hbefore, hflushed⟩ := h
  rw [exec_chainPerform_buffered hq hctx hgoes hwaits, performBuffered_takes (o := q) hruns hnext,
    turn_runs hleads hbefore hflushed]

/-! ### What an access leaves of the memory system as it ends -/

/-- The memory system is as before but for the requests on their way to their homes. -/
def KeepsMem (s t : State) : Prop := ∃ rs, t.mem = { s.mem with reqs := rs }

theorem KeepsMem.of_mem (h : t.mem = s.mem) : KeepsMem s t := ⟨s.mem.reqs, h⟩

theorem KeepsMem.trans (h : KeepsMem s t) (k : KeepsMem t u) : KeepsMem s u := by
  obtain ⟨rs, hrs⟩ := h
  obtain ⟨qs, hqs⟩ := k
  exact ⟨qs, by rw [hqs, hrs]⟩

theorem KeepsMem.foldl {α : Type} {f : State → α → State} (h : ∀ s a, KeepsMem s (f s a)) (l : List α) :
    ∀ s, KeepsMem s (l.foldl f s) := by
  induction l with
  | nil => exact fun s => .of_mem rfl
  | cons a l ih => exact fun s => (h s a).trans (ih (f s a))

theorem KeepsMem.bankMem (h : KeepsMem s t) (z : Spot) : t.bankMem z = s.bankMem z := by
  obtain ⟨rs, hrs⟩ := h
  cases z <;> simp only [State.bankMem, hrs]

theorem quiet_issuerPort (s : State) (g : Gather) (w : Port) : Quiet s (s.issuerPort g w).2 := by
  have hresolve := quiet_resolve s w g.names
  unfold State.issuerPort
  split
  · exact Quiet.rfl' s
  · split <;> rename_i heq <;> rw [heq] at hresolve <;> exact hresolve

theorem quiet_sendResult (s : State) (g : Gather) (w : Port) (l : W32) (t : Token) : Quiet s (s.sendResult g w l t) := by
  unfold State.sendResult
  split
  · exact Quiet.rfl' s
  · refine Quiet.foldl _ (fun s x => ?_) _ s
    split
    · exact quiet_sendPlain s _ _ _ _
    · exact (quiet_issuerPort s g w).trans (quiet_sendPlain _ _ _ _ _)

theorem quiet_sendPiece (s : State) (g : Gather) (x : Nat × ElemRes × List W64) : Quiet s (s.sendPiece g x) := by
  have hif : ∀ (c : Bool) (v w : State), Quiet v w → Quiet v (if c then w else v) := by
    intro c v w h
    cases c with
    | true => exact h
    | false => exact Quiet.rfl' v
  exact (hif _ _ _ (quiet_sendResult s g _ _ _)).trans (hif _ _ _ (quiet_sendResult _ g _ _ _))

theorem quiet_sendGather (s : State) (g : Gather) : Quiet s (s.sendGather g) :=
  Quiet.foldl _ (fun s x => quiet_sendPiece s g x) _ s

theorem deliver_mem (s : State) (gid j : Nat) (r : ElemRes) (w : Option Port) : (s.deliver gid j r w).mem = s.mem := by
  unfold State.deliver
  split
  · rfl
  · dsimp only
    split
    · exact (quiet_sendGather _ _).mem
    · rfl

theorem deliverAll_mem (s : State) (gid : Nat) (r : ElemRes) (w : Option Port) : (s.deliverAll gid r w).mem = s.mem := by
  unfold State.deliverAll
  split
  · rfl
  · exact (quiet_sendGather _ _).mem

theorem endOp_keepsMem (s : State) (o : Op) : KeepsMem s (s.endOp o) := by
  unfold State.endOp
  dsimp only
  split <;> exact ⟨_, rfl⟩

theorem finishAt_keepsMem (s : State) (o : Op) (r : ElemRes) (w : Port) : KeepsMem s (s.finishAt o r w) := by
  have hend := endOp_keepsMem s o
  unfold State.finishAt
  dsimp only
  split
  · exact hend
  · split
    · exact hend.trans (.of_mem (deliverAll_mem _ _ _ _))
    · exact hend.trans (.of_mem (deliver_mem _ _ _ _ _))

theorem spoilOp_keepsMem (s : State) (o : Op) (w : Site) (p : Port) : KeepsMem s (s.spoilOp o w p) := by
  have htrap : KeepsMem s ((s.raise w { cause := 0x0B, sub := 1, addr := o.ia }).finishAt o o.bad p) :=
    (KeepsMem.of_mem rfl).trans (finishAt_keepsMem _ o o.bad p)
  unfold State.spoilOp
  split
  · exact htrap
  · exact htrap
  · exact htrap
  · exact finishAt_keepsMem s o o.bad p

theorem flushGuard_mem (s : State) (p c : Nat) : (s.flushGuard p c).mem = s.mem := by
  unfold State.flushGuard
  split
  · rfl
  · split <;> rfl

theorem finishWait_keepsMem (s : State) (o : Op) (v : Nat) (p : Port) : KeepsMem s (s.finishWait o v p) :=
  (KeepsMem.of_mem (flushGuard_mem s _ _)).trans (finishAt_keepsMem _ o _ p)

/-- The waits that a write releases end, and change no byte (R135). -/
theorem wakeSpot_keepsMem (s : State) (x : Spot) (n : Nat) : KeepsMem s (s.wakeSpot x n) := by
  refine KeepsMem.foldl (fun s q => ?_) _ s
  dsimp only
  split
  · exact spoilOp_keepsMem s q _ _
  · split
    · exact finishWait_keepsMem s q _ _
    · exact .of_mem rfl

/-! ### Guards (R63, R64) -/

theorem noteGuards_mem (s : State) (w : Site) (lv : Level) (x : Spot) (n : Nat) : (s.noteGuards w lv x n).mem = s.mem := by
  have hfold : ∀ (l : List Spot) (s : State),
      (l.foldl (fun s y => s.noteGuard w.names.part w.ctx (guardRecord w lv y)) s).mem = s.mem := by
    intro l
    induction l with
    | nil => exact fun s => rfl
    | cons y l ih => exact fun s => ih _
  exact hfold _ s

theorem guarded_of_key {x z : Spot} (h : z.key = x.key) : s.guarded z = s.guarded x := by
  simp only [State.guarded, Spot.granule, h]

theorem guarded_of_guards {z : Spot} (h : t.mem.guards = s.mem.guards) : t.guarded z = s.guarded z := by
  simp only [State.guarded, h]

theorem bankMem_of_mem {z : Spot} (h : t.mem = s.mem) : t.bankMem z = s.bankMem z := (KeepsMem.of_mem h).bankMem z

theorem readSpot_of_mem {x : Spot} {n : Nat} (h : t.mem = s.mem) : t.readSpot x n = s.readSpot x n := by
  simp only [State.readSpot, guarded_of_guards (congrArg MemSys.guards h), bankMem_of_mem h]

theorem readSpot_noteGuards (s : State) (w : Site) (lv : Level) (x : Spot) (n k : Nat) :
    (s.noteGuards w lv x n).readSpot x k = s.readSpot x k := readSpot_of_mem (noteGuards_mem s w lv x n)

end Sys2Proof.Machine
end

section
/-! PROOFS. Scratch accesses (O58): the bytes of a bank, then loads, stores and atomics of a scratch level. -/

namespace Sys2Proof.Machine

variable {s t u : State} {o : Op}

/-! ### Bytes of a bank -/

@[simp] theorem Spot.key_add (x : Spot) (d : Nat) : (x.add d).key = (x.key.1, x.key.2 + d) := by
  cases x <;> simp [Spot.add, Spot.key, Nat.add_assoc]

/-- A write of one byte at a spot: every spot of that level and address reads it, every other one what it read before. -/
theorem get_modBank_put (hform : MemForm s) (x z : Spot) (b : Byte) :
    ((s.modBank x fun m => m.put x.key.2 b).bankMem z).get z.key.2
      = if z.key = x.key then b else (s.bankMem z).get z.key.2 := by
  obtain ⟨-, hes, hcs, hss⟩ := hform
  cases x <;> cases z <;>
    simp [State.modBank, State.bankMem, Spot.key, Memory.get_put hes, Memory.get_put hcs, Memory.get_put hss]

theorem bankMem_cover (s : State) (lv : Level) (a n : Nat) (z : Spot) : (s.cover lv a n).bankMem z = s.bankMem z := by
  cases z <;> rfl

/-- A write of one byte where no guard bit is set, none where one is (R64). -/
def State.writeByte (s : State) (x : Spot) (b : Byte) : State :=
  if s.guarded x then s else (s.modBank x fun m => m.put x.key.2 b).cover x.key.1 x.key.2 1

theorem writeSpot_cons (s : State) (x : Spot) (b : Byte) (bs : List Byte) :
    s.writeSpot x (b :: bs) = (s.writeByte x b).writeSpot (x.add 1) bs := rfl

theorem memForm_writeByte (hform : MemForm s) (x : Spot) (b : Byte) : MemForm (s.writeByte x b) :=
  memForm_writeSpot hform (x := x) (bs := [b])

/-- What a write at a spot leaves of the memory system beside the bytes of scratch and the marks of poison. -/
structure KeepsLines (s t : State) : Prop where
  guards : t.mem.guards = s.mem.guards
  hbm : t.mem.hbm = s.mem.hbm
  l1 : t.mem.l1 = s.mem.l1
  l2 : t.mem.l2 = s.mem.l2
  full : t.mem.full = s.mem.full

theorem KeepsLines.trans (h : KeepsLines s t) (k : KeepsLines t u) : KeepsLines s u :=
  ⟨k.guards.trans h.guards, k.hbm.trans h.hbm, k.l1.trans h.l1, k.l2.trans h.l2, k.full.trans h.full⟩

theorem KeepsMem.keepsLines (h : KeepsMem s t) : KeepsLines s t := by
  obtain ⟨rs, hrs⟩ := h
  constructor <;> rw [hrs]

theorem writeByte_keepsLines (s : State) (x : Spot) (b : Byte) : KeepsLines s (s.writeByte x b) := by
  unfold State.writeByte
  split
  · exact (KeepsMem.of_mem rfl).keepsLines
  · cases x <;> constructor <;> rfl

theorem writeSpot_keepsLines (x : Spot) (bs : List Byte) : KeepsLines s (s.writeSpot x bs) := by
  induction bs generalizing s x with
  | nil => exact (KeepsMem.of_mem rfl).keepsLines
  | cons b bs ih => exact (writeByte_keepsLines s x b).trans (ih (x.add 1))

theorem get_writeByte (hform : MemForm s) (x z : Spot) (b : Byte) :
    ((s.writeByte x b).bankMem z).get z.key.2
      = if z.key = x.key ∧ s.guarded x = false then b else (s.bankMem z).get z.key.2 := by
  unfold State.writeByte
  split
  · rename_i hg
    simp [hg]
  · rename_i hg
    simpa [hg, bankMem_cover] using get_modBank_put hform x z b

/-- The bytes that a write at a spot covers. -/
abbrev Spot.covers (x : Spot) (n : Nat) (z : Spot) : Prop := z.key.1 = x.key.1 ∧ x.key.2 ≤ z.key.2 ∧ z.key.2 < x.key.2 + n

/-- A byte that a write does not cover, or that lies in a guard granule, is as before. -/
theorem get_writeSpot_kept (hform : MemForm s) {x z : Spot} {bs : List Byte}
    (hz : ¬ x.covers bs.length z ∨ s.guarded z = true) :
    ((s.writeSpot x bs).bankMem z).get z.key.2 = (s.bankMem z).get z.key.2 := by
  induction bs generalizing s x with
  | nil => rfl
  | cons b bs ih =>
    have hguard := guarded_of_guards (z := z) (writeByte_keepsLines s x b).guards
    rw [writeSpot_cons, ih (memForm_writeByte hform x b), get_writeByte hform, if_neg]
    · rintro ⟨hkey, hopen⟩
      rcases hz with hz | hz
      · exact hz ⟨by rw [hkey], by rw [hkey], by rw [hkey]; simp⟩
      · rw [guarded_of_key hkey, hopen] at hz
        cases hz
    · rw [hguard]
      refine hz.imp_left fun hz hc => hz ?_
      obtain ⟨hlevel, hlo, hhi⟩ := hc
      rw [Spot.key_add] at hlevel hlo hhi
      exact ⟨hlevel, by omega, by rw [List.length_cons]; omega⟩

/-- A byte that a write covers is the byte written, but in a guard granule. -/
theorem get_writeSpot_written (hform : MemForm s) {x z : Spot} {bs : List Byte} {j : Nat} (hj : j < bs.length)
    (hkey : z.key = (x.add j).key) (hopen : s.guarded z = false) :
    ((s.writeSpot x bs).bankMem z).get z.key.2 = at! bs j 0 := by
  induction bs generalizing s x j with
  | nil => cases hj
  | cons b bs ih =>
    have hguard := guarded_of_guards (z := z) (writeByte_keepsLines s x b).guards
    rw [Spot.key_add] at hkey
    rw [writeSpot_cons]
    cases j with
    | zero =>
      have hkey0 : z.key = x.key := hkey
      rw [get_writeSpot_kept (memForm_writeByte hform x b), get_writeByte hform,
        if_pos ⟨hkey0, by rw [← guarded_of_key hkey0]; exact hopen⟩]
      · rfl
      · left
        simp only [Spot.covers, Spot.key_add, hkey0]
        omega
    | succ j =>
      refine ih (memForm_writeByte hform x b) (Nat.lt_of_succ_lt_succ hj) ?_ (hguard.trans hopen)
      rw [hkey, Spot.key_add, Spot.key_add, Nat.add_assoc, Nat.add_comm 1]

/-! ### A scratch access that is performed (R54, R64, R133, R244, R403) -/

/-- A load, a store or an atomic: an access that awaits nothing at its place (R244). -/
def Op.Plain (o : Op) : Prop := o.kind = .load ∨ o.kind = .store ∨ ∃ a, o.kind = .amo a

theorem Op.Plain.ne_nop (h : o.Plain) : o.kind ≠ .nop := by
  rcases h with hk | hk | ⟨a, hk⟩ <;> rw [hk] <;> nofun

/-- The bytes that an access leaves, if any, written at a spot. -/
def State.leaveBytes (s : State) (x : Spot) : Option (List Byte) → State
  | some bs => s.writeSpot x bs
  | none => s

/-- The site of a record about a scratch access: of `.sg` it names the cluster where the bytes lie. -/
def Op.scratchSite (o : Op) (s : State) : Site :=
  if o.level = .sg then { o.site s with unit := (o.spot s).unit, strip := clusterStrip (o.spot s).unit } else o.site s

section
variable (hgood : o.poison = false) (hscratch : o.level.cached = false) (halone : s.members o = [o])
  (hblocked : s.wayBlocked (o.spot s) = false)

include hgood hscratch halone in
/-- Alone in its piece a scratch access is performed at its bank, then the waits are tested that its bytes may release. -/
theorem startPiece_scratch (hkind : o.kind ≠ .nop) : s.startPiece o
      = if s.scratchMade o then (s.performScratch o).wakeSpot (o.spot (s.performScratch o)) (2 ^ o.width)
        else s.performScratch o := by
  simp only [State.startPiece, hscratch, Bool.false_and, Bool.false_eq_true, if_false, halone, State.startAccess, hgood,
    hkind, List.foldl_cons, List.foldl_nil, List.filter_cons, List.filter_nil]
  split <;> rfl

include hblocked in
/-- Outside the scratch of its unit an access is refused. -/
theorem performScratch_outside (hvalid : s.scratchValid o.names.part o.cluster o.level o.ia (2 ^ o.width) = false) :
    s.performScratch o = (s.raise (o.scratchSite s) { cause := 5, sub := 6, addr := o.va }).finish o o.bad := by
  simp only [State.performScratch, hblocked, hvalid, Bool.not_false, Bool.false_eq_true, if_false, if_true]
  rfl

section
variable (hvalid : s.scratchValid o.names.part o.cluster o.level o.ia (2 ^ o.width) = true)
  (hkind : o.Plain)
include hblocked hvalid hkind

/-- A load or an atomic that meets a poisoned granule changes no byte (R403). -/
theorem performScratch_spoiled (hlooks : o.looks = true) (hspoiled : s.spotSpoiled (o.spot s) (2 ^ o.width) = true) :
    s.performScratch o = (s.noteGuards (o.scratchSite s) o.level (o.spot s) (2 ^ o.width)).spoilOp o
      { o.scratchSite s with unit := (o.spot s).unit } := by
  rcases hkind with hk | hk | ⟨a, hk⟩ <;>
    simp only [State.performScratch, hblocked, hvalid, hk, hlooks, hspoiled, Bool.not_true, Bool.and_self,
      Bool.false_eq_true, if_false, if_true] <;> rfl

/-- A performed access notes the guard granules that it touches, leaves its bytes and its flags, and ends with its result. -/
theorem performScratch_made (hclean : (o.looks && s.spotSpoiled (o.spot s) (2 ^ o.width)) = false) {r : Applied}
    (hr : r = o.apply (s.readSpot (o.spot s) (2 ^ o.width))) :
    s.performScratch o
      = ((((s.noteGuards (o.scratchSite s) o.level (o.spot s) (2 ^ o.width)).leaveBytes (o.spot s) r.bytes).orFlags
          o.names.part o.ctx r.flags).noteOvf o r.ovf).finish o r.res := by
  subst hr
  rcases hkind with hk | hk | ⟨a, hk⟩ <;>
    simp only [State.performScratch, hblocked, hvalid, hk, hclean, Bool.not_true,
      Bool.false_eq_true, if_false, readSpot_noteGuards] <;> rfl

end

/-! ### Loads, stores and atomics of a scratch level, when their turn comes -/

include hgood in
theorem runOp_access (hkind : o.Plain) : s.runOp o = s.startPiece o := by
  rcases hkind with hk | hk | ⟨a, hk⟩ <;> simp only [State.runOp, hk, hgood, Bool.false_eq_true, if_false]

theorem scratchMade_of_load (hk : o.kind = .load) : s.scratchMade o = false := by
  simp only [State.scratchMade, Op.changes, hk, Bool.false_and]

theorem scratchMade_outside (hvalid : s.scratchValid o.names.part o.cluster o.level o.ia (2 ^ o.width) = false) :
    s.scratchMade o = false := by
  simp only [State.scratchMade, hvalid, Bool.and_false, Bool.false_and]

variable {i : State} {y : Ctx} (hmay : MayPerform i s o y)
include hmay hgood hscratch halone

/-- An access that leaves no bytes is performed at its bank, and nothing else. -/
theorem exec_scratch_unmade (hkind : o.Plain)
    (hmade : s.scratchMade o = false) : exec .chainPerform i = .next (s.performScratch o) := by
  rw [exec_chainPerform_runs hmay, runOp_access hgood hkind, startPiece_scratch hgood hscratch halone hkind.ne_nop, hmade,
    if_neg Bool.false_ne_true]

include hblocked

/-- What lies outside the scratch is refused (R54, R244). -/
theorem exec_scratch_outside (hkind : o.kind = .load ∨ o.kind = .store)
    (hvalid : s.scratchValid o.names.part o.cluster o.level o.ia (2 ^ o.width) = false) : exec .chainPerform i
      = .next ((s.raise (o.scratchSite s) { cause := 5, sub := 6, addr := o.va }).finish o o.bad) := by
  rw [exec_scratch_unmade hgood hscratch halone hmay (hkind.imp_right .inl) (scratchMade_outside hvalid),
    performScratch_outside hblocked hvalid]

variable (hvalid : s.scratchValid o.names.part o.cluster o.level o.ia (2 ^ o.width) = true)
include hvalid

/-- A load delivers the bytes at its offset (R64, R244). -/
theorem exec_scratchLoad_good (hk : o.kind = .load) (hclean : s.spotSpoiled (o.spot s) (2 ^ o.width) = false) :
    exec .chainPerform i = .next ((s.noteGuards (o.scratchSite s) o.level (o.spot s) (2 ^ o.width)).finish o
      (o.good (leNat (s.readSpot (o.spot s) (2 ^ o.width))))) := by
  rw [exec_scratch_unmade hgood hscratch halone hmay (.inl hk) (scratchMade_of_load hk),
    performScratch_made hblocked hvalid (.inl hk) (by rw [hclean, Bool.and_false])
      (r := { res := o.good (leNat (s.readSpot (o.spot s) (2 ^ o.width))) }) (by simp only [Op.apply, hk])]
  simp only [State.leaveBytes, orFlags_none, State.noteOvf, Bool.false_eq_true, if_false]

/-- A load that meets a poisoned granule is poisoned (R403). -/
theorem exec_scratchLoad_spoiled (hk : o.kind = .load) (hspoiled : s.spotSpoiled (o.spot s) (2 ^ o.width) = true) :
    exec .chainPerform i
      = .next ((s.noteGuards (o.scratchSite s) o.level (o.spot s) (2 ^ o.width)).finish o o.bad) := by
  rw [exec_scratch_unmade hgood hscratch halone hmay (.inl hk) (scratchMade_of_load hk),
    performScratch_spoiled hblocked hvalid (.inl hk) (by simp only [Op.looks, hk]) hspoiled]
  simp only [State.spoilOp, hk, State.finish]

/-- An access that leaves bytes writes them at its spot, and changes no other byte (R64). -/
theorem exec_scratch_writes (hkind : o.Plain)
    (hclean : (o.looks && s.spotSpoiled (o.spot s) (2 ^ o.width)) = false) (hmade : s.scratchMade o = true) {bs : List Byte}
    (hbytes : (o.apply (s.readSpot (o.spot s) (2 ^ o.width))).bytes = some bs) :
    ∃ t, exec .chainPerform i = .next t ∧
      KeepsMem ((s.noteGuards (o.scratchSite s) o.level (o.spot s) (2 ^ o.width)).writeSpot (o.spot s) bs) t := by
  refine ⟨_, by rw [exec_chainPerform_runs hmay, runOp_access hgood hkind,
    startPiece_scratch hgood hscratch halone hkind.ne_nop, if_pos hmade], ?_⟩
  rw [performScratch_made hblocked hvalid hkind hclean rfl]
  simp only [hbytes, State.leaveBytes]
  refine KeepsMem.trans ?_ (wakeSpot_keepsMem _ _ _)
  refine KeepsMem.trans (.of_mem ?_) (finishAt_keepsMem _ o _ _)
  unfold State.noteOvf
  split <;> rfl

end

@[simp] theorem length_leBytes (n x : Nat) : (leBytes n x).length = n := by
  induction n generalizing x with
  | zero => rfl
  | succ n ih => rw [leBytes, List.length_cons, ih]

/-- A write at a spot, seen through the state in which its guard granules have been noted and what ends the access. -/
theorem writeSpot_bytes {v : State} {x : Spot} {bs : List Byte} {n : Nat} (hform : MemForm s) (hnoted : v.mem = s.mem)
    (hend : KeepsMem (v.writeSpot x bs) t) (hlen : bs.length = n) :
    (∀ j, j < n → s.guarded (x.add j) = false → (t.bankMem x).get (x.key.2 + j) = at! bs j 0) ∧
    (∀ j, j < n → s.guarded (x.add j) = true → (t.bankMem x).get (x.key.2 + j) = (s.bankMem x).get (x.key.2 + j)) ∧
    (∀ z : Spot, z.key.1 ≠ x.key.1 ∨ z.key.2 < x.key.2 ∨ x.key.2 + n ≤ z.key.2 →
      (t.bankMem z).get z.key.2 = (s.bankMem z).get z.key.2) ∧
    t.mem.hbm = s.mem.hbm ∧ t.mem.l1 = s.mem.l1 ∧ t.mem.l2 = s.mem.l2 ∧ t.mem.full = s.mem.full := by
  have hv : MemForm v := by rw [MemForm, hnoted]; exact hform
  have hguard (z : Spot) : v.guarded z = s.guarded z := guarded_of_guards (congrArg MemSys.guards hnoted)
  have hbank (u : State) (j : Nat) : u.bankMem (x.add j) = u.bankMem x := by cases x <;> rfl
  have hlines := ((KeepsMem.of_mem hnoted).keepsLines.trans (writeSpot_keepsLines x bs)).trans hend.keepsLines
  subst hlen
  refine ⟨fun j hj hopen => ?_, fun j hj hshut => ?_, fun z hz => ?_, hlines.hbm, hlines.l1, hlines.l2, hlines.full⟩
  · have h := get_writeSpot_written hv hj rfl ((hguard (x.add j)).trans hopen)
    rwa [hbank, Spot.key_add, ← hend.bankMem] at h
  · have h := get_writeSpot_kept hv (bs := bs) (x := x) (.inr ((hguard (x.add j)).trans hshut))
    rwa [hbank, hbank, Spot.key_add, ← hend.bankMem, bankMem_of_mem hnoted] at h
  · have h := get_writeSpot_kept hv (z := z) (x := x) (bs := bs) (.inl fun hc => by
      obtain ⟨hlevel, hlo, hhi⟩ := hc
      rcases hz with hz | hz | hz
      · exact hz hlevel
      · omega
      · omega)
    rwa [← hend.bankMem, bankMem_of_mem hnoted] at h

/-- Settles O58: loads deliver and stores and atomics write at the access's own spot, and nothing else. -/
theorem scratchAccesses : Obligations.ScratchAccesses := by
  unfold Obligations.ScratchAccesses
  rintro i s o y x n hmay hgood hscratch halone rfl rfl hblocked w hw
  change w = o.scratchSite s at hw
  subst hw
  refine ⟨fun hvalid => ⟨fun hk hclean => exec_scratchLoad_good hgood hscratch halone hblocked hmay hvalid hk hclean,
    fun hk hspoiled => exec_scratchLoad_spoiled hgood hscratch halone hblocked hmay hvalid hk hspoiled,
    fun bs hform hbs => ?_⟩,
    fun hvalid hkind => exec_scratch_outside hgood hscratch halone hblocked hmay hkind hvalid⟩
  have hwrites : o.Plain ∧ o.changes = true ∧ o.kind ≠ .stfe ∧
      (o.looks && s.spotSpoiled (o.spot s) (2 ^ o.width)) = false ∧
      (o.apply (s.readSpot (o.spot s) (2 ^ o.width))).bytes = some bs ∧ bs.length = 2 ^ o.width := by
    rcases hbs with ⟨hk, rfl⟩ | ⟨a, hk, hclean, rfl⟩
    · simp [Op.Plain, hk, Op.changes, hgood, Op.looks, Op.apply]
    · simp [Op.Plain, hk, Op.changes, hgood, hclean, Op.apply]
  obtain ⟨hkind, hchanges, hstfe, hclean, hbytes, hlen⟩ := hwrites
  have hmade : s.scratchMade o = true := by
    simp only [State.scratchMade, hchanges, hblocked, hvalid, hclean, ne_eq, hstfe, not_false_eq_true, decide_true,
      Bool.not_false, Bool.and_self]
  obtain ⟨t, ht, hend⟩ := exec_scratch_writes hgood hscratch halone hblocked hmay hvalid hkind hclean hmade hbytes
  exact ⟨t, ht, writeSpot_bytes hform (noteGuards_mem _ _ _ _ _) hend hlen⟩

end Sys2Proof.Machine
end

section
/-! PROOFS. The fabric, records and periods (O60): what each row answers, as the obligation's clauses put it. -/

namespace Sys2Proof.Machine

variable {s : State}

/-! ### Tokens, hops and credits -/

theorem exec_tokenArrival {t : Token} (hnet : s.fab.net.find? (fun t => t.id == s.run.subj.a) = some t)
    (hgoes : (s.part t.dest.part).stopped = false) : exec .tokenArrival s
      = .next (if t.flits = 0 then s.arrive t else if (s.packet? t.id).isSome then s
          else (s.ejectToken t).arrive { t with flits := 0 }) := by
  show execTokenArrival s = _
  simp only [execTokenArrival, hnet, hgoes, Bool.false_eq_true, if_false]
  split
  · rfl
  · split <;> rfl

theorem exec_flitCross (s : State) : exec .flitCross s
    = .next (if s.fab.hops[s.run.subj.a]?.any fun h => (s.part h.part).stopped then s
        else if s.run.subj.b = 0 then s.crossHop s.run.subj.a else s.ejectHop s.run.subj.a) := rfl

theorem exec_flitCross_goes (hgoes : ∀ h, s.fab.hops[s.run.subj.a]? = some h → (s.part h.part).stopped = false) :
    exec .flitCross s
      = .next (if s.run.subj.b = 0 then s.crossHop s.run.subj.a else s.ejectHop s.run.subj.a) := by
  have hany : (s.fab.hops[s.run.subj.a]?.any fun h => (s.part h.part).stopped) = false :=
    (Option.any_eq_false _ _).mpr hgoes
  rw [exec_flitCross, hany, if_neg Bool.false_ne_true]

theorem exec_flitCross_stopped {h : Hop} (hhop : s.fab.hops[s.run.subj.a]? = some h) (hstop : (s.part h.part).stopped = true) :
    exec .flitCross s = .next s := by
  rw [exec_flitCross, hhop, Option.any_some, if_pos hstop]

theorem getElem?_modAt {α : Type} (f : α → α) (xs : List α) (k j : Nat) :
    (modAt xs k f)[j]? = if j = k then xs[j]?.map f else xs[j]? := by
  induction xs generalizing k j with
  | nil => simp [modAt]
  | cons x xs ih => cases k <;> cases j <;> simp [modAt, ih]

theorem getElem?_modAt_same {α : Type} {f : α → α} {xs : List α} {k : Nat} {x : α} (h : xs[k]? = some x) :
    (modAt xs k f)[k]? = some (f x) := by
  rw [getElem?_modAt, if_pos rfl, h, Option.map_some]

theorem getElem?_modAt_ne {α : Type} (f : α → α) (xs : List α) {k j : Nat} (h : j ≠ k) : (modAt xs k f)[j]? = xs[j]? := by
  rw [getElem?_modAt, if_neg h]

/-! ### Trap records, Thyme, windows and grants -/

theorem exec_trapRecordWrite {r : TrapRec} {pa : Nat} (hfirst : s.dev.traps.find? (fun r => r.part == s.run.subj.a
      && ((s.part s.run.subj.a).trapSlot r.ring).isSome) = some r) (hslot : (s.part s.run.subj.a).trapSlot r.ring = some pa) :
    exec .trapRecordWrite s = .next (s.writeTrap r pa) := by
  show execTrapRecordWrite s = _
  simp only [execTrapRecordWrite, hfirst, hslot]

/-- The port of a strip writes the first event of its queue, whose TIME is `now`. -/
def Thyme.writeFirst (t : Thyme) (now : Nat) : Thyme :=
  match t.queue with
  | [] => t
  | e :: r => { t with events := t.events.set (t.count % 4096) { e with w0 := w64 now }, count := t.count + 1, queue := r }

theorem exec_thymeEventWrite (s : State) : exec .thymeEventWrite s = .next { s with dev := { s.dev with
    thyme := modAt s.dev.thyme s.run.subj.a fun t => t.writeFirst s.dev.clock } } := rfl

theorem exec_qosWindowEnd (hlive : (s.part s.run.subj.a).live = true) : exec .qosWindowEnd s
    = .next (s.modPart s.run.subj.a fun x => { x with frac := x.nextFrac, lat := [] }) := by
  show execQosWindowEnd s = _
  simp only [execQosWindowEnd, State.modPart, hlive, if_true]

theorem exec_powerPeriod {gs : List Nat} (hlen : gs.length = 16)
    (hgrants : ∀ st, st < 16 → stripPresent s.dev.devid st = true → 8 ≤ at! gs st 0 ∧ at! gs st 0 ≤ 64) :
    exec (.powerPeriod gs) s = .next { s with dev := { s.dev with
      grants := (upto 16).map fun st => if stripPresent s.dev.devid st then at! gs st 0 else 0 } } := by
  have hall : (upto 16).all (fun st => !stripPresent s.dev.devid st || (8 ≤ at! gs st 0 && at! gs st 0 ≤ 64)) = true := by
    rw [List.all_eq_true]
    intro st hst
    cases hpresent : stripPresent s.dev.devid st with
    | false => rfl
    | true => simpa using hgrants st (List.mem_range.mp hst) hpresent
  show execPowerPeriod gs s = _
  simp only [execPowerPeriod, hlen, hall, decide_true, Bool.and_self, if_true]

/-! ### Statistics records -/

/-- A list of records with one at `i`, those of `m` behind it, and one behind these. -/
theorem split_at_two {α : Type} {xs : List α} {i : Nat} {a b : α} {m z : List α}
    (hxs : xs = xs.take i ++ a :: (m ++ b :: z)) (hi : i ≤ xs.length) :
    xs[i]? = some a ∧ xs[i + m.length + 1]? = some b ∧ slice xs (i + 1) m.length = m ∧ xs.drop (i + m.length + 2) = z := by
  have hlen : (xs.take i).length = i := List.length_take_of_le hi
  have hdrop (d : Nat) : xs.drop (i + d) = (a :: (m ++ b :: z)).drop d := by
    conv_lhs => rw [hxs]
    rw [List.drop_append, hlen, Nat.add_sub_cancel_left, List.drop_of_length_le (by omega), List.nil_append]
  have hget (d : Nat) : xs[i + d]? = (a :: (m ++ b :: z))[d]? := by
    rw [← List.head?_drop, hdrop, List.head?_drop]
  refine ⟨hget 0, ?_, ?_, ?_⟩
  · rw [Nat.add_assoc, hget]
    simp
  · rw [slice, hdrop]
    simp
  · rw [Nat.add_assoc, hdrop]
    simp

theorem exec_statRecordMerge {a b r : StatRec} {m z : List StatRec} {i j : Nat} (hi : i = s.run.subj.a) (hj : j = s.run.subj.b)
    (hstats : s.ldr.stats = s.ldr.stats.take i ++ a :: (m ++ b :: z)) (hnext : i + m.length + 1 = j)
    (hlen : i ≤ s.ldr.stats.length) (hgoes : (s.part a.part).stopped = false) (hjoin : a.joins b = true)
    (hapart : ∀ x ∈ m, a.sameTree x = false) (hsum : a.merge b = some r) : exec .statRecordMerge s
      = .next { s with ldr := { s.ldr with stats := s.ldr.stats.take i ++ r :: (m ++ z) } } := by
  obtain ⟨ha, hb, hm, hz⟩ := split_at_two hstats hlen
  have hany : (m.any fun x => a.sameTree x) = false := List.any_eq_false.mpr fun x hx => by simp [hapart x hx]
  have hgap : j - i - 1 = m.length := by omega
  have hafter : ¬ j ≤ i := by omega
  have hrest : j + 1 = i + m.length + 2 := by omega
  rw [hnext] at hb
  show execStatRecordMerge s = _
  simp only [execStatRecordMerge, ← hi, ← hj, ha, hb, hgap, hm, hany, hafter, hgoes, hjoin, hsum, hrest, hz, decide_false,
    Bool.not_true, Bool.or_self, Bool.false_eq_true, if_false, List.append_assoc, List.cons_append, List.nil_append]

theorem exec_statRecordApply {k : Nat} {r : StatRec} {ia : Nat} {t : State} (hk : k = s.run.subj.a)
    (hrec : s.ldr.stats[k]? = some r) (hgoes : (s.part r.part).stopped = false)
    (hfirst : ∀ x ∈ s.ldr.stats.take k, r.sameTree x = false) (halign : r.va % 64 = 0) (hia : r.ia = some ia)
    (hadds : s.statAdds r ia (s.homeFor r.part r.asid (ia / 64) ((s.ctx? r.part r.ctx).map fun x => x.seed))
      ((s.ctx? r.part r.ctx).map fun x => x.seed) (r.adds (leNat (s.peek r.part r.asid (ia + 32) 8))) = some t) :
    exec .statRecordApply s = .next { t with ldr := { t.ldr with
      stats := t.ldr.stats.take k ++ t.ldr.stats.drop (k + 1) } } := by
  have hany : ((s.ldr.stats.take k).any fun x => r.sameTree x) = false :=
    List.any_eq_false.mpr fun x hx => by simp [hfirst x hx]
  show execStatRecordApply s = _
  simp only [execStatRecordApply, ← hk, hrec, hgoes, hany, halign, hia, hadds, Bool.or_self, Bool.false_eq_true, if_false,
    ne_eq, not_true_eq_false]

/-- Settles O60: one lemma for each row. -/
theorem fabricAndRecordEvents : Obligations.FabricAndRecordEvents := by
  unfold Obligations.FabricAndRecordEvents
  intro s
  refine ⟨fun t hnet hgoes => ⟨fun hall => ?_, fun hleft hpacket => ?_, fun hleft hpacket => ?_⟩,
    fun hgoes => ⟨fun hcross => ?_, fun heject => ?_⟩, fun h hhop hstop => exec_flitCross_stopped hhop hstop,
    ?_, fun r pa hfirst hslot => exec_trapRecordWrite hfirst hslot, ?_, exec_qosWindowEnd,
    fun gs hlen hgrants => exec_powerPeriod hlen hgrants, ?_, ?_⟩
  · rw [exec_tokenArrival hnet hgoes, if_pos hall]
  · rw [exec_tokenArrival hnet hgoes, if_neg hleft, if_pos hpacket]
  · rw [exec_tokenArrival hnet hgoes, if_neg hleft, hpacket, Option.isSome_none, if_neg Bool.false_ne_true]
  · rw [exec_flitCross_goes hgoes, if_pos hcross]
  · rw [exec_flitCross_goes hgoes, if_neg heject]
  · rintro k h rfl hhop
    exact ⟨_, rfl, getElem?_modAt_same hhop, fun j hj => getElem?_modAt_ne _ _ hj, rfl, rfl, rfl, rfl, rfl⟩
  · rintro k t e q rfl hport hqueue
    refine ⟨_, _, exec_thymeEventWrite s, getElem?_modAt_same hport, ?_, ?_, ?_, fun j hj => getElem?_modAt_ne _ _ hj,
      rfl, rfl, rfl⟩ <;> simp only [Thyme.writeFirst, hqueue]
  · intro i j a b r m z hi hj hstats hnext hlen hgoes hjoin hapart hsum
    exact exec_statRecordMerge hi hj hstats hnext hlen hgoes hjoin hapart hsum
  · intro k r ia t hk hrec hgoes hfirst halign hia hadds
    exact exec_statRecordApply hk hrec hgoes hfirst halign hia hadds

end Sys2Proof.Machine
end

section
/-! PROOFS. What reset leaves (O7): the strips and partitions of the part whose fuses the model takes (R445, R446). -/

namespace Sys2Proof.Machine

/-- At a cold reset partition 0 is formed on the boot strip, and every other number is free (R446). -/
theorem part_cold_zero (d b : W64) : (State.cold d b).part 0 = Part.free.formed (bootStripOf d) 1 := rfl

theorem part_cold_ne (d b : W64) {p : Nat} (hp : p ≠ 0) : (State.cold d b).part p = Part.free := by
  obtain ⟨k, rfl⟩ := Nat.exists_eq_succ_of_ne_zero hp
  show at! (List.replicate 15 Part.free) k Part.free = Part.free
  rw [at!_eq_getD, List.getD_eq_getElem?_getD, List.getElem?_getD_replicate_default_eq]

/-- The registers that forming a partition leaves at their reset values, whichever number it has. -/
theorem part_cold_registers (d b : W64) (p : Nat) : ((State.cold d b).part p).leasecap = 16 ∧
    ((State.cold d b).part p).trapcfg = [4, 4] ∧ ((State.cold d b).part p).trapptr = [0, 0] := by
  by_cases hp : p = 0
  · subst hp
    rw [part_cold_zero]
    exact ⟨rfl, rfl, rfl⟩
  · rw [part_cold_ne d b hp]
    exact ⟨rfl, rfl, rfl⟩

/-- The fuses of the part that `State.reset` is name every strip (R28). -/
theorem stripPresent_devid {k : Nat} (hk : k < 16) : stripPresent Config.devid k = true := by
  have hall : (upto 16).all (stripPresent Config.devid) = true := by decide
  exact List.all_eq_true.mp hall k (List.mem_range.mpr hk)

theorem bootStripOf_devid : bootStripOf Config.devid = 0 := by decide

/-- Settles O7: the strips from what a boot leaves on the part's fuses, the partitions from what a cold reset forms. -/
theorem resetState : Obligations.ResetState := by
  unfold Obligations.ResetState
  refine ⟨fun k hk => ?_, rfl, fun c => rfl, rfl, rfl, rfl, rfl, fun p _ => part_cold_registers _ _ p,
    ⟨rfl, fun p hp _ => ?_⟩, rfl, rfl, rfl, rfl⟩
  · have hboot := state_bootStrips Config.devid hk
    rw [stripPresent_devid hk, bootStripOf_devid] at hboot
    exact hboot
  · rw [State.reset, part_cold_ne _ _ (Nat.ne_of_gt hp)]
    rfl

end Sys2Proof.Machine
end

section
/-! PROOFS. Operations that a firing presents, those that leave as they are launched, and the words that only queue theirs
(O33, O34, O11). -/

namespace Sys2Proof.Machine

/-! ### The operations of a firing (R79, R81, R82) -/

section
variable {s t : State} {fr : Firing} {f : Fields} {op : Nat} {as : List Ask} {os : List Op}

@[simp] theorem length_takeEntries (room : Nat) (os : List Op) : (takeEntries room os).length = os.length := by
  induction os generalizing room with
  | nil => rfl
  | cons o os ih =>
    rw [takeEntries]
    split <;> simp only [List.length_cons, ih]

/-- Taking entries changes nothing else of an operation (R84). -/
theorem getElem_takeEntries (room : Nat) (os : List Op) (k : Nat) (h : k < (takeEntries room os).length)
    (h' : k < os.length) : ∃ e, (takeEntries room os)[k] = { os[k] with entry := e } := by
  induction os generalizing room k with
  | nil => exact absurd h' (Nat.not_lt_zero k)
  | cons o os ih =>
    simp only [takeEntries]
    split
    all_goals
      cases k with
      | zero => exact ⟨_, rfl⟩
      | succ k => exact ih _ k _ (Nat.lt_of_succ_lt_succ h')

/-- Operation `k` of a firing before it takes an entry; the operations are numbered behind the firing's gather. -/
def Firing.askedOp (fr : Firing) (s : State) (op k : Nat) (a : Ask) : Op :=
  mkOp s fr op s.run.nextId (s.run.nextId + 1 + k) k a

theorem length_present (h : s.present fr f op as = (os, t)) : os.length = as.length := by
  have hos := congrArg Prod.fst h
  subst hos
  exact (length_takeEntries _ _).trans (length_mkOps s fr op _ as _ _)

/-- Operation `k` of a firing is the one that its ask `k` gives, but for the entry that it takes. -/
theorem getElem_present (h : s.present fr f op as = (os, t)) (k : Nat) (hk : k < os.length) (hk' : k < as.length) :
    ∃ e, os[k] = { fr.askedOp s op k as[k] with entry := e } := by
  have hos := congrArg Prod.fst h
  subst hos
  have hmk := (length_mkOps s fr op s.run.nextId as (s.run.nextId + 1) 0).symm
  obtain ⟨e, he⟩ := getElem_takeEntries _ _ k hk (hmk ▸ hk')
  have hasked : (mkOps s fr op s.run.nextId (s.run.nextId + 1) 0 as)[k]'(hmk ▸ hk') = fr.askedOp s op k as[k] := by
    rw [getElem_mkOps s fr op _ as _ _ k (hmk ▸ hk') hk', Nat.zero_add]
    rfl
  exact ⟨e, he.trans (congrArg (fun q : Op => { q with entry := e }) hasked)⟩

/-- Presenting appends the operations, and a gather where some result is awaited, and draws identifiers. -/
theorem present_state (h : s.present fr f op as = (os, t)) : ∃ g n, t = { s with
    run := { s.run with nextId := n }
    work := { s.work with
      ops := s.work.ops ++ os
      gathers := if as.any (fun a => !a.mute) then s.work.gathers ++ [g] else s.work.gathers } } := by
  obtain ⟨rfl, rfl⟩ := Prod.mk.inj h
  exact ⟨_, _, rfl⟩

theorem opTriple_iff : opTriple op = true ↔ op ≠ 0xAC ∧ op ≠ 0xAD ∧ op ≠ 0xE3 := by
  simp only [opTriple, Bool.and_eq_true, decide_eq_true_eq, and_assoc]

end

/-- Settles O33: each operation is that of its ask, and the state gains the operations and their gather. -/
theorem presentedOperations : Obligations.PresentedOperations := by
  unfold Obligations.PresentedOperations
  intro s t fr f op as os h
  have hlen := length_present h
  have hget := getElem_present h
  obtain ⟨g, n, rfl⟩ := present_state h
  refine ⟨hlen, rfl, fun j a o ha ho => ?each, ?ids, ?awaited, rfl, rfl, rfl, rfl, rfl, rfl, rfl, rfl, rfl⟩
  case each =>
    obtain ⟨hja, rfl⟩ := List.getElem?_eq_some_iff.1 ha
    obtain ⟨hjo, rfl⟩ := List.getElem?_eq_some_iff.1 ho
    obtain ⟨e, he⟩ := hget j hjo hja
    rw [he]
    refine ⟨rfl, rfl, rfl, rfl, rfl, fun h1 h2 h3 => ?triple, fun h1 => ?unchained, rfl, rfl, rfl, rfl, rfl, rfl, rfl, rfl,
      rfl, rfl⟩
    case triple =>
      have htriple := opTriple_iff.2 ⟨h1, h2, h3⟩
      exact ⟨if_pos htriple, if_pos htriple, if_pos htriple⟩
    case unchained =>
      refine if_neg fun htriple => ?_
      obtain ⟨n1, n2, n3⟩ := opTriple_iff.1 htriple
      rcases h1 with h1 | h1 | h1
      · exact n1 h1
      · exact n2 h1
      · exact n3 h1
  case ids =>
    rw [List.pairwise_iff_getElem]
    intro i j hi hj hij
    obtain ⟨_, hei⟩ := hget i hi (hlen ▸ hi)
    obtain ⟨_, hej⟩ := hget j hj (hlen ▸ hj)
    rw [hei, hej]
    exact Nat.add_lt_add_left hij _
  case awaited =>
    have hmute : as.any (fun a => !a.mute) = false ↔ ∀ a ∈ as, a.mute = true := by simp
    show (if as.any (fun a => !a.mute) then s.work.gathers ++ [g] else s.work.gathers) = s.work.gathers ↔ _
    rw [← hmute]
    cases as.any (fun a => !a.mute) <;> simp

/-! ### Operations that leave as they are launched (R87, R103, R104) -/

section
variable {s : State} {o : Op} {os : List Op}

theorem launchOps_cons : s.launchOps (o :: os) = (s.launchOp o).launchOps os := rfl

theorem Op.chained_iff : o.chained = true ↔ o.this ≠ 0xFE := decide_eq_true_iff

theorem Op.chained_eq_false_iff : o.chained = false ↔ o.this = 0xFE := by
  rw [← Bool.not_eq_true, Op.chained_iff, not_not]

/-- An operation that no other leads: the parameters of a piece name itself (R246). -/
theorem Op.follows_eq_false (hleads : ∀ l, o.params = [2, l] → l = o.id) : o.follows = false := by
  unfold Op.follows
  split
  next l hparams => exact decide_eq_false (not_not_intro (hleads l hparams))
  next => rfl

theorem launchOp_chained (hchained : o.chained = true) : s.launchOp o = s := by
  rw [State.launchOp, hchained, Bool.true_or, if_pos rfl]

theorem launchOp_waits (hwaits : (o.waitsBefore && !s.released o || s.unflushed o) = true) : s.launchOp o = s := by
  rw [State.launchOp, if_pos hwaits, ite_self]

theorem launchOp_starts (hunchained : o.chained = false) (hleads : o.follows = false)
    (hreleased : o.waitsBefore = true → s.released o = true) (hflushed : s.unflushed o = false) :
    s.launchOp o = s.startPiece o := by
  have hnow : (o.waitsBefore && !s.released o) = false := by
    rw [Bool.and_eq_false_imp]
    exact fun hw => by rw [hreleased hw, Bool.not_true]
  simp only [State.launchOp, hunchained, hleads, hnow, hflushed, Bool.or_self, Bool.false_eq_true, if_false]

end

/-- Settles O34: the first operation of the list stays or starts by its own branch of `launchOp`. -/
theorem launchedOperations : Obligations.LaunchedOperations := by
  unfold Obligations.LaunchedOperations
  intro s o os
  refine ⟨fun hthis => ?chained, fun hwaits hheld => ?held, fun hposted => ?posted,
    fun hthis hleads hreleased hflushed => ?starts⟩ <;> rw [launchOps_cons]
  case chained => rw [launchOp_chained (Op.chained_iff.2 hthis)]
  case held => rw [launchOp_waits (by rw [hwaits, hheld]; rfl)]
  case posted => rw [launchOp_waits (by rw [hposted, Bool.or_true])]
  case starts => rw [launchOp_starts (Op.chained_eq_false_iff.2 hthis) (Op.follows_eq_false hleads) hreleased hflushed]

/-! ### Checks that only raise records (R255, R400, R401) -/

/-- Records have been raised, and nothing else has changed. -/
def Records (s t : State) : Prop := ∃ rs, t = { s with dev := { s.dev with traps := rs } }

theorem Records.refl (s : State) : Records s s := ⟨s.dev.traps, rfl⟩

theorem Records.trans {s t u : State} (h : Records s t) (k : Records t u) : Records s u := by
  obtain ⟨rs, rfl⟩ := h
  obtain ⟨qs, rfl⟩ := k
  exact ⟨qs, rfl⟩

theorem Records.foldl {α : Type} {f : State → α → State} (h : ∀ s a, Records s (f s a)) (l : List α) :
    ∀ s, Records s (l.foldl f s) := by
  induction l with
  | nil => exact Records.refl
  | cons a l ih => exact fun s => (h s a).trans (ih (f s a))

theorem records_raise (s : State) (w : Site) (r : Trap) : Records s (s.raise w r) := ⟨_, rfl⟩

theorem records_if {s t : State} (c : Bool) (h : Records s t) : Records s (if c then t else s) := by
  cases c with
  | true => exact h
  | false => exact Records.refl s

theorem records_formatRecord (s : State) (fr : Firing) (f : Fields) : Records s (s.formatRecord fr f) := records_raise s _ _

theorem records_poisonRecords (s : State) (fr : Firing) (js : List Nat) : Records s (s.poisonRecords fr js) :=
  Records.foldl (fun s _ => records_raise s _ _) js s

/-- A check of asks leaves the state but for the records that it raises. -/
def OnlyRecords (check : State → Nat → Ask → Ask × State) : Prop := ∀ t j a, Records t (check t j a).2

theorem records_stopAsk (s : State) (fr : Firing) (j : Nat) (a : Ask) (r : Trap) : Records s (s.stopAsk fr j a r).2 :=
  records_raise s _ r

theorem onlyRecords_checkCopy (fr : Firing) (twoD : Bool) : OnlyRecords fun t j a => t.checkCopy fr twoD j a := by
  intro t j a
  simp only [State.checkCopy]
  split
  · exact Records.refl t
  · exact records_stopAsk t fr j a _

theorem onlyRecords_checkCopym (fr : Firing) : OnlyRecords fun t j a => t.checkCopym fr j a := by
  intro t j a
  simp only [State.checkCopym]
  split
  · exact records_stopAsk t fr j a _
  · split
    · exact records_stopAsk t fr j a _
    · exact Records.refl t

theorem onlyRecords_checkFe (fr : Firing) (ns : List Nat) : OnlyRecords fun t j a => t.checkFe fr ns j a := by
  intro t j a
  simp only [State.checkFe]
  split
  · exact records_stopAsk t fr j a _
  · split
    · exact records_stopAsk t fr j a _
    · exact Records.refl t

/-- The asks of a firing's elements, checked one after the other in wave order. -/
def State.checkedInOrder (s : State) (check : State → Nat → Ask × State) (js : List Nat) : List Ask × State :=
  js.foldl (fun (x : List Ask × State) j => (x.1 ++ [(check x.2 j).1], (check x.2 j).2)) ([], s)

theorem records_checkedInOrder {check : State → Nat → Ask × State} (h : ∀ t j, Records t (check t j).2) (s : State)
    (js : List Nat) : Records s (s.checkedInOrder check js).2 := by
  have hfold (x : List Ask × State) : Records x.2
      (js.foldl (fun (x : List Ask × State) j => (x.1 ++ [(check x.2 j).1], (check x.2 j).2)) x).2 := by
    induction js generalizing x with
    | nil => exact Records.refl _
    | cons j js ih => exact (h x.2 j).trans (ih _)
  exact hfold _

/-- A command's checks, where it makes any, only raise records. -/
def ChecksOnlyRecords (check : Option (State → Nat → Ask → Ask × State)) : Prop := ∀ g, check = some g → OnlyRecords g

theorem checksOnlyRecords_some {g : State → Nat → Ask → Ask × State} (h : OnlyRecords g) : ChecksOnlyRecords (some g) := by
  rintro _ ⟨⟩
  exact h

theorem checksOnlyRecords_map {α : Type} (x : Option α) {g : α → State → Nat → Ask → Ask × State} (h : ∀ b, OnlyRecords (g b)) :
    ChecksOnlyRecords (x.map g) := by
  intro _ hg
  obtain ⟨b, -, rfl⟩ := Option.map_eq_some_iff.1 hg
  exact h b

/-- A check that raises nothing. -/
theorem onlyRecords_pure (g : State → Nat → Ask → Ask) : OnlyRecords fun t j a => (g t j a, t) := fun t _ _ => Records.refl t

/-! ### Words that only queue their operations (R81, R82) -/

/-- Records have been raised, then operations presented, which wait for their turn. -/
def QueuesOnly (s t : State) : Prop := ∃ u fr f op as, Records s u ∧ t = (State.present u fr f op as).2

theorem queuesOnly_present {s u : State} (h : Records s u) (fr : Firing) (f : Fields) (op : Nat) (as : List Ask) :
    QueuesOnly s (u.present fr f op as).2 := ⟨u, fr, f, op, as, h, rfl⟩

theorem QueuesOnly.after_records {s t u : State} (h : Records s t) (k : QueuesOnly t u) : QueuesOnly s u := by
  obtain ⟨v, fr, f, op, as, hv, rfl⟩ := k
  exact queuesOnly_present (h.trans hv) fr f op as

section
variable (s : State) (f : Fields) (op : Nat)

theorem queuesOnly_command (fmtOk : Bool) (shape : Nat → Ask) {check : Option (State → Nat → Ask → Ask × State)}
    (hcheck : ChecksOnlyRecords check) : QueuesOnly s (s.command f op fmtOk shape check) := by
  simp only [State.command]
  split
  · exact queuesOnly_present (records_poisonRecords s _ _) _ _ _ _
  · split
    · exact queuesOnly_present (records_formatRecord s _ _) _ _ _ _
    · split
      · exact queuesOnly_present (records_formatRecord s _ _) _ _ _ _
      · next g => exact queuesOnly_present (records_checkedInOrder (fun t j => hcheck g rfl t j (shape j)) s _) _ _ _ _

theorem queuesOnly_triggerWord (kind : OpKind) (mute : Bool) : QueuesOnly s (s.triggerWord f op kind mute) := by
  simp only [State.triggerWord]
  split
  · exact queuesOnly_present (records_formatRecord s _ _) _ _ _ _
  · exact queuesOnly_present (Records.refl s) _ _ _ _

theorem queuesOnly_chainedWord (fmtOk : Bool) (shape : Nat → Ask) : QueuesOnly s (s.chainedWord f op fmtOk shape) := by
  simp only [State.chainedWord]
  split
  · exact queuesOnly_present (records_formatRecord s _ _) _ _ _ _
  · exact queuesOnly_present (Records.refl s) _ _ _ _

/-- What element `j` of a FLUSHR or an INVR asks for before its length (R251). -/
def rangeAsk (fr : Firing) (f : Fields) (kind : OpKind) (j : Nat) : Ask :=
  { kind := kind, va := fr.addrAt f j, data2 := fr.elemA f j, fmt := fr.fmtOf f }

/-- The check of such an ask with the length `n`. -/
def State.checkLength (s : State) (fr : Firing) (j n : Nat) (a : Ask) : Ask × State :=
  if n = 0 then ({ a with data := w64 n }, s)
  else
    match rangeCheck (s.rangesOf fr.names.part fr.ctx) a.va n { rd := true } with
    | some ia => ({ a with data := w64 n, ia := ia }, s)
    | none => ({ a with data := w64 n, dead := true }, s.raise (fr.siteAt s j) { cause := 5, sub := 3, addr := a.va })

theorem records_checkLength (fr : Firing) (j n : Nat) (a : Ask) : Records s (s.checkLength fr j n a).2 := by
  unfold State.checkLength
  split
  · exact Records.refl s
  · split
    · exact Records.refl s
    · exact records_raise s _ _

theorem queuesOnly_rangeWord (kind : OpKind) : QueuesOnly s (s.rangeWord f op kind) := by
  simp only [State.rangeWord]
  split
  · exact queuesOnly_present (records_poisonRecords s _ _) _ _ _ _
  · split
    · exact queuesOnly_present (records_formatRecord s _ _) _ _ _ _
    · split
      · exact queuesOnly_present (records_formatRecord s _ _) _ _ _ _
      · next ns _ =>
        exact queuesOnly_present (records_checkedInOrder (check := fun t j =>
          t.checkLength s.run.cur j (at! ns j 0) (rangeAsk s.run.cur f kind j)) (fun t j => records_checkLength t _ _ _ _) s _)
          _ _ _ _

/-- The check of the address of a line, which is aligned to 64 bytes (R313). -/
def State.checkLine (s : State) (fr : Firing) (f : Fields) (kind : OpKind) (fmt : Fmt) (j : Nat) : Ask × State :=
  let x := fr.elemA f j
  let a : Ask := { kind := kind, va := x.toNat, data := x, data2 := x, fmt := fmt }
  if x.toNat % 64 ≠ 0 then s.stopAsk fr j a { cause := 5, sub := 7, addr := x.toNat } else (a, s)

theorem records_checkLine (fr : Firing) (kind : OpKind) (fmt : Fmt) (j : Nat) :
    Records s (s.checkLine fr f kind fmt j).2 := by
  simp only [State.checkLine]
  split
  · exact records_stopAsk s _ _ _ _
  · exact Records.refl s

theorem queuesOnly_lineWord (kind : OpKind) (fmt : Fmt) : QueuesOnly s (s.lineWord f op kind fmt).2 := by
  simp only [State.lineWord]
  split
  · exact queuesOnly_present (records_poisonRecords s _ _) _ _ _ _
  · split
    · exact queuesOnly_present (records_formatRecord s _ _) _ _ _ _
    · exact queuesOnly_present (records_checkedInOrder (check := fun t j => t.checkLine s.run.cur f kind fmt j)
        (fun t j => records_checkLine t _ _ _ _ _) s _) _ _ _ _

end

/-! ### The words that queue (R81, R249, R255, R378, R406, R410) -/

theorem queuesOnly_shadow {f : Fields} {s t : State} (hexec : execShadow f s = .next t) : QueuesOnly s t := by
  obtain rfl := Host.Outcome.next.inj hexec
  refine queuesOnly_command s f _ _ _ (checksOnlyRecords_some fun t j a => ?_)
  split
  · exact Records.refl t
  · exact records_stopAsk t _ j a _
  · split
    · exact Records.refl t
    · exact records_stopAsk t _ j a _

theorem queuesOnly_publish {f : Fields} {s t : State} (hexec : execPublish f s = .next t) : QueuesOnly s t := by
  obtain rfl := Host.Outcome.next.inj hexec
  refine queuesOnly_command s f _ _ _ (checksOnlyRecords_some fun t j a => ?_)
  split
  · exact Records.refl t
  · exact records_stopAsk t _ j a _

/-- The check of a WAYMASK: an unprivileged one changes nothing (R209, R263). -/
def State.checkWaymask (s : State) (fr : Firing) (priv : Bool) (j : Nat) (a : Ask) : Ask × State :=
  if priv then (a, s) else if j = 0 then s.stopAsk fr j a { cause := 2, sub := 1 } else ({ a with dead := true }, s)

theorem onlyRecords_checkWaymask (fr : Firing) (priv : Bool) : OnlyRecords fun t j a => t.checkWaymask fr priv j a := by
  intro t j a
  simp only [State.checkWaymask]
  split
  · exact Records.refl t
  · split
    · exact records_stopAsk t fr j a _
    · exact Records.refl t

/-- Any word but REGION that queues its operations. -/
theorem exec_queuesOnly {i : Instr} {s t : State} (hword : queueOpcode (opcodeOf i) = true) (hregion : opcodeOf i ≠ 0x49)
    (hexec : exec i s = .next t) : QueuesOnly s t := by
  have answers {u : State} (hu : exec i s = .next u) (hqueues : QueuesOnly s u) : QueuesOnly s t :=
    Host.Outcome.next.inj (hu.symm.trans hexec) ▸ hqueues
  have unchecked : ChecksOnlyRecords noCheck := checksOnlyRecords_some (onlyRecords_pure _)
  cases i
  case region f => exact absurd rfl hregion
  case mnop f =>
    exact answers rfl ((queuesOnly_triggerWord _ f 0x46 .nop true).after_records (records_if _ (records_poisonRecords s _ _)))
  case fence f => exact answers rfl (queuesOnly_triggerWord s f 0x5F _ false)
  case flushr f => exact answers rfl (queuesOnly_rangeWord s f 0x4B .flush)
  case invr f => exact answers rfl (queuesOnly_rangeWord s f 0x4C .inval)
  case cbload f => exact answers rfl (queuesOnly_lineWord s f 0xA9 .cbload .a)
  case copy f => exact answers rfl (queuesOnly_command s f _ _ _ (checksOnlyRecords_some (onlyRecords_checkCopy _ _)))
  case copy2d f => exact answers rfl (queuesOnly_command s f _ _ _ (checksOnlyRecords_some (onlyRecords_checkCopy _ _)))
  case copym f => exact answers rfl (queuesOnly_command s f _ _ _ (checksOnlyRecords_some (onlyRecords_checkCopym _)))
  case shadow f => exact queuesOnly_shadow hexec
  case publish f => exact queuesOnly_publish hexec
  case feset f => exact answers rfl (queuesOnly_command s f _ _ _ (checksOnlyRecords_map _ fun _ => onlyRecords_checkFe _ _))
  case feclr f => exact answers rfl (queuesOnly_command s f _ _ _ (checksOnlyRecords_map _ fun _ => onlyRecords_checkFe _ _))
  case waymask f =>
    exact answers rfl (queuesOnly_command s f _ _ _ (checksOnlyRecords_some (onlyRecords_checkWaymask s.run.cur _)))
  case alloc f => exact answers rfl (queuesOnly_command s f _ _ _ (checksOnlyRecords_map _ fun _ => onlyRecords_pure _))
  case free f => exact answers rfl (queuesOnly_command s f _ _ _ (checksOnlyRecords_some (onlyRecords_pure _)))
  case ringreg f => exact answers rfl (queuesOnly_command s f _ _ _ unchecked)
  case msend f => exact answers rfl (queuesOnly_command s f _ _ _ unchecked)
  case mrecv f => exact answers rfl (queuesOnly_command s f _ _ _ unchecked)
  case mpeek f => exact answers rfl (queuesOnly_command s f _ _ _ unchecked)
  case mack f => exact answers rfl (queuesOnly_command s f _ _ _ (checksOnlyRecords_map _ fun _ => onlyRecords_pure _))
  case ringdereg f => exact answers rfl (queuesOnly_command s f _ _ _ unchecked)
  case syscall f => exact answers rfl (queuesOnly_chainedWord s f 0xE1 _ _)
  case taskspawn f =>
    exact answers rfl ((queuesOnly_chainedWord _ f 0xE7 _ _).after_records (records_if _ (records_poisonRecords s _ _)))
  -- no other row has an opcode of the list
  all_goals exact absurd hword Bool.false_ne_true

/-- What presenting operations after records leaves alone. -/
structure QueueKept (s t : State) : Prop where
  mem   : t.mem = s.mem
  fab   : t.fab = s.fab
  parts : t.parts = s.parts
  ldr   : t.ldr = s.ldr
  ctxs  : t.ctxs = s.ctxs
  dev   : ∃ rs, t.dev = { s.dev with traps := rs }
  work  : ∃ os gs, t.work = { s.work with ops := s.work.ops ++ os, gathers := gs }

theorem QueuesOnly.kept {s t : State} (h : QueuesOnly s t) : QueueKept s t := by
  obtain ⟨u, fr, f, op, as, ⟨rs, rfl⟩, rfl⟩ := h
  exact ⟨rfl, rfl, rfl, rfl, rfl, ⟨rs, rfl⟩, _, _, rfl⟩

/-- A context's guard record is raised, and no more than the contexts change besides (R64). -/
theorem flushGuard_eq (s : State) (p c : Nat) : ∃ rs cs,
    s.flushGuard p c = { s with dev := { s.dev with traps := rs }, ctxs := cs } := by
  unfold State.flushGuard
  split
  · exact ⟨_, _, rfl⟩
  · split
    · exact ⟨_, _, rfl⟩
    · exact ⟨_, _, rfl⟩

theorem exec_region_queuesOnly {i : Instr} {s t : State} (hregion : opcodeOf i = 0x49) (hexec : exec i s = .next t) :
    QueuesOnly (s.flushGuard s.run.cur.names.part s.run.cur.ctx) t := by
  cases i
  case region f =>
    obtain rfl := Host.Outcome.next.inj hexec
    exact queuesOnly_triggerWord _ f 0x49 .region false
  all_goals exact absurd (decide_eq_true hregion) Bool.false_ne_true

/-- The operations are queued behind records, and behind a change of contexts where the word is REGION. -/
theorem exec_queueKept {i : Instr} {s t : State} (hword : queueOpcode (opcodeOf i) = true) (hexec : exec i s = .next t) :
    ∃ rs cs, (opcodeOf i ≠ 0x49 → cs = s.ctxs) ∧ QueueKept { s with dev := { s.dev with traps := rs }, ctxs := cs } t := by
  by_cases hregion : opcodeOf i = 0x49
  · obtain ⟨rs, cs, hguard⟩ := flushGuard_eq s s.run.cur.names.part s.run.cur.ctx
    exact ⟨rs, cs, fun hno => absurd hregion hno, hguard ▸ (exec_region_queuesOnly hregion hexec).kept⟩
  · exact ⟨s.dev.traps, s.ctxs, fun _ => rfl, (exec_queuesOnly hword hregion hexec).kept⟩

/-- Settles O11: what the words leave alone, REGION behind its guard record and every other one behind the records of its checks. -/
theorem queueFrame : Obligations.QueueFrame := by
  unfold Obligations.QueueFrame
  intro i s t hword hexec
  obtain ⟨_, cs, hcs, hmem, hfab, hparts, hldr, hctxs, ⟨_, hdev⟩, os, _, hwork⟩ := exec_queueKept hword hexec
  exact ⟨hmem, hfab, hparts, hldr, (congrArg Work.engs hwork :), (congrArg Work.rings hwork :), (congrArg Work.msgs hwork :),
    (congrArg Work.waits hwork :), by rw [hdev], fun hno => hctxs.trans (hcs hno), os, (congrArg Work.ops hwork :)⟩

end Sys2Proof.Machine
end

section
/-! PROOFS. The words of the chain, of ranges and of leases (O38). -/

namespace Sys2Proof.Machine

section
variable {s : State} {f : Fields} {t : Token} {ia : Nat → Nat}

theorem Firing.elemA_port {fr : Firing} (hport : fr.port f.sa.toNat = some t) (j : Nat) : fr.elemA f j = tokEl t j := by
  simp only [Firing.elemA, hport]

/-! ### Triggers: MNOP, REGION and FENCE (R83, R93, R249, R253) -/

/-- What element `j` of a trigger word asks for. -/
def triggerAsk (fr : Firing) (f : Fields) (kind : OpKind) (mute dead : Bool) (j : Nat) : Ask :=
  { kind := kind, data2 := fr.elemA f j, fmt := fr.fmtOf f, mute := mute, dead := dead }

/-- Port C aside, the operands that SA and SB name decide whether the firing is poisoned (R190). -/
theorem Firing.poisonOf_ports {fr : Firing} (h : steers f = false) :
    (poisonedTok (fr.port f.sa.toNat) || poisonedTok (fr.port f.sb.toNat)) = fr.poisonOf f false := by
  simp only [Firing.poisonOf, h, Bool.or_self, Bool.false_and, Bool.or_false]

theorem Firing.ports_good {fr : Firing} (hgood : fr.poisonOf f false = false) :
    poisonedTok (fr.port f.sa.toNat) = false ∧ poisonedTok (fr.port f.sb.toNat) = false := by
  simp only [Firing.poisonOf, Bool.or_eq_false_iff] at hgood
  exact hgood.1

theorem triggerWord_good {op : Nat} {kind : OpKind} {mute : Bool} (hgood : s.run.cur.poisonOf f false = false)
    (hsame : s.run.cur.formatsDiffer f = false) : s.triggerWord f op kind mute
      = (s.present s.run.cur f op ((upto s.run.cur.run).map (triggerAsk s.run.cur f kind mute false))).2 := by
  obtain ⟨ha, hb⟩ := Firing.ports_good hgood
  simp only [State.triggerWord, ha, hb, hsame, Bool.or_self, Bool.not_false, Bool.and_false, Bool.false_eq_true, if_false]
  rfl

theorem triggerWord_poisoned {op : Nat} {kind : OpKind} {mute : Bool} (hsteer : steers f = false)
    (hpoison : s.run.cur.poisonOf f false = true) : s.triggerWord f op kind mute
      = (s.present s.run.cur f op ((upto s.run.cur.run).map (triggerAsk s.run.cur f kind mute true))).2 := by
  simp only [State.triggerWord, Firing.poisonOf_ports hsteer, hpoison, Bool.not_true, Bool.false_and, Bool.or_false,
    Bool.false_eq_true, if_false]
  rfl

theorem triggerWord_clash {op : Nat} {kind : OpKind} {mute : Bool} (hgood : s.run.cur.poisonOf f false = false)
    (hdiffer : s.run.cur.formatsDiffer f = true) : s.triggerWord f op kind mute
      = ((s.formatRecord s.run.cur f).present s.run.cur f op
          ((upto s.run.cur.run).map (triggerAsk s.run.cur f kind mute true))).2 := by
  obtain ⟨ha, hb⟩ := Firing.ports_good hgood
  simp only [State.triggerWord, ha, hb, hdiffer, Bool.or_self, Bool.not_false, Bool.and_true, Bool.false_or, if_true]
  rfl

theorem exec_mnop_queues (hgood : s.run.cur.poisonOf f false = false) (hsame : s.run.cur.formatsDiffer f = false) :
    Queues s (.mnop f) f 0x46 ((upto s.run.cur.run).map (triggerAsk s.run.cur f .nop true false)) := by
  show execMnop f s = _
  simp only [execMnop, (Firing.ports_good hgood).1, Bool.false_eq_true, if_false]
  rw [triggerWord_good hgood hsame]

theorem flushGuard_run (s : State) (p c : Nat) : (s.flushGuard p c).run = s.run := by
  obtain ⟨rs, cs, h⟩ := flushGuard_eq s p c
  rw [h]

theorem exec_region_queues (hgood : s.run.cur.poisonOf f false = false) (hsame : s.run.cur.formatsDiffer f = false) :
    QueuesFrom (s.flushGuard s.run.cur.names.part s.run.cur.ctx) s (.region f) f 0x49
      ((upto s.run.cur.run).map (triggerAsk s.run.cur f .region false false)) := by
  show Host.Outcome.next ((s.flushGuard s.run.cur.names.part s.run.cur.ctx).triggerWord f 0x49 .region false) = _
  have hcur := congrArg Run.cur (flushGuard_run s s.run.cur.names.part s.run.cur.ctx)
  rw [triggerWord_good (by rw [hcur]; exact hgood) (by rw [hcur]; exact hsame), hcur]

/-- A field of two bits is read bit by bit. -/
theorem bits_succ (w : W64) (i : Nat) : bits w (i + 1) i = (if bit w i then 1 else 0) + if bit w (i + 1) then 2 else 0 := by
  have hbit (k : Nat) : bit w k = decide (w.toNat / 2 ^ k % 2 = 1) := Nat.testBit_eq_decide_div_mod_eq
  have hfield : bits w (i + 1) i = w.toNat / 2 ^ i % 4 := by
    rw [bits, Nat.shiftRight_eq_div_pow, Nat.add_sub_cancel_left]
    rfl
  have hhigh : w.toNat / 2 ^ (i + 1) = w.toNat / 2 ^ i / 2 := by rw [Nat.pow_succ, Nat.div_div_eq_div_mul]
  rw [hbit, hbit, hfield, hhigh]
  generalize w.toNat / 2 ^ i = n
  simp only [decide_eq_true_eq]
  split <;> split <;> omega

/-- Bits 38 and 39 of the literal of a FENCE make it an acquire and a release (R253). -/
theorem exec_fence_eq (s : State) (f : Fields) : exec (.fence f) s
    = .next (s.triggerWord f 0x5F (.fence (bit s.run.cur.slot.lit 38) (bit s.run.cur.slot.lit 39)) false) := by
  show execFence f s = _
  rw [execFence, bits_succ]
  cases bit s.run.cur.slot.lit 38 <;> cases bit s.run.cur.slot.lit 39 <;> rfl

/-! ### FLUSHR and INVR (R251) -/

/-- Asks that the check leaves with the state as it is are those that it gives, in wave order. -/
theorem checkedInOrder_pure {check : State → Nat → Ask × State} {ask : Nat → Ask} {js : List Nat}
    (h : ∀ j ∈ js, check s j = (ask j, s)) : s.checkedInOrder check js = (js.map ask, s) := by
  have hfold (as : List Ask) : js.foldl (fun (x : List Ask × State) j => (x.1 ++ [(check x.2 j).1], (check x.2 j).2)) (as, s)
      = (as ++ js.map ask, s) := by
    induction js generalizing as with
    | nil => simp
    | cons j js ih =>
      rw [List.foldl_cons, h j (List.mem_cons_self ..), ih fun k hk => h k (List.mem_cons_of_mem _ hk)]
      simp
  exact hfold []

theorem rangeWord_checked {op : Nat} {kind : OpKind} {ns : List Nat} (ha : Addressed s f false t)
    (hns : s.i64B s.run.cur f = some ns)
    (hok : ∀ j ∈ upto s.run.cur.run, at! ns j 0 ≠ 0 ∧
      rangeCheck (s.rangesOf s.run.cur.names.part s.run.cur.ctx) (vaOf s t j) (at! ns j 0) { rd := true } = some (ia j)) :
    s.rangeWord f op kind = (s.present s.run.cur f op ((upto s.run.cur.run).map fun j =>
      { kind := kind, va := vaOf s t j, ia := ia j, data := w64 (at! ns j 0), data2 := tokEl t j, fmt := .a })).2 := by
  have hchecked : s.checkedInOrder (fun u j => u.checkLength s.run.cur j (at! ns j 0) (rangeAsk s.run.cur f kind j))
      (upto s.run.cur.run) = ((upto s.run.cur.run).map fun j =>
        { kind := kind, va := vaOf s t j, ia := ia j, data := w64 (at! ns j 0), data2 := tokEl t j, fmt := .a }, s) := by
    refine checkedInOrder_pure fun j hj => ?_
    obtain ⟨hlen, hrange⟩ := hok j hj
    simp only [State.checkLength, rangeAsk, Firing.addrAt_port ha.port, Firing.elemA_port ha.port, Firing.fmtOf_port ha.port,
      ha.fmt, hlen, hrange, if_false]
  simp only [State.rangeWord, ha.good, ha.addressed, hns, Bool.not_true, Bool.false_eq_true, if_false]
  exact congrArg (fun x : List Ask × State => (x.2.present s.run.cur f op x.1).2) hchecked

/-! ### PREF (R250) -/

theorem exec_pref_presents (ha : Addressed s f false t)
    (hok : ∀ j ∈ upto s.run.cur.run,
      rangeCheck (s.rangesOf s.run.cur.names.part s.run.cur.ctx) (vaOf s t j) 1 { rd := true } = some (ia j)) :
    Presents s (.pref f) f 0x4A asIs ((upto s.run.cur.run).map fun j =>
      { kind := .pref, va := vaOf s t j, ia := ia j, fmt := .a, mute := true }) := by
  show execPref f s = _
  simp only [execPref, ha.good, ha.addressed, Bool.not_true, Bool.false_eq_true, if_false, Firing.addrAt_port ha.port]
  rw [List.filterMap_congr (g := fun j => some
    { kind := .pref, va := vaOf s t j, ia := ia j, fmt := .a, mute := true }) fun j hj => by rw [hok j hj]; rfl,
    List.filterMap_eq_map']

/-! ### LEASE and UNLEASE (R118 to R120, R125) -/

/-- The budget is what SB gives, at least 1 and at most the smaller of MAX and CAP (R118, R119). -/
theorem leaseBudget_eq {x : Ctx} {top n : Nat} (hctx : s.ctx? s.run.cur.names.part s.run.cur.ctx = some x)
    (htop : top = min x.leaseMax (s.part s.run.cur.names.part).leasecap)
    (hmax : f.sb.toNat = 0x7F → n = top)
    (hconst : f.sb.toNat < 0x40 → n = min (max 1 (constInt f.sb.toNat).toNat) top)
    (hkeep : 0x48 ≤ f.sb.toNat → f.sb.toNat < 0x50 →
      n = min (max 1 (x.keep s.run.cur.cluster s.run.cur.elem (f.sb.toNat - 0x48)).toNat) top)
    (hsb : f.sb.toNat = 0x7F ∨ f.sb.toNat < 0x40 ∨ 0x48 ≤ f.sb.toNat ∧ f.sb.toNat < 0x50) (hpos : 1 ≤ top) :
    s.leaseBudget s.run.cur f = n := by
  have hne (h : f.sb.toNat < 0x50) : f.sb ≠ 0x7F := by
    rintro h7F
    rw [h7F] at h
    exact absurd h (by decide)
  simp only [State.leaseBudget, hctx, ← htop]
  rcases hsb with h7F | hlow | ⟨h48, h50⟩
  · have hsb : f.sb = 0x7F := BitVec.eq_of_toNat_eq h7F
    rw [if_pos hsb, hmax h7F, Nat.max_eq_right hpos, Nat.min_self]
  · rw [if_neg (hne (by omega)), if_pos hlow, hconst hlow]
  · rw [if_neg (hne h50), if_neg (by omega), hkeep h48 h50, State.keepOf, hctx]

/-- What element `j` of a LEASE asks for. -/
def leaseAsk (s : State) (f : Fields) (j : Nat) : Ask :=
  { kind := .lease, va := s.run.cur.addrAt f j, data := w64 (s.leaseBudget s.run.cur f), data2 := s.run.cur.elemA f j,
    fmt := s.run.cur.fmtOf f }

/-- What element `j` of an UNLEASE asks for. -/
def unleaseAsk (s : State) (f : Fields) (j : Nat) : Ask := { kind := .unlease, va := s.run.cur.addrAt f j, fmt := .i32 }

theorem exec_lease_eq (s : State) (f : Fields) : exec (.lease f) s
    = .next (s.memWord f 0x5D false (upto s.run.cur.run) { w := true } (leaseAsk s f) noFill asIs) := rfl

theorem exec_unlease_eq (s : State) (f : Fields) : exec (.unlease f) s
    = .next (s.memWord f 0x5E false (upto s.run.cur.run) {} (unleaseAsk s f) noFill asIs) := rfl

theorem exec_lease_presents (ha : Addressed s f false t) (hchecked : Checked s t 0 { w := true } (upto s.run.cur.run) ia) :
    Presents s (.lease f) f 0x5D asIs ((upto s.run.cur.run).map fun j =>
      { kind := .lease, va := vaOf s t j, ia := ia j, data := w64 (s.leaseBudget s.run.cur f), data2 := tokEl t j, fmt := .a }) := by
  rw [Presents, PresentsFrom, exec_lease_eq, noFill, memWord_checked (shape := leaseAsk s f) (fun _ a => a) ha
    (fun j => ⟨rfl, nofun, Firing.addrAt_port ha.port j, rfl⟩) hchecked]
  simp only [leaseAsk, Firing.addrAt_port ha.port, Firing.elemA_port ha.port, Firing.fmtOf_port ha.port, ha.fmt]
  rfl

theorem exec_unlease_presents (ha : Addressed s f false t) (hchecked : Checked s t 0 {} (upto s.run.cur.run) ia) :
    Presents s (.unlease f) f 0x5E asIs ((upto s.run.cur.run).map fun j =>
      { kind := .unlease, va := vaOf s t j, ia := ia j, fmt := .i32 }) := by
  rw [Presents, PresentsFrom, exec_unlease_eq, noFill, memWord_checked (shape := unleaseAsk s f) (fun _ a => a) ha
    (fun j => ⟨rfl, nofun, Firing.addrAt_port ha.port j, rfl⟩) hchecked]
  simp only [unleaseAsk, Firing.addrAt_port ha.port]
  rfl

end

/-- Settles O38: each word's branch in which its operands are good, and the two of FENCE in which they are not. -/
theorem chainRangeAndLeaseWords : Obligations.ChainRangeAndLeaseWords := by
  unfold Obligations.ChainRangeAndLeaseWords
  rintro s f js fr rfl rfl
  refine ⟨fun hgood hsame => ⟨exec_mnop_queues hgood hsame, exec_region_queues hgood hsame, ?fence⟩, ?fails,
    fun t ia ha => ?ranges⟩
  case fence => rw [Queues, QueuesFrom, exec_fence_eq, triggerWord_good hgood hsame]; rfl
  case fails =>
    rintro dead rfl hsteer
    refine ⟨fun hpoison => ?_, fun hgood hdiffer => ?_⟩
    · rw [Queues, QueuesFrom, exec_fence_eq, triggerWord_poisoned hsteer hpoison]; rfl
    · rw [QueuesFrom, exec_fence_eq, triggerWord_clash hgood hdiffer]; rfl
  case ranges =>
    refine ⟨fun ns hns hok => ⟨congrArg Host.Outcome.next (rangeWord_checked ha hns hok),
      congrArg Host.Outcome.next (rangeWord_checked ha hns hok)⟩, fun hok => exec_pref_presents ha hok, ?lease,
      fun hchecked => exec_unlease_presents ha hchecked⟩
    intro x top n hctx htop hmax hconst hkeep hsb hpos hchecked
    have hpresents := exec_lease_presents ha hchecked
    rwa [leaseBudget_eq hctx htop hmax hconst hkeep hsb hpos] at hpresents

end Sys2Proof.Machine
end

section
/-! PROOFS. The order of a chain and its events (O35, O57): which operation is Next and what Perform leaves, then CHAIN_PERFORM,
leases, waits and PUBLISH. -/

namespace Sys2Proof.Machine

/-! ### Which operation is Next, and the chain after it (R81) -/

section
variable {c : Chain} {s : State} {o : Op} {y : Ctx}

theorem Chain.isNext_iff : c.isNext o = true ↔ o.wave = c.wave ∧ (c.last = 0xFD → o.pred = 0xFD) ∧
    (c.last ≠ 0xFD → o.pred = c.last ∨ (o.pred = 0xFF ∧ c.lastSucc = o.this)) := by
  by_cases hlast : c.last = 0xFD <;> simp [Chain.isNext, hlast]

theorem Chain.after_last (hsucc : o.succ = 0xFD) :
    c.after o = { c with wave := c.wave + 1, last := 0xFD, lastSucc := 0xFD, seen := [] } := if_pos hsucc

theorem Chain.after_inner (hsucc : o.succ ≠ 0xFD) :
    c.after o = { c with last := o.this, lastSucc := o.succ, seen := o.this :: c.seen } := if_neg hsucc

theorem find?_modFirst {α : Type} {p : α → Bool} {g : α → α} {xs : List α} {x : α} (hkept : ∀ x, p (g x) = p x)
    (h : xs.find? p = some x) : (modFirst p g xs).find? p = some (g x) := by
  induction xs with
  | nil => exact absurd h nofun
  | cons a xs ih =>
    rw [List.find?_cons] at h
    rw [modFirst]
    cases ha : p a with
    | true =>
      rw [ha] at h
      obtain rfl := Option.some.inj h
      rw [if_pos rfl, List.find?_cons, hkept, ha]
    | false =>
      rw [ha] at h
      rw [if_neg Bool.false_ne_true, List.find?_cons, ha]
      exact ih h

theorem ctx?_modCtx {p n : Nat} {g : Ctx → Ctx} (hkept : ∀ x, (g x).part = x.part ∧ (g x).id = x.id ∧ (g x).live = x.live)
    (h : s.ctx? p n = some y) : (s.modCtx p n g).ctx? p n = some (g y) := by
  refine find?_modFirst (fun x => ?_) h
  obtain ⟨hpart, hid, hlive⟩ := hkept x
  rw [hpart, hid, hlive]

theorem op?_dropOp (s : State) (id : Nat) : (s.dropOp id).op? id = none := by
  simp [State.op?, State.dropOp, List.find?_eq_none]

theorem endOp_chained (hthis : o.this ≠ 0xFE) : s.endOp o
    = (s.dropOp o.id).modCtx o.names.part o.ctx fun x => { x with chain := x.chain.after o } := by
  rw [State.endOp, Op.chained_iff.2 hthis, if_pos rfl]

/-! ### Entries of the home store buffer (R84) -/

theorem entryFor_full {next : Bool} (hthis : o.this ≠ 0xFE) (hentry : o.entry = .outside)
    (hfull : 192 ≤ s.sharedUse (s.homeCluster o)) : s.entryFor o next = if next then .kept else .outside := by
  have hroom : ¬ s.sharedUse (s.homeCluster o) < 192 := Nat.not_lt.2 hfull
  simp [State.entryFor, Op.chained_iff.2 hthis, hentry, hroom]

/-! ### CHAIN_PERFORM of an operation in its buffer (R81, R84, R85, R90, R405) -/

theorem Ctx.takes_chained (hchained : o.chained = true) : y.takes o = y.chain.isNext o := by
  rw [Ctx.takes, hchained]; rfl

theorem performBuffered_halted (hchained : o.chained = true) (hhalted : y.halted = true) : s.performBuffered y o = s := by
  rw [State.performBuffered, hchained, hhalted]; rfl

theorem performBuffered_stale (hchained : o.chained = true) (hruns : y.halted = false) (hstale : y.chain.stale o = true) :
    s.performBuffered y o = (s.raise (o.site s) { cause := 1, sub := 3 }).dropOp o.id := by
  rw [State.performBuffered, hchained, hruns, hstale]; rfl

/-- One that is not Next takes no more than an entry, but for a load, which stores before it may serve (R85). -/
theorem performBuffered_waits (hchained : o.chained = true) (hruns : y.halted = false) (hstale : y.chain.stale o = false)
    (hnext : y.chain.isNext o = false) (hkind : o.kind ≠ .load) : s.performBuffered y o = s.enter o (s.entryFor o false) := by
  have htakes : y.takes o = false := (Ctx.takes_chained hchained).trans hnext
  simp [State.performBuffered, hchained, hruns, hstale, htakes, State.tryForward, hkind]

theorem exec_chainPerform_stopped (hop : s.op? s.run.subj.a = some o) (hstop : (s.part o.names.part).stopped = true) :
    exec .chainPerform s = .next s := by
  show execChainPerform s = _
  simp only [execChainPerform, hop, hstop, if_true]
  split <;> rfl

theorem exec_chainPerform_halted (hop : s.op? s.run.subj.a = some o) (hwaits : o.phase = .buffered) (hchained : o.chained = true)
    (hctx : s.ctx? o.names.part o.ctx = some y) (hhalted : y.halted = true) : exec .chainPerform s = .next s := by
  cases hstop : (s.part o.names.part).stopped with
  | true => exact exec_chainPerform_stopped hop hstop
  | false => rw [exec_chainPerform_buffered hop hctx hstop hwaits, performBuffered_halted hchained hhalted]

theorem exec_chainPerform_parked (hop : s.op? s.run.subj.a = some o) (hctx : s.ctx? o.names.part o.ctx = some y)
    (hparked : o.phase = .parked) (hgoes : (s.part o.names.part).stopped = false) :
    exec .chainPerform s = .next (s.retest o) := by
  show execChainPerform s = _
  simp only [execChainPerform, hop, hctx, hgoes, Bool.false_eq_true, if_false]
  rw [hparked]

end

/-- Settles O35: the definitions of Next and Perform read off, and the branches of CHAIN_PERFORM of an operation in its buffer. -/
theorem chainOrder : Obligations.ChainOrder := by
  unfold Obligations.ChainOrder
  intro c o
  refine ⟨Chain.isNext_iff, fun hsucc => ?_, fun hsucc => ?_, fun s y hthis hctx => ?ends, ?_, ?waits, ?entries,
    fun i s y hmay => exec_chainPerform_runs hmay⟩
  · rw [Chain.after_last hsucc]; exact ⟨rfl, rfl, rfl⟩
  · rw [Chain.after_inner hsucc]; exact ⟨rfl, rfl, rfl⟩
  case ends =>
    rw [endOp_chained hthis]
    exact ⟨ctx?_modCtx (s := s.dropOp o.id) (fun _ => ⟨rfl, rfl, rfl⟩) hctx, op?_dropOp s o.id, rfl, rfl, rfl⟩
  · rintro x p id home lsec sec r wid d rfl
    exact ⟨rfl, rfl, rfl⟩
  case waits =>
    intro s y hop hctx hwaits hthis hruns hstale hnext hkind hgoes
    rw [exec_chainPerform_buffered hop hctx hgoes hwaits,
      performBuffered_waits (Op.chained_iff.2 hthis) hruns hstale hnext hkind]
  case entries =>
    intro s q hthis hentry hfull
    exact ⟨entryFor_full hthis hentry hfull, entryFor_full hthis hentry hfull⟩

section
variable {i s : State} {o : Op} {y : Ctx}

/-! ### An access that the home cluster's L1 serves (R59, R65, R74) -/

/-- Alone in its piece an access of device memory starts by itself (R246). -/
theorem startPiece_cached (hcached : o.level.cached = true) (hgood : o.poison = false) (hkind : o.kind ≠ .nop)
    (halone : s.members o = [o]) : s.startPiece o = s.startCached o := by
  simp [State.startPiece, hcached, hgood, hkind, halone]

/-- A load or a store of a line that the L1 holds with the rights for it is performed there. -/
theorem startCached_hit {l : L1Line} (hkind : o.kind = .store ∨ o.kind = .load) (hlevel : o.level = .l1)
    (hlease : s.leaseOn (s.homeCluster o) (s.asidOf o.names.part o.ctx) (o.ia / 64) = none)
    (hline : s.l1? (s.homeCluster o) (s.asidOf o.names.part o.ctx) (o.ia / 64) = some l)
    (hadmits : s.leafAdmits o.names.part (s.asidOf o.names.part o.ctx) o = true)
    (howned : o.kind = .store → l.st = .e ∨ l.st = .m) : s.startCached o = s.performL1 (s.homeCluster o) o := by
  rcases hkind with hk | hk
  · simp [State.startCached, State.l1Cluster, Op.counter, hk, hlevel, hlease, hline, hadmits, howned hk]
  · simp [State.startCached, State.l1Cluster, Op.counter, hk, hlevel, hlease, hline, hadmits]

theorem exec_chainPerform_hit {l : L1Line} (hmay : MayPerform i s o y) (hgood : o.poison = false) (halone : s.members o = [o])
    (hlevel : o.level = .l1) (hkind : o.kind = .store ∨ o.kind = .load)
    (hlease : s.leaseOn (s.homeCluster o) (s.asidOf o.names.part o.ctx) (o.ia / 64) = none)
    (hline : s.l1? (s.homeCluster o) (s.asidOf o.names.part o.ctx) (o.ia / 64) = some l)
    (hadmits : s.leafAdmits o.names.part (s.asidOf o.names.part o.ctx) o = true)
    (howned : o.kind = .store → l.st = .e ∨ l.st = .m) : exec .chainPerform i = .next (s.performL1 (s.homeCluster o) o) := by
  have hplain : o.Plain := hkind.elim (fun hk => .inr (.inl hk)) .inl
  have hcached : o.level.cached = true := by rw [hlevel]; rfl
  rw [exec_chainPerform_runs hmay, runOp_access hgood hplain, startPiece_cached hcached hgood hplain.ne_nop halone,
    startCached_hit hkind hlevel hlease hline hadmits howned]

/-! ### Leases, waits turned away, and PUBLISH (R121, R125, R135, R165) -/

theorem exec_leaseGrant_next (hop : s.op? s.run.subj.a = some o) (hctx : s.ctx? o.names.part o.ctx = some y)
    (hkind : o.kind = .lease) (hwaits : o.phase = .buffered) (hnext : y.takes o = true) (hruns : y.halted = false)
    (hopen : (s.part o.names.part).gated = false) (hgoes : (s.part o.names.part).stopped = false) :
    exec .leaseGrant s = .next ((s.enter o (s.entryFor o true)).tryLease { o with entry := s.entryFor o true }) := by
  show execLeaseGrant s = _
  simp only [execLeaseGrant, hop, hctx, hkind, hwaits, hnext, hruns, hopen, hgoes, decide_true, Bool.not_false, Bool.and_self,
    if_true]

theorem exec_leaseExpiry_eq {e : Lease}
    (hlease : (s.mem.leases.find? fun e => e.cluster == s.run.subj.a && e.entry == s.run.subj.b) = some e) :
    exec .leaseExpiry s
      = if e.end_ ≤ s.dev.clock && !(s.part e.part).stopped then .next (s.endLease e true) else .next s := by
  show execLeaseExpiry s = _
  rw [execLeaseExpiry, hlease]

theorem exec_ctrwaitRepresent_first {q : Op} (hop : s.op? s.run.subj.a = some o) (hturned : o.phase = .turned)
    (hfirst : (s.work.ops.find? fun q => q.phase = .turned && q.waitTable s = o.waitTable s && !s.chainHalted q) = some q)
    (hsame : q.id = o.id) (hgoes : (s.part o.names.part).stopped = false) (hroom : s.tableRoom (o.waitTable s) = true) :
    exec .ctrwaitRepresent s
      = .next ((s.modOp o.id fun x => { x with phase := .buffered }).startAccess { o with phase := .buffered }) := by
  show execCtrwaitRepresent s = _
  simp only [execCtrwaitRepresent, hop, hturned, hfirst, hsame, hgoes, hroom, Option.map_some, decide_true, Bool.not_false,
    Bool.and_self, if_true]

theorem exec_publishPoint_swaps {p asid : Nat} {r : ShadowPair} {xs ys : List (Nat × W64 × Nat × Nat)}
    (hop : s.op? s.run.subj.a = some o) (hkind : o.kind = .publish) (hparked : o.phase = .parked) (hp : p = o.names.part)
    (hgoes : (s.part p).stopped = false) (hasid : asid = s.asidOf p o.ctx)
    (hpair : (s.part p).shadows.find? (fun r => r.asid == asid && r.s == o.ia) = some r)
    (hfreeS : s.rangeFree asid r.s r.size = true) (hfreeH : s.rangeFree asid r.h r.size = true)
    (hxs : s.leavesOf p asid r.s r.size (r.size / 2 ^ 16) 0 = some xs)
    (hys : s.leavesOf p asid r.h r.size (r.size / 2 ^ 16) 0 = some ys)
    (hstayX : ∀ e ∈ xs, leafMig e.2.1 = false) (hstayY : ∀ e ∈ ys, leafMig e.2.1 = false) :
    exec .publishPoint s
      = .next ((((((s.flushRange p asid r.s r.size).swapLeaves (List.zip xs ys)).dropXlat asid r.s r.size).dropXlat
          asid r.h r.size).wakeIa p asid r.s r.size).finish o o.operand) := by
  have hx : (xs.any fun x => leafMig x.2.1) = false := by simpa using hstayX
  have hy : (ys.any fun x => leafMig x.2.1) = false := by simpa using hstayY
  subst hp hasid
  show execPublishPoint s = _
  simp only [execPublishPoint, hop, hgoes, hpair, hkind, hparked, hfreeS, hfreeH, hxs, hys, hx, hy]
  rfl

end

/-- Settles O57: one lemma for each clause. -/
theorem chainEvents : Obligations.ChainEvents := by
  unfold Obligations.ChainEvents
  intro i s o y
  refine ⟨exec_chainPerform_runs, fun hop hctx hwaits hchained hruns hstale hgoes => ?stale,
    exec_chainPerform_parked, exec_chainPerform_halted, fun hstop hop => exec_chainPerform_stopped hop hstop, ?hit, ?grant,
    fun e hlease => ⟨fun hdue hgoes => ?due, fun hlater => ?later⟩, fun q => exec_ctrwaitRepresent_first, ?publish⟩
  case stale =>
    rw [exec_chainPerform_buffered hop hctx hgoes hwaits, performBuffered_stale hchained hruns hstale]
  case hit =>
    rintro hmay hgood halone hlevel hkind c asid line l rfl rfl rfl hlease hline hadmits howned
    exact exec_chainPerform_hit hmay hgood halone hlevel hkind hlease hline hadmits howned
  case grant =>
    rintro hop hctx hkind hwaits hnext hruns hopen hgoes e rfl
    exact exec_leaseGrant_next hop hctx hkind hwaits hnext hruns hopen hgoes
  case due =>
    rw [exec_leaseExpiry_eq hlease, decide_eq_true hdue, hgoes]; rfl
  case later =>
    rw [exec_leaseExpiry_eq hlease, decide_eq_false (Nat.not_le.2 hlater)]; rfl
  case publish =>
    intro p asid r hop hkind hparked hp hgoes hasid hpair hfreeS hfreeH xs ys hxs hys hstayX hstayY
    exact exec_publishPoint_swaps hop hkind hparked hp hgoes hasid hpair hfreeS hfreeH hxs hys hstayX hstayY

end Sys2Proof.Machine
end

section
/-! PROOFS. The rows of the directory (O56): requests in their turn at a home, eviction notices, and the messages of a walk or to an
owner. -/

namespace Sys2Proof.Machine

variable {s : State} {r : HReq} {k : ReqKind}

/-! ### Requests that have their turn (R58, R112, R113, R117, R142) -/

theorem req?_kind {id : Nat} (hreq : s.req? id k = some r) : r.kind = k := by
  have hfound := List.find?_some hreq
  simp only [Bool.and_eq_true, decide_eq_true_eq] at hfound
  exact hfound.2

/-- Only a request that fills an L1 waits while the scratch ways of its cluster change (R58). -/
theorem fillHeld_of_no_fill (hfill : r.kind = .l2 ∨ r.kind = .mem) : s.fillHeld r = false := by
  rcases hfill with hk | hk <;> simp [State.fillHeld, hk]

section
variable (hreq : s.req? s.run.subj.a k = some r) (hturn : s.homeTurn r = true)
include hreq

theorem serveReq_held (hheld : s.fillHeld r = true) : s.serveReq k = s := by
  simp [State.serveReq, hreq, hheld]

variable (hopen : s.fillHeld r = false) (hgoes : (s.part r.part).stopped = false)
include hturn hopen hgoes

theorem serveReq_outside {id : Nat} (hfrom : r.from_ = .outside id) : s.serveReq k = s.serveOutside r id := by
  simp [State.serveReq, hreq, hturn, hopen, hgoes, hfrom]

theorem serveReq_piece {e n : Nat} (hfrom : r.from_ = .piece e n) : s.serveReq k = s := by
  simp [State.serveReq, hreq, hturn, hopen, hgoes, hfrom]

theorem serveReq_serves (hinside : ∀ id, r.from_ ≠ .outside id) (hwhole : ∀ e n, r.from_ ≠ .piece e n) :
    s.serveReq k = s.serve r := by
  cases hfrom : r.from_ with
  | outside id => exact absurd hfrom (hinside id)
  | piece e n => exact absurd hfrom (hwhole e n)
  | op _ | evict => simp [State.serveReq, hreq, hturn, hopen, hgoes, hfrom]

end

/-! ### Eviction notices (R113, R115) -/

section
variable {x : L1Line} (hreq : s.req? s.run.subj.a k = some r) (hturn : s.homeTurn r = true)
  (hgoes : (s.part r.part).stopped = false) (hcopy : s.putting? r = some x)
include hreq hturn hgoes hcopy

/-- The notice of a copy that is invalid or not listed is acknowledged with no action. -/
theorem servePut_stale (hstale : x.st = .i ∨ s.listed (s.putHome r) x = false) : s.servePut k = s.endPut r x := by
  rcases hstale with h | h <;> simp [State.servePut, hreq, hturn, hgoes, hcopy, h]

variable (hlisted : s.listed (s.putHome r) x = true)
include hlisted

theorem servePut_sharer (hk : k = .putS) (hst : x.st = .s) : s.servePut k = (s.unlink (s.putHome r) x).endPut r x := by
  subst hk
  simp [State.servePut, hreq, hturn, hgoes, hcopy, hlisted, hst]

theorem servePut_dirty (hk : k = .putO) (hst : x.st = .m) : s.servePut k
    = ((s.intoL2 r.part (s.putHome r) x.asid x.line x.data x.bad).setDI (s.putHome r) x.asid x.line).endPut r x := by
  subst hk
  simp [State.servePut, hreq, hturn, hgoes, hcopy, hlisted, hst]

theorem servePut_clean (hk : k = .putO) (hst : x.st = .e) :
    s.servePut k = (s.setDI (s.putHome r) x.asid x.line).endPut r x := by
  subst hk
  simp [State.servePut, hreq, hturn, hgoes, hcopy, hlisted, hst]

end

/-! ### The walk of a sharer list, and probes (R113, R114, R115, R123) -/

section
variable {m : CMsg} (hmsg : s.cmsg? s.run.subj.a = some m)
include hmsg

/-- The sharer's copy becomes I, and the walk goes on to its NEXT, or back to the home from the last one. -/
theorem exec_inv_walks {t : Txn} {l : L1Line} (hkind : m.kind = .inv) (htxn : s.txn? m.req = some t)
    (hgoes : (s.part t.req.part).stopped = false) (hcopy : s.l1Any? m.cluster m.asid m.line = some l) :
    exec .inv s = .next ((s.invalidate t.req m.cluster).modMsg m.id fun y =>
      if l.next = 0x7FF then { y with kind := .invAck } else { y with cluster := l.next }) := by
  show execInv s = _
  simp only [execInv, hmsg, hkind, htxn, hgoes, hcopy, Bool.false_eq_true, if_false]

theorem exec_invAck_ends {t : Txn} (hkind : m.kind = .invAck) (htxn : s.txn? m.req = some t)
    (hopen : s.fillHeld t.req = false) (hgoes : (s.part t.req.part).stopped = false) : exec .invAck s
      = .next ({ s with mem := { s.mem with cmsgs := s.mem.cmsgs.filter fun x => x.id ≠ m.id } }.endWalk t.req) := by
  show execInvAck s = _
  simp only [execInvAck, hmsg, hkind, htxn, hopen, hgoes, Bool.or_self, Bool.false_eq_true, if_false]

variable (hprobe : m.kind ≠ .inv ∧ m.kind ≠ .invAck)
  (hready : ∀ t, s.txn? m.req = some t → s.fillHeld t.req = false ∧ (s.part t.req.part).stopped = false)
include hprobe hready

theorem exec_forwardedProbe_reaches : exec .forwardedProbe s
    = .next (if (s.leaseOn m.cluster m.asid m.line).isSome then s.modMsg m.id fun y => { y with queued := true }
        else s.serveProbe m) := by
  obtain ⟨hinv, hack⟩ := hprobe
  have hgoes : ((s.txn? m.req).any fun t => s.fillHeld t.req || (s.part t.req.part).stopped) = false := by
    cases htxn : s.txn? m.req with
    | none => rfl
    | some t => obtain ⟨hopen, hruns⟩ := hready t htxn; simp [hopen, hruns]
  show execForwardedProbe s = _
  simp only [execForwardedProbe, hmsg, hinv, hack, hgoes, decide_false, Bool.or_self, Bool.false_eq_true, if_false]
  cases s.leaseOn m.cluster m.asid m.line <;> rfl

end

/-- Settles O56: a request by who makes it, an eviction by the state of its copy, a message by its kind. -/
theorem directoryEvents : Obligations.DirectoryEvents := by
  unfold Obligations.DirectoryEvents
  refine fun s => ⟨fun r hturn hgoes => ⟨fun id hfrom hreq => ?outside, fun hinside hwhole => ?requests, ?piece,
    fun hheld hreq => congrArg _ (serveReq_held hreq hheld), fun x hcopy => ?puts⟩, fun m hmsg => ?messages⟩
  case outside =>
    exact congrArg _ (serveReq_outside hreq hturn (fillHeld_of_no_fill (.inl (req?_kind hreq))) hgoes hfrom)
  case requests =>
    have serves {k : ReqKind} (hreq : s.req? s.run.subj.a k = some r) (hopen : s.fillHeld r = false) :
        s.serveReq k = s.serve r := serveReq_serves hreq hturn hopen hgoes hinside hwhole
    exact ⟨fun hreq => congrArg _ (serves hreq (fillHeld_of_no_fill (.inl (req?_kind hreq)))),
      fun hreq => congrArg _ (serves hreq (fillHeld_of_no_fill (.inr (req?_kind hreq)))),
      fun hopen => ⟨fun hreq => congrArg _ (serves hreq hopen), fun hreq => congrArg _ (serves hreq hopen),
        fun hreq => congrArg _ (serves hreq hopen)⟩⟩
  case piece =>
    rintro ⟨e, n, hfrom⟩ hreq
    exact congrArg _ (serveReq_piece hreq hturn (fillHeld_of_no_fill (.inl (req?_kind hreq))) hgoes hfrom)
  case puts =>
    exact ⟨fun hreq => ⟨fun hst hlisted => congrArg _ (servePut_sharer hreq hturn hgoes hcopy hlisted rfl hst),
        fun hstale => congrArg _ (servePut_stale hreq hturn hgoes hcopy hstale)⟩,
      fun hreq => ⟨fun hst hlisted => congrArg _ (servePut_dirty hreq hturn hgoes hcopy hlisted rfl hst),
        fun hst hlisted => congrArg _ (servePut_clean hreq hturn hgoes hcopy hlisted rfl hst),
        fun hstale => congrArg _ (servePut_stale hreq hturn hgoes hcopy hstale)⟩⟩
  case messages =>
    refine ⟨fun t l hkind htxn hgoes hcopy => ⟨fun hlast => ?last, fun hmore => ?more⟩,
      fun t hkind htxn hopen hgoes => exec_invAck_ends hmsg hkind htxn hopen hgoes,
      fun hinv hack hready => ⟨fun hlease => ?serve, fun e hlease => ?queue⟩⟩
    case last => simp only [exec_inv_walks hmsg hkind htxn hgoes hcopy, hlast, if_true]
    case more => simp only [exec_inv_walks hmsg hkind htxn hgoes hcopy, hmore, if_false]
    case serve => rw [exec_forwardedProbe_reaches hmsg ⟨hinv, hack⟩ hready, hlease]; rfl
    case queue => rw [exec_forwardedProbe_reaches hmsg ⟨hinv, hack⟩ hready, hlease]; rfl

end Sys2Proof.Machine
end

section
/-! PROOFS. Accesses from outside, and what answers those of the device itself (O55): at a home slice, at a channel controller, the
answers of the host and of peers, emulated atomics, and the splice. -/

namespace Sys2Proof.Machine

variable {s t : State}

/-! ### An access at its home slice (R112, R117, R144, R151, R403) -/

section
variable {x : ExtAccess} {p asid ia old : Nat} {who : OutsideWho} {pl : Place_}

/-- What a control core's access is at its home: itself, or the counter add that its AMOADD.D stands for (R133, R137). -/
theorem access_core (x : ExtAccess) : OutsideWho.core.access x = x ∨
    (x.kind = .amo .add ∧ OutsideWho.core.access x = { x with kind := .amo .ctradd, fmt := .i64 }) := by
  unfold OutsideWho.access
  split
  · next hkind =>
    split
    · exact .inr ⟨hkind, rfl⟩
    · exact .inl rfl
  · exact .inl rfl

theorem access_core_addr (x : ExtAccess) : (OutsideWho.core.access x).addr = x.addr := by
  rcases access_core x with h | ⟨-, h⟩ <;> rw [h]

theorem access_core_width (x : ExtAccess) : (OutsideWho.core.access x).width = x.width := by
  rcases access_core x with h | ⟨-, h⟩ <;> rw [h]

theorem access_core_read : (OutsideWho.core.access x).kind = .read ↔ x.kind = .read := by
  rcases access_core x with h | ⟨hkind, h⟩
  · rw [h]
  · simp [h, hkind]

theorem access_core_write : (OutsideWho.core.access x).kind = .write ↔ x.kind = .write := by
  rcases access_core x with h | ⟨hkind, h⟩
  · rw [h]
  · simp [h, hkind]

/-- A control core's AMOADD.D saturates (R133). -/
theorem extValue_core_add (hkind : x.kind = .amo .add) (hwidth : x.width = 3) (old : Nat) :
    extValue (OutsideWho.core.access x) old = min (old + x.data.toNat) (2 ^ 64 - 1) := by
  have hcounter : OutsideWho.core.access x = { x with kind := .amo .ctradd, fmt := .i64 } := by
    simp [OutsideWho.access, hkind, hwidth]
  have hamount : x.data.toNat % 2 ^ (8 * 2 ^ 3) = x.data.toNat := Nat.mod_eq_of_lt x.data.isLt
  rw [hcounter]
  simp only [extValue, amoNew, hwidth, hamount]

theorem extValue_write (hkind : x.kind = .write) (old : Nat) : extValue x old = x.data.toNat % 2 ^ (8 * 2 ^ x.width) := by
  simp only [extValue, hkind]

theorem outsideAccess_queued (hwaits : s.lineQueued asid (ia / 64) = true ∨
    s.homeNow p asid ia none (extNeed (who.access x).kind) who.ident = .busy) :
    s.outsideAccess p asid ia who x = s.queueOutside p asid ia who (who.access x) := by
  rcases hwaits with h | h <;> simp [State.outsideAccess, h]

section
variable (hfirst : s.lineQueued asid (ia / 64) = false)
include hfirst

theorem outsideAccess_fault {c u : Nat}
    (hhome : s.homeNow p asid ia none (extNeed (who.access x).kind) who.ident = .fault c u t) :
    s.outsideAccess p asid ia who x = s.complete who .abort := by
  simp [State.outsideAccess, hfirst, hhome]

theorem outsideAccess_ready (hhome : s.homeNow p asid ia none (extNeed (who.access x).kind) who.ident = .ready pl t) :
    s.outsideAccess p asid ia who x = t.outsideAt p asid ia who (who.access x) pl := by
  simp [State.outsideAccess, hfirst, hhome]

end

theorem outsideAt_far {sl pa : Nat} (hfar : pl.far = some (sl, pa)) (haddr : x.addr = ia) :
    t.outsideAt p asid ia who x pl = t.sendOutside p asid sl who x pa := by
  subst haddr
  simp only [State.outsideAt, hfar]

section
variable (hnear : pl.far = none)
include hnear

theorem outsideAt_poison (hkind : x.kind ≠ .write) (hbad : t.spoiledAt pl asid ia (2 ^ x.width) = true) :
    t.outsideAt p asid ia who x pl = (t.answerPoison ia).complete who .success := by
  simp [State.outsideAt, hnear, hkind, hbad]

variable (hold : old = leNat (t.bytesAt pl asid ia (2 ^ x.width)))
include hold

theorem outsideAt_read (hkind : x.kind = .read) (hgood : t.spoiledAt pl asid ia (2 ^ x.width) = false) :
    t.outsideAt p asid ia who x pl = (t.answer (w64 old)).complete who .success := by
  simp [State.outsideAt, hnear, hkind, hgood, hold]

theorem outsideAt_write (hkind : x.kind ≠ .read)
    (hgood : x.kind = .write ∨ t.spoiledAt pl asid ia (2 ^ x.width) = false) : t.outsideAt p asid ia who x pl
      = ((t.writeNow pl asid ia (leBytes (2 ^ x.width) (extValue x old))).answer (w64 old)).complete who .success := by
  rcases hgood with h | h <;> simp [State.outsideAt, hnear, hkind, h, hold]

end

/-! ### Control cores and the host's aperture (R117, R450) -/

theorem exec_coreMemoryAccess_eq (hlive : (s.part p).live = true) (halign : extAligned x = true) (haddr : x.addr < 2 ^ 52) :
    exec (.coreMemoryAccess p asid x) s = .next (s.outsideAccess p asid x.addr .core x) := by
  show execCoreMemoryAccess p asid x s = _
  simp only [execCoreMemoryAccess, hlive, halign, haddr, decide_true, Bool.and_self, if_true]

section
variable (hlive : (s.part p).live = true) (halign : extAligned x = true) (haddr : x.addr < 2 ^ 36)
include hlive halign haddr

theorem exec_hostApertureAccess_mapped (hasid : bits (s.part p).hostaper 63 52 ≠ 0) : exec (.hostApertureAccess p x) s
    = .next (s.outsideAccess p (bits (s.part p).hostaper 63 52)
        ((bits (s.part p).hostaper 51 16 * 2 ^ 16 + x.addr) % 2 ^ 52) .host x) := by
  show execHostApertureAccess p x s = _
  simp only [execHostApertureAccess, hlive, halign, haddr, hasid, decide_true, Bool.and_self, Bool.not_true,
    Bool.false_eq_true, if_false]

theorem exec_hostApertureAccess_unmapped (hasid : bits (s.part p).hostaper 63 52 = 0) :
    exec (.hostApertureAccess p x) s = .next { s with run := { s.run with done := .unsupported } } := by
  show execHostApertureAccess p x s = _
  simp only [execHostApertureAccess, hlive, halign, haddr, hasid, decide_true, Bool.and_self, Bool.not_true,
    Bool.false_eq_true, if_false, if_true]
  rfl

end

/-! ### Peers at a channel controller (R144 to R148) -/

theorem exec_peerAccess_admitted (hadmits : s.admits x = true) : exec (.peerAccess x) s = .next (s.controllerAccess x) :=
  if_pos hadmits

theorem exec_reductionMerge_merges {o : AmoOp} (hkind : x.kind = .amo o) (hadmits : s.admits x = true)
    (hreduces : s.reduces x.addr = true) (hmerges : AmoOp.merges o = true) :
    exec (.reductionMerge x) s = .next (s.controllerAccess x) := by
  show execReductionMerge x s = _
  simp only [execReductionMerge, hkind, hadmits, hreduces, hmerges, Bool.and_self, if_true]

theorem paLocal_of_admits (hadmits : s.admits x = true) : paLocal x.addr = true := by
  simp only [State.admits, Bool.and_eq_true] at hadmits
  obtain ⟨⟨⟨⟨-, hlocal⟩, -⟩, -⟩, -⟩ := hadmits
  exact hlocal

/-- But in reduced service, what stands behind the addresses of HBM is HBM itself (R446). -/
theorem readPa_local (hfull : s.dev.reduced = none) {pa : Nat} (hlocal : paLocal pa = true) (n : Nat) :
    s.readPa pa n = s.mem.hbm.read pa n := by
  simp [State.readPa, State.phys, hlocal, hfull]

theorem writePa_local (hfull : s.dev.reduced = none) {pa : Nat} (hlocal : paLocal pa = true) (bs : List Byte) :
    s.writePa pa bs = ({ s with mem := { s.mem with hbm := s.mem.hbm.write pa bs } } : State).cover .mem pa bs.length := by
  simp [State.writePa, hlocal, hfull]

theorem controllerAccess_reads (hkind : x.kind = .read) (hgood : s.paSpoiled x.addr (2 ^ x.width) = false) :
    s.controllerAccess x = s.answer (w64 (leNat (s.readPa x.addr (2 ^ x.width)))) := by
  simp [State.controllerAccess, hkind, hgood, State.answer]

theorem controllerAccess_writes (hkind : x.kind ≠ .read)
    (hgood : x.kind = .write ∨ s.paSpoiled x.addr (2 ^ x.width) = false) : s.controllerAccess x
      = (s.writePa x.addr (leBytes (2 ^ x.width) (extValue x (leNat (s.readPa x.addr (2 ^ x.width)))))).answer
          (w64 (leNat (s.readPa x.addr (2 ^ x.width)))) := by
  rcases hgood with h | h <;> simp [State.controllerAccess, hkind, h, State.answer]

/-- What an access at a channel controller answers, the bytes of HBM that it writes, and what it leaves as it was. -/
structure ControllerDone (s t : State) (x : ExtAccess) (bs : List Byte) : Prop where
  read : t.run.busRead = w64 (leNat (s.mem.hbm.read x.addr (2 ^ x.width)))
  hbm : t.mem.hbm = s.mem.hbm.write x.addr bs
  l2 : t.mem.l2 = s.mem.l2
  l1 : t.mem.l1 = s.mem.l1
  dev : t.dev = s.dev
  ctxs : t.ctxs = s.ctxs
  work : t.work = s.work

theorem controllerDone_read (hfull : s.dev.reduced = none) (hlocal : paLocal x.addr = true) (hkind : x.kind = .read)
    (hgood : s.paSpoiled x.addr (2 ^ x.width) = false) :
    ControllerDone s (s.controllerAccess x) x [] ∧ (s.controllerAccess x).mem = s.mem := by
  rw [controllerAccess_reads hkind hgood, readPa_local hfull hlocal]
  exact ⟨⟨rfl, rfl, rfl, rfl, rfl, rfl, rfl⟩, rfl⟩

theorem controllerDone_write (hfull : s.dev.reduced = none) (hlocal : paLocal x.addr = true) (hkind : x.kind ≠ .read)
    (hgood : x.kind = .write ∨ s.paSpoiled x.addr (2 ^ x.width) = false) : ControllerDone s (s.controllerAccess x) x
      (leBytes (2 ^ x.width) (extValue x (leNat (s.mem.hbm.read x.addr (2 ^ x.width))))) := by
  rw [controllerAccess_writes hkind hgood, readPa_local hfull hlocal, writePa_local hfull hlocal]
  exact ⟨rfl, rfl, rfl, rfl, rfl, rfl, rfl⟩

/-- A byte of HBM outside those that the access wrote is as before. -/
theorem ControllerDone.get_outside {bs : List Byte} (h : ControllerDone s t x bs) (hform : MemForm s)
    (hlen : bs.length ≤ 2 ^ x.width) {a : Nat} (ha : a < x.addr ∨ x.addr + 2 ^ x.width ≤ a) :
    t.mem.hbm.get a = s.mem.hbm.get a := by
  rw [h.hbm]
  exact Memory.get_write_outside hform.hbm _ _ _ (ha.imp_right fun hend => Nat.le_trans (Nat.add_le_add_left hlen _) hend)

/-- The bytes that the access wrote are read back. -/
theorem ControllerDone.read_back {n : Nat} (h : ControllerDone s t x (leBytes (2 ^ x.width) n)) (hform : MemForm s) :
    t.mem.hbm.read x.addr (2 ^ x.width) = leBytes (2 ^ x.width) n := by
  have hback := Memory.read_write hform.hbm x.addr (leBytes (2 ^ x.width) n)
  rwa [length_leBytes, ← h.hbm] at hback

end

/-! ### The answers of the host and of peers (R112, R144, R151, R154) -/

@[simp] theorem op?_answered (s : State) (id n : Nat) : (s.answered id).op? n = s.op? n := rfl
@[simp] theorem eng?_answered (s : State) (id n : Nat) : (s.answered id).eng? n = s.eng? n := rfl
@[simp] theorem out?_answered (s : State) (id n : Nat) : (s.answered id).out? n = s.out? n := rfl
@[simp] theorem hostFill?_answered (s : State) (id n : Nat) : (s.answered id).hostFill? n = s.hostFill? n := rfl

section
variable {id : Nat} {o : Op} {v : W64} {r : List Nat} (hop : s.op? id = some o) (hparked : o.phase = .parked)
include hop hparked

section
variable (hfill : s.hostFill? id = none)
include hfill

theorem exec_hostCompletion_ends (hparams : o.params = 6 :: r) :
    exec (.hostCompletion id v) s = .next ((s.answered id).endOutside o v) := by
  show execHostCompletion id v s = _
  simp [execHostCompletion, hop, hfill, hparked, hparams]

theorem exec_hostCompletionTimeout_refuses (hparams : o.params = 6 :: r) : exec (.hostCompletionTimeout id) s
    = .next ((s.answered id).refuse o.answered { cause := 5, sub := 10, addr := o.ia }) := by
  show execHostCompletionTimeout id s = _
  simp [execHostCompletionTimeout, hop, hfill, hparked, hparams]

/-- The link fails for an emulated atomic that holds its lock (R151, R155). -/
theorem exec_hostCompletionTimeout_unlocks {pa : Nat} (hparams : o.params = 9 :: pa :: r) :
    exec (.hostCompletionTimeout id) s
      = .next (((s.answered id).unlock pa).refuse o.answered { cause := 5, sub := 10, addr := o.ia }) := by
  show execHostCompletionTimeout id s = _
  simp [execHostCompletionTimeout, hop, hfill, hparked, hparams]

end

section
variable (hparams : o.params = 5 :: r)
include hparams

theorem exec_peerAcknowledgement_ends (hkind : o.kind = .load ∨ o.kind = .store) :
    exec (.peerAcknowledgement id v false) s = .next (s.endOutside o v) := by
  show execPeerAcknowledgement id v false s = _
  rcases hkind with hk | hk <;> simp [execPeerAcknowledgement, hop, hparked, hparams, hk]

theorem exec_peerAcknowledgement_atomic {a : AmoOp} (hkind : o.kind = .amo a) :
    exec (.peerAcknowledgement id v false) s = .next (if mergedAway id a then s.endMerged o else s.endOutside o v) := by
  show execPeerAcknowledgement id v false s = _
  simp [execPeerAcknowledgement, hop, hparked, hparams, hkind]

theorem exec_peerAcknowledgement_refuses : exec (.peerAcknowledgement id v true) s
    = .next (s.refuse o.answered { cause := 5, sub := 8, addr := o.ia }) := by
  show execPeerAcknowledgement id v true s = _
  simp [execPeerAcknowledgement, hop, hparked, hparams]

end

/-! ### Emulated atomics (R155) -/

theorem exec_emulate_begins {pa : Nat} (hparams : o.params = 7 :: pa :: r) :
    exec (.emulate id v) s = .next (s.beginEmulation o pa v r) := by
  show execEmulate id v s = _
  simp [execEmulate, hop, hparked, hparams]

theorem exec_emulate_ends {pa old : Nat} (hparams : o.params = 9 :: pa :: old :: r) :
    exec (.emulate id v) s = .next (s.endEmulation o pa old r) := by
  show execEmulate id v s = _
  simp [execEmulate, hop, hparked, hparams]

end

/-- The routine writes the atomic's new value, and answers it. -/
theorem endEmulation_atomic {o : Op} {a : AmoOp} (hkind : o.kind = .amo a) (pa old : Nat) (r : List Nat) {n : Nat}
    (hn : n = 2 ^ (8 * 2 ^ o.width)) : s.endEmulation o pa old r
      = ((s.unlock pa).endOutside { o with params := 0 :: 0 :: r } (w64 old)).answer
          (w64 (amoNew a o.fmt ((w64 old).toNat % n) (o.data.toNat % n) (o.data2.toNat % n)).1) := by
  subst hn
  simp only [State.endEmulation, Op.newValue, hkind]

/-! ### Answers to engine operations and to accesses of other units (R112, R144, R147, R151) -/

section
variable {id : Nat} {v : W64} (hop : s.op? id = none)
include hop

section
variable {e : EngOp} (heng : s.eng? id = some e)
include heng

theorem exec_hostCompletion_engine : exec (.hostCompletion id v) s = .next ((s.answered id).answerEng e v none) := by
  show execHostCompletion id v s = _
  simp [execHostCompletion, hop, heng]

theorem exec_hostCompletionTimeout_engine :
    exec (.hostCompletionTimeout id) s = .next ((s.answered id).answerEng e 0 (some (5, 10))) := by
  show execHostCompletionTimeout id s = _
  simp [execHostCompletionTimeout, hop, heng]

theorem exec_peerAcknowledgement_engine :
    exec (.peerAcknowledgement id v true) s = .next (s.answerEng e v (some (5, 8))) := by
  show execPeerAcknowledgement id v true s = _
  simp only [execPeerAcknowledgement, hop, heng, if_true]

end

section
variable {q : OutsideReq} (heng : s.eng? id = none) (hout : s.out? id = some q) (hsent : q.sent = true)
include heng hout hsent

section
variable (hhost : paHost q.pa = true)
include hhost

theorem exec_hostCompletion_out : exec (.hostCompletion id v) s = .next ((s.answered id).answerOut q v) := by
  show execHostCompletion id v s = _
  simp [execHostCompletion, hop, heng, hout, hsent, hhost]

theorem exec_hostCompletionTimeout_out : exec (.hostCompletionTimeout id) s = .next ((s.answered id).refuseOut q 10) := by
  show execHostCompletionTimeout id s = _
  simp [execHostCompletionTimeout, hop, heng, hout, hsent, hhost]

end

section
variable (hpeer : paPeer q.pa = true)
include hpeer

theorem exec_peerAcknowledgement_out (hkind : q.acc.kind = .read ∨ q.acc.kind = .write) :
    exec (.peerAcknowledgement id v false) s = .next (s.answerOut q v) := by
  show execPeerAcknowledgement id v false s = _
  rcases hkind with hk | hk <;> simp [execPeerAcknowledgement, hop, heng, hout, hsent, hpeer, hk]

theorem exec_peerAcknowledgement_outAtomic {a : AmoOp} (hkind : q.acc.kind = .amo a) :
    exec (.peerAcknowledgement id v false) s = .next (s.answerOut q (if mergedAway id a then 0 else v)) := by
  show execPeerAcknowledgement id v false s = _
  simp [execPeerAcknowledgement, hop, heng, hout, hsent, hpeer, hkind]

theorem exec_peerAcknowledgement_outRefused : exec (.peerAcknowledgement id v true) s = .next (s.refuseOut q 8) := by
  show execPeerAcknowledgement id v true s = _
  simp [execPeerAcknowledgement, hop, heng, hout, hsent, hpeer]

end

end

end

/-! ### The splice (R47) -/

/-- The state once a splice of the page of `2 ^ n` bytes has started: its engine operation, and the bytes answered to the monitor. -/
def State.spliceStarted (s : State) (p asid base pa n : Nat) : State :=
  let (id, u) := s.newId
  let g := (u.part p).spliceEng p asid id base pa n u.run.subj.a (u.portReading p asid base (2 ^ n))
  { u with work := { u.work with engs := u.work.engs ++ [g] }, run := { u.run with busRead := w64 (2 ^ n) } }

theorem exec_splice_starts {p asid page frame n q : Nat} {e : W64} (hleaf : s.findLeaf p asid (page * 2 ^ 16) = .ok (e, q, n))
    (hpin : leafPin e = false) (hbacked : s.paReserved p (alignDown (frame * 2 ^ 16) (2 ^ n)) = false)
    (hwindow : paHost (alignDown (frame * 2 ^ 16) (2 ^ n)) = true → bit (s.part p).hostwin 0 = true)
    (hmig : leafMig e = true) (hfree : s.rangeFree asid (alignDown (page * 2 ^ 16) (2 ^ n)) (2 ^ n) = true)
    (hfirst : s.splicing p asid (alignDown (page * 2 ^ 16) (2 ^ n)) = false) : exec (.splice p asid page frame) s
      = .next (s.spliceStarted p asid (alignDown (page * 2 ^ 16) (2 ^ n)) (alignDown (frame * 2 ^ 16) (2 ^ n)) n) := by
  have hopen : (paHost (alignDown (frame * 2 ^ 16) (2 ^ n)) && !bit (s.part p).hostwin 0) = false := by
    simpa using hwindow
  show execSplice p asid page frame s = _
  simp only [execSplice, hleaf, hpin, hbacked, hopen, hmig, hfree, hfirst, Bool.not_true, Bool.or_self, Bool.false_eq_true,
    if_false]
  rfl

/-- Settles O55: each clause is a branch of its row; the clauses of peers read off what a controller's access leaves. -/
theorem outsideAccesses : Obligations.OutsideAccesses := by
  unfold Obligations.OutsideAccesses
  refine fun s x => ⟨?core, ?aperture, fun p hlive halign haddr hasid =>
    exec_hostApertureAccess_unmapped hlive halign haddr hasid, ?abort, ?peer, fun hrefused => ?refused,
    fun o hkind hadmits hreduces hmerges => exec_reductionMerge_merges hkind hadmits hreduces hmerges,
    ?answers, ?engines, ?units, ?splice⟩
  case core =>
    rintro p asid z hlive halign haddr rfl
    rw [exec_coreMemoryAccess_eq hlive halign haddr]
    refine ⟨fun hwaits => congrArg _ (outsideAccess_queued hwaits), ?_⟩
    intro old pl t hfirst hhome hold
    rw [← access_core_width] at hold
    rw [outsideAccess_ready hfirst hhome]
    refine ⟨fun sl pa hfar => congrArg _ (outsideAt_far hfar (access_core_addr x)), fun hnear => ⟨fun hkind hbad => ?_,
      fun hkind hgood => ?_, fun hkind hgood => ?_, fun hkind hwidth => extValue_core_add hkind hwidth old⟩⟩
    · rw [← access_core_width] at hbad
      exact congrArg _ (outsideAt_poison hnear (mt access_core_write.1 hkind) hbad)
    · rw [← access_core_width] at hgood
      exact congrArg _ (outsideAt_read hnear hold (access_core_read.2 hkind) hgood)
    · rw [← access_core_width] at hgood ⊢
      exact congrArg _ (outsideAt_write hnear hold (mt access_core_read.1 hkind) (hgood.imp_left access_core_write.2))
  case aperture =>
    rintro p asid ia hlive halign haddr rfl hasid rfl
    exact exec_hostApertureAccess_mapped hlive halign haddr hasid
  case abort =>
    intro p asid ia c u t hfirst hhome
    exact outsideAccess_fault hfirst hhome
  case peer =>
    intro hadmits hfull hform hgood
    have hlocal := paLocal_of_admits hadmits
    refine ⟨s.controllerAccess x, exec_peerAccess_admitted hadmits, ?_⟩
    by_cases hkind : x.kind = .read
    · obtain ⟨hdone, hmem⟩ := controllerDone_read hfull hlocal hkind (hgood.resolve_left (by simp [hkind]))
      exact ⟨hdone.read, fun _ => hmem, fun hwrite => absurd (hkind.symm.trans hwrite) nofun,
        fun a ha => hdone.get_outside hform (Nat.zero_le _) ha, hdone.l2, hdone.l1, hdone.dev, hdone.ctxs, hdone.work⟩
    · have hdone := controllerDone_write hfull hlocal hkind hgood
      have hlen := length_leBytes (2 ^ x.width) (extValue x (leNat (s.mem.hbm.read x.addr (2 ^ x.width))))
      refine ⟨hdone.read, fun hread => absurd hread hkind, fun hwrite => ?_,
        fun a ha => hdone.get_outside hform (Nat.le_of_eq hlen) ha, hdone.l2, hdone.l1, hdone.dev, hdone.ctxs, hdone.work⟩
      rw [hdone.read_back hform, extValue_write hwrite]
  case refused => exact if_neg (by simp [hrefused])
  case answers =>
    rintro id o v u rfl hop hfill hparked
    refine ⟨fun r hparams => ⟨exec_hostCompletion_ends hop hparked hfill hparams,
        exec_hostCompletionTimeout_refuses hop hparked hfill hparams⟩,
      fun r hparams => ⟨exec_peerAcknowledgement_ends hop hparked hparams,
        fun a hkind => exec_peerAcknowledgement_atomic hop hparked hparams hkind,
        exec_peerAcknowledgement_refuses hop hparked hparams⟩,
      fun pa r hparams => ⟨fun hheld => ?_, fun hopen => ?_⟩, fun a pa old r n hkind hparams hn => ⟨?_,
        exec_hostCompletionTimeout_unlocks hop hparked hfill hparams⟩⟩
    · rw [exec_emulate_begins hop hparked hparams, State.beginEmulation, if_pos hheld]
    · rw [exec_emulate_begins hop hparked hparams, State.beginEmulation, if_neg (Bool.eq_false_iff.1 hopen)]
    · rw [exec_emulate_ends hop hparked hparams, endEmulation_atomic hkind pa old r hn]
  case engines =>
    rintro id e v u rfl hop heng
    exact ⟨exec_hostCompletion_engine hop heng, exec_hostCompletionTimeout_engine hop heng,
      exec_peerAcknowledgement_engine hop heng⟩
  case units =>
    rintro id q v u rfl hop heng hout hsent
    exact ⟨fun hhost => ⟨exec_hostCompletion_out hop heng hout hsent hhost,
        exec_hostCompletionTimeout_out hop heng hout hsent hhost⟩,
      fun hpeer => ⟨exec_peerAcknowledgement_out hop heng hout hsent hpeer,
        fun a hkind => exec_peerAcknowledgement_outAtomic hop heng hout hsent hpeer hkind,
        exec_peerAcknowledgement_outRefused hop heng hout hsent hpeer⟩⟩
  case splice =>
    rintro p asid page frame n base pa e q hleaf rfl rfl hpin hbacked hwindow hmig hfree hfirst
    exact ⟨_, exec_splice_starts hleaf hpin hbacked hwindow hmig hfree hfirst, rfl, rfl, rfl, rfl, _, rfl, rfl, rfl, rfl, rfl⟩

end Sys2Proof.Machine
end

section
/-! PROOFS. Engines, islands and messages (O59): a piece and a completion add, the step of an island operation, then what each row
of a message answers. -/

namespace Sys2Proof.Machine

variable {s t : State} {e : EngOp}

/-! ### Pieces and completion adds (R142, R157, R158, R161, R171) -/

section
variable (heng : s.eng? s.run.subj.a = some e)
include heng

theorem exec_enginePiece_stopped (hstop : (s.part e.names.part).stopped = true) : exec .enginePiece s = .next s := by
  show execEnginePiece s = _
  simp only [execEnginePiece, heng, hstop, if_true]

theorem exec_engineCompletionAdd_stopped (hstop : (s.part e.names.part).stopped = true) :
    exec .engineCompletionAdd s = .next s := by
  show execEngineCompletionAdd s = _
  simp only [execEngineCompletionAdd, heng, hstop, if_true]
  split <;> rfl

variable (hgoes : (s.part e.names.part).stopped = false)
include hgoes

/-- Only the piece of a stream port takes its INFO from the port (R400). -/
theorem exec_enginePiece_performs {x : Piece} (hread : e.kind ≠ .sread) (hwrite : e.kind ≠ .swrite)
    (hpiece : e.pieces.find? (fun x => x.id == s.run.subj.b) = some x) :
    exec .enginePiece s = .next ((s.performPiece e x (s.engIdent e)).engOn e.id) := by
  show execEnginePiece s = _
  simp only [execEnginePiece, heng, hgoes, hread, hwrite, hpiece, decide_false, Bool.or_self, Bool.false_eq_true, if_false]

/-- The counter of each part of a COPYM lies in its target's cluster (R258); every other's is at `e.cluster`. -/
theorem exec_engineCompletionAdd_adds {lv : Level} {a n : Nat} (hctr : e.ctr = some (lv, a, n)) (hmay : s.mayAdd e = true)
    (hkind : e.kind ≠ .copym) (hadd : s.ctrAddNow e.names.part e.asid ((s.ctx? e.names.part e.ctx).map fun x => x.seed)
      e.site e.cluster lv a n (some (.piece e.id 0)) = .ok t) : exec .engineCompletionAdd s = .next (t.endAdd e) := by
  show execEngineCompletionAdd s = _
  simp only [execEngineCompletionAdd, heng, hctr, hgoes, hmay, hkind, hadd, Bool.not_true, Bool.false_eq_true, if_false]

end

/-! ### The step of an island operation (R320, R403) -/

/-- The step that an island operation's word names. -/
def State.takeStep (s : State) (e : EngOp) (c : Channel) : State :=
  match e.word.toNat / 2 ^ 24 with
  | 0xA0 => s.stepTld e
  | 0xA1 => s.stepTst e c
  | 0xA2 => s.stepMma e c false
  | 0xA3 => s.stepMma e c true
  | 0xAB => s.stepTfill e
  | op => s.stepAcc e c op

theorem takeStep_acc {c : Channel} (htld : e.word.toNat / 2 ^ 24 ≠ 0xA0) (htst : e.word.toNat / 2 ^ 24 ≠ 0xA1)
    (hmma : e.word.toNat / 2 ^ 24 ≠ 0xA2) (hmmaz : e.word.toNat / 2 ^ 24 ≠ 0xA3) (hfill : e.word.toNat / 2 ^ 24 ≠ 0xAB) :
    s.takeStep e c = s.stepAcc e c (e.word.toNat / 2 ^ 24) := by
  simp only [State.takeStep]

section
variable {c : Channel} (heng : s.eng? s.run.subj.a = some e) (hchannel : s.channel? e.names = some c)
  (hready : s.nodeReady e = true) (hgoes : (s.part e.names.part).stopped = false)
include heng hchannel hready hgoes

/-- An operation that is poisoned, or that reads a struck accumulator or slot, changes nothing (R403; log 24). -/
theorem exec_islandStep_poison (hbad : e.bad = true ∨ ∃ k ∈ e.sources, k ∈ c.bad) :
    exec .islandStep s = .next (s.nodeSend e none) := by
  have hpoison : (e.bad || e.sources.any c.bad.contains) = true := by simpa using hbad
  show execIslandStep s = _
  simp only [execIslandStep, heng, hchannel, hready, hgoes, hpoison, Bool.not_true, Bool.or_self, Bool.false_eq_true, if_false,
    if_true]

theorem exec_islandStep_takes (hgood : e.bad = false) (hsources : ∀ k ∈ e.sources, k ∉ c.bad) :
    exec .islandStep s = .next (s.takeStep e c) := by
  have hclean : (e.bad || e.sources.any c.bad.contains) = false := by simpa [hgood] using hsources
  show execIslandStep s = _
  simp only [execIslandStep, heng, hchannel, hready, hgoes, hclean, Bool.not_true, Bool.or_self, Bool.false_eq_true, if_false]
  split <;> simp only [State.takeStep, *]

end

/-! ### What settling a message leaves (R367, R381) -/

section
variable {m : Msg} {f : Msg → Msg}

@[simp] theorem State.settleMsg_mem : (s.settleMsg m f).mem = s.mem := by
  simp only [State.settleMsg]; split <;> rfl
@[simp] theorem State.settleMsg_ctxs : (s.settleMsg m f).ctxs = s.ctxs := by
  simp only [State.settleMsg]; split <;> rfl
@[simp] theorem State.settleMsg_work_engs : (s.settleMsg m f).work.engs = s.work.engs := by
  simp only [State.settleMsg]; split <;> rfl
@[simp] theorem State.settleMsg_work_rings : (s.settleMsg m f).work.rings = s.work.rings := by
  simp only [State.settleMsg]; split <;> rfl

/-- What settling does rests on the fabric, the partitions and the messages alone. -/
theorem State.settleMsg_congr (hfab : t.fab = s.fab) (hparts : t.parts = s.parts) (hmsgs : t.work.msgs = s.work.msgs) :
    (t.settleMsg m f).work.msgs = (s.settleMsg m f).work.msgs ∧ (t.settleMsg m f).fab = (s.settleMsg m f).fab := by
  have hpacket : t.packet? m.id = s.packet? m.id := by rw [State.packet?, State.packet?, hfab]
  simp only [State.settleMsg, hpacket]
  split <;> simp [State.setMsg, State.countEjected, State.part, State.ctr, hfab, hparts, hmsgs]

end

/-! ### A complete entry (R381) -/

section
variable {m : Msg} {r : Ring} (hring : s.ringOf m = some r) (hparams : e.params = [1, m.id])
include hring hparams

theorem completeEntry_early (hturn : r.wtail ≠ m.n) : s.completeEntry m e = none := by
  simp [State.completeEntry, hparams, hring, hturn]

theorem completeEntry_turn (hturn : r.wtail = m.n) : s.completeEntry m e
    = some ((((s.modRing r.cluster r.slot fun x => { x with wtail := m.n + 1 }).modEng e.id fun x =>
        { x with params := [2, m.id] }).wakeRing r.cluster r.slot).drainRing r.cluster r.slot) := by
  simp [State.completeEntry, hparams, hring, hturn]

end

/-! ### A reserved entry (R377, R381) -/

/-- The engine operation that writes the next entry of a ring for a message. -/
def Ring.entryFor (r : Ring) (m : Msg) (id : Nat) : EngOp :=
  { id := id, starter := 0, chained := false, kind := .msend, names := m.op.names, ctx := r.ctx, asid := r.asid,
    wave := m.op.wave, cluster := r.cluster, scope := m.op.scope,
    pieces := writePieces .cs r.cluster (r.base + 128 * (r.rtail % r.n)) (entryBytes m r.rtail) 1, bad := false,
    ctr := some (r.ctrLvl, r.ctrAddr, 1), gather := none, word := m.op.word, lit := m.op.lit, args := [],
    params := [1, m.id], info := 0, flush := none }

/-- The next entry of a ring is taken for a message, and its write begins. -/
def State.reserveEntry (s : State) (m : Msg) (r : Ring) : State :=
  let w := ((s.modRing r.cluster r.slot fun x => { x with rtail := r.rtail + 1 }).newId.2).settleMsg m fun x =>
    { x with state := .reserved, n := r.rtail }
  { w with work := { w.work with engs := w.work.engs ++ [r.entryFor m s.run.nextId] } }

section
variable (s : State) (m : Msg) (r : Ring)

@[simp] theorem State.reserveEntry_work_engs : (s.reserveEntry m r).work.engs = s.work.engs ++ [r.entryFor m s.run.nextId] := by
  simp [State.reserveEntry, State.newId]
@[simp] theorem State.reserveEntry_work_rings : (s.reserveEntry m r).work.rings
    = (s.modRing r.cluster r.slot fun x => { x with rtail := r.rtail + 1 }).work.rings := by
  simp [State.reserveEntry, State.newId]
@[simp] theorem State.reserveEntry_mem : (s.reserveEntry m r).mem = s.mem := by simp [State.reserveEntry, State.newId]
@[simp] theorem State.reserveEntry_ctxs : (s.reserveEntry m r).ctxs = s.ctxs := by simp [State.reserveEntry, State.newId]

/-- The message is settled as it would be without the entry. -/
theorem State.reserveEntry_settles {u : State} (hu : u = s.settleMsg m fun x => { x with state := .reserved, n := r.rtail }) :
    (s.reserveEntry m r).work.msgs = u.work.msgs ∧ (s.reserveEntry m r).fab = u.fab := by
  subst hu
  simp only [State.reserveEntry]
  exact State.settleMsg_congr rfl rfl rfl

end

/-! ### Reception and completion (R381, R385) -/

section
variable {m : Msg} (hmsg : s.work.msgs.find? (fun m => m.id == s.run.subj.a) = some m)
  (hgoes : (s.part m.op.names.part).stopped = false)
include hmsg hgoes

section
variable (hflying : m.state = .flying) (harrived : s.headArrived m = true)
include hflying harrived

theorem exec_messageReceive_noRing (hring : s.ringOf m = none) :
    exec .messageReceive s = .next (s.settleMsg m fun x => { x with state := .nacked 1 }) := by
  show execMessageReceive s = _
  simp [execMessageReceive, hmsg, hgoes, hflying, harrived, hring]

section
variable {r : Ring} (hring : s.ringOf m = some r)
include hring

/-- A ring that is not the message's, or takes no more, refuses it; it waits where no entry is free, or behind another. -/
theorem exec_messageReceive_ring : exec .messageReceive s
    = .next (if r.tag ≠ bits m.ring 15 8 || r.asid ≠ m.asid || r.part ≠ m.op.names.part || r.closing.isSome then
        s.settleMsg m fun x => { x with state := .nacked 1 }
      else if r.n ≤ r.rtail - r.head || !s.msgFirst m then s else s.reserveEntry m r) := by
  have hcomes : (m.state ≠ .flying || !s.headArrived m || (s.part m.op.names.part).stopped) = false := by
    simp [hflying, harrived, hgoes]
  show execMessageReceive s = _
  simp only [execMessageReceive, hmsg, hcomes, hring, Bool.false_eq_true, if_false]
  split
  · rfl
  · split <;> rfl

theorem exec_messageReceive_mismatch
    (hother : r.tag ≠ bits m.ring 15 8 ∨ r.asid ≠ m.asid ∨ r.part ≠ m.op.names.part ∨ r.closing.isSome) :
    exec .messageReceive s = .next (s.settleMsg m fun x => { x with state := .nacked 1 }) := by
  rw [exec_messageReceive_ring hmsg hgoes hflying harrived hring, if_pos (by simpa [or_assoc] using hother)]

variable (htag : r.tag = bits m.ring 15 8) (hasid : r.asid = m.asid) (hpart : r.part = m.op.names.part)
  (hopen : r.closing = none)
include htag hasid hpart hopen

theorem exec_messageReceive_matches : exec .messageReceive s
    = .next (if r.n ≤ r.rtail - r.head || !s.msgFirst m then s else s.reserveEntry m r) := by
  rw [exec_messageReceive_ring hmsg hgoes hflying harrived hring, if_neg (by simp [htag, hasid, hpart, hopen])]

theorem exec_messageReceive_full (hfull : r.n ≤ r.rtail - r.head) : exec .messageReceive s = .next s := by
  rw [exec_messageReceive_matches hmsg hgoes hflying harrived hring htag hasid hpart hopen, if_pos (by simp [hfull])]

theorem exec_messageReceive_reserves (hroom : r.rtail - r.head < r.n) (hfirst : s.msgFirst m = true) :
    exec .messageReceive s = .next (s.reserveEntry m r) := by
  rw [exec_messageReceive_matches hmsg hgoes hflying harrived hring htag hasid hpart hopen, if_neg (by simp [hroom, hfirst])]

end

end

section
variable (hstate : m.state = .reserved) (hentry : s.entryEng m.id = some e) (hpieces : e.pieces = []) (hflits : m.flits = 0)
  (hwaits : s.pieceWaits e 0 = false)
  (hdone : s.chainDone m.op.names.part m.op.ctx m.id m.op.id (m.op.scope = 0) = true)
include hstate hentry hpieces hflits hwaits hdone

theorem exec_ringEntryComplete_early (hturn : s.completeEntry m e = none) : exec .ringEntryComplete s = .next s := by
  show execRingEntryComplete s = _
  simp [execRingEntryComplete, hmsg, hgoes, hstate, hentry, hpieces, hflits, hwaits, hdone, hturn]

section
variable {u : State} (hturn : s.completeEntry m e = some u)
include hturn

theorem exec_ringEntryComplete_noCounter (hctr : e.ctr = none) : exec .ringEntryComplete s = .next (u.ackMsg m e) := by
  show execRingEntryComplete s = _
  simp [execRingEntryComplete, hmsg, hgoes, hstate, hentry, hpieces, hflits, hwaits, hdone, hturn, hctr]

theorem exec_ringEntryComplete_adds {lv : Level} {a n : Nat} (hctr : e.ctr = some (lv, a, n))
    (hadd : u.ctrAddNow e.names.part e.asid ((u.ctx? e.names.part e.ctx).map fun x => x.seed) (m.op.site u) e.cluster lv a n
      (some (.piece e.id 0)) = .ok t) : exec .ringEntryComplete s = .next (t.ackMsg m e) := by
  show execRingEntryComplete s = _
  simp [execRingEntryComplete, hmsg, hgoes, hstate, hentry, hpieces, hflits, hwaits, hdone, hturn, hctr, hadd]

end

end

/-! ### Acknowledgement (R380, R385) -/

theorem exec_messageAck_acked (hstate : m.state = .acked) :
    exec .messageAck s = .next (((s.dropMsg m.id).msgResult m.op (m.op.good m.n)).injectMsgs) := by
  show execMessageAck s = _
  simp [execMessageAck, hmsg, hgoes, hstate]

theorem exec_messageAck_nacked {u : Nat} (hstate : m.state = .nacked u) : exec .messageAck s
    = .next ((((s.raise { m.op.site s with unit := m.from_ } { cause := 10, sub := u, info := m.ring.toNat }).dropMsg m.id).msgResult
        m.op m.op.bad).injectMsgs) := by
  show execMessageAck s = _
  simp [execMessageAck, hmsg, hgoes, hstate]

end

/-- Settles O59: each clause is a branch of its row (log 24: the poison of a struck source; log 53: the order of entries); what the
reservation of an entry leaves is read off `reserveEntry`. -/
theorem engineAndRingEvents : Obligations.EngineAndRingEvents := by
  unfold Obligations.EngineAndRingEvents
  refine fun s => ⟨fun e heng hstop => ⟨exec_enginePiece_stopped heng hstop, exec_engineCompletionAdd_stopped heng hstop⟩,
    fun e x heng hread hwrite hgoes hpiece => exec_enginePiece_performs heng hgoes hread hwrite hpiece,
    fun e lv a n t heng hctr hmay hkind hgoes hadd => exec_engineCompletionAdd_adds heng hgoes hctr hmay hkind hadd,
    fun e c heng hchannel hready hgoes => ⟨exec_islandStep_poison heng hchannel hready hgoes, fun hgood hsources => ?step⟩,
    fun m hmsg hgoes => ⟨fun hflying harrived => ⟨exec_messageReceive_noRing hmsg hgoes hflying harrived, fun r hring =>
        ⟨exec_messageReceive_mismatch hmsg hgoes hflying harrived hring, fun htag hasid hpart hopen =>
          ⟨exec_messageReceive_full hmsg hgoes hflying harrived hring htag hasid hpart hopen, fun hroom hfirst => ?reserve⟩⟩⟩,
      ?complete, exec_messageAck_acked hmsg hgoes, fun u => exec_messageAck_nacked hmsg hgoes⟩⟩
  case step =>
    rw [exec_islandStep_takes heng hchannel hready hgoes hgood hsources]
    refine ⟨fun htld htst hmma hmmaz hfill => congrArg _ (takeStep_acc htld htst hmma hmmaz hfill), ?_, ?_, ?_, ?_, ?_⟩ <;>
      exact fun hop => by simp only [State.takeStep, hop]
  case reserve =>
    obtain ⟨hmsgs, hfab⟩ := s.reserveEntry_settles m r rfl
    exact ⟨s.reserveEntry m r, _, r.entryFor m s.run.nextId, rfl,
      exec_messageReceive_reserves hmsg hgoes hflying harrived hring htag hasid hpart hopen hroom hfirst,
      s.reserveEntry_work_engs m r, rfl, rfl, rfl, hmsgs, hfab, s.reserveEntry_work_rings m r, s.reserveEntry_mem m r,
      s.reserveEntry_ctxs m r⟩
  case complete =>
    rintro r e u hstate hring hentry hpieces hflits hwaits hparams hdone rfl
    exact ⟨fun hearly => exec_ringEntryComplete_early hmsg hgoes hstate hentry hpieces hflits hwaits hdone
        (completeEntry_early hring hparams hearly),
      fun hturn => exec_ringEntryComplete_noCounter hmsg hgoes hstate hentry hpieces hflits hwaits hdone
        (completeEntry_turn hring hparams hturn),
      fun lv a n t hturn => exec_ringEntryComplete_adds hmsg hgoes hstate hentry hpieces hflits hwaits hdone
        (completeEntry_turn hring hparams hturn)⟩

end Sys2Proof.Machine
end

section
/-! PROOFS. Integer words of elements (O23 to O25): what a word of one of the shared shapes gives, then what groups 0x1, 0x2 and
0x3 compute. -/

namespace Sys2Proof.Machine

/-! ### What an exact word of a shared shape gives (R190, R192, R195) -/

section
variable {s : State} {i : Instr} {f : Fields} {fm o : Fmt} {a b c : List Nat} {w : Nat} {out : Fmt → Option Fmt} {h : Nat → Nat}

theorem gives_each1 {g : Fmt → Nat → Nat × FpFlags} (hexec : exec i s = .next (s.each1 f out g)) (r : Reads1 s f fm a)
    (ho : out fm = some o) (hg : ∀ j, g fm (el a j) = exactly (h j)) : Gives s i f o h :=
  hexec.trans (congrArg _ (each1_exact r ho hg))

theorem gives_each2 {g : Fmt → Nat → Nat → Nat × FpFlags} (hexec : exec i s = .next (s.each2 f out g)) (r : Reads2 s f fm a b)
    (ho : out fm = some o) (hg : ∀ j, g fm (el a j) (el b j) = exactly (h j)) : Gives s i f o h :=
  hexec.trans (congrArg _ (each2_exact r ho hg))

theorem gives_each3 {g : Fmt → Nat → Nat → Nat → Nat × FpFlags} (hexec : exec i s = .next (s.each3 f out g))
    (r : Reads3 s f fm a b c) (ho : out fm = some o) (hg : ∀ j, g fm (el a j) (el b j) (el c j) = exactly (h j)) :
    Gives s i f o h :=
  hexec.trans (congrArg _ (each3_exact r ho hg))

theorem gives_eachOwn {g : Fmt → Nat → Nat → Nat → Nat} (hexec : exec i s = .next (s.eachOwn f out g))
    (r : ReadsOwn s f fm a b w) (ho : out fm = some o) (hg : ∀ j, g fm w (el a j) (el b j) = h j) : Gives s i f o h := by
  obtain rfl : (fun j => g fm w (el a j) (el b j)) = h := funext hg
  exact hexec.trans (congrArg _ (eachOwn_exact r ho))

theorem gives_compute {rc : Bool} {body : Firing → Fmt → Option (List Nat × FpFlags)}
    (hexec : exec i s = .next (s.compute f rc out body)) (hc : Clean s f rc) (hf : s.run.cur.fmtOf f = fm) (ho : out fm = some o)
    (hb : body s.run.cur fm = some ((upto s.run.cur.run).map h, fNone)) : Gives s i f o h :=
  hexec.trans (congrArg _ (computed_exact hc hf ho hb))

end

theorem keepIf_of {ok : Fmt → Bool} {fm : Fmt} (hok : ok fm = true) : keepIf ok fm = some fm := if_pos hok

theorem toP_of {ok : Fmt → Bool} {fm : Fmt} (hok : ok fm = true) : toP ok fm = some .p := if_pos hok

theorem intOrA_iff {fm : Fmt} : intOrA fm = true ↔ fm.isInt = true ∨ fm = .a := by simp [intOrA]

theorem intAOrP_iff {fm : Fmt} : intAOrP fm = true ↔ fm.isInt = true ∨ fm = .a ∨ fm = .p := by simp [intAOrP, or_assoc]

/-! ### Integer arithmetic (R232, R233) -/

/-- SatS is the Wrap of the value clamped into the signed range. -/
theorem satS_eq (n : Nat) (i : Int) : satS n i = wrap n (max (-2 ^ (n - 1)) (min (2 ^ (n - 1) - 1) i)) := by
  have hpos : (0 : Int) < 2 ^ (n - 1) := by positivity
  simp only [satS, Nat.cast_pow, Nat.cast_ofNat]
  congr 1
  split
  · omega
  split <;> omega

theorem satU_add (n x y : Nat) : satU n (x + y) = min (2 ^ n - 1) (x + y) := by
  have hpos := Nat.two_pow_pos n
  simp only [satU]
  split
  · omega
  split <;> omega

theorem satU_sub (n x y : Nat) : satU n (x - y) = min (2 ^ n - 1) (x - y) := by
  have hpos := Nat.two_pow_pos n
  simp only [satU]
  split
  · omega
  split <;> omega

theorem highHalf_eq (n : Nat) (i : Int) : highHalf n i = wrap n (i / 2 ^ n) := by
  rw [highHalf, Int.fdiv_eq_ediv_of_nonneg _ (Int.natCast_nonneg _), Nat.cast_pow, Nat.cast_ofNat]

theorem wrap_natCast (n x : Nat) : wrap n (x : Int) = x % 2 ^ n := by
  rw [wrap, ← Int.natCast_emod, Int.toNat_natCast]

theorem highHalf_mul (n x y : Nat) : highHalf n (x * y) = x * y / 2 ^ n % 2 ^ n := by
  rw [highHalf_eq, ← wrap_natCast]
  push_cast
  rfl

/-- Settles O23: each word is exact element by element; what is left are the saturations and the high halves. -/
theorem integerArithmetic : Obligations.IntegerArithmetic := by
  unfold Obligations.IntegerArithmetic
  rintro s f fm a b c W A B C rfl hA hB hC
  obtain rfl : A = fun j => toS fm.width (el a j) := funext hA
  obtain rfl : B = fun j => toS fm.width (el b j) := funext hB
  obtain rfl : C = fun j => toS fm.width (el c j) := funext hC
  refine ⟨fun r hfmt => ?sums, fun r hint => ?pairs, fun r hint => ?madd, fun r hint => ?signs⟩
  case sums =>
    have hkeep := keepIf_of (intOrA_iff.2 hfmt)
    exact ⟨gives_each2 rfl r hkeep fun _ => rfl, gives_each2 rfl r hkeep fun _ => rfl⟩
  case pairs =>
    have hkeep := keepIf_of hint
    exact ⟨gives_each2 rfl r hkeep fun _ => congrArg exactly (satS_eq _ _),
      gives_each2 rfl r hkeep fun _ => congrArg exactly (satU_add _ _ _),
      gives_each2 rfl r hkeep fun _ => congrArg exactly (satS_eq _ _),
      gives_each2 rfl r hkeep fun _ => congrArg exactly (satU_sub _ _ _),
      gives_each2 rfl r hkeep fun _ => rfl,
      gives_each2 rfl r hkeep fun _ => congrArg exactly (highHalf_eq _ _),
      gives_each2 rfl r hkeep fun _ => congrArg exactly (highHalf_mul _ _ _),
      gives_each2 rfl r hkeep fun _ => rfl, gives_each2 rfl r hkeep fun _ => rfl,
      gives_each2 rfl r hkeep fun _ => rfl, gives_each2 rfl r hkeep fun _ => rfl⟩
  case madd => exact gives_each3 rfl r (keepIf_of hint) fun _ => rfl
  case signs =>
    exact ⟨gives_each1 rfl r (keepIf_of hint) fun _ => rfl,
      gives_each1 rfl r (keepIf_of hint) fun j => by rw [Int.natCast_natAbs]⟩

end Sys2Proof.Machine
end

section
/-! PROOFS. Logic, shifts and bit fields (O24): the operations of a word bit by bit, then group 0x2. -/

namespace Sys2Proof.Machine

/-! ### Complements and counts (R234) -/

theorem testBit_notBits (w a i : Nat) : (notBits w a).testBit i = (decide (i < w) && !a.testBit i) := by
  by_cases hi : i < w <;> simp [notBits, Nat.testBit_xor, Nat.testBit_two_pow_sub_one, Nat.testBit_mod_two_pow, hi]

theorem notBits_eq (w a : Nat) : notBits w a = 2 ^ w - 1 - a % 2 ^ w := by
  apply Nat.eq_of_testBit_eq
  intro i
  rw [testBit_notBits, Nat.sub_sub, Nat.add_comm 1,
    Nat.testBit_two_pow_sub_succ (Nat.mod_lt a (Nat.two_pow_pos w)), Nat.testBit_mod_two_pow]
  by_cases hi : i < w <;> simp [hi]

theorem popBits_eq (a n : Nat) : popBits a n = ((upto n).filter fun i => a.testBit i).length := by
  induction n with
  | zero => rfl
  | succ n ih =>
    rw [popBits, ih, upto, upto, List.range_succ, List.filter_append, List.length_append, Nat.add_comm]
    cases h : a.testBit n <;> simp [h]

section
variable {w a : Nat}

/-- The highest one bit has as many bits above it as CLZ counts. -/
theorem clzBits_eq (ha : a < 2 ^ w) (h0 : a ≠ 0) : clzBits w a = w - 1 - a.log2 := by
  rw [clzBits, Nat.mod_eq_of_lt ha, if_neg h0]

theorem clzBits_highest (ha : a < 2 ^ w) (h0 : a ≠ 0) : clzBits w a < w ∧ a.testBit (w - 1 - clzBits w a) = true ∧
    ∀ i, w - 1 - clzBits w a < i → a.testBit i = false := by
  have hlog : a.log2 < w := (Nat.log2_lt h0).2 ha
  have htop : w - 1 - clzBits w a = a.log2 := by rw [clzBits_eq ha h0]; omega
  rw [htop]
  refine ⟨by rw [clzBits_eq ha h0]; omega, Nat.testBit_log2 h0, fun i hi => ?_⟩
  exact Nat.testBit_lt_two_pow (Nat.lt_of_lt_of_le Nat.lt_log2_self (Nat.pow_le_pow_right Nat.two_pos hi))

end

theorem ctzFrom_zero (n i : Nat) : ctzFrom 0 n i = i + n := by
  induction n generalizing i with
  | zero => rfl
  | succ n ih =>
    rw [ctzFrom, Nat.zero_testBit, if_neg Bool.false_ne_true, ih]
    omega

/-- Where one of the bits looked at is a one, CTZ stops at the lowest such. -/
theorem ctzFrom_lowest {a n i k : Nat} (hk : a.testBit k = true) (hik : i ≤ k) (hkn : k < i + n) :
    ctzFrom a n i < i + n ∧ a.testBit (ctzFrom a n i) = true ∧ ∀ l, i ≤ l → l < ctzFrom a n i → a.testBit l = false := by
  induction n generalizing i with
  | zero => omega
  | succ n ih =>
    rw [ctzFrom]
    by_cases hi : a.testBit i = true
    · rw [if_pos hi]
      exact ⟨by omega, hi, fun l hl hlt => absurd hlt (Nat.not_lt.2 hl)⟩
    · rw [if_neg hi]
      have hne : i ≠ k := fun h => hi (h ▸ hk)
      obtain ⟨hlt, hbit, hlow⟩ := ih (i := i + 1) (by omega) (by omega)
      refine ⟨by omega, hbit, fun l hl hlt => ?_⟩
      rcases Nat.eq_or_lt_of_le hl with rfl | hl
      · exact Bool.not_eq_true _ ▸ hi
      · exact hlow l hl hlt

/-! ### Bit moves (R234, R236) -/

/-- The bits that BREV has not reached yet are zero. -/
theorem dvd_revBits {w n : Nat} (a : Nat) (hn : n ≤ w) : 2 ^ (w - n) ∣ revBits w a n := by
  induction n with
  | zero => exact dvd_zero _
  | succ n ih =>
    rw [revBits]
    refine dvd_add ?_ ((pow_dvd_pow 2 (by omega)).trans (ih (by omega)))
    split
    · exact pow_dvd_pow 2 (by omega)
    · exact dvd_zero _

/-- After `n` bits of BREV the `n` highest bits of the word are the `n` lowest ones in reverse. -/
theorem testBit_revBits {w n : Nat} (a i : Nat) (hn : n ≤ w) :
    (revBits w a n).testBit i = (decide (w - n ≤ i ∧ i < w) && a.testBit (w - 1 - i)) := by
  induction n with
  | zero => rw [revBits, Nat.zero_testBit, decide_eq_false (by omega), Bool.false_and]
  | succ n ih =>
    obtain ⟨y, hy⟩ := dvd_revBits a (Nat.le_of_succ_le hn)
    have hlow : (if a.testBit n then 2 ^ (w - 1 - n) else 0) < 2 ^ (w - n) := by
      split
      · exact Nat.pow_lt_pow_right Nat.one_lt_two (by omega)
      · exact Nat.two_pow_pos _
    have hbit : (if a.testBit n then 2 ^ (w - 1 - n) else 0).testBit i = (decide (w - 1 - n = i) && a.testBit n) := by
      cases a.testBit n <;> simp [Nat.testBit_two_pow]
    rw [revBits, Nat.add_comm, hy, Nat.two_pow_add_eq_or_of_lt hlow, ← hy, Nat.testBit_or, ih (Nat.le_of_succ_le hn), hbit]
    by_cases hi : w - 1 - n = i
    · rw [decide_eq_false (p := w - n ≤ i ∧ i < w) (by omega), decide_eq_true hi, decide_eq_true ⟨by omega, by omega⟩,
        show w - 1 - i = n by omega, Bool.false_and, Bool.false_or]
    · rw [decide_eq_false hi, Bool.false_and, Bool.or_false,
        decide_eq_decide.2 (show w - n ≤ i ∧ i < w ↔ w - (n + 1) ≤ i ∧ i < w by omega)]

section
variable {w b i : Nat}

theorem testBit_bfiMask (hi : i < w) :
    (bfiMask w b).testBit i = decide (b % 256 ≤ i ∧ i < b % 256 + min (b / 256 % 256) w) := by
  rw [bfiMask, Nat.testBit_mod_two_pow, Nat.testBit_mul_two_pow, Nat.testBit_two_pow_sub_one, decide_eq_true hi, Bool.true_and,
    ← Bool.decide_and]
  exact decide_eq_decide.2 (by omega)

/-- BFI takes the bits of its field from C and leaves the others of A. -/
theorem testBit_bfiBits (a c : Nat) (hi : i < w) : (bfiBits w a b c).testBit i =
    if b % 256 ≤ i ∧ i < b % 256 + min (b / 256 % 256) w then c.testBit (i - b % 256) else a.testBit i := by
  rw [bfiBits, Nat.testBit_or, Nat.testBit_and, Nat.testBit_and, testBit_notBits, testBit_bfiMask hi, Nat.testBit_mul_two_pow,
    decide_eq_true hi]
  by_cases h : b % 256 ≤ i ∧ i < b % 256 + min (b / 256 % 256) w
  · rw [if_pos h, decide_eq_true h, decide_eq_true h.1]
    simp
  · rw [if_neg h, decide_eq_false h]
    simp

end

/-! ### Group 0x2 -/

/-- A pairing of three lists of `n` elements, element by element. -/
theorem zipWith_zip_upto {α : Type} (g : Nat → Nat → Nat → α) {xs ys zs : List Nat} {n : Nat} (hx : xs.length = n)
    (hy : ys.length = n) (hz : zs.length = n) : List.zipWith (fun x (h : Nat × Nat) => g x h.1 h.2) xs (List.zip ys zs)
      = (upto n).map fun j => g (el xs j) (el ys j) (el zs j) := by
  rw [List.zip, zipWith_upto _ ys zs 0 0 n hy hz, zipWith_upto _ xs _ 0 (0, 0) n hx (by simp [upto])]
  refine List.map_congr_left fun j hj => ?_
  rw [at!_map_upto _ _ _ _ (List.mem_range.1 hj)]

theorem gives_bfi {s : State} {f : Fields} {fm : Fmt} {a b c : List Nat} {w : Nat} (hc : Clean s f true)
    (hint : fm.isInt = true) (hf : s.run.cur.fmtOf f = fm) (ha : s.source s.run.cur f.sa.toNat fm = some a)
    (hb : s.ownSource s.run.cur f.sb.toNat = some (b, w)) (hsc : s.source s.run.cur 0x42 fm = some c) :
    Gives s (.bfi f) f fm fun j => bfiBits fm.width (el a j) (el b j) (el c j) := by
  refine gives_compute rfl hc hf (keepIf_of hint) ?_
  simp only [ha, hb, hsc, zipWith_zip_upto (bfiBits fm.width) (length_source s ha) (length_ownSource s hb) (length_source s hsc)]

/-- Settles O24: the words element by element, then the counts and the moves of bits. -/
theorem logicAndShifts : Obligations.LogicAndShifts := by
  unfold Obligations.LogicAndShifts
  constructor
  · rintro s f fm a b c w W rfl
    refine ⟨fun r hfmt => ?logic, fun r hfmt => ?not, fun r hint => ?shifts, fun r hint => ?counts,
      fun hc hint hf ha hb hsc => gives_bfi hc hint hf ha hb hsc⟩
    case logic =>
      have hkeep := keepIf_of (intAOrP_iff.2 hfmt)
      exact ⟨gives_each2 rfl r hkeep fun _ => rfl, gives_each2 rfl r hkeep fun _ => rfl, gives_each2 rfl r hkeep fun _ => rfl,
        gives_each2 rfl r hkeep fun _ => by rw [notBits_eq]⟩
    case not => exact gives_each1 rfl r (keepIf_of (intAOrP_iff.2 hfmt)) fun _ => by rw [notBits_eq]
    case shifts =>
      have hkeep := keepIf_of hint
      exact ⟨gives_eachOwn rfl r hkeep fun _ => by rw [Nat.shiftLeft_eq],
        gives_eachOwn rfl r hkeep fun _ => by rw [Nat.shiftRight_eq_div_pow],
        gives_eachOwn rfl r hkeep fun _ => by
          rw [sraBits, Int.fdiv_eq_ediv_of_nonneg _ (Int.natCast_nonneg _), Nat.cast_pow, Nat.cast_ofNat],
        gives_eachOwn rfl r hkeep fun _ => by rw [rolBits, Nat.shiftLeft_eq, Nat.shiftRight_eq_div_pow],
        gives_eachOwn rfl r hkeep fun _ => by rw [bfxBits, Nat.shiftRight_eq_div_pow],
        gives_eachOwn rfl r hkeep fun _ => rfl⟩
    case counts =>
      have hkeep := keepIf_of hint
      exact ⟨gives_each1 rfl r hkeep fun _ => rfl, gives_each1 rfl r hkeep fun _ => rfl,
        gives_each1 rfl r hkeep fun _ => by rw [popBits_eq], gives_each1 rfl r hkeep fun _ => rfl⟩
  · intro W a hW ha
    refine ⟨fun h0 => ?counts, ?clz, ?ctz, fun i hi => ?rev, fun b c i hi => testBit_bfiBits a c hi⟩
    case counts =>
      obtain ⟨k, hk⟩ := Nat.exists_testBit_of_ne_zero h0
      obtain ⟨hlt, hone, habove⟩ := clzBits_highest ha h0
      have hkW : k < W := Nat.lt_of_not_le fun hle => by
        rw [Nat.testBit_lt_two_pow (Nat.lt_of_lt_of_le ha (Nat.pow_le_pow_right Nat.two_pos hle))] at hk
        exact Bool.false_ne_true hk
      obtain ⟨hctz, hbit, hbelow⟩ := ctzFrom_lowest hk (Nat.zero_le k) ((Nat.zero_add W).symm ▸ hkW)
      exact ⟨hlt, hone, habove, by rwa [Nat.zero_add] at hctz, hbit, fun i => hbelow i (Nat.zero_le i)⟩
    case clz => exact if_pos (Nat.zero_mod _)
    case ctz => rw [ctzFrom_zero, Nat.zero_add]
    case rev => rw [testBit_revBits a i (Nat.le_refl W), decide_eq_true ⟨by omega, hi⟩, Bool.true_and]

end Sys2Proof.Machine
end

section
/-! PROOFS. Compares, minima, addresses, work identifiers and widths (O25). -/

namespace Sys2Proof.Machine

theorem predBit_decide (p : Prop) [Decidable p] : predBit (decide p) = exactly (if p then 1 else 0) := by simp [predBit]

theorem predBit_ne (x y : Nat) : predBit (x != y) = exactly (if x = y then 0 else 1) := by
  by_cases h : x = y <;> simp [predBit, h]

/-- The choice of a minimum or a maximum, told by the other comparison. -/
theorem ite_le_eq_ite_lt {α : Type} (x y : Int) (u v : α) : (if x ≤ y then u else v) = if y < x then v else u := by
  simp only [← Int.not_lt, ite_not]

section
variable {s : State} {i : Instr} {f : Fields} {fm tgt : Fmt} {a : List Nat} {ok : Fmt → Fmt → Option Fmt}

theorem gives_idx {x : Ctx} (r : Reads1 s f .i64 a) (hctx : s.ctx? s.run.cur.names.part s.run.cur.ctx = some x) :
    Gives s (.idx f) f .i64 fun j => idxField x.nf x.widths (el a j) (s.amount s.run.cur f.sb.toNat) := by
  refine gives_compute rfl r.toClean r.fmt (if_pos rfl) ?_
  simp only [r.srcA, hctx, map_upto _ a 0 _ (length_source s r.srcA)]

/-- A width change whose target is allowed gives the target's format (R240). -/
theorem gives_changeWidth {g : Fmt → Fmt → Nat → Nat} {h : Nat → Nat} (hexec : exec i s = .next (s.changeWidth f ok g))
    (r : Reads1 s f fm a) (htgt : widthTarget f = tgt) (hok : ok tgt fm = some tgt) (hg : ∀ j, g fm tgt (el a j) = h j) :
    Gives s i f tgt h := by
  refine gives_each1 (out := ok tgt) (g := fun fm a => exactly (g fm tgt a)) (hexec.trans ?_) r hok fun j => congrArg exactly (hg j)
  rw [State.changeWidth, r.good, htgt]
  rfl

theorem widens_of (hfmt : intOrA fm = true) (htgt : intOrA tgt = true) (hwidth : fm.width ≤ tgt.width) :
    widens tgt fm = some tgt := by simp [widens, hfmt, htgt, hwidth]

theorem narrows_of (hfmt : intOrA fm = true) (htgt : tgt.isInt = true) (hwidth : tgt.width ≤ fm.width) :
    narrows tgt fm = some tgt := by simp [narrows, hfmt, htgt, hwidth]

end

/-- Settles O25 (log 105: NARROWS saturates A into I64 too): each word is exact element by element. -/
theorem comparesAndWidths : Obligations.ComparesAndWidths := by
  unfold Obligations.ComparesAndWidths
  rintro s f fm a b w W A B rfl hA hB
  obtain rfl : A = fun j => toS fm.width (el a j) := funext hA
  obtain rfl : B = fun j => toS fm.width (el b j) := funext hB
  refine ⟨fun r hfmt => ?equal, fun r hint => ?signed, fun r hfmt => ?unsigned,
    fun r => gives_eachOwn rfl r (keepIf_of rfl) fun _ => rfl, fun x r hctx => gives_idx r hctx,
    fun tgt r htgt hfmt => ⟨fun hto hwidth => ?wider, fun hint hwidth => ?narrower⟩⟩
  case equal =>
    have hp := toP_of (intAOrP_iff.2 hfmt)
    exact ⟨gives_each2 rfl r hp fun _ => predBit_decide _, gives_each2 rfl r hp fun _ => predBit_ne _ _⟩
  case signed =>
    have hp := toP_of hint
    have hkeep := keepIf_of hint
    exact ⟨gives_each2 rfl r hp fun _ => predBit_decide _, gives_each2 rfl r hp fun _ => predBit_decide _,
      gives_each2 rfl r hkeep fun _ => congrArg exactly (ite_le_eq_ite_lt _ _ _ _),
      gives_each2 rfl r hkeep fun _ => congrArg exactly (ite_le_eq_ite_lt _ _ _ _)⟩
  case unsigned =>
    have hp := toP_of (intOrA_iff.2 hfmt)
    have hkeep := keepIf_of (intOrA_iff.2 hfmt)
    exact ⟨gives_each2 rfl r hp fun _ => predBit_decide _, gives_each2 rfl r hp fun _ => predBit_decide _,
      gives_each2 rfl r hkeep fun _ => rfl, gives_each2 rfl r hkeep fun _ => rfl⟩
  case wider =>
    have hok := widens_of (intOrA_iff.2 hfmt) (intOrA_iff.2 hto) hwidth
    exact ⟨gives_changeWidth rfl r htgt hok fun _ => rfl, gives_changeWidth rfl r htgt hok fun _ => rfl⟩
  case narrower =>
    have hok := narrows_of (intOrA_iff.2 hfmt) hint hwidth
    exact ⟨gives_changeWidth rfl r htgt hok fun _ => rfl, gives_changeWidth rfl r htgt hok fun _ => satS_eq _ _⟩

end Sys2Proof.Machine
end

section
/-! PROOFS. The dataflow words (O31, O32): those that move tokens, then those that write tags. -/

namespace Sys2Proof.Machine

section
variable {s : State} {f : Fields} {fm : Fmt} {a b : List Nat} {p : List Bool}

/-! ### A result of unchanged elements -/

/-- Operand A passed on is the result whose elements are those of A. -/
theorem res_source (hsrc : s.source s.run.cur f.sa.toNat fm = some a) :
    s.run.cur.res f fm a = elemRes s f fm fun j => el a j := by
  rw [Firing.res, elemRes, map_upto w64 a 0 _ (length_source s hsrc)]

/-- A mismatch that only the body of a computing firing finds (R192; log 35, DEDUCED). -/
theorem compute_mismatch {rc : Bool} {out : Fmt → Option Fmt} {o : Fmt} {body : Firing → Fmt → Option (List Nat × FpFlags)}
    (hc : Clean s f rc) (hf : s.run.cur.fmtOf f = fm) (ho : out fm = some o) (hb : body s.run.cur fm = none) :
    s.compute f rc out body = s.mismatch s.run.cur f o := by
  simp [State.compute, hc.good, hc.pred, hf, ho, hb]

/-! ### MOV, ITAG and SELECT (R215, R219, R223) -/

theorem gives_mov (r : Reads1 s f fm a) (htrigger : ∀ t, s.run.cur.port f.sb.toNat = some t → t.fmt = fm) :
    Gives s (.mov f) f fm fun j => el a j := by
  refine gives_compute rfl r.toClean r.fmt (keepIf_of rfl) ?_
  have ha : (s.source s.run.cur f.sa.toNat fm).map (fun a => (a, fNone)) = some ((upto s.run.cur.run).map (el a), fNone) := by
    rw [r.srcA, Option.map_some, ← eq_upto a 0 _ (length_source s r.srcA)]
  cases hport : s.run.cur.port f.sb.toNat with
  | none => exact ha
  | some t => exact (if_pos (htrigger t hport)).trans ha

theorem exec_mov_mismatch {t : Token} (r : Reads1 s f fm a) (hport : s.run.cur.port f.sb.toNat = some t) (hfmt : t.fmt ≠ fm) :
    exec (.mov f) s = .next (s.mismatch s.run.cur f fm) := by
  show execMov f s = _
  refine congrArg _ (compute_mismatch r.toClean r.fmt (keepIf_of rfl) ?_)
  simp only [hport, if_neg hfmt]

theorem gives_select (hc : Clean s f true) (hf : s.run.cur.fmtOf f = fm) (ha : s.source s.run.cur f.sa.toNat fm = some a)
    (hp : s.run.cur.pred = some p) (hb : s.source s.run.cur f.sb.toNat fm = some b) :
    Gives s (.select f) f fm fun j => if at! p j false then el a j else el b j := by
  refine gives_compute rfl hc hf (keepIf_of rfl) ?_
  simp only [ha, hb, hp]

/-! ### GATE (R217) -/

theorem exec_gate_sends (hc : Clean s f true) (hf : s.run.cur.fmtOf f = fm) (ha : s.source s.run.cur f.sa.toNat fm = some a)
    (hp : s.run.cur.pred = some p) (hgood : poisonedTok s.run.cur.c = false) : exec (.gate f) s
      = .next (s.sendTo s.run.cur f.ta.toNat (gateLink f.da.toNat (p.any id)) (elemRes s f fm fun j => el a j)) := by
  show execGate f s = _
  simp [execGate, hgood, hp, hc.good, hf, ha, res_source ha]

theorem any_id_iff : p.any id = true ↔ true ∈ p := by simp

/-- What GATE does on each of its destination values, told by the elements of the predicate. -/
theorem sendTo_gateLink (s : State) (fr : Firing) (ta : Nat) (p : List Bool) (v : Res) :
    s.sendTo fr ta (gateLink 4 (p.any id)) v = s.sendTo fr ta (if true ∈ p then 1 else 2) v ∧
    s.sendTo fr ta (gateLink 5 (p.any id)) v = (if true ∈ p then s.sendTo fr ta 1 v else s) ∧
    s.sendTo fr ta (gateLink 6 (p.any id)) v = (if true ∈ p then s else s.sendTo fr ta 1 v) := by
  by_cases h : true ∈ p
  · rw [any_id_iff.2 h, if_pos h, if_pos h, if_pos h]
    exact ⟨rfl, rfl, rfl⟩
  · rw [Bool.eq_false_iff.2 fun hany => h (any_id_iff.1 hany), if_neg h, if_neg h, if_neg h]
    exact ⟨rfl, rfl, rfl⟩

/-! ### MERGE (R218) -/

theorem exec_merge_of {t : Token} (ht : s.run.cur.a = some t ∨ (s.run.cur.a = none ∧ s.run.cur.b = some t)) :
    exec (.merge f) s = .next (s.sendTo s.run.cur f.ta.toNat f.da.toNat ⟨t.wave, t.stop, t.fmt, t.poison, t.data⟩) := by
  have htok : mergeTok s.run.cur = some t := by
    rcases ht with ha | ⟨ha, hb⟩
    · simp only [mergeTok, ha]
    · simp only [mergeTok, ha, hb]
  show execMerge f s = _
  simp only [execMerge, htok]

end

/-- Settles O31 (log 35: the mismatch of a trigger). -/
theorem dataflowWords : Obligations.DataflowWords := by
  unfold Obligations.DataflowWords
  refine fun s f fm a b => ⟨fun r => ⟨gives_mov r, fun t hport hfmt => exec_mov_mismatch r hport hfmt,
      gives_each1 rfl r (keepIf_of rfl) fun _ => rfl, gives_compute rfl r.toClean r.fmt rfl rfl⟩,
    fun p hc hf ha hp => ⟨gives_select hc hf ha hp, ?_, ?_, ?_⟩, fun t ht => exec_merge_of ht, rfl⟩
  all_goals
    intro hgood hda
    obtain ⟨h4, h5, h6⟩ := sendTo_gateLink s s.run.cur f.ta.toNat p (elemRes s f fm fun j => el a j)
    rw [exec_gate_sends hc hf ha hp hgood, hda]
  · rw [h4]
  · rw [h5]
  · rw [h6]

/-! ### WADV, WSET and STOP (R221, R222, R224) -/

section
variable {s : State} {f : Fields} {fm : Fmt} {a : List Nat} {w : Nat}

theorem moveWave_good (r : Reads1 s f fm a) (hw : w + s.run.cur.run - 1 ≤ 2 ^ 32 - 1) :
    s.moveWave s.run.cur f fm w false
      = s.sendTo s.run.cur f.ta.toNat f.da.toNat { elemRes s f fm (fun j => el a j) with wave := w } := by
  have hpast : ¬ (2 ^ 32 - 1 < w + s.run.cur.run - 1) := Nat.not_lt.2 hw
  rw [State.moveWave, Bool.false_or, decide_eq_false hpast, r.good, r.pred, r.srcA, ← res_source r.srcA]
  rfl

theorem moveWave_bad {bad : Bool} (r : Reads1 s f fm a) (hbad : bad = true ∨ 2 ^ 32 - 1 < w + s.run.cur.run - 1) :
    s.moveWave s.run.cur f fm w bad = s.badTag s.run.cur f 4 (elemRes s f fm fun j => el a j) := by
  have hpast : (bad || decide (2 ^ 32 - 1 < w + s.run.cur.run - 1)) = true := by
    rwa [Bool.or_eq_true, decide_eq_true_iff]
  rw [State.moveWave, hpast, r.good, r.pred, r.srcA, ← res_source r.srcA]
  rfl

theorem exec_wset_of (hf : s.run.cur.fmtOf f = fm) (hw : s.wsetWave s.run.cur f.sb.toNat = some w) :
    exec (.wset f) s = .next (s.moveWave s.run.cur f fm w (decide (w < s.run.cur.wave))) := by
  show execWset f s = _
  rw [execWset, hw, hf]

theorem exec_stop_eq (r : Reads1 s f fm a) : exec (.stop f) s
    = .next (if s.amount s.run.cur f.sb.toNat ≤ 7 then s.sendTo s.run.cur f.ta.toNat f.da.toNat
        { elemRes s f fm (fun j => el a j) with stop := s.amount s.run.cur f.sb.toNat }
      else s.badTag s.run.cur f 5 (elemRes s f fm fun j => el a j)) := by
  show execStop f s = _
  rw [execStop, r.good, r.pred, r.fmt, r.srcA, ← res_source r.srcA, apply_ite Host.Outcome.next]
  rfl

end

/-- Settles O32 (log 51: the token of the trap leaves with its tag unchanged). -/
theorem tagWords : Obligations.TagWords := by
  unfold Obligations.TagWords
  intro s f fm a w good bad r hgood hbad
  obtain rfl : good = fun w => { elemRes s f fm (fun j => el a j) with wave := w } := funext hgood
  obtain rfl : bad = fun sub => .next (s.badTag s.run.cur f sub (elemRes s f fm fun j => el a j)) := funext hbad
  refine ⟨fun hw => ?wadv, fun hw => ?wset, fun hw => ?stop⟩
  case wadv =>
    have hexec : exec (.wadv f) s = .next (s.moveWave s.run.cur f fm w false) := by rw [hw, ← r.fmt]; rfl
    rw [hexec]
    exact ⟨fun hlast => congrArg _ (moveWave_good r hlast), fun hlast => congrArg _ (moveWave_bad r (.inr hlast))⟩
  case wset =>
    rw [exec_wset_of r.fmt hw]
    refine ⟨fun hle hlast => ?_, fun hpast => congrArg _ (moveWave_bad r (hpast.imp_left decide_eq_true))⟩
    rw [decide_eq_false (Nat.not_lt.2 hle), moveWave_good r hlast]
  case stop =>
    rw [exec_stop_eq r, ← hw]
    exact ⟨fun hle => by rw [if_pos hle]; rfl, fun hgt => by rw [if_neg (Nat.not_le.2 hgt)]⟩

end Sys2Proof.Machine
end

section
/-! PROOFS. Contexts (O17, O18): the context that CTXNEW makes, then the words that make, reach and free contexts. -/

namespace Sys2Proof.Machine

/-! ### A free number of the pool (R177, R182) -/

theorem findFrom_some {p : Nat → Bool} {m n k c : Nat} (hm : 0 < m) (h : findFrom p m n k = some c) : c < m ∧ p c = true := by
  induction n generalizing k with
  | zero => exact absurd h nofun
  | succ n ih =>
    rw [findFrom] at h
    by_cases hk : p (k % m) = true
    · rw [if_pos hk] at h
      obtain rfl := Option.some.inj h
      exact ⟨Nat.mod_lt k hm, hk⟩
    · rw [if_neg hk] at h
      exact ih h

/-- A number that the pool may give: no context of the partition has it, and nothing on its way names it. -/
structure FreeCtx (s : State) (p c : Nat) : Prop where
  inPool  : c < 4096
  unused  : ∀ y ∈ s.ctxs, ¬ (y.part = p ∧ y.id = c)
  unnamed : s.ctxNamed p c = false

theorem pickCtx_some {s t : State} {p c : Nat} (h : s.pickCtx p = (some c, t)) : FreeCtx s p c ∧ t.ctxs = s.ctxs := by
  obtain ⟨hfind, rfl⟩ := Prod.mk.inj h
  obtain ⟨hlt, hfree⟩ := findFrom_some (by decide) hfind
  obtain ⟨hunused, hunnamed⟩ := Bool.and_eq_true_iff.1 hfree
  refine ⟨⟨hlt, fun y hy => ?_, Bool.not_eq_true' _ ▸ hunnamed⟩, rfl⟩
  rw [Bool.not_eq_true', List.any_eq_false] at hunused
  simpa using hunused y hy

theorem FreeCtx.ctx?_eq_none {s : State} {p c : Nat} (h : FreeCtx s p c) : s.ctx? p c = none := by
  refine List.find?_eq_none.2 fun y hy => ?_
  have hunused := h.unused y hy
  simp only [Bool.and_eq_true, beq_iff_eq, not_and_or] at hunused ⊢
  exact .inl hunused

/-! ### The context that CTXNEW makes (R226) -/

section
variable {s t : State} {x : Ctx} {c : Nat}

theorem pickHome_ctxs (s : State) (p : Nat) (cs : List Nat) : (s.pickHome p cs).2.ctxs = s.ctxs := by
  simp only [State.pickHome]
  split <;> rfl

/-- The search for a home cluster leaves every context as it is, whether or not the caller's own cluster has room. -/
theorem ctxs_of_home (s : State) (d : Prop) [Decidable d] (o : Option Nat) (p : Nat) (cs : List Nat) :
    (if d then (o, s) else s.pickHome p cs).2.ctxs = s.ctxs := by
  split
  · rfl
  · exact pickHome_ctxs s p cs

/-- The context of a task gains a created one. -/
def Ctx.adds (c : Nat) (y : Ctx) : Ctx := { y with created := y.created ++ [c] }

theorem freeCtx_newCtx (h : s.newCtx x = (some c, t)) : FreeCtx s x.part c ∧
    ∃ home, t.ctxs = modFirst (fun y => y.part == x.part && y.id == x.root && y.live) (Ctx.adds c)
      (s.ctxs ++ [x.child c home]) := by
  simp only [State.newCtx] at h
  split at h
  · exact absurd (congrArg Prod.fst h) nofun
  split at h
  · exact absurd (congrArg Prod.fst h) nofun
  next k u hpick =>
    obtain ⟨hfree, hctxs⟩ := pickCtx_some hpick
    split at h
    · exact absurd (congrArg Prod.fst h) nofun
    next home _ =>
      obtain ⟨hk, rfl⟩ := Prod.mk.inj h
      obtain rfl := Option.some.inj hk
      exact ⟨hfree, home, congrArg (fun ys => modFirst _ _ (ys ++ [_])) ((ctxs_of_home ..).trans hctxs)⟩

/-- An update that keeps what a search looks at leaves the search's answer, or passes it through. -/
theorem find?_modFirst_or {α : Type} {p q : α → Bool} {g : α → α} {xs : List α} {y : α} (hkept : ∀ y, p (g y) = p y)
    (h : xs.find? p = some y) : (modFirst q g xs).find? p = some y ∨ (modFirst q g xs).find? p = some (g y) := by
  induction xs with
  | nil => exact absurd h nofun
  | cons a xs ih =>
    rw [modFirst]
    rw [List.find?_cons] at h
    cases hq : q a <;> cases hp : p a <;> rw [hp] at h
    · simpa [hp] using ih h
    · exact .inl (by simpa [hp] using h)
    · exact .inl (by simpa [hkept, hp] using h)
    · obtain rfl := Option.some.inj h
      exact .inr (by simp [hkept, hp])

/-- The live context under the new number is the caller's child, which has noted itself where it is its own task's root. -/
theorem ctx?_newCtx (hlive : x.live = true) (h : s.newCtx x = (some c, t)) :
    ∃ home, t.ctx? x.part c = some (x.child c home) ∨ t.ctx? x.part c = some ((x.child c home).adds c) := by
  obtain ⟨hfree, home, hctxs⟩ := freeCtx_newCtx h
  have hnone := hfree.ctx?_eq_none
  rw [State.ctx?] at hnone
  have hfind : (s.ctxs ++ [x.child c home]).find? (fun y => y.part == x.part && y.id == c && y.live) = some (x.child c home) := by
    rw [List.find?_append, hnone, Option.none_or, List.find?_cons_of_pos]
    simp [Ctx.child, hlive]
  refine ⟨home, ?_⟩
  rw [State.ctx?, hctxs]
  exact find?_modFirst_or (fun _ => rfl) hfind

end

/-- Settles O18 (log 49: what R226 does not list). -/
theorem createdContext : Obligations.CreatedContext := by
  unfold Obligations.CreatedContext
  intro s t x c hlive h
  have hfree := (freeCtx_newCtx h).1
  refine ⟨hfree.inPool, hfree.ctx?_eq_none, hfree.unnamed, ?_⟩
  obtain ⟨home, hy | hy⟩ := ctx?_newCtx hlive h
  all_goals exact ⟨_, hy, by simp [Ctx.child, Ctx.adds]⟩

/-! ### CTXNEW (R226) -/

section
variable {s t : State} {f : Fields} {x : Ctx}

/-- The linkages of a firing as its result. -/
theorem res_linkages (fr : Firing) (f : Fields) (made : List W64) :
    fr.res f .i64 (made.map BitVec.toNat) = ⟨fr.wave, fr.stopOf f, .i64, false, made⟩ := by
  have hdata : (made.map BitVec.toNat).map w64 = made := by
    rw [List.map_map]
    exact List.map_id'' (fun v => BitVec.ofNat_toNat 64 v) made
  rw [Firing.res, hdata]

theorem exec_ctxnew_makes {made : List W64} (hctx : s.ctx? s.run.cur.names.part s.run.cur.ctx = some x)
    (hgood : s.run.cur.poisonOf f false = false) (hc : s.run.cur.c = none)
    (hmade : s.newCtxs x s.run.cur.wave s.run.cur.run [] = (made, t)) (hall : made.length = s.run.cur.run) :
    exec (.ctxnew f) s = .next (t.sendTo s.run.cur f.ta.toNat f.da.toNat
      ⟨s.run.cur.wave, s.run.cur.stopOf f, .i64, false, made⟩) := by
  show execCtxnew f s = _
  simp [execCtxnew, hgood, hctx, hc, hmade, hall, res_linkages]

end

/-! ### CTXSEND and CTXRET (R227, R229, R230) -/

section
variable {s t : State} {fr : Firing} {f : Fields} {a b : Token} {c wave : Nat → Nat} {ret : Bool} {js : List Nat}

theorem checkNamed_none {x : Ctx} {k : Nat} (hctx : s.ctx? fr.names.part k = some x)
    (hasid : x.asid = s.asidOf fr.names.part fr.ctx) : s.checkNamed fr k = none := by
  simp only [State.checkNamed, hctx, if_pos hasid]

theorem checkNamed_eq (h : t.ctxs = s.ctxs) (k : Nat) : t.checkNamed fr k = s.checkNamed fr k := by
  rw [State.checkNamed, State.checkNamed, State.ctx?_eq h, State.asidOf_eq h]

theorem quiet_sendAcross (s : State) (w : Site) (cluster da : Nat) (lk0 lk1 : W32) (u : Token) :
    Quiet s (s.sendAcross w cluster da lk0 lk1 u) := by
  have hlink : ∀ (d : Prop) [Decidable d] (r : State) (l : W32),
      Quiet r (if d then r.sendLink w ⟨false, cluster⟩ l u else r) := by
    intro d _ r l
    split
    · exact quiet_sendLink r _ _ _ _
    · exact Quiet.rfl' r
  exact (hlink _ s lk0).trans (hlink _ _ lk1)

/-- Elements whose contexts all pass their check leave one by one: sending an element ends no context. -/
theorem acrossAll_checked {da : Nat} (hc : ∀ j, c j = if ret then bits (tokEl b j) 27 16 else bits (tokEl b j) 11 0)
    (hwave : ∀ j, wave j = if ret then bits (tokEl b j) 63 32 else 0) (hnamed : ∀ j ∈ js, s.checkNamed fr (c j) = none) :
    s.acrossAll fr da a b ret true js = js.foldl (fun s j => s.sendAcross (fr.siteAt s j) fr.cluster da fr.slot.lk0 fr.slot.lk1
      (acrossToken a j (c j) (wave j))) s := by
  induction js generalizing s with
  | nil => rfl
  | cons j js ih =>
    have hj := hnamed j (List.mem_cons_self ..)
    have hctxs := (quiet_sendAcross s (fr.siteAt s j) fr.cluster da fr.slot.lk0 fr.slot.lk1 (acrossToken a j (c j) (wave j))).ctxs
    rw [State.acrossAll, ← hc, ← hwave, hj, if_pos rfl, List.foldl_cons]
    exact ih fun k hk => (checkNamed_eq hctxs (c k)).trans (hnamed k (List.mem_cons_of_mem _ hk))

theorem exec_across_eq : exec (if ret then .ctxret f else .ctxsend f) s = .next (s.across f ret) := by
  cases ret <;> rfl

theorem across_now (ha : s.run.cur.port f.sa.toNat = some a) (hb : s.run.cur.port f.sb.toNat = some b) (hgood : b.poison = false)
    (hfmt : b.fmt = .i64) (hbefore : s.leftBefore s.run.cur.names.part s.run.cur.ctx = []) :
    s.across f ret = s.acrossAll s.run.cur f.da.toNat a b ret true (upto s.run.cur.run) := by
  simp [State.across, ha, hb, hgood, hfmt, hbefore]

/-! ### CTXFREE (R228, R229) -/

theorem checkFree_none {x me : Ctx} {k : Nat} (hme : s.ctx? fr.names.part fr.ctx = some me)
    (hctx : s.ctx? fr.names.part k = some x) (hasid : x.asid = me.asid) (hroot : x.root = me.root) (hmade : x.id ≠ x.root) :
    s.checkFree fr k = none := by
  have hasidOf : s.asidOf fr.names.part fr.ctx = me.asid := by simp only [State.asidOf, hme]
  simp [State.checkFree, checkNamed_none hctx (hasid.trans hasidOf.symm), hctx, hme, ← hroot, hmade]

theorem freeAll_checked {e : Nat → Option Trap} (hfree : ∀ j ∈ js, e j = none) :
    s.freeAll fr (js.map fun j => (j, c j, e j)) = js.foldl (fun s j => s.freeCtx fr.names.part (c j)) s := by
  induction js generalizing s with
  | nil => rfl
  | cons j js ih =>
    simp only [List.map_cons, State.freeAll, hfree j (List.mem_cons_self ..), List.foldl_cons]
    exact ih fun k hk => hfree k (List.mem_cons_of_mem _ hk)

section
variable (ht : s.run.cur.port f.sa.toNat = some a) (hgood : a.poison = false) (hfmt : a.fmt = .i64)
  (hc : ∀ j, c j = bits (tokEl a j) 11 0)
include ht hgood hfmt hc

/-- CTXFREE of a good linkage: all its elements are checked, and then all of them are taken up or none (log 96). -/
theorem exec_ctxfree_eq : exec (.ctxfree f) s
    = if (upto s.run.cur.run).all fun j => (s.checkFree s.run.cur (c j)).isSome || s.quiet s.run.cur.names.part (c j) then
        .next ((s.freeAll s.run.cur ((upto s.run.cur.run).map fun j => (j, c j, s.checkFree s.run.cur (c j)))).sendAcross
          (s.run.cur.site s) s.run.cur.cluster f.da.toNat s.run.cur.slot.lk0 s.run.cur.slot.lk1
          ((s.run.cur.res f .i64 (a.data.map BitVec.toNat)).token s.run.cur.ctx))
      else .next (s.waitFiring s.run.cur) := by
  obtain rfl : c = fun j => bits (tokEl a j) 11 0 := funext hc
  show execCtxfree f s = _
  simp [execCtxfree, ht, hgood, hfmt, Function.comp_def, tokEl]

variable (hfree : ∀ j ∈ upto s.run.cur.run, s.checkFree s.run.cur (c j) = none)
include hfree

theorem exec_ctxfree_frees (hquiet : ∀ j ∈ upto s.run.cur.run, s.quiet s.run.cur.names.part (c j) = true) :
    exec (.ctxfree f) s
      = .next (((upto s.run.cur.run).foldl (fun t j => t.freeCtx s.run.cur.names.part (c j)) s).sendAcross (s.run.cur.site s)
          s.run.cur.cluster f.da.toNat s.run.cur.slot.lk0 s.run.cur.slot.lk1
          ((s.run.cur.res f .i64 (a.data.map BitVec.toNat)).token s.run.cur.ctx)) := by
  rw [exec_ctxfree_eq ht hgood hfmt hc, freeAll_checked hfree, if_pos]
  exact List.all_eq_true.2 fun j hj => Bool.or_eq_true_iff.2 (.inr (hquiet j hj))

theorem exec_ctxfree_waits (hbusy : ∃ j ∈ upto s.run.cur.run, s.quiet s.run.cur.names.part (c j) = false) :
    exec (.ctxfree f) s = .next (s.waitFiring s.run.cur) := by
  obtain ⟨j, hj, hbusy⟩ := hbusy
  rw [exec_ctxfree_eq ht hgood hfmt hc, if_neg]
  intro hall
  have hover := List.all_eq_true.1 hall j hj
  rw [hfree j hj, hbusy] at hover
  exact Bool.false_ne_true hover

end

end

/-- Settles O17 (log 37: nothing of the sender has left before; log 96: a context named twice is freed once). -/
theorem contextWords : Obligations.ContextWords := by
  unfold Obligations.ContextWords
  rintro s f fr js rfl rfl
  refine ⟨fun x made t hctx hgood hc hmade hall => exec_ctxnew_makes hctx hgood hc hmade hall,
    fun a b c wave ret ha hb hgood hfmt hbefore hc hwave hnamed => ?across,
    fun t c me ht hgood hfmt hc hme hnamed => ?free⟩
  case across =>
    rw [exec_across_eq, across_now ha hb hgood hfmt hbefore, acrossAll_checked hc hwave]
    · rfl
    · intro j hj
      obtain ⟨x, hctx, hasid⟩ := hnamed j hj
      exact checkNamed_none hctx hasid
  case free =>
    have hfree : ∀ j ∈ upto s.run.cur.run, s.checkFree s.run.cur (c j) = none := by
      intro j hj
      obtain ⟨x, hctx, hasid, hroot, hmade⟩ := hnamed j hj
      exact checkFree_none hme hctx hasid hroot hmade
    exact ⟨exec_ctxfree_frees ht hgood hfmt hc hfree, exec_ctxfree_waits ht hgood hfmt hc hfree⟩

end Sys2Proof.Machine
end

section
/-! PROOFS. Loads and stores (O36): words whose every element makes an access, then LDG and STS, of which one element does. -/

namespace Sys2Proof.Machine

section
variable {s : State} {f : Fields} {t : Token} {ia : Nat → Nat} {fm : Fmt} {vs : List Nat}

/-! ### Loads (R244, R245, R246, R248, R252) -/

/-- What element `j` of a load asks for, its operands taken: the format is that of SB. -/
theorem loadAsk_eq (hport : s.run.cur.port f.sa.toNat = some t) (hfm : Fmt.ofCode (f.sb.toNat % 16) = some fm) (kind : OpKind)
    (params : List Nat) (j : Nat) : loadAsk s.run.cur f kind params j
      = { kind := kind, width := litWidth s.run.cur.slot.lit, va := vaOf s t j, data2 := tokEl t j, fmt := fm,
          params := params } := by
  simp only [loadAsk, Firing.addrAt_port hport, Firing.elemA_port hport, hfm, Option.getD_some]

/-- A word that only loads presents one operation for each wave. -/
theorem presents_load {i : Instr} {op : Nat} {kind : OpKind} {piece : List Op → List Op} (hkind : kind ≠ .nop)
    (hexec : exec i s = .next (s.memWord f op false (upto s.run.cur.run) { rd := true } (loadAsk s.run.cur f kind []) noFill piece))
    (ha : Addressed s f false t) (hfm : Fmt.ofCode (f.sb.toNat % 16) = some fm)
    (hchecked : Checked s t (litWidth s.run.cur.slot.lit) { rd := true } (upto s.run.cur.run) ia) :
    Presents s i f op piece ((upto s.run.cur.run).map fun j =>
      { kind := kind, width := litWidth s.run.cur.slot.lit, va := vaOf s t j, ia := ia j, data2 := tokEl t j, fmt := fm }) := by
  rw [Presents, PresentsFrom, hexec, noFill, memWord_checked (shape := loadAsk s.run.cur f kind []) (fun _ a => a) ha
    (fun j => ⟨rfl, hkind, Firing.addrAt_port ha.port j, rfl⟩) hchecked]
  simp only [loadAsk_eq ha.port hfm]
  rfl

/-- What element `j` of a CTRREAD asks for. -/
def ctrReadAsk (fr : Firing) (f : Fields) (j : Nat) : Ask :=
  { kind := .ctrRead, width := 3, va := fr.addrAt f j, data2 := fr.elemA f j, fmt := .i64 }

theorem exec_ctrread_eq (s : State) (f : Fields) : exec (.ctrread f) s
    = .next (s.memWord f 0x4F false (upto s.run.cur.run) { rd := true } (ctrReadAsk s.run.cur f) noFill asIs) := rfl

theorem exec_ctrread_presents (ha : Addressed s f false t) (hchecked : Checked s t 3 { rd := true } (upto s.run.cur.run) ia) :
    Presents s (.ctrread f) f 0x4F asIs ((upto s.run.cur.run).map fun j =>
      { kind := .ctrRead, width := 3, va := vaOf s t j, ia := ia j, data2 := tokEl t j, fmt := .i64 }) := by
  rw [Presents, PresentsFrom, exec_ctrread_eq, noFill, memWord_checked (shape := ctrReadAsk s.run.cur f) (fun _ a => a) ha
    (fun j => ⟨rfl, nofun, Firing.addrAt_port ha.port j, rfl⟩) hchecked]
  simp only [ctrReadAsk, Firing.addrAt_port ha.port, Firing.elemA_port ha.port]
  rfl

/-! ### Stores (R244, R245, R246, R248) -/

/-- What element `j` of a store asks for, its operands taken: the result is operand A. -/
theorem fillData_storeAsk (ha : Addressed s f false t) (kind : OpKind) (vs : List Nat) (j : Nat) :
    fillData vs j (storeAsk s.run.cur f kind j)
      = { kind := kind, width := litWidth s.run.cur.slot.lit, va := vaOf s t j, data := w64 (at! vs j 0), data2 := tokEl t j,
          fmt := .a } := by
  simp only [fillData, storeAsk, Firing.addrAt_port ha.port, Firing.elemA_port ha.port, Firing.fmtOf_port ha.port, ha.fmt]

/-- A word that only stores presents one operation for each wave. -/
theorem presents_store {i : Instr} {op : Nat} {kind : OpKind} {piece : List Op → List Op} (hkind : kind ≠ .nop)
    (hexec : exec i s
      = .next (s.memWord f op false (upto s.run.cur.run) { w := true } (storeAsk s.run.cur f kind) (s.fillStore f) piece))
    (ha : Addressed s f false t) (hvs : s.storeData s.run.cur f (litWidth s.run.cur.slot.lit) = some vs)
    (hchecked : Checked s t (litWidth s.run.cur.slot.lit) { w := true } (upto s.run.cur.run) ia) :
    Presents s i f op piece ((upto s.run.cur.run).map fun j =>
      { kind := kind, width := litWidth s.run.cur.slot.lit, va := vaOf s t j, ia := ia j, data := w64 (at! vs j 0),
        data2 := tokEl t j, fmt := .a }) := by
  rw [Presents, PresentsFrom, hexec, fillStore_eq hvs, memWord_checked (shape := storeAsk s.run.cur f kind) (fillData vs) ha
    (fun j => ⟨rfl, hkind, Firing.addrAt_port ha.port j, rfl⟩) hchecked]
  simp only [fillData_storeAsk ha]
  rfl

/-! ### Words of which one element makes an access (R245) -/

theorem checkAsk_accesses {a : Ask} {va w j x : Nat} {need : Need} (hask : a.Accesses va w)
    (hcheck : s.issueCheck s.run.cur ((levelOf (litLevel s.run.cur.slot.lit)).getD .l1) va (2 ^ w) need = .ok x) :
    s.checkAsk s.run.cur j need a = ({ a with ia := x }, s) := by
  obtain ⟨hlive, hkind, rfl, rfl⟩ := hask
  simp only [State.checkAsk, hlive, hkind, hcheck, decide_false, Bool.or_self, Bool.false_eq_true, if_false]

/-- What only fills its place in the chain is not checked (R83). -/
theorem checkAsk_nop {a : Ask} (hkind : a.kind = .nop) (fr : Firing) (j : Nat) (need : Need) : s.checkAsk fr j need a = (a, s) := by
  simp only [State.checkAsk, hkind, decide_true, Bool.or_true, if_true]

/-- Asks of which none is stopped are those that their checks give, and nothing is raised. -/
theorem checkAsks_unstopped {fr : Firing} {need : Need} {as bs : List Ask}
    (h : List.Forall₂ (fun a b => ∀ j, s.checkAsk fr j need a = (b, s)) as bs) : ∀ j, s.checkAsks fr need j as = (bs, s) := by
  induction h with
  | nil => exact fun j => rfl
  | cons hcheck _ ih =>
    intro j
    simp only [State.checkAsks, hcheck j, ih (j + 1)]

/-- A memory word of which none of the accesses is stopped presents what the checks give. -/
theorem memWord_unstopped {op : Nat} {records : List Nat} {need : Need} {shape out : Nat → Ask} {piece : List Op → List Op}
    (fill : Nat → Ask → Ask) (ha : Addressed s f false t)
    (hcheck : ∀ j ∈ upto s.run.cur.run, ∀ k, s.checkAsk s.run.cur k need (fill j (shape j)) = (out j, s)) :
    s.memWord f op false records need shape (some fill) piece
      = s.presentAndLaunch s.run.cur f op piece ((upto s.run.cur.run).map out) := by
  refine memWord_filled fill ha.good ha.addressed (checkAsks_unstopped ?_ 0)
  rw [List.forall₂_map_left_iff, List.forall₂_map_right_iff, List.forall₂_same]
  exact hcheck

/-- What element `j` of an LDG asks for: operation 0 reads. -/
def ldgAsk (fr : Firing) (f : Fields) (j : Nat) : Ask := if j = 0 then loadAsk fr f .load [1] j else nopAsk fr f true j

theorem exec_ldg_eq (s : State) (f : Fields) : exec (.ldg f) s
    = .next (s.memWord f 0x44 false [0] { rd := true } (ldgAsk s.run.cur f) noFill asIs) := rfl

theorem exec_ldg_presents (ha : Addressed s f false t) (hfm : Fmt.ofCode (f.sb.toNat % 16) = some fm)
    (hchecked : Checked s t (litWidth s.run.cur.slot.lit) { rd := true } [0] ia) :
    Presents s (.ldg f) f 0x44 asIs ((upto s.run.cur.run).map fun j =>
      if j = 0 then { kind := .load, width := litWidth s.run.cur.slot.lit, va := vaOf s t j, ia := ia j, data2 := tokEl t j,
                      fmt := fm, params := [1] }
      else { kind := .nop, data2 := tokEl t j, fmt := .a, mute := true }) := by
  rw [Presents, PresentsFrom, exec_ldg_eq, noFill]
  refine congrArg Host.Outcome.next (memWord_unstopped (fun _ a => a) ha fun j _ k => ?_)
  rw [ldgAsk]
  split
  next hfirst =>
    rw [checkAsk_accesses (a := loadAsk s.run.cur f .load [1] j) ⟨rfl, nofun, Firing.addrAt_port ha.port j, rfl⟩
      (hchecked j (List.mem_singleton.2 hfirst)), loadAsk_eq ha.port hfm]
  next => rw [checkAsk_nop rfl, nopAsk, Firing.elemA_port ha.port, Firing.fmtOf_port ha.port, ha.fmt]

/-- What element `j` of an STS asks for before its data: the last operation writes. -/
def stsAsk (fr : Firing) (f : Fields) (j : Nat) : Ask := if j + 1 = fr.run then storeAsk fr f .store j else nopAsk fr f false j

theorem exec_sts_eq (s : State) (f : Fields) : exec (.sts f) s
    = .next (s.memWord f 0x45 false [s.run.cur.run - 1] { w := true } (stsAsk s.run.cur f) (s.fillStore f) asIs) := rfl

theorem exec_sts_presents (ha : Addressed s f false t)
    (hvs : s.storeData s.run.cur f (litWidth s.run.cur.slot.lit) = some vs)
    (hchecked : Checked s t (litWidth s.run.cur.slot.lit) { w := true } [s.run.cur.run - 1] ia) :
    Presents s (.sts f) f 0x45 asIs ((upto s.run.cur.run).map fun j =>
      if j + 1 = s.run.cur.run then
        { kind := .store, width := litWidth s.run.cur.slot.lit, va := vaOf s t j, ia := ia j, data := w64 (at! vs j 0),
          data2 := tokEl t j, fmt := .a }
      else { kind := .nop, data := w64 (at! vs j 0), data2 := tokEl t j, fmt := .a }) := by
  rw [Presents, PresentsFrom, exec_sts_eq, fillStore_eq hvs]
  refine congrArg Host.Outcome.next (memWord_unstopped (fillData vs) ha fun j _ k => ?_)
  rw [stsAsk]
  split
  next hlast =>
    rw [checkAsk_accesses (a := fillData vs j (storeAsk s.run.cur f .store j))
      ⟨rfl, nofun, Firing.addrAt_port ha.port j, rfl⟩ (hchecked j (List.mem_singleton.2 (Nat.eq_sub_of_add_eq hlast))),
      fillData_storeAsk ha]
  next => rw [checkAsk_nop rfl, fillData, nopAsk, Firing.elemA_port ha.port, Firing.fmtOf_port ha.port, ha.fmt]

end

/-- Settles O36: the words of each kind share one call of `memWord`; of LDG and STS one element is checked. -/
theorem loadsAndStores : Obligations.LoadsAndStores := by
  unfold Obligations.LoadsAndStores
  rintro s f t ia w js ha rfl rfl
  refine ⟨fun fm hfm => ⟨fun hchecked => ?loads, fun hchecked => exec_ldg_presents ha hfm hchecked⟩,
    fun vs hvs => ⟨fun hchecked => ?stores, fun hchecked => exec_sts_presents ha hvs hchecked⟩,
    fun hchecked => exec_ctrread_presents ha hchecked⟩
  case loads =>
    exact ⟨presents_load nofun rfl ha hfm hchecked, presents_load nofun rfl ha hfm hchecked,
      presents_load nofun rfl ha hfm hchecked⟩
  case stores =>
    exact ⟨presents_store nofun rfl ha hvs hchecked, presents_store nofun rfl ha hvs hchecked,
      presents_store nofun rfl ha hvs hchecked⟩

end Sys2Proof.Machine
end

section
/-! PROOFS. Frame of the loads (O12): each function on the way of an access that only reads keeps every byte and full-empty bit. -/

namespace Sys2Proof.Machine

variable {s t u : State} {o : Op}

/-! ### What a read leaves alone -/

/-- No byte of device memory or scratch, no full-empty bit, no partition and no section has changed. -/
structure BytesKept (s t : State) : Prop where
  hbm      : t.mem.hbm = s.mem.hbm
  es       : t.mem.es = s.mem.es
  cs       : t.mem.cs = s.mem.cs
  ss       : t.mem.ss = s.mem.ss
  full     : t.mem.full = s.mem.full
  parts    : t.parts = s.parts
  sections : t.ldr.sections = s.ldr.sections

theorem BytesKept.refl (s : State) : BytesKept s s := ⟨rfl, rfl, rfl, rfl, rfl, rfl, rfl⟩

theorem BytesKept.trans (h : BytesKept s t) (k : BytesKept t u) : BytesKept s u :=
  ⟨k.hbm.trans h.hbm, k.es.trans h.es, k.cs.trans h.cs, k.ss.trans h.ss, k.full.trans h.full, k.parts.trans h.parts,
    k.sections.trans h.sections⟩

theorem BytesKept.of_mem (hmem : t.mem = s.mem) (hparts : t.parts = s.parts) (hsections : t.ldr.sections = s.ldr.sections) :
    BytesKept s t := by
  have hfield {α : Type} (g : MemSys → α) : g t.mem = g s.mem := congrArg g hmem
  exact ⟨hfield _, hfield _, hfield _, hfield _, hfield _, hparts, hsections⟩

/-- What the bytes, the partitions and the sections were before is what they were in a state that agrees on them. -/
theorem BytesKept.since (k : BytesKept t u) (hmem : t.mem = s.mem) (hparts : t.parts = s.parts)
    (hsections : t.ldr.sections = s.ldr.sections) : BytesKept s u := (BytesKept.of_mem hmem hparts hsections).trans k

theorem Quiet.bytesKept (h : Quiet s t) : BytesKept s t := .of_mem h.mem h.parts h.sections

theorem Records.bytesKept (h : Records s t) : BytesKept s t := by
  obtain ⟨rs, rfl⟩ := h
  exact .of_mem rfl rfl rfl

/-! ### Results (R81, R247) -/

theorem deliver_bytesKept (s : State) (gid j : Nat) (r : ElemRes) (w : Option Port) : BytesKept s (s.deliver gid j r w) := by
  unfold State.deliver
  split
  · exact .refl s
  · dsimp only
    split
    · exact BytesKept.since (quiet_sendGather _ _).bytesKept rfl rfl rfl
    · exact .of_mem rfl rfl rfl

theorem deliverAll_bytesKept (s : State) (gid : Nat) (r : ElemRes) (w : Option Port) : BytesKept s (s.deliverAll gid r w) := by
  unfold State.deliverAll
  split
  · exact .refl s
  · exact BytesKept.since (quiet_sendGather _ _).bytesKept rfl rfl rfl

theorem endOp_bytesKept (s : State) (o : Op) : BytesKept s (s.endOp o) := by
  unfold State.endOp
  dsimp only
  split <;> exact ⟨rfl, rfl, rfl, rfl, rfl, rfl, rfl⟩

theorem finishAt_bytesKept (s : State) (o : Op) (r : ElemRes) (w : Port) : BytesKept s (s.finishAt o r w) := by
  have hend := endOp_bytesKept s o
  unfold State.finishAt
  dsimp only
  split
  · exact hend
  · split
    · exact hend.trans (deliverAll_bytesKept _ _ _ _)
    · exact hend.trans (deliver_bytesKept _ _ _ _ _)

theorem spoilOp_bytesKept (s : State) (o : Op) (w : Site) (p : Port) : BytesKept s (s.spoilOp o w p) := by
  have htrap : BytesKept s ((s.raise w { cause := 0x0B, sub := 1, addr := o.ia }).finishAt o o.bad p) :=
    (quiet_raise s _ _).bytesKept.trans (finishAt_bytesKept _ o o.bad p)
  unfold State.spoilOp
  split
  · exact htrap
  · exact htrap
  · exact htrap
  · exact finishAt_bytesKept s o o.bad p

theorem noteGuards_bytesKept (s : State) (w : Site) (lv : Level) (x : Spot) (n : Nat) :
    BytesKept s (s.noteGuards w lv x n) := by
  have hfold (l : List Spot) (s : State) :
      BytesKept s (l.foldl (fun s y => s.noteGuard w.names.part w.ctx (guardRecord w lv y)) s) := by
    induction l generalizing s with
    | nil => exact .refl s
    | cons y l ih => exact (ih _).since rfl rfl rfl
  exact hfold _ s

/-- The flags and the overflow of an operation are noted, and it ends. -/
theorem finishNoted_bytesKept (s : State) (o : Op) (fl : FpFlags) (ovf : Bool) (r : ElemRes) (w : Port) :
    BytesKept s (((s.orFlags o.names.part o.ctx fl).noteOvf o ovf).finishAt o r w) := by
  have hflags : BytesKept s (s.orFlags o.names.part o.ctx fl) := .of_mem rfl rfl rfl
  refine (hflags.trans ?_).trans (finishAt_bytesKept _ o r w)
  unfold State.noteOvf
  split
  · exact (quiet_raise _ _ _).bytesKept
  · exact .refl _

/-! ### Operations that only read, alone in their piece (R83, R245, R246, R250, R252) -/

/-- An operation of the kind reads, prefetches, or only fills its place in the chain. -/
def OpKind.fetches : OpKind → Bool
  | .load | .ctrRead | .pref | .nop => true
  | _ => false

/-- The operation only reads, and no other is performed with it. -/
structure Op.Fetches (o : Op) : Prop where
  kind  : o.kind.fetches = true
  alone : ∀ l, o.params ≠ [2, l]

theorem OpKind.eq_of_fetches {k : OpKind} (h : k.fetches = true) : k = .load ∨ k = .ctrRead ∨ k = .pref ∨ k = .nop := by
  unfold OpKind.fetches at h
  split at h
  · exact .inl rfl
  · exact .inr (.inl rfl)
  · exact .inr (.inr (.inl rfl))
  · exact .inr (.inr (.inr rfl))
  · exact absurd h Bool.false_ne_true

theorem Op.Fetches.kind_ne (h : o.Fetches) {k : OpKind} (hk : k.fetches = false) : o.kind ≠ k := by
  rintro rfl
  exact Bool.false_ne_true (hk.symm.trans h.kind)

/-- Such an operation leaves no bytes and does not wait. -/
theorem Op.Fetches.apply (h : o.Fetches) (old : List Byte) : ∃ r, o.apply old = { res := r } := by
  rcases OpKind.eq_of_fetches h.kind with hk | hk | hk | hk <;> simp only [Op.apply, hk] <;> exact ⟨_, rfl⟩

theorem Op.Fetches.changes (h : o.Fetches) : o.changes = false := by
  rcases OpKind.eq_of_fetches h.kind with hk | hk | hk | hk <;> simp only [Op.changes, hk]

theorem Op.Fetches.members (h : o.Fetches) (s : State) : s.members o = [o] := by
  unfold State.members
  split
  next l hparams => exact absurd hparams (h.alone l)
  next => rfl

/-! ### An access at its place (R74, R97) -/

theorem performOne_bytesKept (h : o.Fetches) (s : State) (pl : Place_) : BytesKept s (s.performOne pl o) := by
  obtain ⟨r, hr⟩ := h.apply (s.bytesAt pl (s.asidOf o.names.part o.ctx) o.ia (2 ^ o.width))
  simp only [State.performOne, hr, h.kind_ne (k := .ctrWait) rfl, Bool.false_eq_true, if_false]
  split
  · exact endOp_bytesKept s o
  · split
    · exact spoilOp_bytesKept s o _ _
    · exact finishNoted_bytesKept s o _ _ _ _

theorem performAt_bytesKept (h : o.Fetches) (s : State) (pl : Place_) : BytesKept s (s.performAt pl o) := by
  simp only [State.performAt, h.members, h.changes, Bool.false_and, List.filter_cons, List.filter_nil, Bool.false_eq_true,
    if_false, List.foldl_cons, List.foldl_nil]
  exact performOne_bytesKept h s pl

theorem performL1_bytesKept (h : o.Fetches) (s : State) (c : Nat) : BytesKept s (s.performL1 c o) := by
  refine BytesKept.trans ?_ (performAt_bytesKept h _ _)
  unfold State.touchL1
  split <;> exact ⟨rfl, rfl, rfl, rfl, rfl, rfl, rfl⟩

/-- A scratch access that only reads notes the guard granules that it touches and ends (R64). -/
theorem performScratch_bytesKept (h : o.Fetches) (s : State) : BytesKept s (s.performScratch o) := by
  obtain ⟨r, hr⟩ := h.apply (s.readSpot (o.spot s) (2 ^ o.width))
  unfold State.performScratch
  dsimp only
  split
  · exact .refl s
  · split
    · exact (quiet_raise s _ _).bytesKept.trans (finishAt_bytesKept _ o _ _)
    · split
      next clr hk => exact absurd hk (h.kind_ne rfl)
      next hk => exact absurd hk (h.kind_ne rfl)
      next hk => exact absurd hk (h.kind_ne rfl)
      next =>
        rw [readSpot_noteGuards, hr]
        refine (noteGuards_bytesKept s (o.scratchSite s) o.level (o.spot s) (2 ^ o.width)).trans ?_
        split
        · exact spoilOp_bytesKept _ o _ _
        · exact finishNoted_bytesKept _ o _ _ _ _

/-! ### An access leaves its element (R59, R74, R75, R87) -/

theorem sendReq_bytesKept (s : State) (o : Op) (k : ReqKind) : BytesKept s (s.sendReq o k) := by
  unfold State.sendReq
  dsimp only
  split <;> exact ⟨rfl, rfl, rfl, rfl, rfl, rfl, rfl⟩

theorem startCached_bytesKept (h : o.Fetches) (s : State) : BytesKept s (s.startCached o) := by
  unfold State.startCached
  dsimp only
  split
  · split
    · exact sendReq_bytesKept s o _
    · split
      · exact performL1_bytesKept h s _
      · exact .refl s
  · split
    next a hk => exact absurd hk (h.kind_ne rfl)
    next =>
      split
      · exact sendReq_bytesKept s o _
      · split
        · split
          · exact sendReq_bytesKept s o _
          · split
            · exact performL1_bytesKept h s _
            · exact sendReq_bytesKept s o _
        · split
          · exact (sendReq_bytesKept _ o _).since rfl rfl rfl
          · exact sendReq_bytesKept s o _

theorem startAccess_bytesKept (h : o.Fetches) (s : State) : BytesKept s (s.startAccess o) := by
  unfold State.startAccess
  split
  · exact finishAt_bytesKept s o _ _
  · split
    · exact finishAt_bytesKept s o _ _
    · split
      · exact startCached_bytesKept h s
      · exact performScratch_bytesKept h s

theorem startPiece_bytesKept (h : o.Fetches) (s : State) : BytesKept s (s.startPiece o) := by
  have hmade : s.scratchMade o = false := by simp only [State.scratchMade, h.changes, Bool.false_and]
  simp only [State.startPiece, h.members, hmade, List.filter_cons, List.filter_nil, Bool.false_eq_true, if_false, if_true,
    List.foldl_cons, List.foldl_nil]
  split
  · exact startCached_bytesKept h s
  · exact startAccess_bytesKept h s

theorem launchOp_bytesKept (h : o.Fetches) (s : State) : BytesKept s (s.launchOp o) := by
  unfold State.launchOp
  split
  · exact .refl s
  · split
    · exact .refl s
    · exact startPiece_bytesKept h s

theorem launchOps_bytesKept {os : List Op} (h : ∀ o ∈ os, o.Fetches) (s : State) : BytesKept s (s.launchOps os) := by
  induction os generalizing s with
  | nil => exact .refl s
  | cons o os ih =>
    exact (launchOp_bytesKept (h o (List.mem_cons_self ..)) s).trans (ih (fun q hq => h q (List.mem_cons_of_mem _ hq)) _)

/-! ### What a firing asks for (R82, R247) -/

/-- The ask is for an operation that only reads, alone in its piece. -/
structure Ask.Fetches (a : Ask) : Prop where
  kind  : a.kind.fetches = true
  alone : ∀ l, a.params ≠ [2, l]

section
variable {fr : Firing} {f : Fields} {op : Nat} {need : Need} {as : List Ask} {shape : Nat → Ask}

theorem fetches_present {os : List Op} (h : s.present fr f op as = (os, t)) (hfetches : ∀ a ∈ as, a.Fetches) :
    ∀ o ∈ os, o.Fetches := by
  intro o ho
  obtain ⟨k, hk, rfl⟩ := List.getElem_of_mem ho
  have hk' : k < as.length := length_present h ▸ hk
  obtain ⟨hkind, halone⟩ := hfetches _ (List.getElem_mem hk')
  obtain ⟨e, he⟩ := getElem_present h k hk hk'
  rw [he]
  exact ⟨hkind, halone⟩

theorem presentAndLaunch_bytesKept (hfetches : ∀ a ∈ as, a.Fetches) (s : State) :
    BytesKept s (s.presentAndLaunch fr f op asIs as) := by
  have hops := fetches_present (Prod.mk.eta (p := s.present fr f op as)).symm hfetches
  exact (launchOps_bytesKept hops (s.present fr f op as).2).since rfl rfl rfl

/-- The check of an ask decides its address and whether it is made, and only raises records. -/
theorem checkAsk_decides (s : State) (fr : Firing) (j : Nat) (need : Need) (a : Ask) :
    (∃ x d, (s.checkAsk fr j need a).1 = { a with ia := x, dead := d }) ∧ Records s (s.checkAsk fr j need a).2 := by
  unfold State.checkAsk
  split
  · exact ⟨⟨a.ia, a.dead, rfl⟩, Records.refl s⟩
  · dsimp only
    split
    next x _ => exact ⟨⟨x, a.dead, rfl⟩, Records.refl s⟩
    next => exact ⟨⟨a.ia, true, rfl⟩, records_raise s _ _⟩

theorem checkAsks_cons (s : State) (j : Nat) (a : Ask) : s.checkAsks fr need j (a :: as)
    = ((s.checkAsk fr j need a).1 :: ((s.checkAsk fr j need a).2.checkAsks fr need (j + 1) as).1,
      ((s.checkAsk fr j need a).2.checkAsks fr need (j + 1) as).2) := rfl

theorem fetches_checkAsks (hfetches : ∀ a ∈ as, a.Fetches) (s : State) (j : Nat) :
    (∀ a ∈ (s.checkAsks fr need j as).1, a.Fetches) ∧ Records s (s.checkAsks fr need j as).2 := by
  induction as generalizing s j with
  | nil => exact ⟨nofun, Records.refl s⟩
  | cons a as ih =>
    obtain ⟨⟨x, d, hask⟩, hrecords⟩ := checkAsk_decides s fr j need a
    obtain ⟨hkind, halone⟩ := hfetches a (List.mem_cons_self ..)
    obtain ⟨hrest, hmore⟩ := ih (fun b hb => hfetches b (List.mem_cons_of_mem _ hb)) (s.checkAsk fr j need a).2 (j + 1)
    rw [checkAsks_cons]
    refine ⟨fun b hb => ?_, hrecords.trans hmore⟩
    rcases List.mem_cons.1 hb with hb | hb
    · rw [hb, hask]
      exact ⟨hkind, halone⟩
    · exact hrest b hb

theorem fetches_deadAsks (hshape : ∀ j, (shape j).Fetches) (s : State) : ∀ a ∈ deadAsks s shape, a.Fetches := by
  intro a ha
  obtain ⟨j, -, rfl⟩ := List.mem_map.1 ha
  exact ⟨(hshape j).kind, (hshape j).alone⟩

/-- A memory word that asks only for reads keeps every byte, in whichever of its branches. -/
theorem memWord_bytesKept {rc : Bool} {records : List Nat} (hshape : ∀ j, (shape j).Fetches) (s : State) :
    BytesKept s (s.memWord f op rc records need shape noFill asIs) := by
  by_cases hpoison : s.run.cur.poisonOf f rc = true
  · rw [memWord_poisoned noFill hpoison]
    exact (records_poisonRecords s _ _).bytesKept.trans (presentAndLaunch_bytesKept (fetches_deadAsks hshape s) _)
  · have hgood : s.run.cur.poisonOf f rc = false := Bool.eq_false_iff.2 hpoison
    by_cases hfmt : s.run.cur.addressed f = true
    · have hasks : ∀ a ∈ (upto s.run.cur.run).map shape, a.Fetches := by
        intro a ha
        obtain ⟨j, -, rfl⟩ := List.mem_map.1 ha
        exact hshape j
      obtain ⟨hfetches, hrecords⟩ := fetches_checkAsks (fr := s.run.cur) (need := need) hasks s 0
      rw [noFill, memWord_filled (fun _ a => a) hgood hfmt rfl]
      exact hrecords.bytesKept.trans (presentAndLaunch_bytesKept hfetches _)
    · rw [memWord_mismatch noFill hgood (Bool.eq_false_iff.2 hfmt)]
      exact (records_formatRecord s _ _).bytesKept.trans (presentAndLaunch_bytesKept (fetches_deadAsks hshape s) _)

end

/-! ### The words that only read (R245, R250, R252) -/

theorem fetches_loadAsk (fr : Firing) (f : Fields) (j : Nat) : (loadAsk fr f .load [] j).Fetches := ⟨rfl, nofun⟩

theorem fetches_ctrReadAsk (fr : Firing) (f : Fields) (j : Nat) : (ctrReadAsk fr f j).Fetches := ⟨rfl, nofun⟩

theorem fetches_ldgAsk (fr : Firing) (f : Fields) (j : Nat) : (ldgAsk fr f j).Fetches := by
  rw [ldgAsk]
  split
  · exact ⟨rfl, nofun⟩
  · exact ⟨rfl, nofun⟩

theorem exec_pref_bytesKept {f : Fields} (hexec : exec (.pref f) s = .next t) : BytesKept s t := by
  replace hexec : execPref f s = .next t := hexec
  unfold execPref at hexec
  dsimp only at hexec
  split at hexec
  · obtain rfl := Host.Outcome.next.inj hexec
    exact (records_poisonRecords s _ _).bytesKept
  · split at hexec
    · obtain rfl := Host.Outcome.next.inj hexec
      exact (records_formatRecord s _ _).bytesKept
    · obtain rfl := Host.Outcome.next.inj hexec
      refine presentAndLaunch_bytesKept (fun a ha => ?_) s
      obtain ⟨j, -, hj⟩ := List.mem_filterMap.1 ha
      obtain ⟨ia, -, rfl⟩ := Option.map_eq_some_iff.1 hj
      exact ⟨rfl, nofun⟩

theorem eq_of_fetchOpcode {i : Instr}
    (hop : opcodeOf i = 0x40 ∨ opcodeOf i = 0x44 ∨ opcodeOf i = 0x4F ∨ opcodeOf i = 0x4A) :
    ∃ f, i = .ld f ∨ i = .ldg f ∨ i = .ctrread f ∨ i = .pref f := by
  cases i
  case ld f => exact ⟨f, .inl rfl⟩
  case ldg f => exact ⟨f, .inr (.inl rfl)⟩
  case ctrread f => exact ⟨f, .inr (.inr (.inl rfl))⟩
  case pref f => exact ⟨f, .inr (.inr (.inr rfl))⟩
  -- no other row has an opcode of the list
  all_goals exact absurd (decide_eq_true hop) Bool.false_ne_true

/-- Settles O12: every operation that the four words present only reads, so presenting and launching it keeps every byte. -/
theorem loadFrame : Obligations.LoadFrame := by
  unfold Obligations.LoadFrame
  intro i s t hop hexec
  suffices h : BytesKept s t from ⟨h.hbm, h.es, h.cs, h.ss, h.full, h.parts, h.sections⟩
  obtain ⟨f, rfl | rfl | rfl | rfl⟩ := eq_of_fetchOpcode hop
  · obtain rfl := Host.Outcome.next.inj ((exec_ld_eq s f).symm.trans hexec)
    exact memWord_bytesKept (fetches_loadAsk s.run.cur f) s
  · obtain rfl := Host.Outcome.next.inj ((exec_ldg_eq s f).symm.trans hexec)
    exact memWord_bytesKept (fetches_ldgAsk s.run.cur f) s
  · obtain rfl := Host.Outcome.next.inj ((exec_ctrread_eq s f).symm.trans hexec)
    exact memWord_bytesKept (fetches_ctrReadAsk s.run.cur f) s
  · exact exec_pref_bytesKept hexec

end Sys2Proof.Machine
end

section
/-! PROOFS. Engine commands (O40): a command whose checks pass waits for its turn, command by command; then COPYSTAT. -/

namespace Sys2Proof.Machine

section
variable {s : State} {f : Fields} {t u : Token} {i : Instr} {op : Nat} {fmtOk : Bool} {shape out : Nat → Ask}
  {check : State → Nat → Ask → Ask × State}

/-! ### A command that passes its checks (R255) -/

/-- A command word whose checks leave the state as it is queues what they give, one command for each wave. -/
theorem queues_command (hexec : exec i s = .next (s.command f op fmtOk shape (some check)))
    (hgood : s.run.cur.poisonOf f false = false) (hfmt : fmtOk = true)
    (hcheck : ∀ j ∈ upto s.run.cur.run, check s j (shape j) = (out j, s)) :
    Queues s i f op ((upto s.run.cur.run).map out) := by
  have hasks := checkedInOrder_pure (check := fun u j => check u j (shape j)) hcheck
  rw [Queues, QueuesFrom, hexec]
  simp only [State.command, hgood, hfmt, Bool.not_true, Bool.false_eq_true, if_false]
  exact congrArg (fun x : List Ask × State => Host.Outcome.next (x.2.present s.run.cur f op x.1).2) hasks

theorem Firing.portIs_fmt {fr : Firing} {sel : Nat} {fm : Fmt} (hport : fr.port sel = some t) (hfmt : t.fmt = fm) :
    fr.portIs sel (· = fm) = true := by
  simp only [Firing.portIs, hport, hfmt, decide_true]

theorem Firing.twoAddr_ports {fr : Firing} (ha : fr.port f.sa.toNat = some t) (hb : fr.port f.sb.toNat = some u)
    (hat : t.fmt = .a) (hau : u.fmt = .a) : fr.twoAddr f = true := by
  rw [Firing.twoAddr, Firing.portIs_fmt ha hat, Firing.portIs_fmt hb hau, Bool.and_self]

theorem Firing.elemB_port {fr : Firing} (hport : fr.port f.sb.toNat = some u) (j : Nat) : fr.elemB f j = tokEl u j := by
  simp only [Firing.elemB, hport]

/-! ### The checks of the commands, passed (R257, R258, R260 to R262) -/

/-- The ask of a command with two addresses. -/
theorem copyAsk_eq {fr : Firing} (ha : fr.port f.sa.toNat = some t) (hb : fr.port f.sb.toNat = some u) (kind : OpKind) (j : Nat) :
    copyAsk fr f kind j
      = { kind := kind, va := (tokEl t j).toNat, data := tokEl u j, data2 := tokEl t j, fmt := .a } := by
  simp only [copyAsk, Firing.elemA_port ha, Firing.elemB_port hb]

/-- A copy whose rows and whose counter, where it has one, pass their checks carries what they give. -/
theorem checkCopy_passes {fr : Firing} {two : Bool} {rl c : Nat} {offs : List (Int × Int)} {rs : List (Nat × Nat)} (j : Nat)
    (a : Ask) (hshape : copyRows two fr.slot.lit (s.keepOf fr (bits fr.slot.lit 23 21)) = (rl, offs)) (hrl : rl ≠ 0)
    (hrows : s.checkRows fr (copyS fr.slot.lit, a.va) (some (copyD fr.slot.lit, a.data.toNat)) rl offs = .ok rs)
    (hnone : copyCV fr.slot.lit = false → c = 0)
    (hctr : copyCV fr.slot.lit = true →
      s.check8 fr (copyCL fr.slot.lit) (s.keepOf fr (copyCK fr.slot.lit)).toNat = .ok c) :
    s.checkCopy fr two j a
      = ({ a with params := c :: rl * offs.length :: rl :: rs.flatMap fun x => [x.1, x.2] }, s) := by
  cases hcv : copyCV fr.slot.lit with
  | false =>
    simp only [State.checkCopy, hshape, hrl, hrows, hcv, hnone hcv, Bool.false_eq_true, if_false]
    rfl
  | true =>
    simp only [State.checkCopy, hshape, hrl, hrows, hcv, hctr hcv, if_false, if_true]
    rfl

theorem checkCopym_passes {fr : Firing} {src : Nat} (j : Nat) (a : Ask)
    (hmask : bits (s.keepOf fr (copyMK fr.slot.lit)) 63 35 = 0) (hlen : bits fr.slot.lit 23 0 ≠ 0)
    (hsrc : s.engCheck fr (copyS fr.slot.lit) a.va (bits fr.slot.lit 23 0) { rd := true } = .ok src) :
    s.checkCopym fr j a = ({ a with params := [(s.keepOf fr (copyCK fr.slot.lit)).toNat, bits fr.slot.lit 23 0, src,
      (s.keepOf fr (copyMK fr.slot.lit)).toNat] }, s) := by
  simp only [State.checkCopym, hlen, if_false, hsrc, hmask, ne_eq, not_true_eq_false]

theorem checkBase_ok {fr : Firing} {va n ia : Nat}
    (hrange : rangeCheck (s.rangesOf fr.names.part fr.ctx) va n { rd := true, w := true } = some ia) :
    s.checkBase fr va n = .ok ia := by
  simp only [State.checkBase, hrange]

theorem checkBase_error {fr : Firing} {va n : Nat}
    (hrange : rangeCheck (s.rangesOf fr.names.part fr.ctx) va n { rd := true, w := true } = none) :
    s.checkBase fr va n = .error { cause := 5, sub := 3, addr := va } := by
  simp only [State.checkBase, hrange]

/-- A range of whole granules that is empty or valid passes. -/
theorem checkFe_passes {fr : Firing} {ns : List Nat} {j : Nat} {a : Ask} (hbase : a.va % 16 = 0) (hlen : at! ns j 0 % 16 = 0)
    (hvalid : at! ns j 0 ≠ 0 →
      s.scratchValid fr.names.part fr.cluster (feLevel fr.slot.lit) a.va (at! ns j 0) = true) :
    s.checkFe fr ns j a = ({ a with ia := a.va, data := w64 (at! ns j 0) }, s) := by
  have haligned : (a.va % 16 ≠ 0 || at! ns j 0 % 16 ≠ 0) = false := by simp [hbase, hlen]
  have hpass : (at! ns j 0 ≠ 0 && !s.rangeBlocked fr.cluster (feLevel fr.slot.lit) a.va (at! ns j 0)
      && !s.scratchValid fr.names.part fr.cluster (feLevel fr.slot.lit) a.va (at! ns j 0)) = false := by
    by_cases hempty : at! ns j 0 = 0
    · simp [hempty]
    · simp [hvalid hempty]
  simp only [State.checkFe, haligned, hpass, Bool.false_eq_true, if_false]

section
variable (ha : s.run.cur.port f.sa.toNat = some t) (hb : s.run.cur.port f.sb.toNat = some u)
  (hat : t.fmt = .a) (hau : u.fmt = .a) (hgood : s.run.cur.poisonOf f false = false)
include ha hb hat hau hgood

/-! ### COPY, COPY2D and COPYM (R256 to R258) -/

theorem exec_copy_queues (two : Bool) {rl c : Nat} {offs : List (Int × Int)} {rs : Nat → List (Nat × Nat)}
    (hshape : copyRows two s.run.cur.slot.lit (s.keepOf s.run.cur (bits s.run.cur.slot.lit 23 21)) = (rl, offs)) (hrl : rl ≠ 0)
    (hrows : ∀ j ∈ upto s.run.cur.run, s.checkRows s.run.cur (copyS s.run.cur.slot.lit, (tokEl t j).toNat)
      (some (copyD s.run.cur.slot.lit, (tokEl u j).toNat)) rl offs = .ok (rs j))
    (hnone : copyCV s.run.cur.slot.lit = false → c = 0)
    (hctr : copyCV s.run.cur.slot.lit = true →
      s.check8 s.run.cur (copyCL s.run.cur.slot.lit) (s.keepOf s.run.cur (copyCK s.run.cur.slot.lit)).toNat = .ok c) :
    Queues s (if two then .copy2d f else .copy f) f (if two then 0xC2 else 0xC0) ((upto s.run.cur.run).map fun j =>
      { kind := .copy, va := (tokEl t j).toNat, data := tokEl u j, data2 := tokEl t j, fmt := .a,
        params := c :: rl * offs.length :: rl :: (rs j).flatMap fun x => [x.1, x.2] }) := by
  have hexec : exec (if two then .copy2d f else .copy f) s = .next (s.command f (if two then 0xC2 else 0xC0)
      (s.run.cur.twoAddr f) (copyAsk s.run.cur f .copy) (some fun t j a => t.checkCopy s.run.cur two j a)) := by
    cases two <;> rfl
  refine queues_command hexec hgood (Firing.twoAddr_ports ha hb hat hau) fun j hj => ?_
  rw [copyAsk_eq ha hb, checkCopy_passes j _ hshape hrl (hrows j hj) hnone hctr]

theorem exec_copym_queues {src : Nat → Nat} (hmask : bits (s.keepOf s.run.cur (copyMK s.run.cur.slot.lit)) 63 35 = 0)
    (hlen : bits s.run.cur.slot.lit 23 0 ≠ 0)
    (hsrc : ∀ j ∈ upto s.run.cur.run, s.engCheck s.run.cur (copyS s.run.cur.slot.lit) (tokEl t j).toNat
      (bits s.run.cur.slot.lit 23 0) { rd := true } = .ok (src j)) :
    Queues s (.copym f) f 0xC1 ((upto s.run.cur.run).map fun j =>
      { kind := .copym, va := (tokEl t j).toNat, data := tokEl u j, data2 := tokEl t j, fmt := .a,
        params := [(s.keepOf s.run.cur (copyCK s.run.cur.slot.lit)).toNat, bits s.run.cur.slot.lit 23 0, src j,
          (s.keepOf s.run.cur (copyMK s.run.cur.slot.lit)).toNat] }) := by
  have hexec : exec (.copym f) s = .next (s.command f 0xC1 (s.run.cur.twoAddr f) (copyAsk s.run.cur f .copym)
    (some fun t j a => t.checkCopym s.run.cur j a)) := rfl
  refine queues_command hexec hgood (Firing.twoAddr_ports ha hb hat hau) fun j hj => ?_
  rw [copyAsk_eq ha hb, checkCopym_passes j _ hmask hlen (hsrc j hj)]

/-! ### SHADOW and RINGREG (R261, R378) -/

/-- A SHADOW queues with the base of its range and that of its pair, which it need not have where it drops the pair. -/
theorem exec_shadow_queues {a b : Nat → Nat}
    (hbase : ∀ j ∈ upto s.run.cur.run, rangeCheck (s.rangesOf s.run.cur.names.part s.run.cur.ctx) (tokEl t j).toNat
      (bits s.run.cur.slot.lit 15 0 * 2 ^ 16) { rd := true, w := true } = some (a j))
    (hpair : ∀ j ∈ upto s.run.cur.run, rangeCheck (s.rangesOf s.run.cur.names.part s.run.cur.ctx) (tokEl u j).toNat
        (bits s.run.cur.slot.lit 15 0 * 2 ^ 16) { rd := true, w := true } = some (b j) ∨
      (bit s.run.cur.slot.lit 32 = true ∧ b j = 0 ∧
        rangeCheck (s.rangesOf s.run.cur.names.part s.run.cur.ctx) (tokEl u j).toNat
          (bits s.run.cur.slot.lit 15 0 * 2 ^ 16) { rd := true, w := true } = none)) :
    Queues s (.shadow f) f 0xC3 ((upto s.run.cur.run).map fun j =>
      { kind := .shadow (bit s.run.cur.slot.lit 32), va := (tokEl t j).toNat, ia := a j, data := tokEl u j, fmt := .i64,
        params := [b j] }) := by
  refine queues_command rfl hgood (Firing.twoAddr_ports ha hb hat hau) fun j hj => ?_
  dsimp only
  rw [Firing.elemA_port ha, Firing.elemB_port hb, checkBase_ok (hbase j hj)]
  rcases hpair j hj with hrange | ⟨hdrop, hzero, hrange⟩
  · rw [checkBase_ok hrange]
  · rw [checkBase_error hrange, hdrop, hzero]
    rfl

theorem exec_ringreg_queues : Queues s (.ringreg f) f 0xD0 ((upto s.run.cur.run).map fun j =>
    { kind := .ringreg, va := (tokEl t j).toNat, data := tokEl u j, fmt := .i64 }) := by
  refine queues_command (check := fun s _ a => (a, s)) rfl hgood (Firing.twoAddr_ports ha hb hat hau) fun j _ => ?_
  rw [Firing.elemA_port ha, Firing.elemB_port hb]

end

/-- What element `j` of a WAYMASK asks for. -/
def waymaskAsk (fr : Firing) (f : Fields) (j : Nat) : Ask := { kind := .waymask, data := fr.elemA f j, fmt := .i64 }

theorem exec_waymask_eq (s : State) (f : Fields) : exec (.waymask f) s = .next (s.command f 0xC8
    (!s.privOf s.run.cur.names.part s.run.cur.ctx || s.run.cur.portIs f.sa.toNat (· = .i64)) (waymaskAsk s.run.cur f)
    (some fun u j a => u.checkWaymask s.run.cur (s.privOf s.run.cur.names.part s.run.cur.ctx) j a)) := rfl

section
variable (ha : s.run.cur.port f.sa.toNat = some t) (hgood : s.run.cur.poisonOf f false = false)
include ha hgood

/-! ### PUBLISH (R262) -/

theorem exec_publish_queues (hat : t.fmt = .a) {a : Nat → Nat}
    (hbase : ∀ j ∈ upto s.run.cur.run, rangeCheck (s.rangesOf s.run.cur.names.part s.run.cur.ctx) (tokEl t j).toNat 1
      { rd := true, w := true } = some (a j)) :
    Queues s (.publish f) f 0xC4 ((upto s.run.cur.run).map fun j =>
      { kind := .publish, va := (tokEl t j).toNat, ia := a j, data2 := tokEl t j, fmt := .a }) := by
  refine queues_command rfl hgood (Firing.portIs_fmt ha hat) fun j hj => ?_
  dsimp only
  rw [Firing.elemA_port ha, checkBase_ok (hbase j hj)]

/-! ### FESET and FECLR (R260) -/

theorem exec_fe_queues {kind : OpKind} {ns : List Nat} (hexec : exec i s = .next (s.feWord f op kind)) (hat : t.fmt = .a)
    (hns : s.i64B s.run.cur f = some ns)
    (hok : ∀ j ∈ upto s.run.cur.run, (tokEl t j).toNat % 16 = 0 ∧ at! ns j 0 % 16 = 0 ∧
      (at! ns j 0 ≠ 0 → s.scratchValid s.run.cur.names.part s.run.cur.cluster (feLevel s.run.cur.slot.lit) (tokEl t j).toNat
        (at! ns j 0) = true)) :
    Queues s i f op ((upto s.run.cur.run).map fun j =>
      { kind := kind, va := (tokEl t j).toNat, ia := (tokEl t j).toNat, data := w64 (at! ns j 0), data2 := tokEl t j,
        fmt := .a }) := by
  rw [State.feWord, hns, Option.map_some] at hexec
  refine queues_command hexec hgood (Firing.portIs_fmt ha hat) fun j hj => ?_
  obtain ⟨hbase, hlen, hvalid⟩ := hok j hj
  rw [Firing.elemA_port ha, checkFe_passes hbase hlen hvalid]

/-! ### WAYMASK, ALLOC and FREE (R263, R264) -/

theorem exec_free_queues (hat : t.fmt = .a) : Queues s (.free f) f 0xCA ((upto s.run.cur.run).map fun j =>
    { kind := .free, va := (tokEl t j).toNat, fmt := .i64 }) := by
  refine queues_command rfl hgood (Firing.portIs_fmt ha hat) fun j _ => ?_
  rw [Firing.elemA_port ha]

theorem exec_waymask_queues (hfmt : t.fmt = .i64) (hpriv : s.privOf s.run.cur.names.part s.run.cur.ctx = true) :
    Queues s (.waymask f) f 0xC8 ((upto s.run.cur.run).map fun j => { kind := .waymask, data := tokEl t j, fmt := .i64 }) := by
  refine queues_command (exec_waymask_eq s f) hgood (by rw [Firing.portIs_fmt ha hfmt, Bool.or_true]) fun j _ => ?_
  rw [hpriv, State.checkWaymask, if_pos rfl, waymaskAsk, Firing.elemA_port ha]

/-- An unprivileged WAYMASK in a firing of run 1 raises its record and changes nothing (R209). -/
theorem exec_waymask_unprivileged (hpriv : s.privOf s.run.cur.names.part s.run.cur.ctx = false) (hrun : s.run.cur.run = 1) :
    QueuesFrom (s.raise (s.run.cur.siteAt s 0) { cause := 2, sub := 1 }) s (.waymask f) f 0xC8
      [{ kind := .waymask, data := tokEl t 0, fmt := .i64, dead := true }] := by
  rw [QueuesFrom, exec_waymask_eq, hpriv, ← Firing.elemA_port ha]
  simp [State.command, hgood, hrun, upto, State.checkWaymask, State.stopAsk, waymaskAsk]

/-- An ALLOC queues with the number of its bank, which is 0 where no operand gives one. -/
theorem exec_alloc_queues {bs : List Nat} (hfmt : t.fmt = .i64)
    (hbs : (if f.sb = 0x7F then some [] else s.i64B s.run.cur f) = some bs) :
    Queues s (.alloc f) f 0xC9 ((upto s.run.cur.run).map fun j =>
      { kind := .alloc, data := tokEl t j, data2 := w64 (at! bs j 0), fmt := .a }) := by
  have hexec : exec (.alloc f) s = .next (s.command f 0xC9 (s.run.cur.portIs f.sa.toNat (· = .i64))
      (fun j => { kind := .alloc, data := s.run.cur.elemA f j, fmt := .a })
      (some fun t j a => ({ a with data2 := w64 (at! bs j 0) }, t))) := by
    show execAlloc f s = _
    rw [execAlloc, hbs]
    rfl
  refine queues_command hexec hgood (Firing.portIs_fmt ha hfmt) fun j _ => ?_
  rw [Firing.elemA_port ha]

end

/-! ### COPYSTAT (R259) -/

/-- What waits is a piece of the engine operation `id`. -/
def FaultWait.isPieceOf (id : Nat) : FaultWait → Bool
  | .piece i _ => i == id
  | _ => false

theorem FaultWait.isPieceOf_iff {w : FaultWait} {id : Nat} : w.isPieceOf id = true ↔ ∃ k, w = .piece id k := by
  cases w <;> simp [FaultWait.isPieceOf]

/-- A piece of a copy that the firing's context has started from its cluster waits in place. -/
def State.copyWaits (s : State) (fr : Firing) : Bool :=
  s.work.engs.any fun e =>
    e.cluster == fr.cluster && e.names.part == fr.names.part && e.ctx == fr.ctx && (e.kind = .copy || e.kind = .copym)
      && s.work.waits.any fun w => w.who.isPieceOf e.id

theorem copyWaits_iff {fr : Firing} : s.copyWaits fr = true ↔ ∃ e ∈ s.work.engs, e.cluster = fr.cluster ∧
    e.names.part = fr.names.part ∧ e.ctx = fr.ctx ∧ (e.kind = .copy ∨ e.kind = .copym) ∧
      ∃ w ∈ s.work.waits, ∃ k, w.who = .piece e.id k := by
  simp only [State.copyWaits, List.any_eq_true, Bool.and_eq_true, Bool.or_eq_true, beq_iff_eq, decide_eq_true_eq,
    FaultWait.isPieceOf_iff,
    and_assoc]

/-- The word that COPYSTAT gives: the context's own slots, those of the whole engine, and whether a piece waits. -/
def copyStatus (waits : Bool) (slots mine : Nat) : Nat := (if waits then 2 ^ 16 else 0) + slots * 256 + mine

theorem copyStatus_fields {slots mine : Nat} (waits : Bool) (hslots : slots ≤ 128) (hmine : mine ≤ slots) :
    copyStatus waits slots mine % 256 = mine ∧ copyStatus waits slots mine / 256 % 256 = slots ∧
      (copyStatus waits slots mine).testBit 16 = waits := by
  rw [Nat.testBit_eq_decide_div_mod_eq, copyStatus]
  cases waits
  · simp only [Bool.false_eq_true, if_false, decide_eq_false_iff_not]
    omega
  · simp only [if_true, decide_eq_true_eq]
    omega

/-- One value in every element of a result that is not poisoned. -/
theorem res_replicate (hgood : s.run.cur.poisonOf f false = false) (v : Nat) :
    { s.run.cur.res f .i64 (List.replicate s.run.cur.run v) with poison := s.run.cur.poisonOf f false }
      = elemRes s f .i64 fun _ => v := by
  simp [Firing.res, elemRes, hgood, upto]

theorem exec_copystat_gives (hgood : s.run.cur.poisonOf f false = false) : exec (.copystat f) s
    = .next (s.sendTo s.run.cur 0 f.da.toNat (elemRes s f .i64 fun _ =>
        copyStatus (s.copyWaits s.run.cur) (s.copySlots s.run.cur.cluster).length
          ((s.copySlots s.run.cur.cluster).filter fun x => x.2 == s.run.cur.ctx).length)) := by
  rw [← res_replicate hgood]
  rfl

end

/-- Settles O40: each command reaches `command` with checks that leave the state as it is; COPYSTAT is read field by field. -/
theorem engineCommands : Obligations.EngineCommands := by
  unfold Obligations.EngineCommands
  rintro s f t u fr l js rfl rfl rfl ha hgood
  refine ⟨fun hb hat hau => ⟨?copy, ?copym, ?shadow, exec_ringreg_queues ha hb hat hau hgood⟩,
    fun hat => ⟨fun a hbase => exec_publish_queues ha hgood hat hbase, fun ns hns hok =>
      ⟨exec_fe_queues ha hgood rfl hat hns hok, exec_fe_queues ha hgood rfl hat hns hok⟩, exec_free_queues ha hgood hat⟩,
    fun hfmt => ⟨fun hpriv => exec_waymask_queues ha hgood hfmt hpriv,
      fun hpriv hrun => exec_waymask_unprivileged ha hgood hpriv hrun, fun hsb => ?alloc,
      fun hsb bs hbs => exec_alloc_queues ha hgood hfmt (by rw [if_neg hsb, hbs])⟩, ?copystat⟩
  case copy =>
    exact fun two rl c offs rs hshape hrl hrows hnone hctr =>
      exec_copy_queues ha hb hat hau hgood two hshape hrl hrows hnone hctr
  case copym =>
    rintro m n src rfl hmask rfl hlen hsrc
    exact exec_copym_queues ha hb hat hau hgood hmask hlen hsrc
  case shadow =>
    rintro n a b rfl hbase hpair
    exact exec_shadow_queues ha hb hat hau hgood hbase hpair
  case alloc =>
    have hnumber (j : Nat) : w64 (at! ([] : List Nat) j 0) = 0 := by cases j <;> rfl
    simpa only [hnumber] using exec_alloc_queues (bs := []) ha hgood hfmt (if_pos hsb)
  case copystat =>
    rintro slots mine rfl hslots rfl
    obtain ⟨hmine, hall, hwaits⟩ := copyStatus_fields (s.copyWaits s.run.cur) hslots (List.length_filter_le ..)
    exact ⟨_, exec_copystat_gives hgood, hmine, hall, by rw [hwaits]; exact copyWaits_iff⟩

end Sys2Proof.Machine
end

section
/-! PROOFS. Floating-point words of elements (O26, O27): what a word with flags gives, then groups 0x6 and 0x7. -/

namespace Sys2Proof.Machine

/-! ### What a word with flags gives (R190, R192, R269) -/

section
variable {s : State} {i : Instr} {f : Fields} {fm o : Fmt} {a b c : List Nat} {out : Fmt → Option Fmt}
  {h : Nat → Nat × FpFlags}

theorem givesF_each1 {g : Fmt → Nat → Nat × FpFlags} (hexec : exec i s = .next (s.each1 f out g)) (r : Reads1 s f fm a)
    (ho : out fm = some o) (hg : ∀ j, g fm (el a j) = h j) : GivesF s i f o h := by
  obtain rfl : (fun j => g fm (el a j)) = h := funext hg
  exact hexec.trans (congrArg _ (each1_sends r ho))

theorem givesF_each2 {g : Fmt → Nat → Nat → Nat × FpFlags} (hexec : exec i s = .next (s.each2 f out g)) (r : Reads2 s f fm a b)
    (ho : out fm = some o) (hg : ∀ j, g fm (el a j) (el b j) = h j) : GivesF s i f o h := by
  obtain rfl : (fun j => g fm (el a j) (el b j)) = h := funext hg
  exact hexec.trans (congrArg _ (each2_sends r ho))

theorem givesF_each3 {g : Fmt → Nat → Nat → Nat → Nat × FpFlags} (hexec : exec i s = .next (s.each3 f out g))
    (r : Reads3 s f fm a b c) (ho : out fm = some o) (hg : ∀ j, g fm (el a j) (el b j) (el c j) = h j) : GivesF s i f o h := by
  obtain rfl : (fun j => g fm (el a j) (el b j) (el c j)) = h := funext hg
  exact hexec.trans (congrArg _ (each3_sends r ho))

/-- A result listed element by element. -/
theorem res_map_upto (g : Nat → Nat) : s.run.cur.res f fm ((upto s.run.cur.run).map g) = elemRes s f fm g := by
  simp only [Firing.res, elemRes, List.map_map, Function.comp_def]

end

/-- Settles O26: each word is its operation element by element, with its flags or, where it acts on bits alone, with none. -/
theorem floatArithmetic : Obligations.FloatArithmetic := by
  unfold Obligations.FloatArithmetic
  rintro s f fm a b c F hfloat rfl
  have hkeep := keepIf_of hfloat
  refine ⟨fun r => ?two, fun r => ?three, fun r => ?single⟩
  case two =>
    exact ⟨givesF_each2 rfl r hkeep fun _ => rfl, givesF_each2 rfl r hkeep fun _ => rfl, givesF_each2 rfl r hkeep fun _ => rfl,
      givesF_each2 rfl r hkeep fun _ => rfl, givesF_each2 rfl r hkeep fun _ => rfl, givesF_each2 rfl r hkeep fun _ => rfl,
      givesF_each2 rfl r hkeep fun _ => rfl, givesF_each2 rfl r hkeep fun _ => rfl, gives_each2 rfl r hkeep fun _ => rfl⟩
  case three =>
    exact ⟨givesF_each3 rfl r hkeep fun _ => rfl, givesF_each3 rfl r hkeep fun _ => rfl, givesF_each3 rfl r hkeep fun _ => rfl⟩
  case single =>
    exact ⟨givesF_each1 rfl r hkeep fun _ => rfl, gives_each1 rfl r hkeep fun _ => rfl, gives_each1 rfl r hkeep fun _ => rfl,
      gives_each1 rfl r (if_pos hfloat) fun _ => rfl⟩

/-! ### Conversions and FSPLIT (R275 to R278, R282) -/

section
variable {s : State} {i : Instr} {f : Fields} {fm d : Fmt} {a : List Nat} {src dst : Fmt → Bool} {h : Nat → Nat × FpFlags}

theorem convTo_of {l : W64} (hd : litFmt l = some d) (hsrc : src fm = true) (hdst : dst d = true) :
    convTo src dst l fm = some d := by
  simp [convTo, hd, hsrc, hdst]

/-- A conversion of operands that are not poisoned goes element by element to the target that its literal names. -/
theorem convert_eq_each1 {g : Fmt → Fmt → Rm → Nat → Nat × FpFlags} (hgood : s.run.cur.poisonOf f false = false)
    (hd : litFmt s.run.cur.slot.lit = some d) : s.convert f src dst g
      = s.each1 f (convTo src dst s.run.cur.slot.lit) fun fm => g fm d (litRm s.run.cur.slot.lit) := by
  simp only [State.convert, hd, hgood, Bool.false_eq_true, if_false]

theorem givesF_convert {g : Fmt → Fmt → Rm → Nat → Nat × FpFlags} (hexec : exec i s = .next (s.convert f src dst g))
    (r : Reads1 s f fm a) (hd : litFmt s.run.cur.slot.lit = some d) (hsrc : src fm = true) (hdst : dst d = true)
    (hg : ∀ j, g fm d (litRm s.run.cur.slot.lit) (el a j) = h j) : GivesF s i f d h :=
  givesF_each1 (hexec.trans (congrArg _ (convert_eq_each1 r.good hd))) r (convTo_of hd hsrc hdst) hg

theorem exec_fsplit_sends (r : Reads1 s f fm a) (hfloat : fm.isFloat = true) : exec (.fsplit f) s
    = .next (((s.orFlags s.run.cur.names.part s.run.cur.ctx
        (orFlags ((upto s.run.cur.run).map fun j => (fpSplit (fpOf fm) (el a j)).2))).sendTo s.run.cur f.ta.toNat f.da.toNat
          (elemRes s f fm fun j => (fpSplit (fpOf fm) (el a j)).1.1)).sendTo s.run.cur f.ta.toNat f.db.toNat
          (elemRes s f fm fun j => (fpSplit (fpOf fm) (el a j)).1.2)) := by
  show execFsplit f s = _
  simp only [execFsplit, r.good, r.pred, r.fmt, hfloat, r.srcA, map_upto (fpSplit (fpOf fm)) a 0 _ (length_source s r.srcA),
    List.map_map, ← res_map_upto, Function.comp_def]
  rfl

end

/-- Settles O27: compares and the words of one format element by element, conversions through the target of their literal. -/
theorem floatConversions : Obligations.FloatConversions := by
  unfold Obligations.FloatConversions
  rintro s f fm d a b F rm rfl rfl
  refine ⟨fun r hfloat => ?compares, fun r hd => ⟨fun hsrc hdst => ?fcvt, fun hsrc hdst => ?fcvti, fun hsrc hdst => ?icvtf⟩,
    fun r hfloat => ?single⟩
  case compares =>
    have hp : (if fm.isFloat then some Fmt.p else none) = some .p := if_pos hfloat
    exact ⟨givesF_each2 rfl r hp fun _ => rfl, givesF_each2 rfl r hp fun _ => rfl, givesF_each2 rfl r hp fun _ => rfl,
      givesF_each2 rfl r hp fun _ => rfl, givesF_each2 rfl r (keepIf_of hfloat) fun _ => rfl⟩
  case fcvt => exact givesF_convert rfl r hd hsrc hdst fun _ => rfl
  case fcvti => exact givesF_convert rfl r hd hsrc hdst fun _ => rfl
  case icvtf => exact ⟨givesF_convert rfl r hd hsrc hdst fun _ => rfl, givesF_convert rfl r hd hsrc hdst fun _ => rfl⟩
  case single =>
    have hkeep := keepIf_of hfloat
    exact ⟨givesF_each1 rfl r hkeep fun _ => rfl, givesF_each1 rfl r hkeep fun _ => rfl, givesF_each1 rfl r hkeep fun _ => rfl,
      exec_fsplit_sends r hfloat⟩

end Sys2Proof.Machine
end

section
/-! PROOFS. The vector words that place elements (O29): those under an operand of a format of its own, those under a predicate,
then VSPLIT and VJOIN. -/

namespace Sys2Proof.Machine

/-! ### The elements that a predicate places (R288) -/

theorem el_drop_one (a : List Nat) (k : Nat) : el (a.drop 1) k = el a (k + 1) := by cases a <;> rfl

/-- Where the predicate is true stands the element of A that is counted by the true places before; elsewhere the zero. -/
theorem el_expand (z : Nat) {p : List Bool} {j : Nat} (hj : j < p.length) (a : List Nat) :
    el (expand z p a) j = if at! p j false then el a ((p.take j).filter id).length else z := by
  induction p generalizing a j with
  | nil => exact absurd hj (Nat.not_lt_zero j)
  | cons x p ih =>
    cases j with
    | zero => cases x <;> rfl
    | succ j =>
      have hrest : j < p.length := Nat.lt_of_succ_lt_succ hj
      cases x with
      | false => exact ih hrest a
      | true => exact (ih hrest (a.drop 1)).trans (by rw [el_drop_one]; rfl)

section
variable {s : State} {i : Instr} {f : Fields} {fm : Fmt} {a b : List Nat} {w : Nat} {p : List Bool}

/-! ### Words that place elements (R287, R288) -/

theorem gives_placing {g : Fmt → Nat → List Nat → List Nat → Nat → List Nat} {h : Nat → Nat}
    (hexec : exec i s = .next (s.placing f g)) (r : ReadsOwn s f fm a b w)
    (hg : g fm s.run.cur.run a b w = (upto s.run.cur.run).map h) : Gives s i f fm h := by
  refine gives_compute hexec r.toClean r.fmt (keepIf_of rfl) ?_
  simp only [r.srcA, r.own, hg]

theorem gives_viota (r : Reads1 s f .p a) : Gives s (.viota f) f .i32 fun j => countTrue a j := by
  refine gives_compute rfl r.toClean r.fmt (if_pos rfl) ?_
  simp only [r.srcA]

theorem gives_vexpand (r : Reads1 s f fm a) (hp : s.run.cur.predOn f.sb.toNat = some p) (hlen : p.length = s.run.cur.run) :
    Gives s (.vexpand f) f fm fun j => if at! p j false then el a ((p.take j).filter id).length else zeroOf fm := by
  refine gives_compute rfl r.toClean r.fmt (keepIf_of rfl) ?_
  have helems : padTo s.run.cur.run (expand (zeroOf fm) p a) = (upto s.run.cur.run).map fun j =>
      if at! p j false then el a ((p.take j).filter id).length else zeroOf fm :=
    List.map_congr_left fun j hj => el_expand (zeroOf fm) (hlen.symm ▸ List.mem_range.1 hj) a
  simp only [r.srcA, hp, helems]

/-! ### Results that are sent where they have elements (R285, R286, R288) -/

theorem sendSome_nil (fr : Firing) (ta d : Nat) {v : Res} (h : v.data = []) : s.sendSome fr ta d v = s := by
  simp [State.sendSome, h]

theorem sendSome_ne_nil (fr : Firing) (ta d : Nat) {v : Res} (h : v.data ≠ []) : s.sendSome fr ta d v = s.sendTo fr ta d v := by
  simp [State.sendSome, h]

theorem exec_vcompact_sends (r : Reads1 s f fm a) (hp : s.run.cur.predOn f.sb.toNat = some p) (hsome : compact p a ≠ []) :
    exec (.vcompact f) s = .next (s.sendTo s.run.cur f.ta.toNat f.da.toNat
      (s.run.cur.resAt f fm s.run.cur.wave false (compact p a))) := by
  obtain ⟨-, hportB⟩ := Firing.ports_good r.good
  have hdata : (s.run.cur.resAt f fm s.run.cur.wave false (compact p a)).data ≠ [] := by simpa [Firing.resAt] using hsome
  show execVcompact f s = _
  simp only [execVcompact, hportB, hp, r.good, r.fmt, r.srcA, Bool.false_eq_true, if_false, sendSome_ne_nil _ _ _ hdata]

theorem exec_vsplit_sends (r : ReadsOwn s f fm a b w) (hpos : 0 < el b 0) (hlt : el b 0 < s.run.cur.run) :
    exec (.vsplit f) s = .next ((s.sendTo s.run.cur f.ta.toNat f.da.toNat
        (s.run.cur.resAt f fm s.run.cur.wave false (a.take (el b 0)))).sendTo s.run.cur f.ta.toNat f.db.toNat
        (s.run.cur.resAt f fm (s.run.cur.wave + el b 0) false (a.drop (el b 0)))) := by
  obtain ⟨-, hportB⟩ := Firing.ports_good r.good
  have hlen := length_source s r.srcA
  have hbelow : (s.run.cur.resAt f fm s.run.cur.wave false (a.take (el b 0))).data ≠ [] := by
    simpa [Firing.resAt, ← List.length_eq_zero_iff] using by omega
  have habove : (s.run.cur.resAt f fm (s.run.cur.wave + el b 0) false (a.drop (el b 0))).data ≠ [] := by
    simpa [Firing.resAt, ← List.length_eq_zero_iff] using by omega
  have hscalar : s.scalarOf s.run.cur f.sb.toNat = some (el b 0, w) := by simp only [State.scalarOf, r.own]
  show execVsplit f s = _
  simp only [execVsplit, hportB, hscalar, r.good, r.pred, r.fmt, r.srcA, Bool.false_eq_true, Bool.not_true, Bool.false_and,
    if_false, sendSome_ne_nil _ _ _ hbelow, sendSome_ne_nil _ _ _ habove]

/-- A joined run of at most 32 elements is one token. -/
theorem sendJoined_short (fr : Firing) {v : Res} (hlink : f.da.toNat ≠ 7) (hsome : v.data ≠ []) (hshort : v.data.length ≤ 32) :
    s.sendJoined fr f v = s.sendTo fr f.ta.toNat f.da.toNat v := by
  have hrest : v.data.drop 32 = [] := List.drop_eq_nil_of_le hshort
  rw [State.sendJoined, if_neg hlink, sendSome_nil _ _ _ hrest, List.take_of_length_le hshort, sendSome_ne_nil _ _ _ hsome]

theorem exec_vjoin_sends {x y : Token} (ha : s.run.cur.a = some x) (hb : s.run.cur.b = some y) (hx : x.poison = false)
    (hy : y.poison = false) (hfmt : x.fmt = y.fmt) (hstop : x.stop = y.stop) (hlink : f.da.toNat ≠ 7) (hsome : x.data ≠ [])
    (hshort : (x.data ++ y.data).length ≤ 32) : exec (.vjoin f) s
      = .next (s.sendTo s.run.cur f.ta.toNat f.da.toNat ⟨x.wave, x.stop, x.fmt, false, x.data ++ y.data⟩) := by
  show execVjoin f s = _
  simp only [execVjoin, ha, hb, hx, hy, hfmt, hstop, ne_eq, not_true_eq_false, decide_false, Bool.or_self, Bool.false_eq_true,
    if_false]
  rw [sendJoined_short _ hlink (List.append_ne_nil_of_left_ne_nil hsome _) hshort]

end

/-- Settles O29: the words that place elements by what stands at each place, the others by the tokens that they send. -/
theorem vectorPlacement : Obligations.VectorPlacement := by
  unfold Obligations.VectorPlacement
  rintro s f fm a b w n rfl
  refine ⟨fun r => ⟨?vbcast, gives_placing rfl r rfl, ?vslide, exec_vsplit_sends r⟩, ?viota,
    fun p r hp hlen => ⟨gives_vexpand r hp hlen, exec_vcompact_sends r hp⟩,
    fun x y ha hb hx hy hfmt hstop => exec_vjoin_sends ha hb hx hy hfmt hstop⟩
  case vbcast => exact gives_placing rfl r (by simp [upto])
  case vslide => exact gives_placing rfl r (by simp only [Bool.and_eq_true, decide_eq_true_eq])
  case viota =>
    rintro r rfl
    exact gives_viota r

end Sys2Proof.Machine
end


section
/-! PROOFS. The vector words that reduce, and VSCAN (O30): what they compute on integers, then what a reduction sends. -/

namespace Sys2Proof.Machine

theorem Fmt.isFloat_of_isInt {fm : Fmt} (hint : fm.isInt = true) : fm.isFloat = false := by
  cases fm
  case i8 | i16 | i32 | i64 => rfl
  all_goals exact absurd hint Bool.false_ne_true

theorem intOrFloat_of_isInt {fm : Fmt} (hint : fm.isInt = true) : intOrFloat fm = true := by simp [intOrFloat, hint]

theorem intOrFloat_of_isFloat {fm : Fmt} (hfloat : fm.isFloat = true) : intOrFloat fm = true := by simp [intOrFloat, hfloat]

/-! ### Extremes of integers (R289) -/

/-- A fold that keeps one of its two values, and one that both reach, ends in a value of the list that all of it reaches. -/
theorem foldl_pick {R : Nat → Nat → Prop} {pick : Nat → Nat → Nat} (hrefl : ∀ x, R x x)
    (htrans : ∀ {x y z}, R x y → R y z → R x z)
    (hpick : ∀ x y, (pick x y = x ∨ pick x y = y) ∧ R x (pick x y) ∧ R y (pick x y)) (x : Nat) (xs : List Nat) :
    xs.foldl pick x ∈ x :: xs ∧ ∀ y ∈ x :: xs, R y (xs.foldl pick x) := by
  induction xs generalizing x with
  | nil => simpa using hrefl x
  | cons y xs ih =>
    obtain ⟨hone, hx, hy⟩ := hpick x y
    obtain ⟨hmem, hbound⟩ := ih (pick x y)
    have hlast := hbound _ List.mem_cons_self
    rw [List.foldl_cons]
    refine ⟨?_, fun z hz => ?_⟩
    · rcases List.mem_cons.1 hmem with heq | hrest
      · rw [heq]
        rcases hone with h | h <;> simp [h]
      · exact List.mem_cons_of_mem _ (List.mem_cons_of_mem _ hrest)
    · rcases List.mem_cons.1 hz with rfl | hz
      · exact htrans hx hlast
      rcases List.mem_cons.1 hz with rfl | hz
      · exact htrans hy hlast
      · exact hbound z (List.mem_cons_of_mem _ hz)

/-- As signed integers of `w` bits `x` goes no further than `m`: up where a maximum is wanted, else down. -/
def Within (wantMax : Bool) (w x m : Nat) : Prop := if wantMax then toS w x ≤ toS w m else toS w m ≤ toS w x

theorem Within.refl (wantMax : Bool) (w x : Nat) : Within wantMax w x x := by
  cases wantMax <;> exact Int.le_refl _

theorem Within.trans {wantMax : Bool} {w x y z : Nat} (hxy : Within wantMax w x y) (hyz : Within wantMax w y z) :
    Within wantMax w x z := by
  cases wantMax
  · exact Int.le_trans hyz hxy
  · exact Int.le_trans hxy hyz

/-- Of two integers the extreme is the one within which the other lies. -/
theorem within_pick (wantMax : Bool) (w x y : Nat) :
    Within wantMax w x (if (toS w x ≤ toS w y) = wantMax then y else x) ∧
      Within wantMax w y (if (toS w x ≤ toS w y) = wantMax then y else x) := by
  cases wantMax <;> by_cases h : toS w x ≤ toS w y <;> simp [Within, h] <;> omega

section
variable {fm : Fmt}

theorem extreme_int (hint : fm.isInt = true) (wantMax : Bool) {a : List Nat} (ha : a ≠ []) :
    ∃ m ∈ a, extreme wantMax fm a = (m, fNone) ∧ ∀ x ∈ a, Within wantMax fm.width x m := by
  obtain ⟨x, xs, rfl⟩ := List.exists_cons_of_ne_nil ha
  obtain ⟨hmem, hbound⟩ := foldl_pick (Within.refl wantMax fm.width) Within.trans
    (fun r y => ⟨(ite_eq_or_eq _ y r).symm, within_pick wantMax fm.width r y⟩) x xs
  refine ⟨_, hmem, ?_, hbound⟩
  rw [extreme, Fmt.isFloat_of_isInt hint, if_neg Bool.false_ne_true]

/-! ### Running sums and dot products of integers (R289, R290) -/

theorem scanFrom_int (hint : fm.isInt = true) (acc : Nat) (xs : List Nat) : scanFrom fm acc xs
    = ((upto xs.length).map fun j => (acc + (xs.take (j + 1)).sum) % 2 ^ fm.width, fNone) := by
  induction xs generalizing acc with
  | nil => rfl
  | cons x xs ih =>
    simp only [scanFrom, Fmt.isFloat_of_isInt hint, Bool.false_eq_true, if_false, ih]
    simp [upto, List.range_succ_eq_map, Nat.add_assoc, Function.comp_def, fNone]

theorem dot_int (hint : fm.isInt = true) (a b : List Nat) :
    dot fm a b = ((List.zipWith (· * ·) a b).sum % 2 ^ fm.width, fNone) := by
  rw [dot, Fmt.isFloat_of_isInt hint, if_neg Bool.false_ne_true, List.sum_eq_foldl]

end

/-! ### VSCAN (R289) -/

section
variable {s : State} {f : Fields} {fm : Fmt} {a : List Nat}

theorem gives_vscan_int (r : Reads1 s f fm a) (hint : fm.isInt = true) (hsmall : ∀ x ∈ a, x < 2 ^ fm.width)
    (hrun : 0 < s.run.cur.run) : Gives s (.vscan f) f fm fun j => (a.take (j + 1)).sum % 2 ^ fm.width := by
  have hlen := length_source s r.srcA
  obtain ⟨x, xs, rfl⟩ := List.exists_cons_of_length_pos (hlen.symm ▸ hrun)
  have hfirst : x % 2 ^ fm.width = x := Nat.mod_eq_of_lt (hsmall x List.mem_cons_self)
  have hsums : (upto s.run.cur.run).map (fun j => ((x :: xs).take (j + 1)).sum % 2 ^ fm.width)
      = x :: (upto xs.length).map fun j => (x + (xs.take (j + 1)).sum) % 2 ^ fm.width := by
    rw [← hlen]
    simp [upto, List.range_succ_eq_map, Function.comp_def, hfirst]
  refine gives_compute rfl r.toClean r.fmt (keepIf_of (intOrFloat_of_isInt hint)) ?_
  simp only [r.srcA, Fmt.isFloat_of_isInt hint, Bool.false_eq_true, if_false, scanFrom_int hint, hsums]
  rfl

theorem exec_vscan_float {x : Nat} {xs : List Nat} (r : Reads1 s f fm (x :: xs)) (hfloat : fm.isFloat = true) :
    exec (.vscan f) s = .next ((s.orFlags s.run.cur.names.part s.run.cur.ctx
        ((canonNaN (fpOf fm) x).2 ||| (scanFrom fm (canonNaN (fpOf fm) x).1 xs).2)).sendTo s.run.cur f.ta.toNat f.da.toNat
      (s.run.cur.res f fm ((canonNaN (fpOf fm) x).1 :: (scanFrom fm (canonNaN (fpOf fm) x).1 xs).1))) := by
  have hkeep : keepIf intOrFloat (s.run.cur.fmtOf f) = some fm := r.fmt ▸ keepIf_of (intOrFloat_of_isFloat (r.fmt ▸ hfloat))
  refine congrArg _ (compute_sends s r.good r.pred hkeep ?_)
  simp only [r.fmt, r.srcA, hfloat, if_true]

end

/-! ### What a reduction sends (R284) -/

section
variable {s : State} {i : Instr} {f : Fields} {fm o : Fmt} {a b : List Nat} {one : Fmt → Nat × FpFlags → Result}
  {out : Fmt → Option Fmt} {v : Nat × FpFlags}
  (hone : ∀ o v, one o v = .next ((s.orFlags s.run.cur.names.part s.run.cur.ctx v.2).sendTo s.run.cur f.ta.toNat f.da.toNat
    (s.run.cur.resAt f o (s.run.cur.wave + s.run.cur.run - 1) false [v.1])))
include hone

theorem exec_reduce {g : Firing → Fmt → Option (Nat × FpFlags)} (hexec : exec i s = .next (s.reduce f out g))
    (hc : Clean s f false) (hf : s.run.cur.fmtOf f = fm) (ho : out fm = some o) (hg : g s.run.cur fm = some v) :
    exec i s = one o v := by
  rw [hexec, hone]
  simp [State.reduce, hc.good, hc.pred, hf, ho, hg]

theorem exec_reduceA {ok : Fmt → Bool} {g : Fmt → List Nat → Nat × FpFlags} (hexec : exec i s = .next (s.reduceA f ok g))
    (r : Reads1 s f fm a) (hok : ok fm = true) (hg : g fm a = v) : exec i s = one fm v := by
  refine exec_reduce hone hexec r.toClean r.fmt (keepIf_of hok) ?_
  rw [r.srcA, Option.map_some, hg]

theorem exec_vdot (r : Reads2 s f fm a b) (hok : intOrFloat fm = true) : exec (.vdot f) s = one fm (dot fm a b) := by
  refine exec_reduce hone rfl r.toClean r.fmt (keepIf_of hok) ?_
  simp only [r.srcA, r.srcB]

/-- VREDMAX and VREDMIN of integers give an element of A within which every other one lies. -/
theorem exec_extreme_int {wantMax : Bool} (hexec : exec i s = .next (s.reduceA f intOrFloat (extreme wantMax)))
    (r : Reads1 s f fm a) (hint : fm.isInt = true) : ∀ x ∈ a, 0 < s.run.cur.run →
      ∃ m ∈ a, exec i s = one fm (m, fNone) ∧ Within wantMax fm.width x m := by
  intro x hx _
  obtain ⟨m, hm, hextreme, hbound⟩ := extreme_int hint wantMax (List.ne_nil_of_mem hx)
  exact ⟨m, hm, exec_reduceA hone hexec r (intOrFloat_of_isInt hint) hextreme, hbound x hx⟩

end

/-- Settles O30: each reduction sends what its fold gives; on integers the folds are sums and extremes, and VSCAN gives the running sums. -/
theorem vectorReductions : Obligations.VectorReductions := by
  unfold Obligations.VectorReductions
  intro s f fm a b one hone
  refine ⟨fun r hint => ?ints, fun r hfloat => ?floats, fun r => exec_reduce hone rfl r.toClean r.fmt rfl rfl,
    fun r hint => ?dotInt, fun r hfloat => exec_vdot hone r (intOrFloat_of_isFloat hfloat)⟩
  case ints =>
    exact ⟨exec_reduceA hone rfl r hint (by rw [List.sum_eq_foldl]; rfl), exec_extreme_int hone (wantMax := true) rfl r hint,
      exec_extreme_int hone (wantMax := false) rfl r hint, gives_vscan_int r hint⟩
  case floats =>
    have hok := intOrFloat_of_isFloat hfloat
    refine ⟨exec_reduceA hone rfl r hfloat rfl, exec_reduceA hone rfl r hok rfl, exec_reduceA hone rfl r hok rfl, ?_⟩
    rintro x xs y z rfl rfl rfl
    exact exec_vscan_float r hfloat
  case dotInt => rw [← dot_int hint a b, exec_vdot hone r (intOrFloat_of_isInt hint)]

end Sys2Proof.Machine
end

section
/-! PROOFS. The words that read and write system registers (O21). -/

namespace Sys2Proof.Machine

theorem w64_toNat (v : W64) : w64 v.toNat = v := by simp [w64]

section
variable {s u : State} {f : Fields} {x : Ctx} {sel n : Nat}

/-! ### Words that give one value in every element (R190, R407, R411) -/

/-- A trigger word whose value is the same for every element, after what it does. -/
theorem triggerValues_sends {g : State → Firing → List W64 × State} (hgood : s.run.cur.poisonOf f false = false)
    (hg : g s s.run.cur = (List.replicate s.run.cur.run (w64 n), u)) :
    s.triggerValues f g = u.sendTo s.run.cur 0 f.da.toNat (elemRes s f .i64 fun _ => n) := by
  have hres : s.run.cur.res f .i64 ((List.replicate s.run.cur.run (w64 n)).map BitVec.toNat) = elemRes s f .i64 fun _ => n := by
    simp [Firing.res, elemRes, upto, w64_toNat]
  simp only [State.triggerValues, hgood, Bool.false_eq_true, if_false, hg, hres]

theorem privOf_of (hctx : s.ctx? s.run.cur.names.part s.run.cur.ctx = some x) :
    s.privOf s.run.cur.names.part s.run.cur.ctx = x.priv := by simp only [State.privOf, hctx]

/-! ### RDSYS (R268, R407) -/

/-- A selector that the context may read gives what its reads give, in the state that they leave. -/
theorem exec_rdsys_reads (hsel : sel = bits s.run.cur.slot.lit 11 0)
    (hctx : s.ctx? s.run.cur.names.part s.run.cur.ctx = some x) (hgood : s.run.cur.poisonOf f false = false)
    (hright : readRight sel = .u ∨ (readRight sel = .p ∧ x.priv = true))
    (hreads : s.readSels s.run.cur sel s.run.cur.run [] = (List.replicate s.run.cur.run (w64 n), u)) :
    exec (.rdsys f) s = .next (u.sendTo s.run.cur 0 f.da.toNat (elemRes s f .i64 fun _ => n)) := by
  have hmay : (readRight sel).ctxHas x.priv = true := by
    rcases hright with h | ⟨h, hpriv⟩
    · rw [h]; rfl
    · rw [h]; exact hpriv
  have hsent := triggerValues_sends (g := fun s fr => s.readSels fr sel fr.run []) hgood hreads
  show execRdsys f s = _
  simp only [execRdsys, ← hsel, hgood, privOf_of hctx, hmay, Bool.not_true, Bool.and_false, Bool.false_eq_true, if_false, hsent]

/-- A selector other than SYS.FLAGSRC reads the same for every element. -/
theorem readSels_keeps (fr : Firing) (hsel : sel ≠ 3) (n : Nat) (vs : List W64) :
    s.readSels fr sel n vs = (vs ++ List.replicate n (s.sysRead fr sel), s) := by
  induction n generalizing vs with
  | zero => rw [State.readSels, List.replicate_zero, List.append_nil]
  | succ n ih =>
    simp only [State.readSels, if_neg hsel]
    rw [ih, List.append_assoc, List.singleton_append, ← List.replicate_succ]

/-- SYS.FLAGSRC reads the flags. -/
theorem sysRead_flagsrc {fr : Firing} (hctx : s.ctx? fr.names.part fr.ctx = some x) : s.sysRead fr 3 = w64 x.flags.toNat := by
  simp [State.sysRead, hctx, Ctx.reg]

/-! ### WRSYS (R407) -/

/-- What a privileged context may write of its own: its named registers, the ranges and the keep registers (R408). -/
theorem writeRight_context (h : 0x10 ≤ sel ∧ sel < 0x28 ∨ sel = 1 ∨ sel = 2 ∨ sel = 4 ∨ sel = 5 ∨ sel = 7) :
    writeRight sel = .p := by
  refine if_pos ?_
  simp only [Bool.or_eq_true, Bool.and_eq_true, decide_eq_true_eq]
  omega

theorem writeSel_register {fr : Firing} {v : W64} (hsel : sel < 0x20) : s.writeSel fr sel v
    = some (s.modCtx fr.names.part fr.ctx fun y => y.setReg (s.part fr.names.part).leasecap sel v) := by
  have hkeep : (decide (0x20 ≤ sel) && decide (sel < 0x28)) = false := by rw [decide_eq_false (by omega), Bool.false_and]
  rw [State.writeSel, if_neg (by omega), if_neg (by omega), hkeep, if_neg Bool.false_ne_true]

theorem writeSel_keep {fr : Firing} {v : W64} (hlow : 0x20 ≤ sel) (hhigh : sel < 0x28) : s.writeSel fr sel v
    = some (s.modCtx fr.names.part fr.ctx fun y => y.setKeep fr.cluster fr.elem (sel - 0x20) v) := by
  rw [State.writeSel, if_neg (by omega), if_neg (by omega), decide_eq_true hlow, decide_eq_true hhigh, Bool.and_self, if_pos rfl]

theorem writeSel_xlatinv {fr : Firing} {v : W64} (hsel : sel = 0x81) : s.writeSel fr sel v = s.xlatInv fr.names.part v := by
  rw [State.writeSel, if_pos hsel]

/-- A privileged write that completes gives what the selector then reads. -/
theorem exec_wrsys_writes {t : Token} {v : W64} (hsel : sel = bits s.run.cur.slot.lit 11 0)
    (hctx : s.ctx? s.run.cur.names.part s.run.cur.ctx = some x) (hpriv : x.priv = true)
    (hport : s.run.cur.port f.sa.toNat = some t) (hgood : t.poison = false)
    (hfmt : wordFmt t.fmt = true) (hdata : t.data = [v]) (hrun : s.run.cur.run = 1)
    (hright : writeRight sel = .p) (hways : sel ≠ 0x40) (hwrite : s.writeSel s.run.cur sel v = some u) :
    exec (.wrsys f) s
      = .next (u.sendTo s.run.cur 0 f.da.toNat (elemRes s f .i64 fun _ => (u.sysRead s.run.cur sel).toNat)) := by
  have hwrites : s.writeSels s.run.cur sel (t.data.take s.run.cur.run) [] = some ([u.sysRead s.run.cur sel], u) := by
    rw [hdata, hrun]
    simp only [List.take_succ_cons, List.take_zero, State.writeSels, hwrite, List.nil_append]
  show execWrsys f s = _
  simp only [execWrsys, ← hsel, hport, hgood, privOf_of hctx, hpriv, hright, hfmt, if_neg hways, hwrites]
  simp [Firing.res, elemRes, upto, hrun]

theorem Tbl.getD_set_same {κ α : Type} [DecidableEq κ] (t : Tbl κ α) (k : κ) (v d : α) : (t.set k v).getD k d = v := by
  induction t with
  | nil => simp [Tbl.set, Tbl.getD]
  | cons e t ih =>
    obtain ⟨k', v'⟩ := e
    rw [Tbl.set]
    split
    next => simp [Tbl.getD]
    next hne => simp [Tbl.getD, hne, ih]

theorem keep_setKeep (x : Ctx) (cl el k : Nat) (v : W64) : (x.setKeep cl el k v).keep cl el k = v :=
  Tbl.getD_set_same x.keeps (cl, el, k) v _

/-- A keep register that a write has reached reads the value written. -/
theorem sysRead_setKeep {v : W64} {fr : Firing} (hctx : s.ctx? fr.names.part fr.ctx = some x)
    (hlow : 0x20 ≤ sel) (hhigh : sel < 0x28) :
    (s.modCtx fr.names.part fr.ctx fun y => y.setKeep fr.cluster fr.elem (sel - 0x20) v).sysRead fr sel = v := by
  have hkept := ctx?_modCtx (g := fun y => y.setKeep fr.cluster fr.elem (sel - 0x20) v) (fun _ => ⟨rfl, rfl, rfl⟩) hctx
  have hways : sel ≠ 0x40 := by omega
  simp only [State.sysRead, hkept, if_neg hways, hlow, hhigh, decide_true, Bool.and_self, if_true, keep_setKeep]

/-- XLATINV has no read class and reads 0 (R408). -/
theorem sysRead_xlatinv (s : State) (fr : Firing) : s.sysRead fr 0x81 = 0 := by
  rw [State.sysRead]
  cases s.ctx? fr.names.part fr.ctx <;> rfl

end

/-- Settles O21: the reads by the value of each selector, the writes by what the selector reads afterwards. -/
theorem systemRegisterWords : Obligations.SystemRegisterWords := by
  unfold Obligations.SystemRegisterWords
  rintro s f fr sel p x rfl hsel rfl hctx hgood
  refine ⟨fun hright => ⟨fun hother => ?read, fun hflags hrun => ?flagsrc⟩, congrArg _ (triggerValues_sends hgood ?workid),
    congrArg _ (triggerValues_sends hgood rfl), congrArg _ (triggerValues_sends hgood rfl),
    fun t v hport hdata hrun hfmt hpriv => ?writes⟩
  case read =>
    refine exec_rdsys_reads hsel hctx hgood hright ?_
    rw [readSels_keeps _ hother, List.nil_append, w64_toNat]
  case flagsrc =>
    refine exec_rdsys_reads hsel hctx hgood hright ?_
    rw [hflags, hrun]
    simp only [State.readSels, sysRead_flagsrc hctx]
    rfl
  case workid => simp only [hctx, w64_toNat]
  case writes =>
    obtain ⟨hport_good, -⟩ := Firing.ports_good hgood
    have hclean : t.poison = false := by simpa only [hport, poisonedTok] using hport_good
    have hword : wordFmt t.fmt = true := by simpa [wordFmt] using hfmt
    refine ⟨?registers, ?keeps, ?xlatinv⟩
    case registers =>
      rintro u hnamed rfl
      exact exec_wrsys_writes hsel hctx hpriv hport hclean hword hdata hrun (writeRight_context (by omega)) (by omega)
        (writeSel_register (by omega))
    case keeps =>
      rintro u hlow hhigh rfl
      rw [exec_wrsys_writes hsel hctx hpriv hport hclean hword hdata hrun (writeRight_context (by omega)) (by omega)
        (writeSel_keep hlow hhigh), sysRead_setKeep hctx hlow hhigh]
    case xlatinv =>
      intro u hinv hxlat
      have hright : writeRight sel = .p := by rw [hinv]; rfl
      rw [exec_wrsys_writes hsel hctx hpriv hport hclean hword hdata hrun hright (by omega)
        ((writeSel_xlatinv hinv).trans hxlat), hinv, sysRead_xlatinv]
      rfl

end Sys2Proof.Machine
end

section
/-! PROOFS. Ring words (O41): each queues one operation for each wave, unchecked. -/

namespace Sys2Proof.Machine

section
variable {s : State} {f : Fields} {t u : Token}

/-- What a ring word asks for where both operands stand at ports. -/
theorem ringAsk_ports {fr : Firing} (ha : fr.port f.sa.toNat = some t) (hb : fr.port f.sb.toNat = some u) (kind : OpKind)
    (fmt : Fmt) (j : Nat) : ringAsk fr f kind fmt j
      = { kind := kind, va := (tokEl u j).toNat, data := tokEl t j, data2 := tokEl u j, fmt := fmt } := by
  simp only [ringAsk, Firing.elemA_port ha, Firing.elemB_port hb]

/-- What it asks for where it has no operand B. -/
theorem ringAsk_single {fr : Firing} (ha : fr.port f.sa.toNat = some t) (hb : fr.port f.sb.toNat = none) (kind : OpKind)
    (fmt : Fmt) (j : Nat) : ringAsk fr f kind fmt j = { kind := kind, data := tokEl t j, fmt := fmt } := by
  simp only [ringAsk, Firing.elemA_port ha, Firing.elemB, hb]
  rfl

/-- A ring word that makes no check queues what it asks for, its operands once accepted. -/
theorem queues_unchecked {i : Instr} {op : Nat} {fmtOk : Bool} {shape out : Nat → Ask}
    (hexec : exec i s = .next (s.command f op fmtOk shape noCheck)) (hgood : s.run.cur.poisonOf f false = false)
    (hfmt : fmtOk = true) (hout : ∀ j, shape j = out j) : Queues s i f op ((upto s.run.cur.run).map out) :=
  queues_command hexec hgood hfmt fun j _ => by rw [hout]

theorem exec_mack_queues {ns : List Nat} (ha : s.run.cur.port f.sa.toNat = some t) (hfmt : t.fmt = .i64)
    (hgood : s.run.cur.poisonOf f false = false) (hns : s.i64B s.run.cur f = some ns) :
    Queues s (.mack f) f 0xD4 ((upto s.run.cur.run).map fun j =>
      { kind := .mack, va := (s.run.cur.elemB f j).toNat, data := tokEl t j, data2 := w64 (at! ns j 0), fmt := .i64 }) := by
  have hexec : exec (.mack f) s = .next (s.command f 0xD4 (s.run.cur.ringId f) (ringAsk s.run.cur f .mack .i64)
      (some fun t j a => ({ a with data2 := w64 (at! ns j 0) }, t))) := by
    show execMack f s = _
    rw [execMack, hns]
    rfl
  refine queues_command hexec hgood (Firing.portIs_fmt ha hfmt) fun j _ => ?_
  rw [ringAsk, Firing.elemA_port ha]

end

/-- Settles O41: the operands stand at their ports, and no check is made before the turn of the command comes. -/
theorem ringWords : Obligations.RingWords := by
  unfold Obligations.RingWords
  rintro s f t fr js rfl rfl ha hfmt hgood
  have hring : s.run.cur.ringId f = true := Firing.portIs_fmt ha hfmt
  refine ⟨fun u hb hau => ?both, fun hb => ?single, fun ns hns => ⟨_, exec_mack_queues ha hfmt hgood hns⟩⟩
  case both =>
    have hboth : (s.run.cur.ringId f && s.run.cur.portIs f.sb.toNat (· = .a)) = true := by
      rw [hring, Firing.portIs_fmt hb hau, Bool.and_self]
    exact ⟨queues_unchecked rfl hgood hboth (ringAsk_ports ha hb .msend .i64),
      queues_unchecked rfl hgood hboth (ringAsk_ports ha hb .mrecv .a)⟩
  case single =>
    exact ⟨queues_unchecked rfl hgood hring (ringAsk_single ha hb .mpeek .i64),
      queues_unchecked rfl hgood hring (ringAsk_single ha hb .ringdereg .i64)⟩

end Sys2Proof.Machine
end

section
/-! PROOFS. Words that report, stop, and speak of tasks (O19, O20). -/

namespace Sys2Proof.Machine

section
variable {s : State} {f : Fields} {t : Token} {x : Ctx}

/-! ### Operand A passed on (R404) -/

theorem infoOf_good (hgood : t.poison = false) (j : Nat) : infoOf t j = tokEl t j := by
  simp only [infoOf, hgood, Bool.false_eq_true, if_false]

/-- A good operand of one element for each wave is passed on as it is. -/
theorem echo_good (hgood : t.poison = false) (hlen : t.data.length = s.run.cur.run) : s.run.cur.echo f t = passRes s f t := by
  simp only [Firing.echo, passRes, hgood, Bool.false_eq_true, if_false, ← hlen, List.take_length]

theorem passWord_sends {g : State → Firing → Token → State} (ha : s.run.cur.port f.sa.toNat = some t) (hgood : t.poison = false)
    (hlen : t.data.length = s.run.cur.run) :
    s.passWord f g = (g s s.run.cur t).sendTo s.run.cur 0 f.da.toNat (passRes s f t) := by
  simp only [State.passWord, ha, echo_good hgood hlen]

/-! ### TRAP, BREAK, ASSERT and HALT (R405) -/

theorem raiseEach_good (hgood : t.poison = false) (s : State) (fr : Firing) (cause : Nat) :
    s.raiseEach fr t cause = recordEach s fr t cause (bits fr.slot.lit 15 0) := by
  simp only [State.raiseEach, State.forEach, recordEach, infoOf_good hgood]

theorem heldOuts_good (hgood : t.poison = false) (hlen : t.data.length = s.run.cur.run) : s.run.cur.heldOuts f t
    = (upto s.run.cur.run).map fun j => ⟨s.run.cur, f.da.toNat,
        { (passRes s f t).token s.run.cur.ctx with wave := s.run.cur.wave + j, data := [tokEl t j] }⟩ := by
  simp only [Firing.heldOuts, echo_good hgood hlen]
  rfl

theorem brkOf_of (hctx : s.ctx? s.run.cur.names.part s.run.cur.ctx = some x) :
    s.brkOf s.run.cur.names.part s.run.cur.ctx = x.brk := by simp only [State.brkOf, hctx]

/-- A predicate of which every element is true passes without a record. -/
theorem assertRecord_true {fr : Firing} (hgood : t.poison = false) (htrue : ∀ j ∈ upto fr.run, (tokEl t j).toNat % 2 = 1) :
    s.assertRecord fr t = s := by
  have hnone : ((upto fr.run).filter fun j => (tokEl t j).toNat % 2 == 0) = [] :=
    List.filter_eq_nil_iff.2 fun j hj => by simp [htrue j hj]
  simp only [State.assertRecord, hgood, Bool.false_eq_true, if_false, hnone]

/-- The first of the numbers below `n` that a test admits heads those that it admits. -/
theorem filter_upto_head {p : Nat → Bool} {n k : Nat} (hk : k < n) (hp : p k = true) (hfirst : ∀ j, j < k → p j = false) :
    ∃ r, (upto n).filter p = k :: r := by
  have hbelow : (upto k).filter p = [] :=
    List.filter_eq_nil_iff.2 fun j hj => by rw [hfirst j (List.mem_range.1 hj)]; exact Bool.false_ne_true
  have hsplit : upto n = upto k ++ (upto (n - k)).map (k + ·) := by
    rw [upto, upto, upto, ← List.range_add, Nat.add_sub_cancel' hk.le]
  obtain ⟨d, hd⟩ : ∃ d, n - k = d + 1 := ⟨n - k - 1, by omega⟩
  rw [hsplit, List.filter_append, hbelow, hd, upto, List.range_succ_eq_map, List.map_cons, Nat.add_zero, List.nil_append,
    List.filter_cons_of_pos hp]
  exact ⟨_, rfl⟩

/-- The record of an ASSERT stands at its first false element and counts the false ones. -/
theorem assertRecord_false {fr : Firing} (hgood : t.poison = false) {k : Nat} (hk : k < fr.run)
    (hfalse : (tokEl t k).toNat % 2 = 0) (hfirst : ∀ j, j < k → (tokEl t j).toNat % 2 = 1) :
    s.assertRecord fr t = s.raise (fr.siteAt s k)
      { cause := 0x0F, sub := 1, code := bits fr.slot.lit 15 0,
        info := ((upto fr.run).filter fun j => (tokEl t j).toNat % 2 == 0).length } := by
  obtain ⟨r, hr⟩ := filter_upto_head (p := fun j => (tokEl t j).toNat % 2 == 0) hk (by simp [hfalse])
    (fun j hj => by simp [hfirst j hj])
  simp only [State.assertRecord, hgood, Bool.false_eq_true, if_false, hr]

section
variable (ha : s.run.cur.port f.sa.toNat = some t) (hgood : t.poison = false) (hlen : t.data.length = s.run.cur.run)
include ha hgood hlen

theorem exec_trap_sends : exec (.trap f) s = .next ((recordEach s s.run.cur t 0x0D (bits s.run.cur.slot.lit 15 0)).sendTo
    s.run.cur 0 f.da.toNat (passRes s f t)) := by
  show Host.Outcome.next (s.passWord f fun s fr a => s.raiseEach fr a 0x0D) = _
  rw [passWord_sends ha hgood hlen, raiseEach_good hgood]

theorem exec_break_sends (hctx : s.ctx? s.run.cur.names.part s.run.cur.ctx = some x) (hbrk : x.brk = false) :
    exec (.break f) s = .next ((recordEach s s.run.cur t 0x0E (bits s.run.cur.slot.lit 15 0)).sendTo
      s.run.cur 0 f.da.toNat (passRes s f t)) := by
  show execBreak f s = _
  simp only [execBreak, ha, brkOf_of hctx, hbrk, Bool.false_eq_true, if_false, raiseEach_good hgood, echo_good hgood hlen]

/-- BREAK under BRK halts the context once, and its results stay with it (log 56). -/
theorem exec_break_halts (hctx : s.ctx? s.run.cur.names.part s.run.cur.ctx = some x) (hbrk : x.brk = true) :
    exec (.break f) s = .next (((recordEach s s.run.cur t 0x0E (bits s.run.cur.slot.lit 15 0)).modCtx s.run.cur.names.part
      s.run.cur.ctx fun y => { y with halted := true }).modCtx s.run.cur.names.part s.run.cur.ctx fun y =>
        { y with resume := y.resume ++ (upto s.run.cur.run).map fun j => ⟨s.run.cur, f.da.toNat,
          { (passRes s f t).token s.run.cur.ctx with wave := s.run.cur.wave + j, data := [tokEl t j] }⟩ }) := by
  show execBreak f s = _
  simp only [execBreak, ha, brkOf_of hctx, hbrk, if_true, raiseEach_good hgood, heldOuts_good hgood hlen]
  rfl

theorem exec_assert_sends (hfmt : t.fmt = .p) : exec (.assert f) s
    = .next ((s.assertRecord s.run.cur t).sendTo s.run.cur 0 f.da.toNat (passRes s f t)) := by
  show execAssert f s = _
  have hp : (decide (t.fmt ≠ .p) && !t.poison) = false := by simp [hfmt]
  simp only [execAssert, ha, hp, Bool.false_eq_true, if_false, passWord_sends ha hgood hlen]

/-! ### ELOG and YIELD (R411) -/

theorem exec_elog_sends : exec (.elog f) s = .next (((upto s.run.cur.run).foldl (fun u j =>
    u.pushThyme (clusterStrip s.run.cur.cluster) (thymeEvt (bits s.run.cur.slot.lit 15 0) 1 s.run.cur.ctx
      (u.asidOf s.run.cur.names.part s.run.cur.ctx) (s.run.cur.wave + j) (tokEl t j))) s).sendTo s.run.cur 0 f.da.toNat
    (passRes s f t)) := by
  show execElog f s = _
  rw [execElog, passWord_sends ha hgood hlen]
  simp only [State.forEach, infoOf_good hgood]

end

theorem exec_halt_halts (ha : s.run.cur.port f.sa.toNat = some t) (hgood : t.poison = false) : exec (.halt f) s
    = .next ((s.raise (s.run.cur.site s)
        { cause := 0x10, sub := 0, info := (tokEl t 0).toNat, code := bits s.run.cur.slot.lit 15 0 }).modCtx
      s.run.cur.names.part s.run.cur.ctx fun y => { y with halted := true }) := by
  show execHalt f s = _
  simp only [execHalt, ha, infoOf_good hgood]
  rfl

end

/-- Settles O19 (log 56: BREAK under BRK): each word does its work for a good operand, which it passes on. -/
theorem reportWords : Obligations.ReportWords := by
  unfold Obligations.ReportWords
  rintro s f t fr code p x rfl ha hlen hgood rfl rfl hctx
  refine ⟨exec_trap_sends ha hgood hlen, exec_break_sends ha hgood hlen hctx, exec_break_halts ha hgood hlen hctx,
    fun hfmt => ⟨fun htrue => ?passes, fun k hk hfalse hfirst => ?fails⟩, exec_halt_halts ha hgood,
    exec_elog_sends ha hgood hlen, congrArg Host.Outcome.next (passWord_sends ha hgood hlen)⟩
  case passes => rw [exec_assert_sends ha hgood hlen hfmt, assertRecord_true hgood htrue]
  case fails => rw [exec_assert_sends ha hgood hlen hfmt, assertRecord_false hgood hk hfalse hfirst]

/-! ### TASKDONE, SYSCALL and TASKSPAWN (R401, R406, R410) -/

section
variable {s : State} {f : Fields} {t : Token} {x : Ctx}

theorem exec_taskdone_eq (hgood : s.run.cur.poisonOf f false = false)
    (hctx : s.ctx? s.run.cur.names.part s.run.cur.ctx = some x) : exec (.taskdone f) s
      = .next (if x.root ≠ x.id then s.raise (s.run.cur.site s) { cause := 0x01, sub := 7 }
        else s.modCtx s.run.cur.names.part s.run.cur.ctx fun y => { y with done := true }) := by
  show execTaskdone f s = _
  simp only [execTaskdone, hgood, Bool.false_eq_true, if_false, hctx]
  split <;> rfl

/-- A chained word whose operands are good and of its formats queues what it asks for. -/
theorem queues_chainedWord {i : Instr} {op : Nat} {fmtOk : Bool} {shape out : Nat → Ask}
    (hexec : exec i s = .next (s.chainedWord f op fmtOk shape)) (hgood : s.run.cur.poisonOf f false = false)
    (hfmt : fmtOk = true) (hout : ∀ j, { shape j with dead := false } = out j) :
    Queues s i f op ((upto s.run.cur.run).map out) := by
  rw [Queues, QueuesFrom, hexec]
  simp only [State.chainedWord, hgood, hfmt, Bool.not_true, Bool.and_false, Bool.or_self, Bool.false_eq_true, if_false, hout]

theorem Firing.portIs_word {fr : Firing} {sel : Nat} (hport : fr.port sel = some t) (hfmt : t.fmt = .i64 ∨ t.fmt = .a) :
    fr.portIs sel wordFmt = true := by
  simpa [Firing.portIs, hport, wordFmt] using hfmt

theorem exec_syscall_single (ha : s.run.cur.port f.sa.toNat = some t) (hfmt : t.fmt = .i64 ∨ t.fmt = .a) (hsb : f.sb = 0x7F)
    (hgood : s.run.cur.poisonOf f false = false) :
    Queues s (.syscall f) f 0xE1 ((upto s.run.cur.run).map fun j => { kind := .syscall, data := tokEl t j, fmt := .i64 }) := by
  refine queues_chainedWord rfl hgood (by rw [Firing.portIs_word ha hfmt, hsb]; rfl) fun j => ?_
  rw [Firing.elemA_port ha, Firing.elemB, hsb]
  rfl

theorem exec_syscall_both {u : Token} (ha : s.run.cur.port f.sa.toNat = some t) (hfmt : t.fmt = .i64 ∨ t.fmt = .a)
    (hb : s.run.cur.port f.sb.toNat = some u) (hfmtB : u.fmt = .i64 ∨ u.fmt = .a) (hgood : s.run.cur.poisonOf f false = false) :
    Queues s (.syscall f) f 0xE1 ((upto s.run.cur.run).map fun j =>
      { kind := .syscall, data := tokEl t j, data2 := tokEl u j, fmt := .i64 }) := by
  refine queues_chainedWord rfl hgood (by rw [Firing.portIs_word ha hfmt, Firing.portIs_word hb hfmtB]; simp) fun j => ?_
  rw [Firing.elemA_port ha, Firing.elemB_port hb]

theorem exec_taskspawn_queues (ha : s.run.cur.port f.sa.toNat = some t) (hfmt : t.fmt = .a)
    (hgood : s.run.cur.poisonOf f false = false) :
    Queues s (.taskspawn f) f 0xE7 ((upto s.run.cur.run).map fun j => { kind := .spawn, va := (tokEl t j).toNat, fmt := .i64 }) := by
  have hexec : exec (.taskspawn f) s = .next (s.chainedWord f 0xE7 (s.run.cur.portIs f.sa.toNat (· = .a))
      fun j => { kind := .spawn, va := (s.run.cur.elemA f j).toNat, fmt := .i64 }) := by
    show execTaskspawn f s = _
    simp only [execTaskspawn, hgood, Bool.false_eq_true, if_false]
  refine queues_chainedWord hexec hgood (Firing.portIs_fmt ha hfmt) fun j => ?_
  rw [Firing.elemA_port ha]

end

/-- Settles O20: TASKDONE by the context that the task made, the others by their operands at the ports. -/
theorem taskWords : Obligations.TaskWords := by
  unfold Obligations.TaskWords
  rintro s f t fr js x rfl rfl ha hgood hctx
  refine ⟨fun hroot => ?done, fun hroot => ?notRoot, fun hfmt => ⟨fun hsb => exec_syscall_single ha hfmt hsb hgood,
    fun u hb hfmtB => exec_syscall_both ha hfmt hb hfmtB hgood⟩, fun hfmt => exec_taskspawn_queues ha hfmt hgood⟩
  case done => rw [exec_taskdone_eq hgood hctx, if_neg (not_not_intro hroot)]
  case notRoot => rw [exec_taskdone_eq hgood hctx, if_pos hroot]

end Sys2Proof.Machine
end

section
/-! PROOFS. The tile words of an element (O42): their references checked in wave order, then the words. -/

namespace Sys2Proof.Machine

section
variable {s : State} {f : Fields} {t u : Token} {i : Instr}

/-! ### Tile words whose references are good (R303, R305) -/

/-- The check of the references among the operands `x` and `y` of element `j` (R303, R305). -/
def State.checkTile (s : State) (fr : Firing) (fa fb : Fmt) (twoRefs : Bool) (j : Nat) (x y : W64) (a : Ask) : Ask × State :=
  match tileRef fa x false with
  | .error e => s.stopAsk fr j a e
  | .ok _ =>
    if twoRefs then
      match tileRef fb y false with
      | .error e => s.stopAsk fr j a e
      | .ok _ => (a, s)
    else (a, s)

theorem checkTile_good {fr : Firing} {fa fb : Fmt} {twoRefs : Bool} {x y : W64} (j : Nat) (a : Ask)
    (hx : ∃ r, tileRef fa x false = .ok r) (hy : twoRefs = true → ∃ r, tileRef fb y false = .ok r) :
    s.checkTile fr fa fb twoRefs j x y a = (a, s) := by
  obtain ⟨r, hr⟩ := hx
  cases twoRefs with
  | false => simp only [State.checkTile, hr, Bool.false_eq_true, if_false]
  | true =>
    obtain ⟨q, hq⟩ := hy rfl
    simp only [State.checkTile, hr, hq, if_true]

/-- The format of the token on a port, T where there is none. -/
def Firing.refFmtOf (fr : Firing) (sel : Nat) : Fmt := match fr.port sel with
  | some t => t.fmt
  | none => .t

theorem Firing.refFmtOf_port {fr : Firing} {sel : Nat} (hport : fr.port sel = some t) : fr.refFmtOf sel = t.fmt := by
  simp only [Firing.refFmtOf, hport]

/-- A tile word whose operands are accepted presents what the checks of its references leave. -/
theorem tileWord_checked {op : Nat} {twoRefs : Bool} {bs : List Nat} {shape : W64 → W64 → Ask}
    (hgood : s.run.cur.poisonOf f false = false) {x : List Ask × State}
    (hchecked : s.checkedInOrder (fun u j => u.checkTile s.run.cur (s.run.cur.refFmtOf f.sa.toNat)
      (s.run.cur.refFmtOf f.sb.toNat) twoRefs j (s.run.cur.elemA f j) (w64 (at! bs j 0))
      (shape (s.run.cur.elemA f j) (w64 (at! bs j 0)))) (upto s.run.cur.run) = x) :
    s.tileWord f op true (some bs) twoRefs shape = x.2.present s.run.cur f op x.1 := by
  simp only [State.tileWord, hgood, Bool.not_true, Bool.false_eq_true, if_false]
  exact congrArg (fun x : List Ask × State => x.2.present s.run.cur f op x.1) hchecked

/-- A tile word whose references are good presents one operation for each wave. -/
theorem tileWord_good {op : Nat} {twoRefs : Bool} {bs : List Nat} {shape : W64 → W64 → Ask}
    (ha : s.run.cur.port f.sa.toNat = some t) (hgood : s.run.cur.poisonOf f false = false)
    (hrefs : ∀ j ∈ upto s.run.cur.run, ∃ r, tileRef t.fmt (tokEl t j) false = .ok r)
    (htwo : twoRefs = true → ∀ j ∈ upto s.run.cur.run, ∃ r,
      tileRef (s.run.cur.refFmtOf f.sb.toNat) (w64 (at! bs j 0)) false = .ok r) :
    s.tileWord f op true (some bs) twoRefs shape
      = s.present s.run.cur f op ((upto s.run.cur.run).map fun j => shape (tokEl t j) (w64 (at! bs j 0))) := by
  refine tileWord_checked hgood (checkedInOrder_pure fun j hj => ?_)
  rw [Firing.elemA_port ha, Firing.refFmtOf_port ha]
  exact checkTile_good j _ (hrefs j hj) fun h => htwo h j hj

/-- The same where operand B is no reference. -/
theorem tileWord_single {op : Nat} {bs : List Nat} {shape : W64 → W64 → Ask}
    (ha : s.run.cur.port f.sa.toNat = some t) (hgood : s.run.cur.poisonOf f false = false)
    (hrefs : ∀ j ∈ upto s.run.cur.run, ∃ r, tileRef t.fmt (tokEl t j) false = .ok r) :
    s.tileWord f op true (some bs) false shape
      = s.present s.run.cur f op ((upto s.run.cur.run).map fun j => shape (tokEl t j) (w64 (at! bs j 0))) :=
  tileWord_good ha hgood hrefs nofun

/-- The elements of a port as numbers stand for the elements of its token. -/
theorem elems_port {fr : Firing} {sel : Nat} (hport : fr.port sel = some u) :
    fr.elems sel = some (padTo fr.run (u.data.map BitVec.toNat)) := by simp only [Firing.elems, hport, Option.map_some]

theorem at!_padTo {n j : Nat} (hj : j ∈ upto n) (xs : List Nat) : at! (padTo n xs) j 0 = at! xs j 0 :=
  at!_map_upto _ _ _ _ (List.mem_range.1 hj)

theorem w64_at!_toNat (xs : List W64) (j : Nat) : w64 (at! (xs.map BitVec.toNat) j 0) = at! xs j 0 := by
  rw [show (0 : Nat) = BitVec.toNat (0 : W64) from rfl, at!_map, w64_toNat]

theorem Firing.portIs_ref {fr : Firing} {sel : Nat} (hport : fr.port sel = some t) (hfmt : t.fmt = .t ∨ t.fmt = .a) :
    fr.portIs sel refFmt = true := by
  simpa [Firing.portIs, hport, refFmt] using hfmt

/-- A reference of level 3 names nothing at an element (R305, R316). -/
theorem tileRef_island {v : W64} (hlevel : bits v 63 61 = 3) : tileRef .t v false = .error (tileTrap 0) := by
  simp [tileRef, hlevel]

/-! ### TCVT, TSTAT, TSLICE and TBUILD (R310, R314, R330, R331) -/

section
variable (ha : s.run.cur.port f.sa.toNat = some t) (hgood : s.run.cur.poisonOf f false = false)
include ha hgood

section
variable (hfmt : t.fmt = .t ∨ t.fmt = .a) (hrefs : ∀ j ∈ upto s.run.cur.run, ∃ r, tileRef t.fmt (tokEl t j) false = .ok r)
include hfmt hrefs

theorem exec_tcvt_begins (hb : s.run.cur.port f.sb.toNat = some u) (hfmtB : u.fmt = .t ∨ u.fmt = .a)
    (hrefsB : ∀ j ∈ upto s.run.cur.run, ∃ r, tileRef u.fmt (tokEl u j) false = .ok r) :
    TilesFrom s s (.tcvt f) f 0xA4 ((upto s.run.cur.run).map fun j =>
      { kind := .tcvt, data := tokEl t j, data2 := tokEl u j, fmt := .t }) := by
  have hel : ∀ j ∈ upto s.run.cur.run, w64 (at! (padTo s.run.cur.run (u.data.map BitVec.toNat)) j 0) = tokEl u j :=
    fun j hj => by rw [at!_padTo hj, w64_at!_toNat]
  have hasks : ((upto s.run.cur.run).map fun j => ({ kind := .tcvt, data := tokEl t j, data2 := tokEl u j, fmt := .t } : Ask))
      = (upto s.run.cur.run).map fun j =>
          { kind := .tcvt, data := tokEl t j, data2 := w64 (at! (padTo s.run.cur.run (u.data.map BitVec.toNat)) j 0), fmt := .t } :=
    List.map_congr_left fun j hj => by rw [hel j hj]
  show execTcvt f s = _
  rw [execTcvt, Firing.portIs_ref ha hfmt, Firing.portIs_ref hb hfmtB, Bool.and_self, elems_port hb,
    tileWord_good ha hgood hrefs, hasks]
  rw [Firing.refFmtOf_port hb]
  exact fun _ j hj => by rw [hel j hj]; exact hrefsB j hj

theorem exec_tstat_begins : TilesFrom s s (.tstat f) f 0xAA ((upto s.run.cur.run).map fun j =>
    { kind := .tstat, data := tokEl t j, fmt := .i64 }) := by
  show execTstat f s = _
  rw [execTstat, Firing.portIs_ref ha hfmt, tileWord_single ha hgood hrefs]

section
variable {v : List Nat} {w : Nat} (hown : s.ownSource s.run.cur f.sb.toNat = some (v, w))
include hown

theorem exec_tslice_begins : TilesFrom s s (.tslice f) f 0xAC ((upto s.run.cur.run).map fun j =>
    { kind := .tslice, data := tokEl t j, data2 := w64 (at! v j 0), fmt := .p }) := by
  show execTslice f s = _
  rw [execTslice, Firing.portIs_ref ha hfmt, hown, Option.map_some, tileWord_single ha hgood hrefs]

theorem exec_tbuild_begins : TilesFrom s s (.tbuild f) f 0xAD ((upto s.run.cur.run).map fun j =>
    { kind := .tbuild, data := tokEl t j, data2 := w64 (at! v j 0), fmt := .t }) := by
  show execTbuild f s = _
  rw [execTbuild, Firing.portIs_ref ha hfmt, hown, Option.map_some, tileWord_single ha hgood hrefs]

end
end

/-- A TSTAT in a firing of run 1 on a reference into an island is refused (R303). -/
theorem exec_tstat_refused (hfmt : t.fmt = .t) (hrun : s.run.cur.run = 1) (hlevel : bits (tokEl t 0) 63 61 = 3) :
    TilesFrom (s.raise (s.run.cur.siteAt s 0) { cause := 3, sub := 2 }) s (.tstat f) f 0xAA
      [{ kind := .tstat, data := tokEl t 0, fmt := .i64, dead := true }] := by
  show execTstat f s = _
  rw [execTstat, Firing.portIs_ref ha (.inl hfmt), tileWord_checked hgood rfl]
  simp only [State.checkedInOrder, hrun, upto, List.range_one, List.foldl_cons, List.foldl_nil, Firing.elemA_port ha,
    Firing.refFmtOf_port ha, hfmt, State.checkTile, tileRef_island hlevel]
  rfl

/-! ### Words of aligned lines: CBLOAD and GEMVB (R313, R332) -/

/-- A line word whose addresses are aligned presents one operation for each wave. -/
theorem lineWord_aligned {op : Nat} {kind : OpKind} {fmt : Fmt} (hfmt : t.fmt = .a)
    (halign : ∀ j ∈ upto s.run.cur.run, (tokEl t j).toNat % 64 = 0) :
    s.lineWord f op kind fmt = s.present s.run.cur f op ((upto s.run.cur.run).map fun j =>
      { kind := kind, va := (tokEl t j).toNat, data := tokEl t j, data2 := tokEl t j, fmt := fmt }) := by
  have haddressed : s.run.cur.addressed f = true := by simp only [Firing.addressed, Firing.fmtOf_port ha, hfmt, decide_true]
  have hchecked : s.checkedInOrder (fun u j => u.checkLine s.run.cur f kind fmt j) (upto s.run.cur.run)
      = ((upto s.run.cur.run).map fun j =>
          { kind := kind, va := (tokEl t j).toNat, data := tokEl t j, data2 := tokEl t j, fmt := fmt }, s) :=
    checkedInOrder_pure fun j hj => by
      simp only [State.checkLine, Firing.elemA_port ha, halign j hj, ne_eq, not_true_eq_false, if_false]
  simp only [State.lineWord, hgood, haddressed, Bool.not_true, Bool.false_eq_true, if_false]
  exact congrArg (fun x : List Ask × State => x.2.present s.run.cur f op x.1) hchecked

end
end

/-- Settles O42: the references of each word pass their check, and so what it asks for is presented as it stands. -/
theorem tileElementWords : Obligations.TileElementWords := by
  unfold Obligations.TileElementWords
  rintro s f t fr js rfl rfl ha hgood
  refine ⟨fun hfmt hrefs => ⟨fun u hb hfmtB hrefsB => exec_tcvt_begins ha hgood hfmt hrefs hb hfmtB hrefsB,
    exec_tstat_begins ha hgood hfmt hrefs, fun v w hown => ⟨exec_tslice_begins ha hgood hfmt hrefs hown,
      exec_tbuild_begins ha hgood hfmt hrefs hown⟩⟩, exec_tstat_refused ha hgood, fun hfmt halign => ⟨?cbload, ?gemvb⟩⟩
  case cbload =>
    show Host.Outcome.next (s.lineWord f 0xA9 .cbload .a).2 = _
    rw [lineWord_aligned ha hgood hfmt halign]
  case gemvb =>
    show Host.Outcome.next ((s.lineWord f 0xA8 .gemvb .a).2.launchTiles (s.lineWord f 0xA8 .gemvb .a).1) = _
    rw [lineWord_aligned ha hgood hfmt halign]

end Sys2Proof.Machine
end

section
/-! PROOFS. The words of a matrix island (O43, O44): what the firing of a node adds, how an operand passes its check, then the
words. -/

namespace Sys2Proof.Machine

section
variable {s : State} {f : Fields} {t u : Token} {i : Instr}

/-! ### The operations that a firing adds (R318) -/

/-- The state with other engine operations and another next identifier, in which a firing's operations are made one by one. -/
def State.numbered (s : State) (n : Nat) (es : List EngOp) : State :=
  { s with run := { s.run with nextId := n }, work := { s.work with engs := es } }

/-- The operation of wave `j` of the latched firing with the operands `as`, the reads `ps` and the phases and formats `q`. -/
def nodeOp (s : State) (f : Fields) (id j : Nat) (as : List W64) (ps : List Piece) (q : List Nat) : EngOp :=
  { nodeEng s s.run.cur f id j with args := as, pieces := ps, params := q }

/-- The check of the operands leaves the state as it is and gives wave `j` its operands and its reads. -/
def Prepares (s : State) (f : Fields) (prep : State → EngOp → State × EngOp) (args : Nat → List W64)
    (pieces : Nat → List Piece) : Prop :=
  ∀ n es id j, j ∈ upto s.run.cur.run → ∃ q,
    prep (s.numbered n es) (nodeEng s s.run.cur f id j) = (s.numbered n es, nodeOp s f id j (args j) (pieces j) q)

/-- A firing none of whose operands is poisoned or refused adds one operation for each wave. -/
theorem nodeWord_adds {memory : Bool} {prep : State → EngOp → State × EngOp} {args : Nat → List W64} {pieces : Nat → List Piece}
    (ha : poisonedTok (s.run.cur.port f.sa.toNat) = false) (hb : poisonedTok (s.run.cur.port f.sb.toNat) = false)
    (hprep : Prepares s f prep args pieces) : ∃ n es, s.nodeWord f memory prep = s.numbered n (s.work.engs ++ es) ∧
      List.Forall₂ (fun j e => ∃ id q, e = nodeOp s f id j (args j) (pieces j) q) (upto s.run.cur.run) es := by
  simp only [State.nodeWord, ha, hb, Bool.or_self, Bool.false_eq_true, if_false]
  have hfold (js : List Nat) (hjs : ∀ j ∈ js, j ∈ upto s.run.cur.run) (n : Nat) (es : List EngOp) : ∃ n' es',
      js.foldl (fun (s₁ : State) j =>
        let e := nodeEng s₁.newId.2 s.run.cur f s₁.newId.1 j
        { (prep s₁.newId.2 e).1 with work := { (prep s₁.newId.2 e).1.work with
            engs := (prep s₁.newId.2 e).1.work.engs ++ [(prep s₁.newId.2 e).2] } }) (s.numbered n es)
        = s.numbered n' (es ++ es') ∧
      List.Forall₂ (fun j e => ∃ id q, e = nodeOp s f id j (args j) (pieces j) q) js es' := by
    induction js generalizing n es with
    | nil => exact ⟨n, [], by rw [List.append_nil]; rfl, .nil⟩
    | cons j js ih =>
      obtain ⟨hj, hjs⟩ := List.forall_mem_cons.1 hjs
      obtain ⟨q, hq⟩ := hprep (n + 1) es n j hj
      obtain ⟨n', es', hes, hall⟩ := ih hjs (n + 1) (es ++ [nodeOp s f n j (args j) (pieces j) q])
      refine ⟨n', nodeOp s f n j (args j) (pieces j) q :: es', ?_, .cons ⟨n, q, rfl⟩ hall⟩
      rw [List.append_cons, ← hes, List.foldl_cons]
      have hstep : prep (s.numbered n es).newId.2 (nodeEng (s.numbered n es).newId.2 s.run.cur f (s.numbered n es).newId.1 j)
          = (s.numbered (n + 1) es, nodeOp s f n j (args j) (pieces j) q) := hq
      simp only [hstep]
      rfl
  exact hfold _ (fun _ hj => hj) s.run.nextId s.work.engs

/-- A word of a node whose operands pass their checks starts one operation for each wave. -/
theorem nodeStarts_nodeWord {memory : Bool} {prep : State → EngOp → State × EngOp} {args : Nat → List W64}
    {pieces : Nat → List Piece} (hexec : exec i s = .next (s.nodeWord f memory prep))
    (ha : poisonedTok (s.run.cur.port f.sa.toNat) = false) (hb : poisonedTok (s.run.cur.port f.sb.toNat) = false)
    (hprep : Prepares s f prep args pieces) : NodeStarts s i args pieces := by
  obtain ⟨n, es, hword, hall⟩ := nodeWord_adds (memory := memory) ha hb hprep
  have hlen : es.length = s.run.cur.run := by simpa [upto] using hall.length_eq.symm
  refine ⟨_, es, hexec.trans (congrArg _ hword), rfl, hlen, rfl, rfl, rfl, rfl, rfl, rfl, fun j e he => ?_⟩
  obtain ⟨hj, rfl⟩ := List.getElem?_eq_some_iff.1 he
  obtain ⟨id, q, hop⟩ := hall.get (by simpa [upto, hlen] using hj) hj
  simp only [upto, List.get_eq_getElem, List.getElem_range] at hop
  rw [hop]
  exact ⟨rfl, rfl, rfl, rfl, rfl, rfl, rfl, rfl, rfl, rfl⟩

/-! ### Operands (R316, R321) -/

/-- Element `j` of the token on a port, 0 where there is none. -/
def Firing.portEl (fr : Firing) (sel j : Nat) : W64 := match fr.port sel with
  | some t => tokEl t j
  | none => 0

/-- The format code of the token on a port, 15 where there is none. -/
def Firing.portCode (fr : Firing) (sel : Nat) : Nat := match fr.port sel with
  | some t => t.fmt.code
  | none => 15

theorem Firing.portEl_some {fr : Firing} {sel : Nat} (hport : fr.port sel = some t) (j : Nat) : fr.portEl sel j = tokEl t j := by
  simp only [Firing.portEl, hport]

theorem Firing.portEl_none {fr : Firing} {sel : Nat} (hport : fr.port sel = none) (j : Nat) : fr.portEl sel j = 0 := by
  simp only [Firing.portEl, hport]

theorem Firing.portCode_some {fr : Firing} {sel : Nat} (hport : fr.port sel = some t) : fr.portCode sel = t.fmt.code := by
  simp only [Firing.portCode, hport]

/-- The phases and formats with which an operation of the latched firing begins. -/
def nodeParams (s : State) (f : Fields) : List Nat :=
  [2, 2, s.run.cur.portCode f.sa.toNat, s.run.cur.portCode f.sb.toNat, s.run.cur.stopOf f, 0]

theorem nodeEng_eq (s : State) (f : Fields) (id j : Nat) : nodeEng s s.run.cur f id j
    = nodeOp s f id j [s.run.cur.portEl f.sa.toNat j, s.run.cur.portEl f.sb.toNat j] [] (nodeParams s f) := rfl

theorem codeA_nodeParams (ha : TileTok s f.sa.toNat t) : at! (nodeParams s f) 2 15 = Fmt.t.code := by
  obtain ⟨hport, -, hfmt⟩ := ha
  exact (Firing.portCode_some hport).trans (congrArg Fmt.code hfmt)

theorem codeB_nodeParams (hb : TileTok s f.sb.toNat u) : at! (nodeParams s f) 3 15 = Fmt.t.code := by
  obtain ⟨hport, -, hfmt⟩ := hb
  exact (Firing.portCode_some hport).trans (congrArg Fmt.code hfmt)

section
variable {id j n : Nat} {as : List W64} {ps pz : List Piece} {q : List Nat} {es : List EngOp} {b read : Bool} {rule : RefRule}
  {r : TileRef} {v : W64}

theorem ref_nodeOp (hcode : at! q (if b then 3 else 2) 15 = Fmt.t.code) (harg : at! as (if b then 1 else 0) 0 = v) :
    (nodeOp s f id j as ps q).ref b = tileRef .t v true := by
  have hfmt : (Fmt.ofCode (at! (nodeOp s f id j as ps q).params (if b then 3 else 2) 15)).getD .i64 = .t :=
    congrArg (fun c => (Fmt.ofCode c).getD .i64) hcode
  have hnamed : at! (nodeOp s f id j as ps q).args (if b then 1 else 0) 0 = v := harg
  simp only [EngOp.ref, hfmt, hnamed]
  rfl

/-- The operand is of a kind that the rule takes and that nothing is read for. -/
def RefRule.keeps (rule : RefRule) (read : Bool) : TileRef → Bool
  | .mem _ _ => rule.mem && !read
  | .acc _ => rule.acc
  | .slot _ => rule.slot

theorem nodeOperand_keeps {e : EngOp} (href : e.ref b = .ok r) (htakes : rule.keeps read r = true) :
    s.nodeOperand e b rule read = .ok e := by
  cases r with
  | mem lv a =>
    obtain ⟨hmem, hread⟩ := (Bool.and_eq_true _ _).mp htakes
    have hread : read = false := by simpa using hread
    simp only [State.nodeOperand, href, hmem, hread, Bool.not_true, Bool.false_eq_true, if_false]
  | acc i => simp only [State.nodeOperand, href, show rule.acc = true from htakes, if_true]
  | slot i => simp only [State.nodeOperand, href, show rule.slot = true from htakes, if_true]

/-- An operand that names a packet passes with the reads that it begins with; the formats stay. -/
theorem nodeOperand_packet (hreads : PacketReads s t j b (nodeOp s f id j as pz q).nextPiece ps)
    (href : (nodeOp s f id j as pz q).ref b = tileRef .t (tokEl t j) true) (hmem : rule.mem = true)
    (hslot : rule.slot = true ∨ ps ≠ []) : ∃ q', (∀ k, 1 < k → at! q' k 15 = at! q k 15) ∧
      (s.numbered n es).nodeOperand (nodeOp s f id j as pz q) b rule true = .ok (nodeOp s f id j as (pz ++ ps) q') := by
  rcases hreads with ⟨⟨i, hi⟩, rfl⟩ | ⟨lv, a, ia, hi, hcheck, rfl⟩
  · have htakes : rule.keeps true (.slot i) = true := hslot.resolve_right (not_not_intro rfl)
    exact ⟨q, fun _ _ => rfl, by rw [List.append_nil]; exact nodeOperand_keeps (href.trans hi) htakes⟩
  · refine ⟨setAt q (if b then 1 else 0) 0, fun k hk => at!_setAt_ne _ (by split <;> omega) _ _, ?_⟩
    have hpacket : (s.numbered n es).packetCheck (nodeOp s f id j as pz q) lv a 32 { rd := true } = .ok ia := hcheck
    simp only [State.nodeOperand, href.trans hi, hmem, Bool.not_true, Bool.false_eq_true, if_false, if_true, State.nodeRead,
      hpacket]
    rfl

theorem nodePrep_ok {e e' : EngOp} {l : List (Bool × RefRule × Bool)} (h : s.nodeOperand e b rule read = .ok e') :
    s.nodePrep e ((b, rule, read) :: l) = s.nodePrep e' l := by
  simp only [State.nodePrep, h]

end

section
variable {rule ruleB : RefRule} {read readB : Bool} {h g : Nat → List Piece}

/-- A word with references in A, which nothing is read for, and no more operands that it checks. -/
theorem prepares_single (ha : TileTok s f.sa.toNat t)
    (hrefs : ∀ j ∈ upto s.run.cur.run, ∃ r, tileRef .t (tokEl t j) true = .ok r ∧ rule.keeps read r = true) :
    Prepares s f (fun s e => s.nodePrep e [(false, rule, read)]) (fun j => [tokEl t j, s.run.cur.portEl f.sb.toNat j])
      (fun _ => []) := by
  intro n es id j hj
  obtain ⟨r, hr, htakes⟩ := hrefs j hj
  have href := (ref_nodeOp (s := s) (b := false) (f := f) (id := id) (j := j) (ps := []) (codeA_nodeParams ha)
    (as := [tokEl t j, s.run.cur.portEl f.sb.toNat j]) rfl).trans hr
  refine ⟨nodeParams s f, ?_⟩
  rw [nodeEng_eq, Firing.portEl_some ha.1]
  exact nodePrep_ok (nodeOperand_keeps href htakes)

theorem prepares_pair (ha : TileTok s f.sa.toNat t) (hb : TileTok s f.sb.toNat u)
    (hrefs : ∀ j ∈ upto s.run.cur.run, (∃ r, tileRef .t (tokEl t j) true = .ok r ∧ rule.keeps read r = true) ∧
      ∃ r, tileRef .t (tokEl u j) true = .ok r ∧ ruleB.keeps readB r = true) :
    Prepares s f (fun s e => s.nodePrep e [(false, rule, read), (true, ruleB, readB)]) (fun j => [tokEl t j, tokEl u j])
      (fun _ => []) := by
  intro n es id j hj
  obtain ⟨⟨r, hr, htakes⟩, r', hr', htakes'⟩ := hrefs j hj
  have href := (ref_nodeOp (s := s) (b := false) (f := f) (id := id) (j := j) (ps := []) (codeA_nodeParams ha)
    (as := [tokEl t j, tokEl u j]) rfl).trans hr
  have href' := (ref_nodeOp (s := s) (b := true) (f := f) (id := id) (j := j) (ps := []) (codeB_nodeParams hb)
    (as := [tokEl t j, tokEl u j]) rfl).trans hr'
  refine ⟨nodeParams s f, ?_⟩
  rw [nodeEng_eq, Firing.portEl_some ha.1, Firing.portEl_some hb.1]
  exact (nodePrep_ok (nodeOperand_keeps href htakes)).trans (nodePrep_ok (nodeOperand_keeps href' htakes'))

/-- A word with a packet in A. -/
theorem prepares_packet (ha : TileTok s f.sa.toNat t) (hmem : rule.mem = true)
    (hreads : ∀ j ∈ upto s.run.cur.run, PacketReads s t j false 1 (h j) ∧ h j ≠ []) :
    Prepares s f (fun s e => s.nodePrep e [(false, rule, true)]) (fun j => [tokEl t j, s.run.cur.portEl f.sb.toNat j]) h := by
  intro n es id j hj
  obtain ⟨hreads, hsome⟩ := hreads j hj
  obtain ⟨q, -, hq⟩ := nodeOperand_packet (f := f) (id := id) (n := n) (es := es) (pz := []) hreads
    (ref_nodeOp (as := [tokEl t j, s.run.cur.portEl f.sb.toNat j]) (codeA_nodeParams ha) rfl) hmem (.inr hsome)
  refine ⟨q, ?_⟩
  rw [nodeEng_eq, Firing.portEl_some ha.1]
  exact nodePrep_ok hq

/-- A word with packets in A and B, whose reads are numbered one behind the other. -/
theorem prepares_packets (ha : TileTok s f.sa.toNat t) (hb : TileTok s f.sb.toNat u)
    (hreads : ∀ j ∈ upto s.run.cur.run, PacketReads s t j false 1 (h j) ∧
      PacketReads s u j true ((h j).foldl (fun m x => max m (x.id + 1)) 1) (g j)) :
    Prepares s f (fun s e => s.nodePrep e [(false, anyPacket, true), (true, anyPacket, true)])
      (fun j => [tokEl t j, tokEl u j]) (fun j => h j ++ g j) := by
  intro n es id j hj
  obtain ⟨hreadsA, hreadsB⟩ := hreads j hj
  obtain ⟨q, hcodes, hq⟩ := nodeOperand_packet (f := f) (id := id) (n := n) (es := es) (rule := anyPacket) (pz := []) hreadsA
    (ref_nodeOp (as := [tokEl t j, tokEl u j]) (codeA_nodeParams ha) rfl) rfl (.inl rfl)
  have hcode : at! q 3 15 = Fmt.t.code := (hcodes 3 (by omega)).trans (codeB_nodeParams hb)
  obtain ⟨q', -, hq'⟩ := nodeOperand_packet (f := f) (id := id) (n := n) (es := es) (rule := anyPacket) (pz := h j) hreadsB
    (ref_nodeOp (as := [tokEl t j, tokEl u j]) hcode rfl) rfl (.inl rfl)
  refine ⟨q', ?_⟩
  rw [nodeEng_eq, Firing.portEl_some ha.1, Firing.portEl_some hb.1]
  exact (nodePrep_ok hq).trans (nodePrep_ok hq')

end

theorem poisonedTok_some {fr : Firing} {sel : Nat} (hport : fr.port sel = some t) (hgood : t.poison = false) :
    poisonedTok (fr.port sel) = false := by rw [hport]; exact hgood

theorem poisonedTok_none {fr : Firing} {sel : Nat} (hport : fr.port sel = none) : poisonedTok (fr.port sel) = false := by
  rw [hport]; rfl

end

/-- Settles O43: the operands of each word pass by the kind of their reference. -/
theorem islandWords : Obligations.IslandWords := by
  unfold Obligations.IslandWords
  rintro s f t fr js rfl rfl ha
  have hgoodA := poisonedTok_some ha.1 ha.2.1
  refine ⟨fun h hb hreads => ?tld, fun u hb => ⟨fun h g hreads => ?mma, fun hrefs => ?tst, fun hrefs => ?tadd⟩,
    fun hacc => ⟨fun hb => ?alone, fun u hb hgoodB => ?scaled⟩⟩
  case tld =>
    refine nodeStarts_nodeWord rfl hgoodA (poisonedTok_none hb) ?_
    simpa only [Firing.portEl_none hb] using prepares_packet (rule := memPacket) ha rfl hreads
  case mma =>
    have hprep := prepares_packets ha hb hreads
    have hgoodB := poisonedTok_some hb.1 hb.2.1
    exact ⟨nodeStarts_nodeWord rfl hgoodA hgoodB hprep, nodeStarts_nodeWord rfl hgoodA hgoodB hprep⟩
  case tst =>
    refine nodeStarts_nodeWord rfl hgoodA (poisonedTok_some hb.1 hb.2.1) (prepares_pair ha hb fun j hj => ?_)
    obtain ⟨⟨i, hsrc⟩, lv, a, hdst⟩ := hrefs j hj
    exact ⟨hsrc.elim (fun h => ⟨_, h, rfl⟩) fun h => ⟨_, h, rfl⟩, _, hdst, rfl⟩
  case tadd =>
    refine nodeStarts_nodeWord rfl hgoodA (poisonedTok_some hb.1 hb.2.1) (prepares_pair ha hb fun j hj => ?_)
    obtain ⟨⟨i, hsrc⟩, k, hother⟩ := hrefs j hj
    exact ⟨⟨_, hsrc, rfl⟩, _, hother, rfl⟩
  case alone =>
    have hprep : Prepares s f (fun s e => s.nodePrep e [(false, accOnly, false)]) (fun j => [tokEl t j, 0]) fun _ => [] := by
      simpa only [Firing.portEl_none hb] using prepares_single ha fun j hj => (hacc j hj).imp' _ fun i h => ⟨h, rfl⟩
    exact ⟨nodeStarts_nodeWord rfl hgoodA (poisonedTok_none hb) hprep, nodeStarts_nodeWord rfl hgoodA (poisonedTok_none hb) hprep⟩
  case scaled =>
    refine nodeStarts_nodeWord rfl hgoodA (poisonedTok_some hb hgoodB) ?_
    simpa only [Firing.portEl_some hb] using prepares_single ha fun j hj => (hacc j hj).imp' _ fun i h => ⟨h, rfl⟩

/-! ### TFILL (R328) -/

section
variable {s : State} {f : Fields} {t : Token} {k : Nat}

theorem Firing.port_low {fr : Firing} {sel : Nat} (h : sel < 0x40) : fr.port sel = none := by
  unfold Firing.port
  split
  case h_4 => rfl
  all_goals omega

/-- The selects of operand A are those of the word. -/
theorem sel_nodeEng {op : Nat} (hword : s.run.cur.slot.word = wordOf op f) (id j : Nat) :
    (nodeEng s s.run.cur f id j).sel false = f.sa.toNat := by
  have hsa : (wordOf op f).extractLsb' 13 7 = f.sa := congrArg Fields.sa (fieldsOf_wordOf op f)
  show s.run.cur.slot.word.toNat / 2 ^ 13 % 128 = _
  rw [hword, ← hsa, BitVec.extractLsb'_toNat, Nat.shiftRight_eq_div_pow]

end

/-- Settles O44: a constant is taken in the format that IKIND names, an element of a port as it stands. -/
theorem islandFill : Obligations.IslandFill := by
  unfold Obligations.IslandFill
  rintro s f fr want k rfl hword hsb hwant
  have hb : s.run.cur.port f.sb.toNat = none := by rw [hsb]; rfl
  have hfill (id j : Nat) : fillFmt (nodeEng s s.run.cur f id j).lit = want := hwant.symm
  refine ⟨fun hsa hk => ?constant, fun t ha hgood hfmt => ?port⟩
  case constant =>
    have ha : s.run.cur.port f.sa.toNat = none := Firing.port_low hsa
    refine nodeStarts_nodeWord rfl (poisonedTok_none ha) (poisonedTok_none hb) fun n es id j _ => ⟨nodeParams s f, ?_⟩
    simp only [sel_nodeEng hword, hfill, hsa, if_true, hk, Option.getD_some]
    rfl
  case port =>
    have hsa : ¬ f.sa.toNat < 0x40 := fun hlow => nomatch (Firing.port_low hlow).symm.trans ha
    have hcode (id j : Nat) : at! (nodeEng s s.run.cur f id j).params 2 15 = want.code :=
      (Firing.portCode_some ha).trans (congrArg Fmt.code hfmt)
    refine nodeStarts_nodeWord rfl (poisonedTok_some ha hgood) (poisonedTok_none hb) fun n es id j _ => ⟨nodeParams s f, ?_⟩
    simp only [sel_nodeEng hword, hfill, hsa, if_false, hcode, if_true]
    rw [nodeEng_eq, Firing.portEl_some ha, Firing.portEl_none hb]

end Sys2Proof.Machine
end

section
/-! PROOFS. Stream nodes (O45, O46): a firing's elements join their node, which takes one turn and waits; then what the nodes
take. -/

namespace Sys2Proof.Machine

section
variable {s : State} {f : Fields} {i : Instr} {one : State → Node → List SElem → List SElem → Option Taken}
  {after : State → State}

/-! ### A firing at a stream port (R339, R341, R347) -/

/-- A node with elements that takes one turn and then waits sends what the turn gave. -/
theorem pump_turn {v : State} {ns : Names} {c : Nat} {n m : Node} {tk : Taken} (hnode : s.node? ns c = some n)
    (hsome : 0 < n.queueA.length + n.queueB.length) (hturn : one s n n.queueA n.queueB = some tk)
    (hv : v = tk.s.modStream ns c fun st => { st with headA := st.headA.set ns.idx tk.a, headB := st.headB.set ns.idx tk.b })
    (hnext : v.node? ns c = some m) (hwaits : one v m m.queueA m.queueB = none) :
    s.pump ns c one = (v.emit m false tk.o1).emit m true tk.o2 := by
  subst hv
  obtain ⟨k, hk⟩ := Nat.exists_eq_succ_of_ne_zero hsome.ne'
  simp only [State.pump, hnode, hk, State.takeAll, hturn, hnext, hwaits, List.nil_append]

/-- A word of a stream port whose node takes one turn. -/
theorem consumes_streamWord (hexec : exec i s = .next (after (s.streamWord f one))) : Consumes s i f one after := by
  rintro u v n m tk rfl hnode hfree hsome hturn hv hnext hwaits
  rw [hexec, ← pump_turn hnode hsome hturn hv hnext hwaits]
  simp only [State.streamWord, hfree, Bool.false_eq_true, if_false]

/-- While a read of the port waits in place, the elements only join their queues. -/
theorem streamWord_stuck (hexec : exec i s = .next (s.streamWord f one))
    (hstuck : (s.enqueue s.run.cur f).portStuck s.run.cur.names s.run.cur.ctx = true) :
    exec i s = .next (s.enqueue s.run.cur f) := by
  simp only [hexec, State.streamWord, hstuck, if_true]

end

/-- Settles O45: each word is the shared shape with its node's own turn. -/
theorem streamWords : Obligations.StreamWords := by
  unfold Obligations.StreamWords
  rintro s f ns c rfl rfl
  refine ⟨consumes_streamWord rfl, consumes_streamWord rfl, consumes_streamWord rfl, consumes_streamWord rfl,
    consumes_streamWord rfl, consumes_streamWord rfl, consumes_streamWord rfl, consumes_streamWord rfl, consumes_streamWord rfl,
    consumes_streamWord rfl, fun i hi hstuck => ?stuck⟩
  rcases hi with rfl | rfl | rfl | rfl | rfl | rfl | rfl
  all_goals exact streamWord_stuck rfl hstuck

/-! ### ISECT and UNION (R344, R349) -/

section
variable {un : Bool} {s : State} {n : Node} {x y : SElem} {a b : List SElem} {fm : Fmt}

/-- The node takes the element as a column or a stop: no data element of a format that it does not accept (R344). -/
def SElem.fits (un : Bool) (e : SElem) : Prop := e.stop = 0 → e.poison = false → e.fmt = .i64 ∨ (un = false ∧ e.fmt = .i32)

/-- The column of a data element, its bits [31:0] (R349). -/
abbrev SElem.col (e : SElem) : Nat := e.val.toNat % 2 ^ 32

/-- What one turn of Pair does with elements of formats that it accepts. -/
def pairTurn (un : Bool) (s : State) (n : Node) (x y : SElem) (a b : List SElem) : Taken :=
  if x.stop = 0 && y.stop = 0 && x.col = y.col then ⟨s, a, b, [x], [y]⟩
  else if x.stop = 0 && (y.stop ≠ 0 || x.col < y.col) then
    ⟨s, a, y :: b, if un then [x] else [], if un then [absentElem x] else []⟩
  else if y.stop = 0 then ⟨s, x :: a, b, if un then [absentElem y] else [], if un then [y] else []⟩
  else if x.stop = y.stop then
    ⟨s, a, b, [stopElem x.fmt x.stop (x.poison || y.poison)], [stopElem y.fmt y.stop (x.poison || y.poison)]⟩
  else ⟨s.raise (n.site s x.wave) { cause := 1, sub := 8 }, a, b,
    [stopElem x.fmt (max x.stop y.stop) true], [stopElem y.fmt (max x.stop y.stop) true]⟩

theorem takePair_accepted (hx : x.fits un) (hy : y.fits un)
    (hsame : x.stop = 0 → y.stop = 0 → x.poison = false → y.poison = false → x.fmt = y.fmt) :
    takePair un s n (x :: a) (y :: b) = some (pairTurn un s n x y a b) := by
  have hfits {e : SElem} (he : e.fits un) :
      (decide (e.stop = 0) && !e.poison && decide (e.fmt ≠ .i64) && (un || decide (e.fmt ≠ .i32))) = false := by
    simp only [Bool.and_eq_false_imp, Bool.and_eq_true, decide_eq_true_eq, Bool.not_eq_true']
    rintro ⟨⟨hstop, hgood⟩, hne⟩
    obtain ⟨hun, hfmt⟩ := (he hstop hgood).resolve_left hne
    simp [hun, hfmt]
  have hclash : (decide (x.stop = 0) && decide (y.stop = 0) && !x.poison && !y.poison && decide (x.fmt ≠ y.fmt)) = false := by
    simp only [Bool.and_eq_false_imp, Bool.and_eq_true, decide_eq_true_eq, Bool.not_eq_true', decide_eq_false_iff_not, not_not]
    rintro ⟨⟨⟨h1, h2⟩, h3⟩, h4⟩
    exact hsame h1 h2 h3 h4
  simp only [takePair, pairTurn, SElem.col, hfits hx, hfits hy, hclash, Bool.false_eq_true, if_false]
  split_ifs <;> rfl

theorem fits_of_stop (hstop : 0 < x.stop) : x.fits un := fun h => absurd h hstop.ne'

theorem fits_of_fmt (hfm : fm = .i64 ∨ (un = false ∧ fm = .i32)) (hfmt : x.fmt = fm) : x.fits un := fun _ _ => hfmt ▸ hfm

theorem absentElem_good (hgood : x.poison = false) :
    absentElem x = dataElem .i64 (0xFFFFFFFF * 2 ^ 32 + x.val.toNat % 2 ^ 32) := by
  rw [absentElem, hgood]
  rfl

/-- A data element of A of a format that the node does not accept is taken with its trap (R344). -/
theorem takePair_oddA (hstop : x.stop = 0) (hgood : x.poison = false) (hfmt : x.fmt ≠ .i64) (hodd : un = true ∨ x.fmt ≠ .i32) :
    takePair un s n (x :: a) (y :: b) = some ⟨s.pairTrap n x y, a, y :: b, [badElem .i64], [badElem .i64]⟩ := by
  simp [takePair, hstop, hgood, hfmt, hodd]

/-- An element of I32 against one of I64 takes both with one trap (R344). -/
theorem takePair_clash (hstop : x.stop = 0) (hgood : x.poison = false) (hfmt : x.fmt = .i32) (hstopB : y.stop = 0)
    (hgoodB : y.poison = false) (hfmtB : y.fmt = .i64) :
    takePair false s n (x :: a) (y :: b) = some ⟨s.pairTrap n x y, a, b, [badElem .i64], [badElem .i64]⟩ := by
  simp [takePair, hstop, hgood, hfmt, hstopB, hgoodB, hfmtB]

section
variable (hx : x.fits un) (hy : y.fits un)
include hx hy

section
variable (hsame : x.poison = false → y.poison = false → x.fmt = y.fmt) (hstop : x.stop = 0) (hstopB : y.stop = 0)
include hsame hstop hstopB

theorem takePair_match (hcol : x.col = y.col) :
    takePair un s n (x :: a) (y :: b) = some ⟨s, a, b, [x], [y]⟩ := by
  rw [takePair_accepted hx hy fun _ _ => hsame]
  simp [pairTurn, hstop, hstopB, hcol]

theorem takePair_lowA (hcol : x.col < y.col) : takePair un s n (x :: a) (y :: b)
    = some ⟨s, a, y :: b, if un then [x] else [], if un then [absentElem x] else []⟩ := by
  rw [takePair_accepted hx hy fun _ _ => hsame]
  simp [pairTurn, hstop, hstopB, hcol, hcol.ne]

theorem takePair_lowB (hcol : y.col < x.col) : takePair un s n (x :: a) (y :: b)
    = some ⟨s, x :: a, b, if un then [absentElem y] else [], if un then [y] else []⟩ := by
  rw [takePair_accepted hx hy fun _ _ => hsame]
  simp [pairTurn, hstop, hstopB, hcol.ne', hcol.le]

end

theorem takePair_stopB (hstop : x.stop = 0) (hstopB : 0 < y.stop) : takePair un s n (x :: a) (y :: b)
    = some ⟨s, a, y :: b, if un then [x] else [], if un then [absentElem x] else []⟩ := by
  rw [takePair_accepted hx hy fun _ h => absurd h hstopB.ne']
  simp [pairTurn, hstop, hstopB.ne']

theorem takePair_stopA (hstop : 0 < x.stop) (hstopB : y.stop = 0) : takePair un s n (x :: a) (y :: b)
    = some ⟨s, x :: a, b, if un then [absentElem y] else [], if un then [y] else []⟩ := by
  rw [takePair_accepted hx hy fun h => absurd h hstop.ne']
  simp [pairTurn, hstop.ne', hstopB]

end

section
variable (hstop : 0 < x.stop) (hstopB : 0 < y.stop)
include hstop hstopB

theorem takePair_stops (hlevel : x.stop = y.stop) (hgood : x.poison = false) (hgoodB : y.poison = false) :
    takePair un s n (x :: a) (y :: b)
      = some ⟨s, a, b, [stopElem x.fmt x.stop false], [stopElem y.fmt y.stop false]⟩ := by
  rw [takePair_accepted (fits_of_stop hstop) (fits_of_stop hstopB) fun h => absurd h hstop.ne']
  simp [pairTurn, hstopB.ne', hlevel, hgood, hgoodB]

theorem takePair_levels (hlevel : x.stop ≠ y.stop) : takePair un s n (x :: a) (y :: b)
    = some ⟨s.raise (n.site s x.wave) { cause := 1, sub := 8 }, a, b,
        [stopElem x.fmt (max x.stop y.stop) true], [stopElem y.fmt (max x.stop y.stop) true]⟩ := by
  rw [takePair_accepted (fits_of_stop hstop) (fits_of_stop hstopB) fun h => absurd h hstop.ne']
  simp [pairTurn, hstop.ne', hstopB.ne', hlevel]

end

/-! ### STOPLVL and SCOUNT (R352) -/

theorem takeStoplvl_data (hstop : x.stop = 0) : takeStoplvl s n (x :: a) b = some ⟨s, a, b, [x], []⟩ := by
  simp [takeStoplvl, hstop]

/-- What STOPLVL does with a stop whose level moves to `l`. -/
theorem takeStoplvl_stop (hstop : 0 < x.stop) : takeStoplvl s n (x :: a) b
    = some (if 7 < (x.stop : Int) + toS 4 (bits n.slot.lit 3 0) then
        ⟨s.raise (n.site s x.wave) { cause := 1, sub := 5 }, a, b, [stopElem x.fmt x.stop true], []⟩
      else if (x.stop : Int) + toS 4 (bits n.slot.lit 3 0) ≤ 0 then ⟨s, a, b, [], []⟩
      else ⟨s, a, b, [stopElem x.fmt ((x.stop : Int) + toS 4 (bits n.slot.lit 3 0)).toNat x.poison], []⟩) := by
  simp only [takeStoplvl, hstop.ne', if_false]
  split_ifs <;> rfl

theorem takeScount_eq {c : Nat} {put : Nat → State} (hc : c = n.st.counts.getD n.names.idx 0)
    (hput : ∀ v, put v = s.modStream n.names n.ctx fun st => { st with counts := st.counts.set n.names.idx v }) :
    takeScount s n (x :: a) b = some (if x.stop = 0 then ⟨put (c + 1), a, b, [], []⟩
      else ⟨put 0, a, b, [{ dataElem .i32 (c % 2 ^ 32) with poison := x.poison }, x], []⟩) := by
  subst hc
  simp only [takeScount, hput]
  split_ifs <;> rfl

end

/-- Settles O46 (logs 31, 34 and 51: formats that clash and poison): Pair by the heads of its queues, then the two nodes of one
queue. -/
theorem streamNodes : Obligations.StreamNodes := by
  unfold Obligations.StreamNodes
  rintro s n x y a b un _ _ none_ rfl rfl hnone
  refine ⟨fun fm hfm => ⟨fun hx hy hgx hgy hfx hfy => ?columns, fun hx hy hgx hfx => ?stopB, fun hx hy hgy hfy => ?stopA⟩,
    fun hx hy => ⟨takePair_stops hx hy, takePair_levels hx hy⟩, fun hx hgx hfx => ⟨fun hodd => ?odd, ?clash⟩, takeStoplvl_data,
    fun l hl hx => ?level, fun c put hc hput => ?count⟩
  case columns =>
    have hsame : x.poison = false → y.poison = false → x.fmt = y.fmt := fun _ _ => hfx.trans hfy.symm
    have hfits := fits_of_fmt hfm hfx
    have hfitsB := fits_of_fmt hfm hfy
    rw [hnone, hnone, ← absentElem_good hgx, ← absentElem_good hgy]
    exact ⟨takePair_match hfits hfitsB hsame hx hy, takePair_lowA hfits hfitsB hsame hx hy,
      takePair_lowB hfits hfitsB hsame hx hy⟩
  case stopB =>
    rw [hnone, ← absentElem_good hgx]
    exact takePair_stopB (fits_of_fmt hfm hfx) (fits_of_stop hy) hx hy
  case stopA =>
    rw [hnone, ← absentElem_good hgy]
    exact takePair_stopA (fits_of_stop hx) (fits_of_fmt hfm hfy) hx hy
  case odd => exact ⟨_, takePair_oddA hx hgx hfx hodd, rfl, rfl, rfl, rfl⟩
  case clash =>
    rintro rfl hi32 hy hgy hfy
    exact takePair_clash hx hgx hi32 hy hgy hfy
  case level =>
    rw [takeStoplvl_stop hx, ← hl]
    exact ⟨fun hlow hhigh => by rw [if_neg (by omega), if_neg (by omega)],
      fun hlow => by rw [if_neg (by omega), if_pos hlow], fun hhigh => by rw [if_pos hhigh]⟩
  case count =>
    rw [takeScount_eq hc hput]
    exact ⟨fun hx => by rw [if_pos hx], fun hx => by rw [if_neg hx.ne']⟩

end Sys2Proof.Machine
end

section
/-! PROOFS. Writes of the head of a trap ring (O50). -/

namespace Sys2Proof.Machine

/-- How far the new HEAD lies above TAIL, modulo 2^32. -/
def headAbove (old v : W64) : Nat := (bits v 31 0 + 2 ^ 32 - bits old 63 32) % 2 ^ 32

theorem trapHead_ignored {old v : W64} (hpos : 0 < headAbove old v) (hlt : headAbove old v < 2 ^ 31) : trapHead old v = old := by
  rw [headAbove] at hpos hlt
  simp only [trapHead, hpos, hlt, decide_true, Bool.and_self, if_true]

theorem trapHead_taken {old v : W64} (h : headAbove old v = 0 ∨ 2 ^ 31 ≤ headAbove old v) :
    trapHead old v = setBits old 31 0 (bits v 31 0) := by
  rw [headAbove] at h
  have habove : ¬ (0 < (bits v 31 0 + 2 ^ 32 - bits old 63 32) % 2 ^ 32 ∧
      (bits v 31 0 + 2 ^ 32 - bits old 63 32) % 2 ^ 32 < 2 ^ 31) := by omega
  simp only [trapHead, ← Bool.decide_and, decide_eq_true_eq, habove, if_false]

/-- A field that a write of another one leaves alone. -/
theorem bits_setBits_above (w : W64) {hi lo hi' lo' : Nat} (hfield : lo ≤ hi) (hfield' : lo' ≤ hi') (habove : hi < lo') (hhi : hi' < 64)
    (v : Nat) : bits (setBits w hi lo v) hi' lo' = bits w hi' lo' := by
  apply Nat.eq_of_testBit_eq
  intro i
  rw [testBit_bits, testBit_bits]
  by_cases hk : i < hi' - lo' + 1
  · rw [bit_setBits w hfield v (by omega), if_neg (by omega)]
  · simp [hk]

/-- Settles O50 (log 44: HEAD against TAIL modulo 2^32): the new HEAD lies above TAIL by the number of records still to be read,
taken negative, or by the excess. -/
theorem trapHeadWrites : Obligations.TrapHeadWrites := by
  unfold Obligations.TrapHeadWrites
  rintro old v used rfl hused
  have hhead := bits_lt old 31 0
  have htail := bits_lt old 63 32
  have hnew := bits_lt v 31 0
  refine ⟨fun n hn hv => ?taken, fun n hpos hlt hv => trapHead_ignored ?_ ?_⟩
  case taken =>
    rw [trapHead_taken (by rw [headAbove]; omega), bits_setBits_same old (by omega) (by omega), Nat.mod_eq_of_lt hnew,
      bits_setBits_above old (by omega) (by omega) (by omega) (by omega)]
    exact ⟨rfl, rfl⟩
  all_goals rw [headAbove]; omega

end Sys2Proof.Machine
end

section
/-! PROOFS. Moves of blocks, SAVE and RESTORE (O52). -/

namespace Sys2Proof.Machine

/-- Partition 0 at reset while a change of its layout runs. -/
def heldByLayout : State := { State.reset with dev := { State.reset.dev with layout := some ⟨1, 0, 0, 1, 0, 2, 1, 2, [1], none⟩ } }

/-- PCTL with GO and OP RESTORE from bank 0. -/
def goRestore0 : W64 := 0xC000000000000000

theorem exec_pctlRestore_held {s : State} {p : Nat} {v : W64} (hlive : (s.part p).live = true) (hgo : bit v 63 = true)
    (hop : bits v 62 61 = 2) (hidle : bit (s.part p).pctl 63 = false) (hheld : (s.takePctl p v).layoutHolds p = true) :
    exec (.pctlRestore p v) s = .next (s.takePctl p v) := by
  simp [exec, execPctlRestore, hlive, hgo, hop, hidle, hheld]

/-- Refutes O52: its clause of a RESTORE from an empty bank does not ask that no layout change holds the partition. While a GROW of
partition 0 runs, a RESTORE of partition 0 waits for it with GO at 1 (R430), while the clause has it refused at once, GO 0. -/
theorem not_movesAndSaves : ¬ Obligations.MovesAndSaves := by
  unfold Obligations.MovesAndSaves
  intro h
  obtain ⟨-, -, -, -, restore⟩ := h heldByLayout 0 goRestore0 (heldByLayout.part 0) rfl
  obtain ⟨refused, -⟩ := restore rfl rfl rfl rfl
  have hwaits := exec_pctlRestore_held (s := heldByLayout) (p := 0) (v := goRestore0) rfl rfl rfl rfl rfl
  have hstate := Host.Outcome.next.inj (hwaits.symm.trans (refused rfl))
  have hpctl := congrArg (fun t : State => (t.part 0).pctl) hstate
  exact absurd hpctl (by decide)

end Sys2Proof.Machine
end

section
/-! PROOFS. Requests and steps of a layout change (O53). -/

namespace Sys2Proof.Machine

variable {s t : State} {v : W64} {l : Layout}

/-! ### Requests (R418, R419) -/

theorem layoutWaits_iff : s.layoutWaits = true ↔ s.dev.kept ≠ [] := by simp [State.layoutWaits]

theorem layoutWaits_eq_false (hkept : s.dev.kept = []) : s.layoutWaits = false := by simp [State.layoutWaits, hkept]

theorem request_waits (hwaits : s.layoutWaits = true) (op : Nat) (go : State × Layout → State) : s.request_ op v go = s := by
  simp [State.request_, hwaits]

section
variable {op : Nat} (hkept : s.dev.kept = []) (hfree : bit s.dev.layoutreq 63 = false ∨ s.requested v = true) (hgo : bit v 63 = true)
  (hop : bits v 62 60 = op)
include hkept hfree hgo hop

theorem request_taken (go : State × Layout → State) :
    s.request_ op v go = if s.layoutStatus v ≠ 0 then s.report v (s.layoutStatus v) else go (s.accept v) := by
  have htaken : (!bit v 63 || decide (bits v 62 60 ≠ op) || (bit s.dev.layoutreq 63 && !s.requested v) || s.layoutWaits) = false := by
    rcases hfree with hfree | hfree <;> simp [hgo, hop, hfree, layoutWaits_eq_false hkept]
  rw [State.request_, htaken]
  rfl

theorem request_refused (go : State × Layout → State) (hstatus : s.layoutStatus v ≠ 0) :
    s.request_ op v go = s.report v (s.layoutStatus v) := by
  rw [request_taken hkept hfree hgo hop, if_pos hstatus]

theorem request_accepted (go : State × Layout → State) (hstatus : s.layoutStatus v = 0) (haccept : s.accept v = (t, l)) :
    s.request_ op v go = go (t, l) := by
  rw [request_taken hkept hfree hgo hop, if_neg (not_not.2 hstatus), haccept]

end

/-- A refused request leaves GO at 0 (R418). -/
theorem bit_report_layoutreq (s : State) (v : W64) (st : Nat) : bit (s.report v st).dev.layoutreq 63 = false := by
  have hhigh := bits_lt v 62 44
  have hlow := bits_lt v 31 0
  have hvalue : bits v 62 44 * 2 ^ 44 + bits v 31 0 < 2 ^ 63 := by omega
  simp only [State.report, bit, w64, BitVec.toNat_ofNat]
  exact Nat.testBit_lt_two_pow (lt_of_le_of_lt (Nat.mod_le _ _) hvalue)

theorem bits_63_56 (w : W64) : bits w 63 56 = bits w 63 52 / 16 := by
  simp only [bits, Nat.shiftRight_eq_div_pow]
  omega

theorem report_layoutstat (s : State) (v : W64) (st : Nat) :
    (s.report v st).dev.layoutstat = setBits (setBits s.dev.layoutstat 63 52 (st * 16)) 51 44 (bits v 59 52) := rfl

/-- STATUS is the low byte above the four bits of STATE (R419). -/
theorem bits_report_layoutstat (s : State) (v : W64) (st : Nat) : bits (s.report v st).dev.layoutstat 63 56 = st % 256 := by
  rw [bits_63_56, report_layoutstat, bits_setBits_above _ (by omega) (by omega) (by omega) (by omega),
    bits_setBits_same _ (by omega) (by omega)]
  omega

/-- A report writes the two registers alone. -/
theorem report_with_dev (s : State) (v : W64) (st : Nat) : { s.report v st with dev := s.dev } = s := by
  cases s
  rw [State.report]

theorem accept_layout (haccept : s.accept v = (t, l)) :
    l.gen = (bits s.dev.layoutstat 31 0 + 1) % 2 ^ 32 ∧ t.dev.layout = some l := by
  obtain ⟨rfl, rfl⟩ := Prod.mk.inj haccept
  exact ⟨rfl, rfl⟩

/-! ### Steps of a change (R422, R425) -/

theorem exec_stripScrubDone (hkept : s.dev.kept = []) (hlayout : s.dev.layout = some l) (hstate : l.state = 2)
    (hleft : s.run.subj.a ∈ l.left) {r : List Nat} (hr : r = l.left.filter fun y => y ≠ s.run.subj.a) :
    exec .stripScrubDone s = if r.isEmpty then .next ((s.scrubStrip s.run.subj.a).join { l with left := r })
      else .next { s.scrubStrip s.run.subj.a with dev := { s.dev with layout := some { l with left := r } } } := by
  subst hr
  simp only [exec, execStripScrubDone, hlayout, hstate, layoutWaits_eq_false hkept, List.contains_iff_mem.2 hleft]
  rfl

theorem exec_rehashWalk {k : Nat} (hk : k = s.run.subj.a) (hkept : s.dev.kept = []) (hlayout : s.dev.layout = some l)
    (hstate : l.state = 5) (hhome : (s.part l.part).hasStrip (sliceStrip k) = true) :
    exec .rehashWalk s = .next (((s.mem.l2.filter fun y => y.slice == k && !y.replica).foldl
      (fun s y => s.moveLine l.part k y) s).moveRegs l.part k) := by
  subst hk
  simp [exec, execRehashWalk, hlayout, hstate, layoutWaits_eq_false hkept, hhome]

/-- A step of LAYOUT_COMMIT that the state of the change allows at once. -/
theorem exec_layoutCommit (hkept : s.dev.kept = []) (hlayout : s.dev.layout = some l) :
    exec .layoutCommit s = match l.state with
      | 4 => .next (s.migrate l)
      | 5 => if !s.walked l.part then .next s else if l.op = 1 then .next (s.commit l) else .next (s.enterState l 6).1
      | 6 => if l.leaving.all fun k => bits (at! s.dev.frames k 0) 63 32 = 0 then .next (s.commit l) else .next s
      | 9 => .next ((s.defragCopy l).defragCommit l)
      | 10 => .next (s.defragRestore l)
      | 11 => .next ((s.dirty (runStrips l.oldF l.oldN)).endLayout { l with state := 7 })
      | _ => .next s := by
  simp only [exec, execLayoutCommit, hlayout, layoutWaits_eq_false hkept]
  rfl

/-! ### Zeroing of a DIRTY strip (R428) -/

/-- The machine once a strip is scrubbed, zeroed and FREE. -/
def State.zeroStrip (s : State) (k : Nat) : State :=
  let s := s.scrubStrip k
  let s : State := { s with mem := { s.mem with hbm := s.mem.hbm.zero (stripWindow * k) stripWindow } }
  (s.cover .mem (stripWindow * k) stripWindow).setStrip k 0 0

theorem exec_stripZeroDone (hkept : s.dev.kept = []) (hdirty : s.stripState s.run.subj.a = 1) :
    exec .stripZeroDone s = .next (s.zeroStrip s.run.subj.a) := by
  simp only [exec, execStripZeroDone, hdirty, layoutWaits_eq_false hkept]
  rfl

theorem strips_zeroStrip (s : State) (k : Nat) : (s.zeroStrip k).dev.strips = setAt s.dev.strips k (stripWord 0 0) := rfl

theorem hbm_zeroStrip (s : State) (k : Nat) : (s.zeroStrip k).mem.hbm = s.mem.hbm.zero (stripWindow * k) stripWindow := rfl

theorem stripState_zeroStrip_same {k : Nat} (hk : k < s.dev.strips.length) : (s.zeroStrip k).stripState k = 0 := by
  rw [State.stripState, strips_zeroStrip, at!_setAt_same hk]
  exact state_stripWord (by decide) (by decide)

theorem stripState_zeroStrip_ne {j k : Nat} (hne : j ≠ k) : (s.zeroStrip k).stripState j = s.stripState j :=
  State.stripState_eq (by rw [strips_zeroStrip, at!_setAt_ne _ hne])

theorem get_hbm_zeroStrip (hform : MemForm s) (k a : Nat) :
    (s.zeroStrip k).mem.hbm.get a = if stripWindow * k ≤ a ∧ a < stripWindow * (k + 1) then unwritten else s.mem.hbm.get a := by
  rw [hbm_zeroStrip, Memory.get_zero hform.hbm]
  rfl

/-- Settles O53 (log 65, DEDUCED: a request that REGISTER_WRITE has written is taken up later by its own row; log 108, DESIGN CHOICE:
nothing goes on while a warm reset has kept partitions): the rows unfold to their steps, a request through `request_taken`. -/
theorem layoutChanges : Obligations.LayoutChanges := by
  unfold Obligations.LayoutChanges
  intro s v
  refine ⟨?held, ?refused, ?accepted, ?scrub, ?walk, ?commit, ?zero⟩
  case held =>
    intro hkept
    have hwaits := layoutWaits_iff.2 hkept
    refine ⟨?_, ?_, ?_, ?_, ?_, ?_, ?_, ?_, ?_⟩
    · exact congrArg _ (request_waits hwaits 1 _)
    · exact congrArg _ (request_waits hwaits 2 _)
    · exact congrArg _ (request_waits hwaits 3 _)
    · exact congrArg _ (request_waits hwaits 4 _)
    · exact congrArg _ (request_waits hwaits 5 _)
    · simp only [exec, execStripScrubDone]
      split <;> simp [hwaits]
    · simp only [exec, execRehashWalk]
      split <;> simp [hwaits]
    · simp only [exec, execLayoutCommit]
      split <;> simp [hwaits]
    · simp [exec, execStripZeroDone, hwaits]
  case refused =>
    rintro hkept hfree _ rfl hgo hstatus
    refine ⟨fun hop => ?_, fun hop => ?_, fun hop => ?_, fun hop => ?_, fun hop => ?_, bit_report_layoutreq s v _,
      bits_report_layoutstat s v _, report_with_dev s v _⟩
    all_goals exact congrArg _ (request_refused hkept hfree hgo hop _ hstatus)
  case accepted =>
    intro t l hkept hfree hgo hstatus haccept
    obtain ⟨hgen, hlayout⟩ := accept_layout haccept
    refine ⟨hgen, hlayout, fun hop => ?_, fun hop => ?_, fun hop => ?_, fun hop => ?_, fun hop => ?_⟩
    all_goals exact congrArg _ (request_accepted hkept hfree hgo hop _ hstatus haccept)
  case scrub =>
    rintro l k r rfl hkept hlayout hstate hleft hr
    rw [exec_stripScrubDone hkept hlayout hstate hleft hr]
    exact ⟨fun hmore => if_neg (by simpa using hmore), fun hnone => by rw [hnone]; rfl⟩
  case walk =>
    intro l k hk hkept hlayout hstate hhome
    exact exec_rehashWalk hk hkept hlayout hstate hhome
  case commit =>
    intro l hkept hlayout
    rw [exec_layoutCommit hkept hlayout]
    refine ⟨fun hstate => ?_, fun hstate hwalked hgrow => ?_, fun hstate hwalked hshrink => ?_, fun hstate hfree => ?_,
      fun hstate => ?_, fun hstate => ?_, fun hstate => ?_⟩
    · rw [hstate]
      rfl
    · rw [hstate]
      simp [hwalked, hgrow]
    · rw [hstate]
      simp [hwalked, hshrink]
    · rw [hstate]
      exact if_pos (by simpa using hfree)
    all_goals
      rw [hstate]
      rfl
  case zero =>
    rintro k rfl hkept hk hlength hdirty
    refine ⟨s.zeroStrip _, exec_stripZeroDone hkept hdirty, stripState_zeroStrip_same (hlength ▸ hk),
      fun j hne => stripState_zeroStrip_ne hne, fun hform a hlow hhigh => ?_, fun hform a hout => ?_, rfl, rfl⟩
    · rw [get_hbm_zeroStrip hform, if_pos ⟨hlow, hhigh⟩]
    · rw [get_hbm_zeroStrip hform, if_neg (by omega)]

end Sys2Proof.Machine
end

section
/-! PROOFS. What a number rounded to nearest, ties to even, stands for in a format (R265, R266). -/

namespace Sys2Proof.Machine

variable {k : FpFmt} {neg : Bool} {m : Nat} {e : Int}

/-! ### Formats and patterns (R265) -/

/-- Every format has two exponent bits and a fraction bit at least. -/
structure FpFmt.Wide (k : FpFmt) : Prop where
  eb : 2 ≤ k.eb
  mb : 1 ≤ k.mb

theorem wide_fpOf (f : Fmt) : (fpOf f).Wide := by
  cases f <;> exact ⟨by decide, by decide⟩

theorem FpFmt.Wide.two_pow_eb (hk : k.Wide) : ((2 ^ k.eb : Nat) : Int) = k.bias - k.emin + 3 := by
  have hdouble : 2 ^ k.eb = 2 * 2 ^ (k.eb - 1) := by
    rw [← pow_succ', Nat.sub_add_cancel (le_trans one_le_two hk.eb)]
  rw [FpFmt.emin, FpFmt.bias, hdouble]
  push_cast
  ring

theorem FpFmt.Wide.four_le (hk : k.Wide) : 4 ≤ 2 ^ k.eb := Nat.pow_le_pow_right (n := 2) (by decide) hk.eb

theorem FpFmt.inf_lt_sign (k : FpFmt) : k.inf < k.sign := by
  rw [FpFmt.inf, FpFmt.sign, pow_add]
  exact Nat.mul_lt_mul_of_pos_right (Nat.sub_lt (Nat.two_pow_pos _) one_pos) (Nat.two_pow_pos _)

theorem testBit_signed {x : Nat} (hx : x < k.sign) : (k.signed neg x).testBit (k.eb + k.mb) = neg := by
  cases neg
  · exact Nat.testBit_lt_two_pow hx
  · rw [FpFmt.signed, if_pos rfl, FpFmt.sign, Nat.testBit_two_pow_add_eq, Nat.testBit_lt_two_pow hx]
    rfl

/-- The sign bit leaves the fields below it alone. -/
theorem signed_field {r d : Nat} (hr : r < 2 ^ k.mb) (hd : d < 2 ^ k.eb) :
    (k.signed neg (r + d * 2 ^ k.mb)).testBit (k.eb + k.mb) = neg ∧
    k.signed neg (r + d * 2 ^ k.mb) / 2 ^ k.mb % 2 ^ k.eb = d ∧ k.signed neg (r + d * 2 ^ k.mb) % 2 ^ k.mb = r := by
  have hx : r + d * 2 ^ k.mb < k.sign := by
    rw [FpFmt.sign, pow_add]
    nlinarith [Nat.two_pow_pos k.mb]
  have hvalue : k.signed neg (r + d * 2 ^ k.mb) = r + 2 ^ k.mb * (d + 2 ^ k.eb * neg.toNat) := by
    cases neg
    · simp [FpFmt.signed, mul_comm]
    · simp only [FpFmt.signed, FpFmt.sign, pow_add, Bool.toNat_true, if_true]
      ring
  refine ⟨testBit_signed hx, ?_, ?_⟩
  · rw [hvalue, Nat.add_mul_div_left _ _ (Nat.two_pow_pos _), Nat.div_eq_of_lt hr, zero_add, Nat.add_mul_mod_self_left,
      Nat.mod_eq_of_lt hd]
  · rw [hvalue, Nat.add_mul_mod_self_left, Nat.mod_eq_of_lt hr]

theorem unpack_subnormal (hk : k.Wide) {r : Nat} (hr : r < 2 ^ k.mb) : unpack k (k.signed neg r) = .fin neg r (k.emin - k.mb) := by
  have hfour := hk.four_le
  obtain ⟨hsign, hexp, hfrac⟩ := signed_field (neg := neg) hr (d := 0) (by omega)
  rw [zero_mul, add_zero] at hsign hexp hfrac
  simp only [unpack, hsign, hexp, hfrac, if_true]
  exact if_neg (by omega)

theorem unpack_normal {r d : Nat} (hr : r < 2 ^ k.mb) (hd : d + 1 < 2 ^ k.eb - 1) :
    unpack k (k.signed neg (r + (d + 1) * 2 ^ k.mb)) = .fin neg (2 ^ k.mb + r) (k.emin - k.mb + d) := by
  obtain ⟨hsign, hexp, hfrac⟩ := signed_field (neg := neg) hr (d := d + 1) (by omega)
  simp only [unpack, hsign, hexp, hfrac]
  rw [if_neg (by omega), if_neg (by omega), Nat.add_sub_cancel]

theorem unpack_inf (hk : k.Wide) : unpack k (k.signed neg k.inf) = .inf neg := by
  have hfour := hk.four_le
  obtain ⟨hsign, hexp, hfrac⟩ := signed_field (neg := neg) (Nat.two_pow_pos k.mb) (d := 2 ^ k.eb - 1) (by omega)
  rw [zero_add] at hsign hexp hfrac
  simp only [unpack, FpFmt.inf, hsign, hexp, hfrac, if_true]

/-- A significand and an exponent above the least, packed; a carry out of the significand goes into the exponent. -/
theorem stands_pack (hk : k.Wide) {q d : Nat} (hq : q ≤ 2 ^ (k.mb + 1)) (hd : d = 0 ∨ 2 ^ k.mb ≤ q) (hx : q + d * 2 ^ k.mb < k.inf) :
    Stands k (k.signed neg (q + d * 2 ^ k.mb)) (ratOf neg q (k.emin - k.mb + d)) := by
  rw [pow_succ] at hq
  rw [FpFmt.inf] at hx
  have hexp {r c : Nat} (hsplit : q + d * 2 ^ k.mb = r + c * 2 ^ k.mb) : c < 2 ^ k.eb - 1 :=
    lt_of_mul_lt_mul_right (show c * 2 ^ k.mb < _ by omega) (Nat.zero_le (2 ^ k.mb))
  rcases lt_or_ge q (2 ^ k.mb) with hlow | hnormal
  · obtain rfl : d = 0 := hd.resolve_right (by omega)
    rw [zero_mul, add_zero]
    exact ⟨neg, q, _, unpack_subnormal hk hlow, by rw [Nat.cast_zero, add_zero]⟩
  rcases lt_or_eq_of_le hq with hlt | rfl
  · obtain ⟨r, rfl⟩ := Nat.exists_eq_add_of_le hnormal
    have hsplit : 2 ^ k.mb + r + d * 2 ^ k.mb = r + (d + 1) * 2 ^ k.mb := by ring
    exact ⟨neg, _, _, hsplit ▸ unpack_normal (by omega) (hexp hsplit), rfl⟩
  · have hsplit : 2 ^ k.mb * 2 + d * 2 ^ k.mb = 0 + (d + 1 + 1) * 2 ^ k.mb := by ring
    refine ⟨neg, _, _, hsplit ▸ unpack_normal (Nat.two_pow_pos _) (hexp hsplit), ?_⟩
    have hcarry : (2 : ℚ) ^ (k.emin - k.mb + (d + 1 : Nat)) = 2 * 2 ^ (k.emin - k.mb + d) := by
      rw [← zpow_one_add₀ two_ne_zero]
      congr 1
      push_cast
      ring
    rw [ratOf, ratOf, hcarry]
    push_cast
    ring

/-! ### Rounding to an integer (R266) -/

theorem lt_two_pow_log2_succ (m : Nat) : m < 2 ^ (m.log2 + 1) := Nat.lt_log2_self

/-- A number far below half a unit. -/
theorem two_mul_lt_of_log2 {n : Nat} (hfar : m.log2 + 2 < n) : 2 * m < 2 ^ n := by
  have hm := lt_two_pow_log2_succ m
  have hpow : 2 ^ (m.log2 + 1 + 1) ≤ 2 ^ n := Nat.pow_le_pow_right two_pos (by omega)
  rw [pow_succ] at hpow
  omega

theorem roundShift_nonpos {sh : Int} (hsh : sh ≤ 0) : roundShift .rne neg m sh = (m * 2 ^ (-sh).toNat, false) := if_pos hsh

/-- What is kept after a shift, and whether something is lost. -/
theorem roundShift_succ (neg : Bool) (m n : Nat) :
    roundShift .rne neg m (n + 1 : Nat) =
      (m / 2 ^ (n + 1) + if 2 ^ n < m % 2 ^ (n + 1) ∨ (m % 2 ^ (n + 1) = 2 ^ n ∧ m / 2 ^ (n + 1) % 2 = 1) then 1 else 0,
        decide (m % 2 ^ (n + 1) ≠ 0)) := by
  have hpos := Nat.two_pow_pos n
  rw [roundShift, if_neg (by omega)]
  simp only [Int.toNat_natCast, Nat.add_sub_cancel]
  by_cases hfar : m.log2 + 2 < n + 1
  · have hsmall := two_mul_lt_of_log2 hfar
    have hdiv : m / 2 ^ (n + 1) = 0 := Nat.div_eq_of_lt (by omega)
    have hmod : m % 2 ^ (n + 1) = m := Nat.mod_eq_of_lt (by omega)
    rw [pow_succ] at hsmall
    have hless : ¬ (2 ^ n < m ∨ (m = 2 ^ n ∧ 0 % 2 = 1)) := by omega
    rw [hdiv, hmod, if_neg hless]
    by_cases hm : m = 0 <;> simp [hfar, hm, Rm.up]
  · have hcases := Nat.lt_trichotomy (m % 2 ^ (n + 1)) (2 ^ n)
    simp only [hfar, if_false]
    by_cases hm : m = 0
    · simp [hm, Rm.up]
    by_cases hexact : m % 2 ^ (n + 1) = 0
    · simp [hm, hexact, Rm.up, hpos.ne]
    rcases hcases with hlow | htie | hhigh
    · simp [hm, hexact, hlow, hlow.ne, hlow.le, Rm.up]
    · by_cases hodd : m / 2 ^ (n + 1) % 2 = 1 <;> simp [hm, htie, hodd, Rm.up]
    · simp [hm, hexact, hhigh, hhigh.ne', hhigh.not_gt, Rm.up]

/-- What loses nothing keeps the value. -/
theorem roundShift_exact {sh : Int} (hexact : (roundShift .rne neg m sh).2 = false) :
    ((roundShift .rne neg m sh).1 : ℚ) * 2 ^ sh = m := by
  rcases le_or_gt sh 0 with hsh | hsh
  · obtain ⟨n, rfl⟩ : ∃ n : Nat, sh = -n := ⟨(-sh).toNat, by omega⟩
    rw [roundShift_nonpos hsh, neg_neg, Int.toNat_natCast, zpow_neg, zpow_natCast]
    push_cast
    exact mul_inv_cancel_right₀ (by positivity) _
  · obtain ⟨n, rfl⟩ : ∃ n : Nat, sh = (n + 1 : Nat) := ⟨sh.toNat - 1, by omega⟩
    rw [roundShift_succ] at hexact ⊢
    have hzero : m % 2 ^ (n + 1) = 0 := by simpa using hexact
    rw [zpow_natCast]
    simp only [hzero, (Nat.two_pow_pos n).ne, not_lt_zero, false_and, or_false, if_false, add_zero]
    exact_mod_cast Nat.div_mul_cancel (Nat.dvd_of_mod_eq_zero hzero)

/-- A tie goes up to an even number: what is kept reaches an even `c` from half a unit below it. -/
theorem le_roundShift_iff {c : Nat} (hc : c % 2 = 0) (n : Nat) :
    c ≤ (roundShift .rne neg m (n + 1 : Nat)).1 ↔ 2 * c * 2 ^ n ≤ m + 2 ^ n := by
  have hpos := Nat.two_pow_pos n
  have hsplit := Nat.div_add_mod m (2 ^ (n + 1))
  have hrest := Nat.mod_lt m (Nat.two_pow_pos (n + 1))
  rw [roundShift_succ]
  simp only
  generalize m / 2 ^ (n + 1) = q at *
  generalize m % 2 ^ (n + 1) = r at *
  rw [pow_succ] at hsplit hrest
  generalize 2 ^ n = P at *
  subst hsplit
  rcases le_or_gt c q with hle | hgt
  · exact iff_of_true (le_add_right hle) (by nlinarith)
  rcases Nat.lt_or_ge (q + 1) c with hfar | hnext
  · refine iff_of_false ?_ ?_
    · split <;> omega
    · nlinarith
  · obtain rfl : c = q + 1 := by omega
    have hup : P < r ∨ (r = P ∧ q % 2 = 1) ↔ P ≤ r := by omega
    have hdouble : 2 * (q + 1) * P ≤ P * 2 * q + r + P ↔ P ≤ r := by constructor <;> intro h <;> nlinarith
    rw [hdouble]
    simp only [hup]
    split <;> omega

/-! ### Rounding into a format (R266) -/

/-- The exponent of the place of the leading bit, that of the subnormals at least. -/
def FpFmt.lead (k : FpFmt) (m : Nat) (e : Int) : Int := max (e + m.log2) k.emin

/-- The significand kept, and whether something was lost. -/
def FpFmt.kept (k : FpFmt) (neg : Bool) (m : Nat) (e : Int) : Nat × Bool := roundShift .rne neg m (k.lead m e - k.mb - e)

/-- The pattern without its sign, before an overflow is found. -/
def FpFmt.code (k : FpFmt) (neg : Bool) (m : Nat) (e : Int) : Nat := (k.kept neg m e).1 + (k.lead m e - k.emin).toNat * 2 ^ k.mb

theorem emin_le_lead (k : FpFmt) (m : Nat) (e : Int) : k.emin ≤ k.lead m e := le_max_right _ _

theorem roundFp_zero : roundFp k .rne neg 0 e = (k.signed neg 0, fNone) := rfl

theorem roundFp_overflow (hm : m ≠ 0) (hover : k.inf ≤ k.code neg m e) : roundFp k .rne neg m e = (k.signed neg k.inf, fOF) := by
  rw [roundFp, if_neg hm]
  exact if_pos hover

theorem roundFp_finite (hm : m ≠ 0) (hfin : k.code neg m e < k.inf) : ∃ tiny : Bool, roundFp k .rne neg m e =
    (k.signed neg (k.code neg m e), flagIf (k.kept neg m e).2 fNX ||| flagIf (tiny && (k.kept neg m e).2) fUF) := by
  rw [roundFp, if_neg hm]
  exact ⟨_, if_neg (not_le.2 hfin)⟩

theorem kept_le (k : FpFmt) (neg : Bool) (m : Nat) (e : Int) : (k.kept neg m e).1 ≤ 2 ^ (k.mb + 1) := by
  have hm := lt_two_pow_log2_succ m
  have hlead : e + m.log2 ≤ k.lead m e := le_max_left _ _
  rw [FpFmt.kept]
  generalize hsh : k.lead m e - k.mb - e = sh
  rcases le_or_gt sh 0 with hneg | hpos
  · rw [roundShift_nonpos hneg]
    calc m * 2 ^ (-sh).toNat ≤ 2 ^ (m.log2 + 1) * 2 ^ (-sh).toNat := Nat.mul_le_mul_right _ hm.le
      _ = 2 ^ (m.log2 + 1 + (-sh).toNat) := (pow_add _ _ _).symm
      _ ≤ 2 ^ (k.mb + 1) := Nat.pow_le_pow_right two_pos (by omega)
  · obtain ⟨n, rfl⟩ : ∃ n : Nat, sh = (n + 1 : Nat) := ⟨sh.toNat - 1, by omega⟩
    have hquot : m / 2 ^ (n + 1) < 2 ^ (k.mb + 1) := by
      rw [Nat.div_lt_iff_lt_mul (Nat.two_pow_pos _), ← pow_add]
      exact hm.trans_le (Nat.pow_le_pow_right two_pos (by omega))
    rw [roundShift_succ]
    simp only
    split <;> omega

/-- Above the least normal exponent the significand has its leading bit. -/
theorem le_kept (hm : m ≠ 0) (hnormal : k.emin ≤ e + m.log2) : 2 ^ k.mb ≤ (k.kept neg m e).1 := by
  have hlog : 2 ^ m.log2 ≤ m := Nat.log2_self_le hm
  rw [FpFmt.kept, show k.lead m e - k.mb - e = m.log2 - k.mb by rw [FpFmt.lead, max_eq_left hnormal]; omega]
  generalize hsh : (m.log2 - k.mb : Int) = sh
  rcases le_or_gt sh 0 with hneg | hpos
  · rw [roundShift_nonpos hneg]
    calc 2 ^ k.mb = 2 ^ m.log2 * 2 ^ (-sh).toNat := by rw [← pow_add]; congr 1; omega
      _ ≤ m * 2 ^ (-sh).toNat := Nat.mul_le_mul_right _ hlog
  · obtain ⟨n, rfl⟩ : ∃ n : Nat, sh = (n + 1 : Nat) := ⟨sh.toNat - 1, by omega⟩
    rw [roundShift_succ]
    refine le_add_right ((Nat.le_div_iff_mul_le (Nat.two_pow_pos _)).2 ?_)
    rw [← pow_add, show k.mb + (n + 1) = m.log2 by omega]
    exact hlog

theorem stands_code (hk : k.Wide) (hm : m ≠ 0) (hfin : k.code neg m e < k.inf) :
    Stands k (k.signed neg (k.code neg m e)) (ratOf neg (k.kept neg m e).1 (k.lead m e - k.mb)) := by
  have hmin := emin_le_lead k m e
  have hd : (k.lead m e - k.emin).toNat = 0 ∨ 2 ^ k.mb ≤ (k.kept neg m e).1 := by
    rcases le_or_gt k.emin (e + m.log2) with hnormal | hsub
    · exact .inr (le_kept hm hnormal)
    · exact .inl (by rw [FpFmt.lead, max_eq_right hsub.le]; omega)
  have hstands := stands_pack (neg := neg) hk (kept_le k neg m e) hd hfin
  rwa [show k.emin - k.mb + ((k.lead m e - k.emin).toNat : Int) = k.lead m e - k.mb by omega] at hstands

/-- An overflow is a leading bit above the greatest exponent, or a carry out of the greatest significand (R276). -/
theorem overflow_iff (hk : k.Wide) (hm : m ≠ 0) :
    k.inf ≤ k.code neg m e ↔ k.bias < k.lead m e ∨ (k.lead m e = k.bias ∧ 2 ^ (k.mb + 1) ≤ (k.kept neg m e).1) := by
  have hfour := hk.four_le
  have heb := hk.two_pow_eb
  have hmin := emin_le_lead k m e
  have hle := kept_le k neg m e
  have hge : k.emin < k.lead m e → 2 ^ k.mb ≤ (k.kept neg m e).1 := fun hlt =>
    le_kept hm ((lt_max_iff.1 hlt).resolve_right (lt_irrefl _)).le
  obtain ⟨d, hd⟩ : ∃ d : Nat, k.lead m e = k.emin + d := ⟨(k.lead m e - k.emin).toNat, by omega⟩
  obtain ⟨D, hD⟩ : ∃ D : Nat, k.bias = k.emin + D := ⟨(k.bias - k.emin).toNat, by omega⟩
  have hinf : k.inf = (D + 2) * 2 ^ k.mb := by
    rw [FpFmt.inf]
    congr 1
    omega
  rw [hinf, FpFmt.code, hd, hD, show (k.emin + (d : Int) - k.emin).toNat = d by omega]
  rw [pow_succ] at hle ⊢
  rw [hd] at hge
  have hpos := Nat.two_pow_pos k.mb
  generalize (k.kept neg m e).1 = q at *
  generalize 2 ^ k.mb = P at *
  rcases Nat.lt_trichotomy d D with hlt | rfl | hgt
  · have hstep : (d + 1) * P ≤ D * P := Nat.mul_le_mul_right P hlt
    refine iff_of_false ?_ (by omega)
    rw [add_mul] at hstep ⊢
    omega
  · have hcarry : (d + 2) * P ≤ q + d * P ↔ P * 2 ≤ q := by
      rw [add_mul]
      omega
    simp [hcarry]
  · have hstep : (D + 1) * P ≤ d * P := Nat.mul_le_mul_right P hgt
    have hq := hge (by omega)
    refine iff_of_true ?_ (.inl (by omega))
    rw [add_mul] at hstep ⊢
    omega

/-! ### What a rounded number stands for -/

theorem stands_zero (hk : k.Wide) (neg : Bool) : Stands k (k.signed neg 0) 0 :=
  ⟨neg, 0, _, unpack_subnormal hk (Nat.two_pow_pos _), by simp [ratOf]⟩

theorem not_nan_of_stands {v : Nat} {q : ℚ} (h : Stands k v q) : (unpack k v).isNaN = false := by
  obtain ⟨n, m, e, hv, -⟩ := h
  rw [hv]
  rfl

/-- A rounded number is an infinity or the number kept. -/
theorem roundFp_stands (hk : k.Wide) (hm : m ≠ 0) : unpack k (roundFp k .rne neg m e).1 = .inf neg ∨
    Stands k (roundFp k .rne neg m e).1 (ratOf neg (k.kept neg m e).1 (k.lead m e - k.mb)) := by
  rcases le_or_gt k.inf (k.code neg m e) with hover | hfin
  · exact .inl (by rw [roundFp_overflow hm hover]; exact unpack_inf hk)
  · obtain ⟨tiny, hr⟩ := roundFp_finite hm hfin
    exact .inr (by rw [hr]; exact stands_code hk hm hfin)

theorem ratOf_kept (hexact : (k.kept neg m e).2 = false) : ratOf neg (k.kept neg m e).1 (k.lead m e - k.mb) = ratOf neg m e := by
  have hvalue : ((k.kept neg m e).1 : ℚ) * 2 ^ (k.lead m e - k.mb - e) = m := roundShift_exact hexact
  have hunit : (2 : ℚ) ^ (k.lead m e - k.mb) = 2 ^ (k.lead m e - k.mb - e) * 2 ^ e := by
    rw [← zpow_add₀ two_ne_zero, sub_add_cancel]
  rw [ratOf, ratOf, hunit, ← mul_assoc, mul_assoc _ ((k.kept neg m e).1 : ℚ), hvalue]

/-- A number that rounds without a flag is represented exactly. -/
theorem stands_of_noFlags (hk : k.Wide) (hflags : (roundFp k .rne neg m e).2 = fNone) :
    Stands k (roundFp k .rne neg m e).1 (ratOf neg m e) := by
  by_cases hm : m = 0
  · subst hm
    rw [roundFp_zero, show ratOf neg 0 e = 0 by simp [ratOf]]
    exact stands_zero hk neg
  rcases le_or_gt k.inf (k.code neg m e) with hover | hfin
  · rw [roundFp_overflow hm hover] at hflags
    exact absurd (show fOF = fNone from hflags) (by decide)
  · obtain ⟨tiny, hr⟩ := roundFp_finite hm hfin
    rw [hr] at hflags ⊢
    have hexact : (k.kept neg m e).2 = false := by
      cases hlost : (k.kept neg m e).2
      · rfl
      · have hlostFlags : fNX ||| flagIf tiny fUF = fNone := by simpa [hlost, flagIf] using hflags
        cases tiny <;> exact absurd hlostFlags (by decide)
    rw [← ratOf_kept hexact]
    exact stands_code hk hm hfin

/-- A multiple of the unit in the last place loses nothing. -/
theorem kept_exact (hmultiple : ∀ n : Nat, k.lead m e - k.mb - e = (n + 1 : Nat) → 2 ^ (n + 1) ∣ m) : (k.kept neg m e).2 = false := by
  rw [FpFmt.kept]
  rcases le_or_gt (k.lead m e - k.mb - e) 0 with hneg | hpos
  · rw [roundShift_nonpos hneg]
  · obtain ⟨n, hn⟩ : ∃ n : Nat, k.lead m e - k.mb - e = (n + 1 : Nat) := ⟨(k.lead m e - k.mb - e).toNat - 1, by omega⟩
    rw [hn, roundShift_succ, Nat.mod_eq_zero_of_dvd (hmultiple n hn)]
    rfl

theorem noFlags_of_exact (hm : m ≠ 0) (hexact : (k.kept neg m e).2 = false) (hfin : k.code neg m e < k.inf) :
    (roundFp k .rne neg m e).2 = fNone := by
  obtain ⟨tiny, hr⟩ := roundFp_finite hm hfin
  rw [hr, hexact, Bool.and_false]
  rfl

theorem emin_le_bias (hk : k.Wide) : k.emin ≤ k.bias := by
  have hfour := hk.four_le
  have heb := hk.two_pow_eb
  omega

/-- What loses nothing does not overflow below the power of two above the greatest number. -/
theorem code_lt_inf (hk : k.Wide) (hm : m ≠ 0) (hexact : (k.kept neg m e).2 = false) (hsmall : e + m.log2 ≤ k.bias) :
    k.code neg m e < k.inf := by
  have hlead : k.lead m e ≤ k.bias := max_le hsmall (emin_le_bias hk)
  refine not_le.1 fun hover => ?_
  obtain ⟨heq, hcarry⟩ := ((overflow_iff hk hm).1 hover).resolve_left hlead.not_gt
  have hvalue := roundShift_exact hexact
  have hcarryQ : (2 : ℚ) ^ ((k.mb + 1 : Nat) : Int) ≤ (k.kept neg m e).1 := by
    rw [zpow_natCast]
    exact_mod_cast hcarry
  have hmQ : (m : ℚ) < 2 ^ ((m.log2 + 1 : Nat) : Int) := by
    rw [zpow_natCast]
    exact_mod_cast lt_two_pow_log2_succ m
  have hpow : (2 : ℚ) ^ ((k.mb + 1 : Nat) + (k.lead m e - k.mb - e)) < 2 ^ ((m.log2 + 1 : Nat) : Int) := by
    rw [zpow_add₀ two_ne_zero]
    exact (mul_le_mul_of_nonneg_right hcarryQ (by positivity)).trans_lt (hvalue.trans_lt hmQ)
  have := (zpow_lt_zpow_iff_right₀ one_lt_two).1 hpow
  omega

/-- A power of two that the format has. -/
theorem roundFp_two_pow (hk : k.Wide) {i : Nat} (hlow : k.emin - k.mb ≤ e + i) (hhigh : e + i ≤ k.bias) :
    (roundFp k .rne neg (2 ^ i) e).2 = fNone := by
  have hm : 2 ^ i ≠ 0 := (Nat.two_pow_pos i).ne'
  have hexact : (k.kept neg (2 ^ i) e).2 = false := kept_exact fun n hn => pow_dvd_pow 2 (by
    rw [FpFmt.lead, Nat.log2_two_pow] at hn
    omega)
  exact noFlags_of_exact hm hexact (code_lt_inf hk hm hexact (by rwa [Nat.log2_two_pow]))

end Sys2Proof.Machine
end

section
/-! PROOFS. The value picked for a result that is not representable lies within the bound of R293. -/

namespace Sys2Proof.Machine

variable {k : FpFmt} {neg : Bool} {y : Exact} {Y : ℚ} {k2 : Nat}

/-! ### Halves of an ulp -/

/-- The exponent of half an ulp at an exact result. -/
def FpFmt.half (k : FpFmt) (y : Exact) : Int := k.lead y.1 y.2 - k.mb - 1

/-- An exact result in whole units of `2 ^ h`. -/
def unitsOf (y : Exact) (h : Int) : Nat :=
  if h - y.2 ≥ 0 then y.1 / 2 ^ (h - y.2).toNat else y.1 * 2 ^ (-(h - y.2)).toNat

/-- The result of one candidate of `withinUlps`, `c` halves of an ulp. -/
def FpFmt.candidate (k : FpFmt) (neg : Bool) (y : Exact) (c : Int) : Nat × FpFlags :=
  roundFp k .rne (if c = 0 then neg else neg != (c < 0)) c.natAbs (k.half y)

theorem withinUlps_eq (k : FpFmt) (neg : Bool) (y : Exact) (k2 : Nat) : withinUlps k neg y k2 =
    (upto (2 * k2)).filterMap fun i =>
      if (k.candidate neg y ((unitsOf y (k.half y) : Int) - k2 + 1 + (i : Nat))).2 = fNone
        then some (k.candidate neg y ((unitsOf y (k.half y) : Int) - k2 + 1 + (i : Nat))).1 else none := rfl

/-- The sign of a result as a factor. -/
def signOf (neg : Bool) : ℚ := if neg then -1 else 1

theorem abs_signOf (neg : Bool) : |signOf neg| = 1 := by cases neg <;> simp [signOf]

theorem inv_signOf (neg : Bool) : (signOf neg)⁻¹ = signOf neg := by cases neg <;> norm_num [signOf]

theorem ratOf_eq (neg : Bool) (m : Nat) (e : Int) : ratOf neg m e = signOf neg * (m * 2 ^ e) := mul_assoc _ _ _

theorem abs_ratOf (neg : Bool) (m : Nat) (e : Int) : |ratOf neg m e| = m * 2 ^ e := by
  rw [ratOf_eq, abs_mul, abs_signOf, one_mul, abs_of_nonneg (by positivity)]

theorem ratOf_candidate (neg : Bool) (c : Int) (e : Int) :
    ratOf (if c = 0 then neg else neg != (c < 0)) c.natAbs e = signOf neg * (c * 2 ^ e) := by
  rcases lt_trichotomy c 0 with hneg | rfl | hpos
  · have habs : (c.natAbs : ℚ) = -c := by
      rw [Nat.cast_natAbs, abs_of_neg hneg]
      exact Int.cast_neg c
    rw [if_neg hneg.ne, ratOf_eq, habs]
    cases neg <;> simp [signOf, hneg]
  · simp [ratOf]
  · have habs : (c.natAbs : ℚ) = c := by rw [Nat.cast_natAbs, abs_of_pos hpos]
    rw [if_neg hpos.ne', ratOf_eq, habs]
    cases neg <;> simp [signOf, hpos.le]

/-- `Y` has the sign of the model's result and lies in the same half of an ulp. -/
structure Approx (k : FpFmt) (neg : Bool) (y : Exact) (Y : ℚ) : Prop where
  sign : Y = signOf neg * |Y|
  lead : k.lead y.1 y.2 ≤ max (Int.log 2 |Y|) k.emin
  low : (unitsOf y (k.half y) : ℚ) * 2 ^ k.half y ≤ |Y|
  high : |Y| < ((unitsOf y (k.half y) : ℚ) + 1) * 2 ^ k.half y

/-- A pattern that stands for a near multiple of half an ulp is within the bound. -/
theorem Approx.within (h : Approx k neg y Y) {v : Nat} {c : Int} (hv : Stands k v (signOf neg * (c * 2 ^ k.half y)))
    (hlow : (unitsOf y (k.half y) : Int) - k2 + 1 ≤ c) (hhigh : c ≤ unitsOf y (k.half y) + k2) : WithinUlps k k2 Y v := by
  refine ⟨not_nan_of_stands hv, fun n m e hunpack => ?_⟩
  obtain ⟨n', m', e', hunpack', hvalue⟩ := hv
  obtain ⟨rfl, rfl, rfl⟩ := FVal.fin.inj (hunpack.symm.trans hunpack')
  obtain ⟨hsign, hlead, hfloor, hceil⟩ := h
  have hpos : (0 : ℚ) < 2 ^ k.half y := by positivity
  have hunit : (2 : ℚ) ^ (k.lead y.1 y.2 - k.mb) = 2 * 2 ^ k.half y := by
    rw [← zpow_one_add₀ two_ne_zero, FpFmt.half, add_sub_cancel]
  have hulp : (2 : ℚ) ^ (k.lead y.1 y.2 - k.mb) ≤ 2 ^ (max (Int.log 2 |Y|) k.emin - k.mb) :=
    zpow_le_zpow_right₀ one_le_two (by omega)
  have hdist : |(c : ℚ) * 2 ^ k.half y - (|Y|)| ≤ k2 * 2 ^ k.half y := by
    have hlowQ : (unitsOf y (k.half y) : ℚ) - k2 + 1 ≤ c := by exact_mod_cast hlow
    have hhighQ : (c : ℚ) ≤ unitsOf y (k.half y) + k2 := by exact_mod_cast hhigh
    rw [abs_le]
    constructor <;> nlinarith
  have habs : |ratOf n m e - Y| = |(c : ℚ) * 2 ^ k.half y - (|Y|)| := by
    conv_lhs => rw [hvalue, hsign, ← mul_sub, abs_mul, abs_signOf, one_mul]
  calc 2 * |ratOf n m e - Y| ≤ 2 * (k2 * 2 ^ k.half y) := by rw [habs]; linarith
    _ = k2 * 2 ^ (k.lead y.1 y.2 - k.mb) := by rw [hunit]; ring
    _ ≤ _ := mul_le_mul_of_nonneg_left hulp (Nat.cast_nonneg _)

theorem within_inf {v : Nat} (hv : unpack k v = .inf neg) : WithinUlps k k2 Y v :=
  ⟨by rw [hv]; rfl, fun n m e hfin => by rw [hv] at hfin; cases hfin⟩

/-! ### The candidates -/

theorem mem_withinUlps (hk : k.Wide) {v : Nat} (hv : v ∈ withinUlps k neg y k2) : ∃ c : Int,
    (unitsOf y (k.half y) : Int) - k2 + 1 ≤ c ∧ c ≤ unitsOf y (k.half y) + k2 ∧ Stands k v (signOf neg * (c * 2 ^ k.half y)) := by
  rw [withinUlps_eq] at hv
  obtain ⟨i, hi, hsome⟩ := List.mem_filterMap.1 hv
  have hlt : i < 2 * k2 := List.mem_range.1 hi
  split at hsome
  next hflags =>
    obtain rfl := Option.some.inj hsome
    refine ⟨(unitsOf y (k.half y) : Int) - k2 + 1 + (i : Nat), by omega, by omega, ?_⟩
    rw [← ratOf_candidate]
    exact stands_of_noFlags hk hflags
  next => cases hsome

/-- An even number of halves is a whole number of ulps. -/
theorem noFlags_of_even (hk : k.Wide) {c : Nat} {h : Int} (heven : 2 ∣ c) (hc : c ≤ 2 ^ (k.mb + 2)) (hmin : k.emin ≤ h + k.mb + 1)
    (hmax : h + k.mb + 1 < k.bias) : (roundFp k .rne neg c h).2 = fNone := by
  rcases Nat.eq_zero_or_pos c with rfl | hpos
  · rfl
  have hlog : c.log2 ≤ k.mb + 2 := by
    have hle := (Nat.log2_self_le hpos.ne').trans hc
    exact (Nat.pow_le_pow_iff_right one_lt_two).1 hle
  have hexact : (k.kept neg c h).2 = false := kept_exact fun n hn => by
    rw [FpFmt.lead] at hn
    rcases lt_or_eq_of_le hlog with hlt | htop
    · obtain rfl : n = 0 := by omega
      rwa [zero_add, pow_one]
    · have hself := Nat.log2_self_le hpos.ne'
      rw [htop] at hself
      rw [le_antisymm hc hself]
      exact pow_dvd_pow 2 (by omega)
  exact noFlags_of_exact hpos.ne' hexact (code_lt_inf hk hpos.ne' hexact (by omega))

theorem unitsOf_mul_le (y : Exact) (h : Int) : (unitsOf y h : ℚ) * 2 ^ h ≤ y.1 * 2 ^ y.2 := by
  rw [unitsOf]
  split
  next hsh =>
    obtain ⟨s, hs⟩ : ∃ s : Nat, h = s + y.2 := ⟨(h - y.2).toNat, by omega⟩
    have hdiv : ((y.1 / 2 ^ s : Nat) : ℚ) * 2 ^ s ≤ y.1 := by exact_mod_cast Nat.div_mul_le_self y.1 (2 ^ s)
    rw [show (h - y.2).toNat = s by omega, hs, zpow_add₀ two_ne_zero, zpow_natCast, ← mul_assoc]
    exact mul_le_mul_of_nonneg_right hdiv (by positivity)
  next hsh =>
    obtain ⟨s, hs⟩ : ∃ s : Nat, y.2 = s + h := ⟨(y.2 - h).toNat, by omega⟩
    rw [show (-(h - y.2)).toNat = s by omega, hs, zpow_add₀ two_ne_zero, zpow_natCast, ← mul_assoc]
    push_cast
    exact le_rfl

theorem lt_unitsOf_mul (y : Exact) (h : Int) : (y.1 : ℚ) * 2 ^ y.2 < (unitsOf y h + 1) * 2 ^ h := by
  rw [unitsOf]
  split
  next hsh =>
    obtain ⟨s, hs⟩ : ∃ s : Nat, h = s + y.2 := ⟨(h - y.2).toNat, by omega⟩
    have hdiv : (y.1 : ℚ) < ((y.1 / 2 ^ s : Nat) + 1) * 2 ^ s := by
      rw [mul_comm]
      exact_mod_cast Nat.lt_mul_div_succ y.1 (Nat.two_pow_pos s)
    rw [show (h - y.2).toNat = s by omega, hs, zpow_add₀ two_ne_zero, zpow_natCast, ← mul_assoc]
    exact mul_lt_mul_of_pos_right hdiv (by positivity)
  next hsh =>
    obtain ⟨s, hs⟩ : ∃ s : Nat, y.2 = s + h := ⟨(y.2 - h).toNat, by omega⟩
    rw [show (-(h - y.2)).toNat = s by omega, hs, zpow_add₀ two_ne_zero, zpow_natCast, ← mul_assoc]
    push_cast
    exact mul_lt_mul_of_pos_right (lt_add_one _) (by positivity)

theorem unitsOf_lt (k : FpFmt) (y : Exact) : unitsOf y (k.half y) < 2 ^ (k.mb + 2) := by
  have hlead : y.2 + y.1.log2 ≤ k.lead y.1 y.2 := le_max_left _ _
  have hy : (y.1 : ℚ) < 2 ^ (y.1.log2 + 1 : Int) := by exact_mod_cast lt_two_pow_log2_succ y.1
  have htop : (2 : ℚ) ^ (y.1.log2 + 1 + y.2 : Int) ≤ 2 ^ ((k.mb + 2 : Nat) + k.half y : Int) :=
    zpow_le_zpow_right₀ one_le_two (by rw [FpFmt.half]; omega)
  rw [zpow_add₀ two_ne_zero, zpow_add₀ two_ne_zero _ (k.half y)] at htop
  have hlt : (unitsOf y (k.half y) : ℚ) * 2 ^ k.half y < 2 ^ ((k.mb + 2 : Nat) : Int) * 2 ^ k.half y :=
    (unitsOf_mul_le y _).trans_lt ((mul_lt_mul_of_pos_right hy (by positivity)).trans_le htop)
  have := lt_of_mul_lt_mul_right hlt (by positivity)
  exact_mod_cast this

/-- Below the greatest exponent there is a candidate, the even one of the two about the exact result. -/
theorem withinUlps_ne_nil (hk : k.Wide) (hk2 : 1 ≤ k2) (hlead : k.lead y.1 y.2 < k.bias) : withinUlps k neg y k2 ≠ [] := by
  have hunits := unitsOf_lt k y
  have hmin := emin_le_lead k y.1 y.2
  obtain ⟨b, hb, heven⟩ : ∃ b : Nat, b ≤ 1 ∧ 2 ∣ unitsOf y (k.half y) + b :=
    ⟨unitsOf y (k.half y) % 2, by omega, by omega⟩
  have hindex : (unitsOf y (k.half y) : Int) - k2 + 1 + (k2 - 1 + b : Nat) = (unitsOf y (k.half y) + b : Nat) := by omega
  have hflags : (k.candidate neg y ((unitsOf y (k.half y) : Int) - k2 + 1 + (k2 - 1 + b : Nat))).2 = fNone := by
    rw [hindex, FpFmt.candidate, Int.natAbs_natCast]
    exact noFlags_of_even hk heven (by omega) (by rw [FpFmt.half]; omega) (by rw [FpFmt.half]; omega)
  rw [withinUlps_eq]
  exact List.ne_nil_of_mem (List.mem_filterMap.2 ⟨k2 - 1 + b, List.mem_range.2 (by omega), if_pos hflags⟩)

/-! ### The correctly rounded value -/

theorem log2_two_mul_add_one {m : Nat} (hm : m ≠ 0) : (2 * m + 1).log2 = m.log2 + 1 := by
  have hlow := Nat.log2_self_le hm
  have hhigh := lt_two_pow_log2_succ m
  rw [Nat.log2_eq_iff (by omega), pow_succ, pow_succ]
  omega

/-- A midpoint between two places below half an ulp rounds as the places' common floor does. -/
theorem kept_midpoint {s : Nat} (m : Nat) (neg : Bool) :
    (roundShift .rne neg (2 * m + 1) (s + 1 + 1 : Nat)).1 = (m / 2 ^ s + 1) / 2 := by
  have hsplit := Nat.div_add_mod m (2 ^ s)
  have hrest := Nat.mod_lt m (Nat.two_pow_pos s)
  rw [roundShift_succ]
  simp only
  generalize m / 2 ^ s = t at *
  generalize m % 2 ^ s = u at *
  have hpow : 2 ^ (s + 1 + 1) = 4 * 2 ^ s := by rw [pow_succ, pow_succ]; ring
  have hpow' : 2 ^ (s + 1) = 2 * 2 ^ s := by rw [pow_succ]; ring
  rw [hpow, hpow']
  generalize 2 ^ s = P at *
  obtain ⟨q, rfl | rfl⟩ := Nat.even_or_odd' t
  · have hvalue : 2 * m + 1 = 2 * u + 1 + 4 * P * q := by rw [← hsplit]; ring
    rw [hvalue, Nat.add_mul_div_left _ _ (by omega), Nat.add_mul_mod_self_left, Nat.div_eq_of_lt (by omega), Nat.mod_eq_of_lt (by omega)]
    split <;> omega
  · have hvalue : 2 * m + 1 = 2 * P + 2 * u + 1 + 4 * P * q := by rw [← hsplit]; ring
    rw [hvalue, Nat.add_mul_div_left _ _ (by omega), Nat.add_mul_mod_self_left, Nat.div_eq_of_lt (by omega), Nat.mod_eq_of_lt (by omega)]
    split <;> omega

theorem lead_midpoint (hfine : y.2 ≤ k.half y) : k.lead (2 * y.1 + 1) (y.2 - 1) = k.lead y.1 y.2 := by
  rw [FpFmt.half, FpFmt.lead] at hfine
  rw [FpFmt.lead, FpFmt.lead]
  by_cases hm : y.1 = 0
  · have hone : Nat.log2 1 = 0 := by decide
    rw [hm, Nat.log2_zero] at hfine ⊢
    rw [mul_zero, zero_add, hone]
    omega
  · rw [log2_two_mul_add_one hm]
    push_cast
    congr 1
    ring

theorem Approx.within_rounded (hk : k.Wide) (h : Approx k neg y Y) (hk2 : 1 ≤ k2) (hfine : y.2 ≤ k.half y) :
    WithinUlps k k2 Y (roundFp k .rne neg (2 * y.1 + 1) (y.2 - 1)).1 := by
  rcases roundFp_stands (neg := neg) (e := y.2 - 1) hk (Nat.succ_ne_zero (2 * y.1)) with hinf | hstands
  · exact within_inf hinf
  have hlead := lead_midpoint hfine
  obtain ⟨s, hs⟩ : ∃ s : Nat, k.half y - y.2 = s := ⟨(k.half y - y.2).toNat, by omega⟩
  have hshift : k.lead (2 * y.1 + 1) (y.2 - 1) - k.mb - (y.2 - 1) = (s + 1 + 1 : Nat) := by
    rw [hlead]
    rw [FpFmt.half] at hs
    push_cast
    omega
  have hunits : unitsOf y (k.half y) = y.1 / 2 ^ s := by rw [unitsOf, hs, if_pos (Int.natCast_nonneg s), Int.toNat_natCast]
  have hvalue : ratOf neg ((y.1 / 2 ^ s + 1) / 2) (k.lead y.1 y.2 - k.mb) =
      signOf neg * (((2 * ((y.1 / 2 ^ s + 1) / 2) : Nat) : Int) * 2 ^ k.half y) := by
    have hunit : (2 : ℚ) ^ (k.lead y.1 y.2 - k.mb) = 2 * 2 ^ k.half y := by
      rw [← zpow_one_add₀ two_ne_zero, FpFmt.half, add_sub_cancel]
    generalize (y.1 / 2 ^ s + 1) / 2 = c
    rw [ratOf_eq, hunit]
    push_cast
    ring
  rw [Nat.succ_eq_add_one, FpFmt.kept, hshift, kept_midpoint, hlead, hvalue] at hstands
  exact h.within hstands (by omega) (by omega)

/-! ### The value picked (R293) -/

theorem at!_mem {α : Type} {xs : List α} {i : Nat} (hi : i < xs.length) (d : α) : at! xs i d ∈ xs := by
  rw [at!_eq_getD, List.getD_eq_getElem _ _ hi]
  exact List.getElem_mem hi

/-- The value picked is within the bound: a candidate, or the correctly rounded value, which is taken where the exact result is
known to below half an ulp. -/
theorem Approx.within_pickValue (hk : k.Wide) (h : Approx k neg y Y) (hk2 : 1 ≤ k2) {ends : Nat → Bool} {op fmt key : Nat}
    (hround : k2 ≤ 1 ∨ ends (roundFp k .rne neg (2 * y.1 + 1) (y.2 - 1)).1 = true → y.2 ≤ k.half y)
    (hrange : y.2 ≤ k.bias - k.mb - 1) : WithinUlps k k2 Y (pickValue k neg y k2 ends op fmt key) := by
  rw [pickValue]
  simp only
  split
  next hends => exact h.within_rounded hk hk2 (hround (by simpa using hends))
  next hfree =>
    rcases Nat.eq_zero_or_pos (withinUlps k neg y k2).length with hnone | hsome
    · have hlead : k.bias ≤ k.lead y.1 y.2 := not_lt.1 fun hlt => withinUlps_ne_nil hk hk2 hlt (List.length_eq_zero_iff.1 hnone)
      rw [List.length_eq_zero_iff.1 hnone]
      exact h.within_rounded hk hk2 (by rw [FpFmt.half]; omega)
    · obtain ⟨c, hlow, hhigh, hstands⟩ := mem_withinUlps hk (at!_mem (Nat.mod_lt _ hsome) _)
      exact h.within hstands hlow hhigh

/-! ### Exact results and the model's (log 7) -/

theorem lead_le_of_ne_zero (hy : y.1 ≠ 0) (hlow : (y.1 : ℚ) * 2 ^ y.2 ≤ |Y|) : k.lead y.1 y.2 ≤ max (Int.log 2 |Y|) k.emin := by
  have hlog : ((2 : Nat) : ℚ) ^ (y.2 + y.1.log2 : Int) ≤ |Y| := by
    refine le_trans ?_ hlow
    have hself : (2 : ℚ) ^ y.1.log2 ≤ y.1 := by exact_mod_cast Nat.log2_self_le hy
    rw [Nat.cast_two, zpow_add₀ two_ne_zero, zpow_natCast, mul_comm]
    exact mul_le_mul_of_nonneg_right hself (by positivity)
  exact max_le_max_right _ ((Int.zpow_le_iff_le_log one_lt_two ((by positivity : (0 : ℚ) < _).trans_le hlog)).1 hlog)

/-- The model's result itself. -/
theorem approx_ratOf (hzero : y.1 ≠ 0 ∨ y.2 ≤ 0) : Approx k neg y (ratOf neg y.1 y.2) := by
  refine ⟨by rw [abs_ratOf, ratOf_eq], ?_, by rw [abs_ratOf]; exact unitsOf_mul_le y _, by rw [abs_ratOf]; exact lt_unitsOf_mul y _⟩
  by_cases hy : y.1 = 0
  · have hsmall := hzero.resolve_left (not_not.2 hy)
    rw [hy, FpFmt.lead, abs_ratOf, Nat.cast_zero, zero_mul, Int.log_zero_right]
    exact max_le_max_right _ (by simpa using hsmall)
  · exact lead_le_of_ne_zero hy (abs_ratOf neg y.1 y.2).ge

/-- A number of which the model's result is the floor, known to below half an ulp. -/
theorem approx_of_floor (hy : y.1 ≠ 0) (hsign : Y = signOf neg * |Y|) (hlow : (y.1 : ℚ) * 2 ^ y.2 ≤ |Y|)
    (hhigh : |Y| < (y.1 + 1) * 2 ^ y.2) (hfine : y.2 ≤ k.half y) : Approx k neg y Y := by
  refine ⟨hsign, lead_le_of_ne_zero hy hlow, (unitsOf_mul_le y _).trans hlow, hhigh.trans_le ?_⟩
  obtain ⟨s, hs⟩ : ∃ s : Nat, k.half y - y.2 = s := ⟨(k.half y - y.2).toNat, by omega⟩
  have hceil : ((y.1 : ℚ) + 1) ≤ ((y.1 / 2 ^ s : Nat) + 1) * 2 ^ s := by
    rw [mul_comm]
    exact_mod_cast Nat.lt_mul_div_succ y.1 (Nat.two_pow_pos s)
  rw [unitsOf, hs, if_pos (Int.natCast_nonneg s), Int.toNat_natCast, show k.half y = s + y.2 by omega, zpow_add₀ two_ne_zero,
    zpow_natCast, ← mul_assoc]
  exact mul_le_mul_of_nonneg_right hceil (by positivity)

end Sys2Proof.Machine
end

section
/-! PROOFS. The special functions (O28). -/

namespace Sys2Proof.Machine

variable {k : FpFmt} {fm : Fmt} {neg : Bool} {y : Exact} {Y : ℚ} {k2 wide op key : Nat} {ends : FpFmt → Nat → Bool} {m : Nat} {e : Int}

/-! ### Results that are not representable (R293, R294) -/

/-- The format in which an inexact result is evaluated (R293: F32 for BF16). -/
def evalFmt : Fmt → FpFmt
  | .bf16 => fpOf .f32
  | f => fpOf f

/-- R293's bound of a format, in halves of an ulp. -/
def evalUlps (f : Fmt) (k2 wide : Nat) : Nat := if f = .f64 then wide else k2

theorem wide_evalFmt (f : Fmt) : (evalFmt f).Wide := by
  cases f <;> exact ⟨by decide, by decide⟩

theorem inexactAt_of (hfloat : fm.isFloat = true)
    (h : ∀ e : Nat → Bool, (fm = .f64 → e = ends (fpOf .f64)) →
      WithinUlps (evalFmt fm) (evalUlps fm k2 wide) Y (pickValue (evalFmt fm) neg y (evalUlps fm k2 wide) e op fm.code key)) :
    InexactAt fm k2 wide Y (inexactResult fm neg y k2 wide op key ends) := by
  cases fm
  case f16 => exact ⟨h (ends (fpOf .f16)) nofun, rfl⟩
  case bf16 => exact ⟨⟨_, h _ nofun, rfl⟩, rfl⟩
  case f32 => exact ⟨h (ends (fpOf .f32)) nofun, rfl⟩
  case f64 => exact ⟨h (ends (fpOf .f64)) fun _ => rfl, rfl⟩
  all_goals exact absurd hfloat (by decide)

theorem neg150_le_half (hnot : fm ≠ .f64) (y : Exact) : -150 ≤ (evalFmt fm).half y := by
  have hmin := emin_le_lead (evalFmt fm) y.1 y.2
  have hleast : -150 ≤ (evalFmt fm).emin - (evalFmt fm).mb - 1 := by
    cases fm
    case f64 => exact absurd rfl hnot
    all_goals decide
  rw [FpFmt.half]
  omega

/-- The value of an inexact result is within R293's bound, as the model knows the exact result far below half an ulp: in F16, F32 and
BF16 by 150 places, in F64 wherever the correctly rounded value is an end of the function. -/
theorem inexactAt_of_approx (hfloat : fm.isFloat = true) (h : Approx (evalFmt fm) neg y Y) (hk2 : 1 ≤ k2) (hwide : 2 ≤ wide)
    (hsmall : fm ≠ .f64 → y.2 ≤ -150) (hrange : y.2 ≤ 970)
    (hends : fm = .f64 → ends (fpOf .f64) (roundFp (fpOf .f64) .rne neg (2 * y.1 + 1) (y.2 - 1)).1 = true → y.2 ≤ (fpOf .f64).half y) :
    InexactAt fm k2 wide Y (inexactResult fm neg y k2 wide op key ends) := by
  refine inexactAt_of hfloat fun en hen => h.within_pickValue (wide_evalFmt fm) ?_ ?_ ?_
  · rw [evalUlps]
    split <;> omega
  · by_cases h64 : fm = .f64
    · subst h64
      rw [hen rfl]
      exact fun hround => hends rfl (hround.resolve_left (not_le.2 hwide))
    · exact fun _ => (hsmall h64).trans (neg150_le_half h64 y)
  · by_cases h64 : fm = .f64
    · subst h64
      exact hrange
    · refine (hsmall h64).trans ?_
      cases fm <;> decide

/-- The same for the model's own result, known to 150 places and more. -/
theorem inexactAt_model (hfloat : fm.isFloat = true) (hk2 : 1 ≤ k2) (hwide : 2 ≤ wide) (hsmall : y.2 ≤ -150)
    (hends : ends (fpOf .f64) (roundFp (fpOf .f64) .rne neg (2 * y.1 + 1) (y.2 - 1)).1 = true → y.2 ≤ (fpOf .f64).half y) :
    InexactAt fm k2 wide (ratOf neg y.1 y.2) (inexactResult fm neg y k2 wide op key ends) :=
  inexactAt_of_approx hfloat (approx_ratOf (.inr (by omega))) hk2 hwide (fun _ => hsmall) (by omega) fun _ => hends

theorem le_half_of_log2 (hlog : k.mb + 1 ≤ y.1.log2) : y.2 ≤ k.half y := by
  have hlead : y.2 + y.1.log2 ≤ k.lead y.1 y.2 := le_max_left _ _
  rw [FpFmt.half]
  omega

/-! ### Magnitudes of operands -/

theorem two_pow_le_iff (hm : m ≠ 0) (z : Int) : (2 : ℚ) ^ z ≤ m * 2 ^ e ↔ z ≤ e + m.log2 := by
  have hlow : (2 : ℚ) ^ (m.log2 : Int) ≤ m := by exact_mod_cast Nat.log2_self_le hm
  have hhigh : (m : ℚ) < 2 ^ (m.log2 + 1 : Int) := by exact_mod_cast lt_two_pow_log2_succ m
  have hpos : (0 : ℚ) < 2 ^ e := by positivity
  constructor
  · intro hle
    have hlt := hle.trans_lt (mul_lt_mul_of_pos_right hhigh hpos)
    rw [← zpow_add₀ two_ne_zero, zpow_lt_zpow_iff_right₀ one_lt_two] at hlt
    omega
  · intro hle
    refine le_trans ?_ (mul_le_mul_of_nonneg_right hlow hpos.le)
    rw [← zpow_add₀ two_ne_zero, zpow_le_zpow_iff_right₀ one_lt_two]
    omega

theorem eq_two_pow_iff (hm : m ≠ 0) (z : Int) : (m : ℚ) * 2 ^ e = 2 ^ z ↔ m = 2 ^ m.log2 ∧ e + m.log2 = z := by
  constructor
  · intro heq
    have hlow : z ≤ e + m.log2 := (two_pow_le_iff hm z).1 heq.ge
    have hhigh : e + m.log2 ≤ z := by
      have hle := (two_pow_le_iff (e := e) hm (e + m.log2)).2 le_rfl
      rwa [heq, zpow_le_zpow_iff_right₀ one_lt_two] at hle
    have hz : e + m.log2 = z := le_antisymm hhigh hlow
    rw [← hz, add_comm, zpow_add₀ two_ne_zero, zpow_natCast] at heq
    exact ⟨by exact_mod_cast mul_right_cancel₀ (by positivity : (2 : ℚ) ^ e ≠ 0) heq, hz⟩
  · rintro ⟨hm2, rfl⟩
    rw [add_comm, zpow_add₀ two_ne_zero, zpow_natCast]
    congr 1
    exact_mod_cast hm2

theorem ratOf_neg_iff (hm : m ≠ 0) : ratOf neg m e < 0 ↔ neg = true := by
  have hpos : (0 : ℚ) < m * 2 ^ e := mul_pos (by exact_mod_cast Nat.pos_of_ne_zero hm) (by positivity)
  rw [ratOf_eq]
  cases neg
  · exact iff_of_false (by simpa [signOf] using hpos.le) (by decide)
  · exact iff_of_true (by simpa [signOf] using hpos) rfl

theorem ratOf_zero_left (neg : Bool) (e : Int) : ratOf neg 0 e = 0 := by simp [ratOf]

/-- A number of a format has a significand and an exponent within the format's. -/
theorem unpack_fin_bounds (hk : k.Wide) {x : Nat} (h : unpack k x = .fin neg m e) :
    m < 2 ^ (k.mb + 1) ∧ k.emin - k.mb ≤ e ∧ e ≤ k.bias - k.mb := by
  have hfour := hk.four_le
  have heb := hk.two_pow_eb
  have hfrac : x % 2 ^ k.mb < 2 ^ k.mb := Nat.mod_lt _ (Nat.two_pow_pos _)
  have hexp : x / 2 ^ k.mb % 2 ^ k.eb < 2 ^ k.eb := Nat.mod_lt _ (Nat.two_pow_pos _)
  rw [pow_succ]
  rw [unpack] at h
  split_ifs at h
  · obtain ⟨-, rfl, rfl⟩ := FVal.fin.inj h
    omega
  · obtain ⟨-, rfl, rfl⟩ := FVal.fin.inj h
    omega

/-! ### Exact values -/

theorem bias_pos (hk : k.Wide) : 1 ≤ k.bias := by
  have hfour := hk.four_le
  have heb := hk.two_pow_eb
  rw [FpFmt.emin] at heb
  omega

/-- A power of two that the format has. -/
theorem stands_two_pow (hk : k.Wide) (hlow : k.emin - k.mb ≤ e) (hhigh : e ≤ k.bias) : Stands k (roundFp k .rne false 1 e).1 (2 ^ e) := by
  have hstands := stands_of_noFlags hk (roundFp_two_pow (neg := false) (e := e) (i := 0) hk (by simpa using hlow) (by simpa using hhigh))
  simpa [ratOf] using hstands

theorem stands_oneOf (hk : k.Wide) : Stands k (oneOf k) 1 := by
  have hbias := bias_pos hk
  have hstands := stands_two_pow (e := 0) hk (by rw [FpFmt.emin]; omega) (by omega)
  rwa [zpow_zero] at hstands

/-! ### What a word of group 0x8 gives (R292, R296) -/

theorem givesSpecial_each1 {s : State} {i : Instr} {f : Fields} {a : List Nat} {g : Fmt → Nat → Nat × FpFlags}
    {inf : Bool → Nat × FpFlags} {fin : Nat → Bool → Nat → Int → Nat × FpFlags → Prop}
    (hexec : exec i s = .next (s.each1 f (keepIf Fmt.isFloat) g)) (r : Reads1 s f fm a) (hfloat : fm.isFloat = true)
    (hnan : ∀ x b, unpack (fpOf fm) x = .nan b → g fm x = ((fpOf fm).nan, flagIf b fNV))
    (hinf : ∀ x n, unpack (fpOf fm) x = .inf n → g fm x = inf n)
    (hfin : ∀ x n m e, unpack (fpOf fm) x = .fin n m e → fin x n m e (g fm x)) : GivesSpecial s i f fm a inf fin :=
  ⟨fun j => g fm (el a j), givesF_each1 hexec r (keepIf_of hfloat) fun _ => rfl, fun j _ => ⟨hnan (el a j), hinf (el a j), hfin (el a j)⟩⟩

/-! ### Exact reciprocals and the overflow of FRCP (R294, R296) -/

/-- What `roundRatio` gives to `roundFp` for 1/m: the floor, and a last place for the rest. -/
theorem roundRatio_one (k : FpFmt) (neg : Bool) (m : Nat) (e : Int) : roundRatio k .rne neg 1 m e =
    roundFp k .rne neg (2 * (2 ^ (k.mb + 4 + m.log2) / m) + if 2 ^ (k.mb + 4 + m.log2) % m = 0 then 0 else 1)
      (e - (k.mb + 4 + m.log2 : Nat) - 1) := by
  have hone : Nat.log2 1 = 0 := by decide
  simp only [roundRatio, hone, Nat.sub_zero, one_mul]

theorem recip_floor (hm : m ≠ 0) (sh : Nat) (e : Int) :
    ((2 ^ sh / m : Nat) : ℚ) * 2 ^ (-(sh : Int) - e) ≤ ((m : ℚ) * 2 ^ e)⁻¹ ∧
      ((m : ℚ) * 2 ^ e)⁻¹ < ((2 ^ sh / m : Nat) + 1) * 2 ^ (-(sh : Int) - e) := by
  have hpos : (0 : ℚ) < m := by exact_mod_cast Nat.pos_of_ne_zero hm
  have hvalue : ((m : ℚ) * 2 ^ e)⁻¹ = 2 ^ sh / m * 2 ^ (-(sh : Int) - e) := by
    rw [sub_eq_add_neg, zpow_add₀ two_ne_zero, zpow_neg, zpow_neg, zpow_natCast]
    field_simp
  have hfloor : ((2 ^ sh / m : Nat) : ℚ) ≤ 2 ^ sh / m := by exact_mod_cast (Nat.cast_div_le (α := ℚ) : ((2 ^ sh / m : Nat) : ℚ) ≤ _)
  have hceil : (2 : ℚ) ^ sh / m < (2 ^ sh / m : Nat) + 1 := by
    rw [div_lt_iff₀' hpos]
    exact_mod_cast Nat.lt_mul_div_succ (2 ^ sh) (Nat.pos_of_ne_zero hm)
  rw [hvalue]
  exact ⟨mul_le_mul_of_nonneg_right hfloor (by positivity), mul_lt_mul_of_pos_right hceil (by positivity)⟩

theorem log2_recip (hm : m ≠ 0) (j : Nat) : j ≤ (2 ^ (j + 1 + m.log2) / m).log2 := by
  have hlt := lt_two_pow_log2_succ m
  have hle : 2 ^ j ≤ 2 ^ (j + 1 + m.log2) / m := by
    rw [Nat.le_div_iff_mul_le (Nat.pos_of_ne_zero hm)]
    calc 2 ^ j * m ≤ 2 ^ j * 2 ^ (m.log2 + 1) := Nat.mul_le_mul_left _ hlt.le
      _ = 2 ^ (j + 1 + m.log2) := by rw [← pow_add]; congr 1; omega
  exact (Nat.le_log2 ((Nat.two_pow_pos j).trans_le hle).ne').2 hle

/-- The least magnitude that rounds to an infinity (R276, R294). -/
def FpFmt.overLimit (k : FpFmt) : ℚ := (2 - 2 ^ (-(k.mb : Int) - 1)) * 2 ^ k.bias

theorem overLimit_eq (k : FpFmt) : k.overLimit = ((2 ^ (k.mb + 2) - 1 : Nat) : ℚ) * 2 ^ (k.bias - k.mb - 1) := by
  have hsplit : (2 : ℚ) ^ k.bias = 2 ^ (k.mb + 1) * 2 ^ (k.bias - k.mb - 1) := by
    rw [← zpow_natCast, ← zpow_add₀ two_ne_zero]
    congr 1
    push_cast
    ring
  have hunit : (2 : ℚ) ^ (-(k.mb : Int) - 1) * 2 ^ (k.mb + 1) = 1 := by
    rw [← zpow_natCast, ← zpow_add₀ two_ne_zero, show (-(k.mb : Int) - 1 + (k.mb + 1 : Nat)) = 0 by omega, zpow_zero]
  rw [FpFmt.overLimit, hsplit, Nat.cast_sub Nat.one_le_two_pow, ← mul_assoc, sub_mul, hunit]
  push_cast
  ring

theorem two_pow_bias_le_overLimit (k : FpFmt) : (2 : ℚ) ^ k.bias ≤ k.overLimit := by
  have hsmall : (2 : ℚ) ^ (-(k.mb : Int) - 1) ≤ 1 := zpow_le_one_of_nonpos₀ one_le_two (by omega)
  rw [FpFmt.overLimit]
  exact le_mul_of_one_le_left (by positivity) (by linarith)

theorem overLimit_lt (k : FpFmt) : k.overLimit < 2 ^ (k.bias + 1) := by
  rw [FpFmt.overLimit, zpow_add_one₀ two_ne_zero, mul_comm _ (2 : ℚ)]
  exact mul_lt_mul_of_pos_right (sub_lt_self _ (by positivity)) (by positivity)

/-- A floor `q` with a last place for the rest overflows where the number itself is past the limit. -/
theorem overflow_floor_iff (hk : k.Wide) {q st : Nat} {e : Int} {Z : ℚ} (hst : st ≤ 1) (hq : k.mb + 1 ≤ q.log2)
    (hlow : (q : ℚ) * 2 ^ e ≤ Z) (hhigh : Z < (q + 1) * 2 ^ e) : k.inf ≤ k.code neg (2 * q + st) (e - 1) ↔ k.overLimit ≤ Z := by
  have hq0 : q ≠ 0 := by
    rintro rfl
    rw [Nat.log2_zero] at hq
    omega
  have hlog : (2 * q + st).log2 = q.log2 + 1 := by
    have hself := Nat.log2_self_le hq0
    have hlt := lt_two_pow_log2_succ q
    rw [Nat.log2_eq_iff (by omega), pow_succ, pow_succ]
    rw [pow_succ] at hlt
    omega
  have hlead : k.lead (2 * q + st) (e - 1) = k.lead q e := by
    rw [FpFmt.lead, FpFmt.lead, hlog]
    push_cast
    congr 1
    ring
  have hpos : (0 : ℚ) < 2 ^ e := by positivity
  rw [overflow_iff hk (by omega), hlead]
  rcases lt_trichotomy (k.lead q e) k.bias with hbelow | hat | habove
  · refine iff_of_false (by omega) (not_le.2 ?_)
    have htop : e + q.log2 + 1 ≤ k.bias := by
      have hle : e + q.log2 ≤ k.lead q e := le_max_left _ _
      omega
    have hqlt : (q : ℚ) + 1 ≤ 2 ^ (q.log2 + 1 : Int) := by exact_mod_cast lt_two_pow_log2_succ q
    calc Z < (q + 1) * 2 ^ e := hhigh
      _ ≤ 2 ^ (q.log2 + 1 : Int) * 2 ^ e := mul_le_mul_of_nonneg_right hqlt hpos.le
      _ ≤ 2 ^ k.bias := by
        rw [← zpow_add₀ two_ne_zero]
        exact zpow_le_zpow_right₀ one_le_two (by omega)
      _ ≤ k.overLimit := two_pow_bias_le_overLimit k
  · have htop : e + q.log2 ≤ k.bias := hat ▸ le_max_left _ _
    obtain ⟨n, hn⟩ : ∃ n : Nat, k.bias - k.mb - 1 = n + e := ⟨(k.bias - k.mb - 1 - e).toNat, by omega⟩
    have hshift : k.bias - k.mb - (e - 1) = (n + 1 + 1 : Nat) := by
      push_cast
      omega
    have hcarry : 2 ^ (k.mb + 1) ≤ (k.kept neg (2 * q + st) (e - 1)).1 ↔ (2 ^ (k.mb + 2) - 1) * 2 ^ n ≤ q := by
      rw [FpFmt.kept, hlead, hat, hshift, le_roundShift_iff (by rw [pow_succ]; omega), ← pow_succ', pow_succ 2 n]
      obtain ⟨B, hB⟩ : ∃ B, 2 ^ (k.mb + 2) = B + 1 := Nat.exists_eq_add_one.2 (Nat.two_pow_pos _)
      have hdouble : (B + 1) * (2 ^ n * 2) = 2 * (B * 2 ^ n) + 2 * 2 ^ n := by ring
      rw [show k.mb + 1 + 1 = k.mb + 2 from rfl, hB, hdouble, Nat.add_sub_cancel]
      omega
    have hlimit : k.overLimit = ((2 ^ (k.mb + 2) - 1) * 2 ^ n : Nat) * 2 ^ e := by
      rw [overLimit_eq, hn, zpow_add₀ two_ne_zero, zpow_natCast]
      push_cast
      ring
    rw [hat, hcarry, hlimit]
    simp only [lt_irrefl, true_and, false_or]
    constructor
    · exact fun hle => le_trans (mul_le_mul_of_nonneg_right (by exact_mod_cast hle) hpos.le) hlow
    · intro hle
      have hlt := lt_of_mul_lt_mul_right (hle.trans_lt hhigh) hpos.le
      have hnat : (2 ^ (k.mb + 2) - 1) * 2 ^ n < q + 1 := by exact_mod_cast hlt
      omega
  · refine iff_of_true (.inl habove) ((overLimit_lt k).le.trans (le_trans ?_ hlow))
    have hmin := emin_le_bias hk
    have htop : k.bias + 1 ≤ e + q.log2 := (lt_max_iff.1 habove).resolve_right (by omega)
    have hself : (2 : ℚ) ^ (q.log2 : Int) ≤ q := by exact_mod_cast Nat.log2_self_le hq0
    calc (2 : ℚ) ^ (k.bias + 1) ≤ 2 ^ ((q.log2 : Int) + e) := zpow_le_zpow_right₀ one_le_two (by omega)
      _ ≤ q * 2 ^ e := by
        rw [zpow_add₀ two_ne_zero]
        exact mul_le_mul_of_nonneg_right hself hpos.le

theorem roundFp_overflow_iff (hm : m ≠ 0) : (roundFp k .rne neg m e).2 &&& 4 ≠ 0 ↔ k.inf ≤ k.code neg m e := by
  rcases le_or_gt k.inf (k.code neg m e) with hover | hfin
  · rw [roundFp_overflow hm hover]
    exact iff_of_true (by decide : fOF &&& 4 ≠ 0) hover
  · obtain ⟨tiny, hr⟩ := roundFp_finite hm hfin
    refine iff_of_false ?_ (not_le.2 hfin)
    have hclear : ∀ lost tiny : Bool, ¬ (flagIf lost fNX ||| flagIf (tiny && lost) fUF) &&& 4 ≠ 0 := by decide
    rw [hr]
    exact hclear _ _

theorem recip_overflow_iff (hk : k.Wide) (hm : m ≠ 0) (n : Bool) :
    (roundRatio k .rne neg 1 m (-e)).2 &&& 4 ≠ 0 ↔ k.overLimit ≤ |(ratOf n m e)⁻¹| := by
  obtain ⟨hlow, hhigh⟩ := recip_floor hm (k.mb + 4 + m.log2) e
  have hlog := log2_recip hm (k.mb + 3)
  rw [show k.mb + 3 + 1 = k.mb + 4 by omega] at hlog
  have hne : 2 ^ (k.mb + 4 + m.log2) / m ≠ 0 := by
    intro hzero
    rw [hzero, Nat.log2_zero] at hlog
    omega
  rw [roundRatio_one, roundFp_overflow_iff (by omega), abs_inv, abs_ratOf,
    show -e - ((k.mb + 4 + m.log2 : Nat) : Int) - 1 = -((k.mb + 4 + m.log2 : Nat) : Int) - e - 1 by ring]
  exact overflow_floor_iff hk (by split <;> omega) (by omega) hlow hhigh

/-- The reciprocal of a power of two that does not overflow (R296). -/
theorem stands_recip_two_pow (hk : k.Wide) {L : Nat} (htop : e + L ≤ k.bias) (hover : |(ratOf neg (2 ^ L) e)⁻¹| < k.overLimit) :
    Stands k (roundRatio k .rne neg 1 (2 ^ L) (-e)).1 (ratOf neg (2 ^ L) e)⁻¹ := by
  have hdvd : 2 ^ (k.mb + 4 + L) % 2 ^ L = 0 := Nat.mod_eq_zero_of_dvd (pow_dvd_pow 2 (by omega))
  have hquot : 2 ^ (k.mb + 4 + L) / 2 ^ L = 2 ^ (k.mb + 4) := by rw [pow_add, Nat.mul_div_cancel _ (Nat.two_pow_pos _)]
  have habs : |(ratOf neg (2 ^ L) e)⁻¹| = 2 ^ (-e - L) := by
    rw [abs_inv, abs_ratOf, Nat.cast_pow, Nat.cast_two, ← zpow_natCast, ← zpow_add₀ two_ne_zero, ← zpow_neg]
    congr 1
    ring
  have hle : -e - L ≤ k.bias := by
    rw [habs] at hover
    have := (zpow_lt_zpow_iff_right₀ one_lt_two).1 (hover.trans (overLimit_lt k))
    omega
  have hmb := hk.mb
  rw [roundRatio_one, Nat.log2_two_pow, hdvd, hquot, if_pos rfl, add_zero, ← pow_succ']
  have hflags := roundFp_two_pow (neg := neg) (e := -e - (k.mb + 4 + L : Nat) - 1) (i := k.mb + 4 + 1) hk
    (by rw [FpFmt.emin]; push_cast; omega) (by push_cast; omega)
  have hstands := stands_of_noFlags hk hflags
  have hvalue : ratOf neg (2 ^ (k.mb + 4 + 1)) (-e - (k.mb + 4 + L : Nat) - 1) = (ratOf neg (2 ^ L) e)⁻¹ := by
    rw [ratOf_eq, ratOf_eq, mul_inv, inv_signOf]
    congr 1
    rw [Nat.cast_pow, Nat.cast_pow, Nat.cast_two, ← zpow_natCast, ← zpow_natCast, ← zpow_add₀ two_ne_zero, ← zpow_add₀ two_ne_zero,
      ← zpow_neg]
    congr 1
    push_cast
    ring
  rwa [hvalue] at hstands

end Sys2Proof.Machine
end

section
/-! PROOFS. The special functions one by one (O28). -/

namespace Sys2Proof.Machine

variable {fm : Fmt} {x : Nat} {n : Bool} {m : Nat} {e : Int}

/-! ### Tests of the operand (R296) -/

theorem one_le_abs_iff (hm : m ≠ 0) : 1 ≤ |ratOf n m e| ↔ atLeast m e 0 = true := by
  have hiff := two_pow_le_iff (e := e) hm 0
  rw [zpow_zero] at hiff
  rw [abs_ratOf, hiff, atLeast, decide_eq_true_eq, ge_iff_le]

theorem abs_eq_two_pow_iff (hm : m ≠ 0) (z : Int) : |ratOf n m e| = 2 ^ z ↔ m = 2 ^ m.log2 ∧ e + m.log2 = z := by
  rw [abs_ratOf, eq_two_pow_iff hm]

theorem significand_ne_zero (h : ratOf n m e ≠ 0) : m ≠ 0 := by
  rintro rfl
  exact h (ratOf_zero_left n e)

theorem eq_two_pow_of_pos (hm : m ≠ 0) {z : Int} : ratOf n m e = 2 ^ z ↔ n = false ∧ m = 2 ^ m.log2 ∧ e + m.log2 = z := by
  rw [← abs_eq_two_pow_iff (n := n) hm]
  cases n
  · rw [abs_ratOf, ratOf_eq]
    simp [signOf]
  · refine iff_of_false ?_ (by simp)
    have hneg := (ratOf_neg_iff (e := e) hm).2 rfl
    intro h
    rw [h] at hneg
    exact absurd hneg (not_lt.2 (by positivity))

/-! ### FEXP2F and FLOG2M -/

theorem exp2Exact_small (n : Bool) (m : Nat) (e : Int) : (exp2Exact n m e).2 ≤ -150 := by
  rw [exp2Exact]
  split
  · cases n <;> exact le_rfl
  · exact (by decide : (-512 : Int) ≤ -150)

theorem spExp2_fin (hfloat : fm.isFloat = true) (hx : unpack (fpOf fm) x = .fin n m e) :
    (m = 0 → spExp2 fm x = (oneOf (fpOf fm), fNone)) ∧ (1 < |ratOf n m e| → spExp2 fm x = ((fpOf fm).nan, fNV)) ∧
    (|ratOf n m e| = 1 → Stands (fpOf fm) (spExp2 fm x).1 (if n then 1 / 2 else 2) ∧ (spExp2 fm x).2 = fNone) ∧
    (m ≠ 0 → |ratOf n m e| < 1 →
      InexactAt fm 1 2 (ratOf false (exp2Exact n m e).1 (exp2Exact n m e).2) (spExp2 fm x)) := by
  have hk := wide_fpOf fm
  have hbias := bias_pos hk
  simp only [spExp2, hx]
  have hone (hm : m ≠ 0) : (decide (m = 2 ^ m.log2) && decide (e + m.log2 = 0)) = true ↔ |ratOf n m e| = 1 := by
    rw [Bool.and_eq_true, decide_eq_true_eq, decide_eq_true_eq, ← zpow_zero (2 : ℚ), abs_eq_two_pow_iff hm]
  refine ⟨fun hm => if_pos hm, fun habove => ?above, fun heq => ?one, fun hm hbelow => ?below⟩
  case above =>
    have hm : m ≠ 0 := significand_ne_zero (abs_pos.1 (zero_lt_one.trans habove))
    rw [if_neg hm, if_pos ((one_le_abs_iff hm).1 habove.le), if_neg (fun h => habove.ne' ((hone hm).1 h))]
  case one =>
    have hm : m ≠ 0 := significand_ne_zero (abs_pos.1 (heq ▸ zero_lt_one))
    rw [if_neg hm, if_pos ((one_le_abs_iff hm).1 heq.ge), if_pos ((hone hm).2 heq)]
    refine ⟨?_, rfl⟩
    cases n
    · simpa using stands_two_pow (e := 1) hk (by rw [FpFmt.emin]; omega) hbias
    · simpa using stands_two_pow (e := -1) hk (by have := hk.mb; rw [FpFmt.emin]; omega) (by omega)
  case below =>
    rw [if_neg hm, if_neg (fun h => not_le.2 hbelow ((one_le_abs_iff hm).2 h))]
    exact inexactAt_model hfloat le_rfl le_rfl (exp2Exact_small n m e) nofun

theorem spLog2_fin (hfloat : fm.isFloat = true) (hx : unpack (fpOf fm) x = .fin n m e) :
    (m = 0 → spLog2 fm x = ((fpOf fm).signed true (fpOf fm).inf, fDZ)) ∧
    (ratOf n m e < 0 → spLog2 fm x = ((fpOf fm).nan, fNV)) ∧ (∀ z : Int, ratOf n m e = 2 ^ z → spLog2 fm x = (0, fNone)) ∧
    (0 < ratOf n m e → (∀ z : Int, ratOf n m e ≠ 2 ^ z) →
      InexactAt fm 2 4 (ratOf false (log2Exact m).1 (log2Exact m).2) (spLog2 fm x)) := by
  simp only [spLog2, hx]
  refine ⟨fun hm => if_pos hm, fun hneg => ?negative, fun z heq => ?power, fun hpos hnot => ?other⟩
  case negative =>
    have hm := significand_ne_zero hneg.ne
    rw [if_neg hm, if_pos ((ratOf_neg_iff hm).1 hneg)]
  case power =>
    have hm : m ≠ 0 := significand_ne_zero (by rw [heq]; positivity)
    obtain ⟨rfl, hm2, -⟩ := (eq_two_pow_of_pos hm).1 heq
    rw [if_neg hm, if_neg (by decide), if_pos hm2]
  case other =>
    have hm := significand_ne_zero hpos.ne'
    have hn : n = false := Bool.eq_false_iff.2 fun h => hpos.not_gt ((ratOf_neg_iff hm).2 h)
    rw [if_neg hm, if_neg (by simp [hn]), if_neg fun hm2 => hnot _ ((eq_two_pow_of_pos hm).2 ⟨hn, hm2, rfl⟩)]
    exact inexactAt_model hfloat (by decide) (by decide) (by decide : (-512 : Int) ≤ -150) nofun

/-! ### FRCP and FRSQ -/

theorem fpOf_bounds (hx : unpack (fpOf fm) x = .fin n m e) (hm : m ≠ 0) :
    m.log2 ≤ (fpOf fm).mb ∧ (fpOf fm).emin - (fpOf fm).mb ≤ e ∧ e + m.log2 ≤ (fpOf fm).bias := by
  obtain ⟨hlt, hlow, hhigh⟩ := unpack_fin_bounds (wide_fpOf fm) hx
  have hlog := (Nat.log2_lt hm).2 hlt
  omega

/-- No operand is below the least subnormal of its format. -/
theorem least_exponent (hx : unpack (fpOf fm) x = .fin n m e) (hm : m ≠ 0) : -1074 ≤ e ∧ (fm ≠ .f64 → -149 ≤ e) := by
  obtain ⟨-, hlow, -⟩ := fpOf_bounds hx hm
  have hleast : -1074 ≤ (fpOf fm).emin - (fpOf fm).mb ∧ (fm ≠ .f64 → -149 ≤ (fpOf fm).emin - (fpOf fm).mb) := by
    cases fm <;> decide
  exact ⟨hleast.1.trans hlow, fun hnot => (hleast.2 hnot).trans hlow⟩

theorem evalFmt_mb_le (fm : Fmt) : (evalFmt fm).mb ≤ 52 := by cases fm <;> decide

theorem inv_ratOf (n : Bool) (m : Nat) (e : Int) : (ratOf n m e)⁻¹ = signOf n * |(ratOf n m e)⁻¹| := by
  rw [abs_inv, abs_ratOf, ratOf_eq, mul_inv, inv_signOf]

/-- FRCP's working value is the floor of the reciprocal, far below half an ulp. -/
theorem inexactAt_recip (hfloat : fm.isFloat = true) (hm : m ≠ 0) (hleast : -1074 ≤ e ∧ (fm ≠ .f64 → -149 ≤ e)) {op key : Nat} :
    InexactAt fm 2 2 (ratOf n m e)⁻¹
      (inexactResult fm n (2 ^ (300 + m.log2) / m, -(300 + m.log2 : Nat) - e) 2 2 op key) := by
  obtain ⟨hlow, hhigh⟩ := recip_floor hm (300 + m.log2) e
  obtain ⟨hleast64, hleast32⟩ := hleast
  have hlog := log2_recip hm 299
  have hmb := evalFmt_mb_le fm
  have hne : 2 ^ (300 + m.log2) / m ≠ 0 := by
    intro hzero
    rw [show 299 + 1 + m.log2 = 300 + m.log2 from rfl, hzero, Nat.log2_zero] at hlog
    omega
  have hfine : -((300 + m.log2 : Nat) : Int) - e ≤ (evalFmt fm).half (2 ^ (300 + m.log2) / m, -((300 + m.log2 : Nat) : Int) - e) :=
    le_half_of_log2 (le_trans (by omega) hlog)
  rw [← abs_ratOf n m e, ← abs_inv] at hlow hhigh
  refine inexactAt_of_approx hfloat (approx_of_floor hne (inv_ratOf n m e) hlow hhigh hfine) (by decide) le_rfl ?_ ?_ nofun
  · intro hnot
    have := hleast32 hnot
    show -((300 + m.log2 : Nat) : Int) - e ≤ -150
    omega
  · show -((300 + m.log2 : Nat) : Int) - e ≤ 970
    omega

theorem spRcp_fin (hfloat : fm.isFloat = true) (hx : unpack (fpOf fm) x = .fin n m e) :
    (m = 0 → spRcp fm x = ((fpOf fm).signed n (fpOf fm).inf, fDZ)) ∧
    (m ≠ 0 → (fpOf fm).overLimit ≤ |(ratOf n m e)⁻¹| → spRcp fm x = ((fpOf fm).signed n (fpOf fm).inf, fOF)) ∧
    (m ≠ 0 → |(ratOf n m e)⁻¹| < (fpOf fm).overLimit →
      (∀ z : Int, |ratOf n m e| = 2 ^ z → Stands (fpOf fm) (spRcp fm x).1 (ratOf n m e)⁻¹ ∧ (spRcp fm x).2 = fNone) ∧
      ((∀ z : Int, |ratOf n m e| ≠ 2 ^ z) → InexactAt fm 2 2 (ratOf n m e)⁻¹ (spRcp fm x))) := by
  have hk := wide_fpOf fm
  simp only [spRcp, hx]
  refine ⟨fun hm => if_pos hm, fun hm hover => ?overflow, fun hm hfin => ⟨fun z heq => ?power, fun hnot => ?other⟩⟩
  case overflow => rw [if_neg hm, if_pos ((recip_overflow_iff hk hm n).2 hover)]
  all_goals
    have hflags := fun h => not_le.2 hfin ((recip_overflow_iff (neg := n) (e := e) hk hm n).1 h)
    obtain ⟨-, -, htop⟩ := fpOf_bounds hx hm
  case power =>
    obtain ⟨hm2, -⟩ := (abs_eq_two_pow_iff hm z).1 heq
    rw [if_neg hm, if_neg hflags, if_pos hm2]
    generalize m.log2 = L at *
    subst hm2
    exact ⟨stands_recip_two_pow hk htop hfin, rfl⟩
  case other =>
    rw [if_neg hm, if_neg hflags, if_neg fun hm2 => hnot _ ((abs_eq_two_pow_iff hm _).2 ⟨hm2, rfl⟩)]
    exact inexactAt_recip hfloat hm (least_exponent hx hm)

theorem isqrtAux_sq_le {a : Nat} : ∀ {j r : Nat}, r * r ≤ a → isqrtAux a j r * isqrtAux a j r ≤ a
  | 0, r, hr => by
    rw [isqrtAux]
    split <;> assumption
  | j + 1, r, hr => by
    rw [isqrtAux]
    refine isqrtAux_sq_le ?_
    split <;> assumption

theorem isqrtAux_pos {a : Nat} (ha : 1 ≤ a) : ∀ {j r : Nat}, 0 < isqrtAux a j r
  | 0, r => by
    rw [isqrtAux]
    rcases Nat.eq_zero_or_pos r with rfl | hr
    · rw [if_pos (by omega)]
      exact one_pos
    · split <;> omega
  | j + 1, r => by
    rw [isqrtAux]
    exact isqrtAux_pos ha

/-- A floor of a reciprocal root is no zero: the root that it divides by lies between 1 and `P`. -/
theorem div_isqrt_ne_zero {P : Nat} (hm : m ≠ 0) (hlt : m < P) : P / isqrt (m * P) ≠ 0 := by
  have hsq : isqrt (m * P) * isqrt (m * P) ≤ P * P := (isqrtAux_sq_le (Nat.zero_le _)).trans (Nat.mul_le_mul_right P hlt.le)
  have hle : isqrt (m * P) ≤ P := Nat.mul_self_le_mul_self_iff.1 hsq
  exact (Nat.div_pos hle (isqrtAux_pos (Nat.mul_pos (Nat.pos_of_ne_zero hm) (Nat.zero_lt_of_lt hlt)))).ne'

theorem rsqExact_snd (m : Nat) (e : Int) : (rsqExact m e).2 = -300 - e / 2 := by
  rw [rsqExact]
  split
  next hsplit =>
    split at hsplit
    · obtain ⟨-, rfl⟩ := Prod.mk.inj hsplit
      rfl
    · obtain ⟨-, rfl⟩ := Prod.mk.inj hsplit
      show -300 - (e - 1) / 2 = -300 - e / 2
      omega

theorem rsqExact_fst_ne_zero (hm : m ≠ 0) (hlog : m.log2 < 599) (e : Int) : (rsqExact m e).1 ≠ 0 := by
  rw [rsqExact]
  split
  next hsplit =>
    split at hsplit
    · obtain ⟨rfl, -⟩ := Prod.mk.inj hsplit
      exact div_isqrt_ne_zero hm ((Nat.log2_lt hm).1 (hlog.trans (by decide)))
    · obtain ⟨rfl, -⟩ := Prod.mk.inj hsplit
      have hdouble : 2 * m ≠ 0 := by omega
      exact div_isqrt_ne_zero hdouble ((Nat.log2_lt hdouble).1 (by rw [Nat.log2_two_mul hm]; omega))

theorem four_zpow (z : Int) : (4 : ℚ) ^ z = 2 ^ (2 * z) := by
  rw [zpow_mul]
  norm_num

theorem spRsq_fin (hfloat : fm.isFloat = true) (hx : unpack (fpOf fm) x = .fin n m e) :
    (m = 0 → spRsq fm x = ((fpOf fm).signed n (fpOf fm).inf, fDZ)) ∧
    (ratOf n m e < 0 → spRsq fm x = ((fpOf fm).nan, fNV)) ∧
    (∀ z : Int, ratOf n m e = 4 ^ z → Stands (fpOf fm) (spRsq fm x).1 (2 ^ (-z)) ∧ (spRsq fm x).2 = fNone) ∧
    (0 < ratOf n m e → (∀ z : Int, ratOf n m e ≠ 4 ^ z) →
      InexactAt fm 2 2 (ratOf false (rsqExact m e).1 (rsqExact m e).2) (spRsq fm x)) := by
  have hk := wide_fpOf fm
  simp only [spRsq, hx]
  refine ⟨fun hm => if_pos hm, fun hneg => ?negative, fun z heq => ?power, fun hpos hnot => ?other⟩
  case negative =>
    have hm := significand_ne_zero hneg.ne
    rw [if_neg hm, if_pos ((ratOf_neg_iff hm).1 hneg)]
  case power =>
    have hm : m ≠ 0 := significand_ne_zero (by rw [heq]; positivity)
    rw [four_zpow] at heq
    obtain ⟨rfl, hm2, hz⟩ := (eq_two_pow_of_pos hm).1 heq
    obtain ⟨-, hlow, hhigh⟩ := fpOf_bounds hx hm
    have hfmt : (fpOf fm).mb ≤ (fpOf fm).bias + 1 := by cases fm <;> decide
    have hmin : (fpOf fm).emin = 1 - (fpOf fm).bias := rfl
    have hbias := bias_pos hk
    rw [if_neg hm, if_neg (by decide), if_pos (by simp only [Bool.and_eq_true, decide_eq_true_eq]; exact ⟨hm2, by omega⟩),
      show -(e + (m.log2 : Int)) / 2 = -z by omega]
    exact ⟨stands_two_pow hk (by omega) (by omega), rfl⟩
  case other =>
    have hm := significand_ne_zero hpos.ne'
    have hn : n = false := Bool.eq_false_iff.2 fun h => hpos.not_gt ((ratOf_neg_iff hm).2 h)
    have hroot : ¬ (decide (m = 2 ^ m.log2) && decide ((e + m.log2) % 2 = 0)) = true := by
      rw [Bool.and_eq_true, decide_eq_true_eq, decide_eq_true_eq]
      rintro ⟨hm2, heven⟩
      refine hnot ((e + m.log2) / 2) ?_
      rw [four_zpow]
      exact (eq_two_pow_of_pos hm).2 ⟨hn, hm2, by omega⟩
    obtain ⟨hlog, -, -⟩ := fpOf_bounds hx hm
    obtain ⟨hleast64, hleast32⟩ := least_exponent hx hm
    have hmb : (fpOf fm).mb ≤ 52 := by cases fm <;> decide
    have hexp := rsqExact_snd m e
    rw [if_neg hm, if_neg (by simp [hn]), if_neg hroot]
    refine inexactAt_of_approx hfloat (approx_ratOf (.inl (rsqExact_fst_ne_zero hm (by omega) e))) (by decide) le_rfl ?_ ?_ nofun
    · intro hnot64
      have := hleast32 hnot64
      omega
    · omega

/-! ### FSIN1 and FCOS1 -/

theorem halves_eq_some {N : Nat} (h : halves m e = some N) : 2 * ((m : ℚ) * 2 ^ e) = N := by
  rw [halves] at h
  split_ifs at h with hint hdvd
  · obtain rfl := Option.some.inj h
    have hpow : (2 : ℚ) ^ (e + 1) = 2 ^ (e + 1).toNat := by
      rw [← zpow_natCast, Int.toNat_of_nonneg (by omega)]
    push_cast
    rw [← hpow, zpow_add_one₀ two_ne_zero]
    ring
  · obtain rfl := Option.some.inj h
    obtain ⟨c, hc⟩ := Nat.dvd_of_mod_eq_zero hdvd
    have hexp : (2 : ℚ) ^ (-(e + 1)).toNat * (2 * 2 ^ e) = 1 := by
      rw [← zpow_natCast, Int.toNat_of_nonneg (by omega), ← zpow_one_add₀ two_ne_zero, ← zpow_add₀ two_ne_zero,
        show -(e + 1) + (1 + e) = 0 by ring, zpow_zero]
    generalize (-(e + 1)).toNat = j at *
    rw [hc, Nat.mul_div_cancel_left _ (Nat.two_pow_pos j)]
    push_cast
    linear_combination (c : ℚ) * hexp

theorem halves_eq_none (h : halves m e = none) (N : Nat) : 2 * ((m : ℚ) * 2 ^ e) ≠ N := by
  rw [halves] at h
  split_ifs at h with hint hdvd
  intro heq
  refine hdvd (Nat.mod_eq_zero_of_dvd ⟨N, ?_⟩)
  have hexp : (2 : ℚ) ^ (-(e + 1)).toNat * (2 * 2 ^ e) = 1 := by
    rw [← zpow_natCast, Int.toNat_of_nonneg (by omega), ← zpow_one_add₀ two_ne_zero, ← zpow_add₀ two_ne_zero,
      show -(e + 1) + (1 + e) = 0 by ring, zpow_zero]
  have hvalue : (m : ℚ) = 2 ^ (-(e + 1)).toNat * N := by
    rw [← heq]
    linear_combination (-(m : ℚ)) * hexp
  exact_mod_cast hvalue

/-- An operand that is an integer or a half has its double found. -/
theorem halves_of_int {z : Int} (heq : 2 * ratOf n m e = z) : ∃ N : Nat, halves m e = some N ∧ z = if n then -(N : Int) else N := by
  have habs : 2 * ((m : ℚ) * 2 ^ e) = z.natAbs := by
    rw [← abs_ratOf n m e, Nat.cast_natAbs, Int.cast_abs, ← heq, abs_mul, abs_two]
  cases hhalves : halves m e with
  | none => exact absurd habs (halves_eq_none hhalves _)
  | some N =>
    refine ⟨N, rfl, ?_⟩
    have hN := halves_eq_some hhalves
    rw [ratOf_eq, mul_left_comm, hN] at heq
    cases n
    · exact_mod_cast (by simpa [signOf] using heq.symm : (z : ℚ) = N)
    · exact_mod_cast (by simpa [signOf] using heq.symm : (z : ℚ) = -N)

theorem halves_of_not_int (hnot : ∀ z : Int, 2 * ratOf n m e ≠ z) : halves m e = none := by
  cases hhalves : halves m e with
  | none => rfl
  | some N =>
    have hN := halves_eq_some hhalves
    refine absurd ?_ (hnot (if n then -(N : Int) else N))
    rw [ratOf_eq, mul_left_comm, hN]
    cases n <;> simp [signOf]

theorem sinExact_small (m : Nat) (e : Int) : (sinExact m e).2.2 ≤ -150 := by
  rw [sinExact]
  split
  next htiny =>
    have hlow : e + m.log2 < -80 := of_decide_eq_true htiny
    show e - 512 ≤ -150
    omega
  next => exact (by decide : (-512 : Int) ≤ -150)

theorem cosExact_small (m : Nat) (e : Int) : (cosExact m e).2.2 ≤ -150 := by
  rw [cosExact]
  split
  next => exact le_rfl
  next => exact sinExact_small _ _

theorem spSin_fin (hfloat : fm.isFloat = true) (hx : unpack (fpOf fm) x = .fin n m e) :
    (∀ z : Int, ratOf n m e = z → spSin fm x = ((fpOf fm).signed n 0, fNone)) ∧
    (∀ z : Int, ratOf n m e = z + 1 / 2 → spSin fm x = ((fpOf fm).signed (z % 2 = 1) (oneOf (fpOf fm)), fNone)) ∧
    ((∀ z : Int, 2 * ratOf n m e ≠ z) →
      InexactAt fm 2 4 (ratOf (n != (sinExact m e).1) (sinExact m e).2.1 (sinExact m e).2.2) (spSin fm x)) := by
  simp only [spSin, hx]
  refine ⟨fun z heq => ?whole, fun z heq => ?half, fun hnot => ?other⟩
  case whole =>
    obtain ⟨N, hN, hz⟩ := halves_of_int (z := 2 * z) (by rw [heq]; push_cast; rfl)
    rw [hN]
    exact if_pos (by split at hz <;> omega)
  case half =>
    obtain ⟨N, hN, hz⟩ := halves_of_int (z := 2 * z + 1) (by rw [heq]; push_cast; ring)
    have hsign : (n != decide (N % 4 = 3)) = decide (z % 2 = 1) := by
      cases n
      · rw [Bool.false_bne, decide_eq_decide]
        simp only [Bool.false_eq_true, if_false] at hz
        omega
      · rw [Bool.true_bne, ← decide_not, decide_eq_decide]
        simp only [if_true] at hz
        omega
    rw [hN]
    simp only
    rw [if_neg (by split at hz <;> omega), hsign]
  case other =>
    rw [halves_of_not_int hnot]
    exact inexactAt_model hfloat (by decide) (by decide) (sinExact_small m e) nofun

theorem spCos_fin (hfloat : fm.isFloat = true) (hx : unpack (fpOf fm) x = .fin n m e) :
    (∀ z : Int, ratOf n m e = z → spCos fm x = ((fpOf fm).signed (z % 2 = 1) (oneOf (fpOf fm)), fNone)) ∧
    (∀ z : Int, ratOf n m e = z + 1 / 2 → spCos fm x = (0, fNone)) ∧
    ((∀ z : Int, 2 * ratOf n m e ≠ z) →
      InexactAt fm 2 4 (ratOf (cosExact m e).1 (cosExact m e).2.1 (cosExact m e).2.2) (spCos fm x)) := by
  simp only [spCos, hx]
  refine ⟨fun z heq => ?whole, fun z heq => ?half, fun hnot => ?other⟩
  case whole =>
    obtain ⟨N, hN, hz⟩ := halves_of_int (z := 2 * z) (by rw [heq]; push_cast; rfl)
    have hsign : decide (N % 4 = 2) = decide (z % 2 = 1) := decide_eq_decide.2 (by split at hz <;> omega)
    rw [hN]
    simp only
    rw [if_neg (by split at hz <;> omega), hsign]
  case half =>
    obtain ⟨N, hN, hz⟩ := halves_of_int (z := 2 * z + 1) (by rw [heq]; push_cast; ring)
    rw [hN]
    exact if_pos (by split at hz <;> omega)
  case other =>
    rw [halves_of_not_int hnot]
    exact inexactAt_model hfloat (by decide) (by decide) (cosExact_small m e) nofun

/-! ### FTANH, FSIGM and FERF -/

theorem lead_midpoint_le (k : FpFmt) (y : Exact) : k.lead (2 * y.1 + 1) (y.2 - 1) ≤ k.lead y.1 y.2 := by
  have hlog : (2 * y.1 + 1).log2 ≤ y.1.log2 + 1 := by
    by_cases hy : y.1 = 0
    · rw [hy]
      decide
    · exact (log2_two_mul_add_one hy).le
  rw [FpFmt.lead, FpFmt.lead]
  exact max_le_max_right _ (by omega)

/-- A value of F64 that is an end of FTANH or FERF is no smaller than about 1. -/
theorem lead_of_endOne {X : Nat} {E : Int} (hX : X ≠ 0) (hend : endOne (fpOf .f64) (roundFp (fpOf .f64) .rne n X E).1 = true) :
    -1 ≤ (fpOf .f64).lead X E := by
  have hone : oneOf (fpOf .f64) = 1023 * 2 ^ 52 := by decide
  have hinf : (fpOf .f64).inf = 2047 * 2 ^ 52 := by decide
  have hmin : (fpOf .f64).emin = -1022 := by decide
  have hsign := FpFmt.inf_lt_sign (fpOf .f64)
  have hmod {v : Nat} (hv : v ≤ (fpOf .f64).inf) : (fpOf .f64).signed n v % (fpOf .f64).sign = v := by
    rw [FpFmt.signed]
    split
    · rw [Nat.add_mod_left, Nat.mod_eq_of_lt (by omega)]
    · exact Nat.mod_eq_of_lt (by omega)
  have hvalue : (roundFp (fpOf .f64) .rne n X E).1 % (fpOf .f64).sign = 1023 * 2 ^ 52 := by
    rw [← hone]
    exact eq_of_beq hend
  rcases le_or_gt (fpOf .f64).inf ((fpOf .f64).code n X E) with hover | hfin
  · rw [roundFp_overflow hX hover, hmod le_rfl, hinf] at hvalue
    omega
  · obtain ⟨tiny, hr⟩ := roundFp_finite hX hfin
    have hkept : ((fpOf .f64).kept n X E).1 ≤ 2 ^ 53 := kept_le (fpOf .f64) n X E
    rw [hr, hmod hfin.le, FpFmt.code, show (fpOf .f64).mb = 52 from rfl] at hvalue
    omega

theorem half_of_endOne {y : Exact} (hsmall : y.2 ≤ -150)
    (hend : endOne (fpOf .f64) (roundFp (fpOf .f64) .rne n (2 * y.1 + 1) (y.2 - 1)).1 = true) : y.2 ≤ (fpOf .f64).half y := by
  have hlead := (lead_of_endOne (by omega) hend).trans (lead_midpoint_le _ y)
  rw [FpFmt.half, show (fpOf .f64).mb = 52 from rfl]
  omega

theorem tanhExact_small (m : Nat) (e : Int) : (tanhExact m e).2 ≤ -150 := by
  rw [tanhExact]
  split_ifs with htiny htop
  · have hlow : e + m.log2 < -80 := of_decide_eq_true htiny
    show e - 150 ≤ -150
    omega
  · exact le_rfl
  · exact (by decide : (-512 : Int) ≤ -150)

theorem erfExact_small (m : Nat) (e : Int) : (erfExact m e).2 ≤ -150 := by
  rw [erfExact]
  split_ifs with htiny htop
  · have hlow : e + m.log2 < -80 := of_decide_eq_true htiny
    show e - 200 ≤ -150
    omega
  · exact le_rfl
  · exact (by decide : (-512 : Int) ≤ -150)

theorem spTanh_fin (hfloat : fm.isFloat = true) (hx : unpack (fpOf fm) x = .fin n m e) : (m = 0 → spTanh fm x = (x, fNone)) ∧
    (m ≠ 0 → InexactAt fm 4 4 (ratOf n (tanhExact m e).1 (tanhExact m e).2) (spTanh fm x)) := by
  simp only [spTanh, hx]
  refine ⟨fun hm => if_pos hm, fun hm => ?_⟩
  rw [if_neg hm]
  exact inexactAt_model hfloat (by decide) (by decide) (tanhExact_small m e) (half_of_endOne (tanhExact_small m e))

theorem spErf_fin (hfloat : fm.isFloat = true) (hx : unpack (fpOf fm) x = .fin n m e) : (m = 0 → spErf fm x = (x, fNone)) ∧
    (m ≠ 0 → InexactAt fm 4 4 (ratOf n (erfExact m e).1 (erfExact m e).2) (spErf fm x)) := by
  simp only [spErf, hx]
  refine ⟨fun hm => if_pos hm, fun hm => ?_⟩
  rw [if_neg hm]
  exact inexactAt_model hfloat (by decide) (by decide) (erfExact_small m e) (half_of_endOne (erfExact_small m e))

theorem half_of_low {y : Exact} (hlow : y.2 ≤ -1075) : y.2 ≤ (fpOf .f64).half y := by
  have hmin : -1022 ≤ (fpOf .f64).lead y.1 y.2 := emin_le_lead (fpOf .f64) y.1 y.2
  rw [FpFmt.half, show (fpOf .f64).mb = 52 from rfl]
  omega

theorem half_of_wide {y : Exact} (hwide : 2 ^ 53 ≤ y.1) : y.2 ≤ (fpOf .f64).half y :=
  le_half_of_log2 ((Nat.le_log2 (by omega)).2 hwide)

/-- FSIGM's working value is known far below half an ulp of F64 wherever it lies. -/
theorem sigmExact_fine (n : Bool) (m : Nat) (e : Int) : (sigmExact n m e).2 ≤ -150 ∧ (sigmExact n m e).2 ≤ (fpOf .f64).half (sigmExact n m e) := by
  rw [sigmExact]
  split_ifs with htiny hneg htop hlow
  · exact ⟨by decide, half_of_wide (by norm_num)⟩
  · exact ⟨by decide, half_of_wide (by norm_num)⟩
  · exact ⟨le_rfl, half_of_wide (by norm_num [belowOne])⟩
  · exact ⟨by decide, half_of_low (by decide)⟩
  all_goals exact ⟨(by decide : (-2048 : Int) ≤ -150), half_of_low (by decide : (-2048 : Int) ≤ -1075)⟩

theorem spSigm_fin (hfloat : fm.isFloat = true) (hx : unpack (fpOf fm) x = .fin n m e) : (m = 0 → Stands (fpOf fm) (spSigm fm x).1 (1 / 2) ∧ (spSigm fm x).2 = fNone) ∧
    (m ≠ 0 → InexactAt fm 4 4 (ratOf false (sigmExact n m e).1 (sigmExact n m e).2) (spSigm fm x)) := by
  have hk := wide_fpOf fm
  have hbias := bias_pos hk
  have hmb := hk.mb
  simp only [spSigm, hx]
  refine ⟨fun hm => ?_, fun hm => ?_⟩
  · rw [if_pos hm]
    exact ⟨by simpa using stands_two_pow (e := -1) hk (by rw [FpFmt.emin]; omega) (by omega), rfl⟩
  · rw [if_neg hm]
    obtain ⟨hsmall, hfine⟩ := sigmExact_fine n m e
    exact inexactAt_model hfloat (by decide) (by decide) hsmall fun _ => hfine

/-- Settles O28 (log 7, DESIGN CHOICE: the exact results of the other functions are the model's): every word is its function element
by element. Where R296 has a row, the function's own branch gives it; else the value picked lies within R293's bound of the exact
result (`Approx.within_pickValue`), which the model knows far below half an ulp. -/
theorem specialFunctions : Obligations.SpecialFunctions := by
  unfold Obligations.SpecialFunctions
  rintro s f fm a _ one _ hfloat r rfl hone rfl
  obtain rfl : one = fun n => ((fpOf fm).signed n (oneOf (fpOf fm)), fNone) := funext hone
  refine ⟨stands_oneOf (wide_fpOf fm), ?exp2, ?log2, ?rcp, ?rsq, ?sin, ?cos, ?tanh, ?sigm, ?erf⟩
  case exp2 =>
    exact givesSpecial_each1 rfl r hfloat (fun x b h => by simp only [spExp2, h]) (fun x n h => by simp only [spExp2, h])
      fun x n m e h => spExp2_fin hfloat h
  case log2 =>
    exact givesSpecial_each1 rfl r hfloat (fun x b h => by simp only [spLog2, h]) (fun x n h => by simp only [spLog2, h])
      fun x n m e h => spLog2_fin hfloat h
  case rcp =>
    exact givesSpecial_each1 rfl r hfloat (fun x b h => by simp only [spRcp, h]) (fun x n h => by simp only [spRcp, h])
      fun x n m e h => spRcp_fin hfloat h
  case rsq =>
    exact givesSpecial_each1 rfl r hfloat (fun x b h => by simp only [spRsq, h]) (fun x n h => by simp only [spRsq, h])
      fun x n m e h => spRsq_fin hfloat h
  case sin =>
    exact givesSpecial_each1 rfl r hfloat (fun x b h => by simp only [spSin, h]) (fun x n h => by simp only [spSin, h])
      fun x n m e h => spSin_fin hfloat h
  case cos =>
    exact givesSpecial_each1 rfl r hfloat (fun x b h => by simp only [spCos, h]) (fun x n h => by simp only [spCos, h])
      fun x n m e h => spCos_fin hfloat h
  case tanh =>
    exact givesSpecial_each1 rfl r hfloat (fun x b h => by simp only [spTanh, h]) (fun x n h => by simp only [spTanh, h])
      fun x n m e h => spTanh_fin hfloat h
  case sigm =>
    exact givesSpecial_each1 rfl r hfloat (fun x b h => by simp only [spSigm, h]) (fun x n h => by simp only [spSigm, h]; cases n <;> rfl)
      fun x n m e h => spSigm_fin hfloat h
  case erf =>
    exact givesSpecial_each1 rfl r hfloat (fun x b h => by simp only [spErf, h]) (fun x n h => by simp only [spErf, h])
      fun x n m e h => spErf_fin hfloat h

end Sys2Proof.Machine
end
